-- ==== Sys2Proof/Word.lean ====
section
/-! DEFINITION. The plain words of the device and the sparse-array type the state uses. -/

namespace Sys2Proof

/-- One byte. -/
abbrev Byte := BitVec 8

/-- One 32-bit register word (R6). -/
abbrev Word := BitVec 32

/-- A sparse array: key and value pairs, keys strictly rising, no value equal to the array's default.
The functions on it stand in Machine/Store.lean. -/
abbrev AMap (α : Type) := List (Nat × α)

end Sys2Proof
end

