-- ==== Sys2Proof/Syntax.lean ====
section
/-! DEFINITION. The commands of the block: one constructor per row of spec/opcode_table.json, with its operands. Unit numbers are typed (a grid tile is its tile ID 32 r + c of R242; an edge tile is 32 side + index with N 0, E 1, S 2, W 3). -/

namespace Sys2Proof

/-- Token markers, in rank order (R19, R22). -/
inductive Marker where
  | none | stepEnd | sectionEnd | taskEnd
deriving DecidableEq, Repr

/-- A token (R19, Table TRL-3). -/
structure Token where
  payload : BitVec 128 := 0
  par : BitVec 16 := 0
  bub : Bool := false
  mark : Marker := .none
  ctx : BitVec 2 := 0
  bseq : BitVec 4 := 0
deriving DecidableEq, Repr

/-- A register agent (R437). The host carries its PCI Express Requester ID. -/
inductive Agent where
  | host (rid : BitVec 16)
  | mp (core : Fin 4)
  | dbg
deriving DecidableEq, Repr

/-- What a register access addresses: BAR0 or firmware's local view of it (R432), BAR4 (Table HST-2), the configuration header, the
Message Control word of the MSI-X capability, the Device Control word of the PCI Express capability (Table HST-1). -/
inductive RegSpace where
  | bar0 | bar4 | config | msixControl | deviceControl
deriving DecidableEq, Repr

/-- One register access (R434): offset, length in doublewords, first byte enables, write data; a write TLP may carry EP (R342). -/
structure RegAccess where
  agent : Agent
  offset : Nat
  ndw : Nat
  be : BitVec 4
  data : Word
  space : RegSpace := .bar0
  poisoned : Bool := false
deriving DecidableEq, Repr

/-- A slot that offers its head token (R27, R28). -/
inductive Place where
  | op (t : Fin 1024) (k : Fin 4)
  | latch (t : Fin 1024) (x : Fin 8)
  | edgeIn (e : Fin 128)
deriving DecidableEq, Repr

/-- A slot that captures a token. -/
inductive Dest where
  | ip (t : Fin 1024) (k : Fin 4)
  | latch (t : Fin 1024) (x : Fin 8)
  | edgeOut (e : Fin 128)
deriving DecidableEq, Repr

/-- One slot transfer (R27, R28, R34): out of a core's pipeline into its output buffer, from one slot to one
of its destinations, from a block into an inward edge path, or from an outward edge path into its block. -/
inductive Move where
  | emit (t : Fin 1024) (k : Fin 4)
  | capture (src : Place) (dst : Dest)
  | inward (e : Fin 128)
  | outward (e : Fin 128)
deriving DecidableEq, Repr

/-- What a device read of host memory brings back (R339, R342). -/
inductive HostRead where
  | ok (bytes : List Byte)
  | failed
deriving DecidableEq, Repr

/-- The commit groups (R9): PACE R66, NCE R230, SE R288, capture ring R297, sensor port R313,
interrupt target R354, PWR R406. -/
inductive CommitGroup where
  | pace | nce | se
  | ring (k : Fin 16)
  | sp (k : Fin 8)
  | tgt (t : Fin 68)
  | pwr
deriving DecidableEq, Repr

/-- What switches at a changeover front (R262, R263). -/
inductive Switcher where
  | grid (t : Fin 1024) | edge (e : Fin 128) | nce | pp
deriving DecidableEq, Repr

/-- The header every link frame carries (R360): CRC outcome, SEQ, ACK and the credit return. -/
structure FrameHdr where
  crcGood : Bool
  seq : BitVec 16
  ack : BitVec 16
  cretVc : Fin 8
  cret : BitVec 12
  step : BitVec 32
deriving DecidableEq, Repr

/-- What a SYNC frame says of its sender's step (R373), and whether the sender runs a task, which no field of the frame says (DESIGN
CHOICE, log entry 84). -/
structure PeerStep where
  step : BitVec 48
  runs : Bool
deriving DecidableEq, Repr

/-- The hello record (R369, Table LNK-4), its round-trip probe apart. -/
structure HelloRec where
  part : BitVec 32 := 0x8820
  stepping : BitVec 8 := 0
  adr : BitVec 8 := 0
  pos : BitVec 16 := 0
  fwver : BitVec 32 := 0
  hash : BitVec 128 := 0
  secmap : List Byte := []
  epoch : BitVec 64 := 0
  plc : BitVec 8 := 0
  port : BitVec 8 := 0
  resv : BitVec 16 := 0
deriving DecidableEq, Repr

/-- Why a link fails (R363). -/
inductive LinkCause where
  | replayLimit | silence | laneLock | fec
deriving DecidableEq, Repr

/-- How a unit of LPDDR6 reads back (R277, R291). -/
inductive UnitHealth where
  | good | corrected | uncorrectable
deriving DecidableEq, Repr

/-- What the loader's read of an image brings back (R237): the bytes, and the worst unit it meets in LPDDR6 with its byte address (R291). -/
structure ImageRead where
  data : HostRead
  health : UnitHealth := .good
  addr : Nat := 0
deriving DecidableEq, Repr

/-- The fastest read and the addressing that the flash's SFDP tables declare (R420): 1-1-4 in place of 1-1-1, 4-byte addresses. -/
structure Sfdp where
  quad : Bool
  addr4 : Bool
deriving DecidableEq, Repr

/-- What the boot ROM finds in the flash (R420, R421): whether it answers, its SFDP tables where they are valid, whether the directory
can be read, and its bytes from offset 0. -/
structure FlashView where
  answering : Bool
  sfdp : Option Sfdp
  dirOk : Bool
  bytes : List Byte
deriving DecidableEq, Repr

/-- What LPDDR6 training finds (R289, R294): PKGSZ code, ranks, and the channels that work. -/
structure Training where
  pkgsz : BitVec 4
  ranks : BitVec 2
  chok : BitVec 8
deriving DecidableEq, Repr

/-- Triggers of a FUNC reset (Table SEC-1). -/
inductive FuncCause where
  | flr | hotReset | perst | d3hot
deriving DecidableEq, Repr

/-- Triggers of a SYS reset (Table SEC-1). -/
inductive SysCause where
  | pin | soft | watchdog | dbg
deriving DecidableEq, Repr

/-- The rails as PORST_N rises (Table PIN-4): every rail of the main and of the memory-and-host phase in range; the optional VDD_LNK
present. -/
structure RailView where
  needed : Bool
  lnk : Bool
deriving DecidableEq, Repr

/-- The causes of a POR reset (20, R416), with the rails as PORST_N then rises. -/
inductive PorCause where
  | power (rails : RailView)
  | pin (rails : RailView)
deriving DecidableEq, Repr

/-- The monitored rails of R449. -/
inductive Rail where
  | vdig | vpll | vddioSys | vddq | vddMphy | vddPcie
deriving DecidableEq, Repr

/-- The commands, in the order of spec/opcode_table.json. -/
inductive Instr where
  | slotTransfer (m : Move)
  | nop (t : Fin 1024)
  | mac (t : Fin 1024)
  | seed (t : Fin 1024)
  | drain (t : Fin 1024)
  | ldc (t : Fin 1024)
  | lds (t : Fin 1024)
  | kctl (t : Fin 1024)
  | rot (t : Fin 1024)
  | kvq (t : Fin 1024)
  | dsc (t : Fin 1024)
  | deq (t : Fin 1024)
  | sco (t : Fin 1024)
  | qnt (t : Fin 1024)
  | tag (t : Fin 1024)
  | hardPush (t : Fin 1024) (ip : Fin 4)
  | hardPop (t : Fin 1024) (op : Fin 4)
  | bankDeferredAccess (t : Fin 1024)
  | push (t : Fin 1024)
  | pop (t : Fin 1024)
  | run (t : Fin 1024)
  | mark (t : Fin 1024)
  | unmark (t : Fin 1024)
  | rewind (t : Fin 1024)
  | skip (t : Fin 1024)
  | release (t : Fin 1024)
  | qcnt (t : Fin 1024)
  | ldg (t : Fin 1024)
  | funIdn (t : Fin 1024)
  | funExp (t : Fin 1024)
  | funRcp (t : Fin 1024)
  | funRsq (t : Fin 1024)
  | funSig (t : Fin 1024)
  | funTanh (t : Fin 1024)
  | funGelu (t : Fin 1024)
  | binAdd (t : Fin 1024)
  | binSub (t : Fin 1024)
  | binMul (t : Fin 1024)
  | binMax (t : Fin 1024)
  | binMin (t : Fin 1024)
  | binCgt (t : Fin 1024)
  | binCge (t : Fin 1024)
  | binCeq (t : Fin 1024)
  | vecSmax (t : Fin 1024)
  | vecLnrm (t : Fin 1024)
  | vecArgmax (t : Fin 1024)
  | vecStat (t : Fin 1024)
  | wacc (t : Fin 1024)
  | poolMax (t : Fin 1024)
  | poolAverage (t : Fin 1024)
  | bil (t : Fin 1024)
  | gate (t : Fin 1024)
  | bubg (t : Fin 1024)
  | switch (t : Fin 1024)
  | select (t : Fin 1024)
  | cmp (t : Fin 1024)
  | setf (t : Fin 1024)
  | loop (t : Fin 1024)
  | br (t : Fin 1024)
  | bedReport (b : Fin 256)
  | stepRelease
  | holdEntry (src : Fin 7)
  | holdExit (src : Fin 7)
  | holdLimitExceeded
  | stallFault
  | abortReset
  | abortCleared
  | deviceTimeIncrement (n : Nat)
  | tileSwitch (x : Switcher)
  | frontComplete
  | frontLimitExceeded
  | releaseStage
  | releaseStageTimeout
  | commitWrite (g : CommitGroup) (a : Agent)
  | commitApply (g : CommitGroup)
  | registerWrite (acc : RegAccess)
  | loReadLatch (acc : RegAccess)
  | paceClrstat
  | swholdWrite (req : Bool)
  | nceLineIntake
  | cropRequest
  | cropResample (k : Fin 8)
  | ffdataAccess (a : Agent) (wr : Option Word)
  | nceClrstat
  | ppStep
  | recordWrite
  | ppClrstat
  | commandFetch (r : HostRead)
  | nopCommand
  | imgLoad (r : ImageRead)
  | taskStart
  | resume
  | rake
  | abort
  | plcSwitch
  | epoch
  | epochFollowTimeout
  | attest
  | doorbell (ring : Fin 26) (v : Word)
  | ringEnable (ring : Fin 26) (szl : BitVec 5)
  | ringDisable (ring : Fin 26)
  | hqClrstat
  | windowBaseWrite (g : BitVec 6)
  | writeBack
  | eventRecordWrite
  | hostStreamFetch (c : Fin 8) (r : HostRead)
  | hostStreamWrite (c : Fin 8)
  | bar2Read (off : Nat) (len : Nat) (health : UnitHealth) (rid : BitVec 16)
  | bar2Write (off : Nat) (bytes : List Byte) (poisoned : Bool) (rid : BitVec 16)
  | funcReset (c : FuncCause)
  | linkDown
  | busMasterEnableCleared
  | sourceLineChange (s : Fin 128) (level : Bool)
  | interruptSend (t : Fin 68)
  | pendWrite (k : Fin 4) (v : Word)
  | maskWrite (mpSide : Bool) (k : Fin 4) (v : Word)
  | senseChange (s : Fin 128) (sense : BitVec 2)
  | take (a : Agent) (s : Fin 128)
  | eoi (a : Agent) (t : Fin 68) (v : Bool)
  | mailboxTxWrite (a : Agent) (m : Fin 8) (w : Word)
  | mailboxPop (a : Agent) (m : Fin 8) (n : BitVec 5)
  | peerWrite (m : Fin 8) (v : BitVec 16)
  | messageForward (m : Fin 8)
  | ping (m : Fin 8) (core : Fin 4)
  | version (m : Fin 8) (core : Fin 4)
  | faultlog (m : Fin 8) (core : Fin 4)
  | dump (m : Fin 8) (core : Fin 4)
  | pacehint (m : Fin 8) (core : Fin 4)
  | plcsw (m : Fin 8) (core : Fin 4)
  | heartbeat (m : Fin 8) (core : Fin 4)
  | takeover (m : Fin 8) (core : Fin 4)
  | dbgchalChallenge (m : Fin 8) (core : Fin 4)
  | dbgchalResponse (m : Fin 8) (core : Fin 4)
  | tokenFrameSend (p : Fin 4) (vc : Fin 8)
  | tokenFrame (p : Fin 4) (h : FrameHdr) (vc : Fin 8) (toks : List Token)
  | nak (p : Fin 4) (h : FrameHdr)
  | idleFrame (p : Fin 4) (h : FrameHdr)
  | hello (p : Fin 4) (h : FrameHdr) (r : HelloRec) (probe : BitVec 64)
  | helloSend (p : Fin 4)
  | sync (p : Fin 4) (h : FrameHdr) (peer : PeerStep) (time : BitVec 64)
  | syncSend (p : Fin 4)
  | msgFrame (p : Fin 4) (h : FrameHdr) (words : List Word)
  | abortFrame (p : Fin 4) (h : FrameHdr) (origin : BitVec 16) (cause : BitVec 16) (step : BitVec 48)
  | replayTimeout (p : Fin 4)
  | linkFail (p : Fin 4) (c : LinkCause)
  | trainComplete (p : Fin 4)
  | trainTimeout (p : Fin 4)
  | failedRetry (p : Fin 4)
  | portEnable (p : Fin 4) (en : Bool)
  | retrain (p : Fin 4)
  | lkClrstat
  | twEnable (v : Word)
  | role
  | ready
  | start
  | pairStartAccept
  | pairStartTimeout
  | digest
  | first
  | checkEntryDue
  | heartbeatMiss
  | faultDump (ok : Bool)
  | fltIdxWrite (a : Agent) (i : BitVec 9)
  | fltClear
  | capGovernor (p : BitVec 16)
  | thermalSensorRead (i : Fin 48) (deg : BitVec 14) (quarters : BitVec 2)
  | thermalLimitStep
  | voltageWrite
  | voltageWriteAck (ok : Bool)
  | avsRetry
  | vfabReadback (mv : Option (BitVec 16))
  | vsetWrite (keep : Bool) (req : BitVec 4)
  | clockStepChange (mem : BitVec 2) (mgmt : BitVec 2)
  | rateChange
  | domainRequest (v : BitVec 30)
  | domainSwitchComplete (d : Fin 30)
  | autofabSwitchOff
  | pwrClrstat
  | supplyOkChange (pathB : Bool) (level : Bool)
  | changeoverSettle
  | autoReturn
  | sela
  | aonSwitch (toB : Bool)
  | bankSupplyOutOfBand (k : Fin 8)
  | railOutOfRange (r : Rail) (reading : BitVec 32)
  | sysClk25Loss
  | porReset (c : PorCause)
  | sysReset (c : SysCause)
  | secRstWrite (key : BitVec 16) (level : BitVec 2)
  | managementWatchdogExpiry
  | bootRomStart
  | firmwareVerify (f : FlashView)
  | firmwareReady (tr : Option Training)
  | channelLoss (chok : BitVec 8)
  | nonceDraw (a : Agent)
  | prog
  | revoke
  | advImg
  | advFw
  | burnComplete (ok : Bool) (bits : Nat)
  | fuseSelfCheck (flips : List Nat)
  | debugClose
  | debugHalt (halt : Bool)
  | glbClrviol
  | qrecSample (a : Agent) (b : Fin 256)
  | bedClr (b : Fin 256) (m : BitVec 5)
  | bedSatclr (a : Agent) (b : Fin 256)
  | lineSync (k : Fin 8)
  | lineComplete (k : Fin 8) (lanes : List (List Byte))
  | clockLost (k : Fin 8)
  | spEnable (k : Fin 8) (cfg : Word) (supplyOk : Bool)
  | spClrstat
  | burstIssue (remote : Bool)
  | burstComplete (k : Fin 16) (health : UnitHealth) (addr : Nat)
  | engineTokenReceive (k : Fin 16)
  | rrpWrite (k : Fin 16) (v : Word) (a : Agent)
  | seClrstat
  | mcClrcnt
  | readTemperature1
  | readPout
  | statusByte
  | sensorClockReturn (k : Fin 8)
  | pcieLinkUp
  | busMasterEnableSet
  | msixVectorUnmask (v : Option (Fin 64))
  | memoryDomainsOffLimit
deriving DecidableEq, Repr

end Sys2Proof
end

