-- ==== Sys2Proof/Decode.lean ====
section
/-! DEFINITION. The words of commands. spec/opcode_table.json gives no row any bits: a command of this block is not a
word, and no word spells one. -/

namespace Sys2Proof

/-- The command a word spells: none, since the table gives no row bits. -/
def decodeTableWord (_nbits _w : Nat) : Option Instr := none

end Sys2Proof
end

