-- ==== Sys2Proof/Config.lean ====
section
/-! DEFINITION. What a part fixes and the free values: constants with no body, so that no proof can see a value of theirs (log entries 1 to 4). -/

namespace Sys2Proof.Config

/-- The production steppings (Table SCP-2). -/
inductive Stepping where
  | a0 | a1 | b0
deriving DecidableEq, Repr, Inhabited

/-- The part's stepping (R2). UNVERIFIED: each part fixes it (log entry 1). -/
opaque stepping : Stepping

/-- The fuse GRADE: false = TVQ-8820-C, true = TVQ-8820-I (Table SEC-3). -/
opaque grade : Bool

/-- The fuse SERIAL (Table SEC-3). -/
opaque serial : BitVec 128

/-- The fused vendor root hash VROOT (Table SEC-3). -/
opaque vroot : BitVec 384

/-- The fuses that change after delivery, as delivered: each value bit is held by two of them (R425), of bank 0 and of bank 1. Bits
0 to 1535 are the four slots' hashes, then PROG and REV of the slots, ARB_FW and ARB_IMG (log entry 1). -/
opaque fuses : Bool → BitVec 1672

/-- IDKEY's private scalar (Table SEC-3), which only the signing engine reads. -/
opaque idScalar : Nat

/-- The number that the signing engine draws for the signature of a digest (log entry 2). -/
opaque signNonce : List Byte → Nat

/-- A doubleword of configuration space that the spec states nothing about, the capability structures' places among them (log entry
86). -/
opaque configWord : Nat → BitVec 32

/-- The value a function unit
holds before its final rounding (R183), as a fraction num / (den + 1): a free value (log entry 3). -/
opaque funFree : Nat → BitVec 32 → Int × Nat

/-- Operand b of a BIN with FP32 operands and no IP1 token, element k of constants C and C + 1: R182 lays out only eight
16-bit values there (log entry 18). -/
opaque binWide : BitVec 64 → BitVec 64 → Nat → BitVec 32

/-- The maximum m that SMAX names for a vector of N elements all masked: R184 gives none (log entry 19). -/
opaque emptyMax : Nat → BitVec 32

/-- Where the FP16 weight of output channel co and place i of R211's sum stands in the NCE weight store, from the layer's
weight offset; place K of K is the bias. The spec lays the store out nowhere (log entry 23). -/
opaque weightPlace : (co i k : Nat) → Nat

/-- The CR inward channel of crop slot i among n segments, which R218 names and no table gives (log entry 24). -/
opaque slotChannel : (i n : Nat) → Nat

/-- The east channel that carries the decoder's index tokens (R226), which no field of PPPAR names (log entry 25). -/
opaque decChannel : Fin 16

/-- Windows from a line's crop to its admission to the decoder ring (log entry 25). -/
opaque decodeLag : Nat

/-- The class byte for a class index above 255 (log entry 26). -/
opaque wideClass : Nat → BitVec 8

/-- The least symbol score of a text record with no symbol (log entry 26). -/
opaque noScore : BitVec 16

/-- The view of a measurement stream, of a PP parameter block (log entry 26). -/
opaque measView : List Byte → Fin 16

/-- The front of a view no head row of which is complete (log entry 26). -/
opaque noFront : BitVec 32

/-- The words of a FAULTLOG reply after STATUS, of the entries asked for: an entry is longer than a message, and the spec lays the
reply out nowhere (log entry 27). -/
opaque faultlogReply : List Byte → List (BitVec 32)

/-- A pixel, of view v, row r and column c, that the NCE's line buffer no longer holds (log entry 65). -/
opaque lostPixel : (v r c : Nat) → BitVec 16

/-- The 9-bit code over a unit's payload, BSEQ and BUB: R277 gives its width and its power and no matrix (log entry 82). -/
opaque secded : BitVec 133 → BitVec 9

/-- The word of a DUMP reply that gives the place of the dump region, whose unit the spec does not state (log entry 27). -/
opaque dumpOffsetWord : Nat → BitVec 32

/-- A free value for the n-th open choice (log entry 4). -/
opaque freeBits : Nat → BitVec 256

end Sys2Proof.Config
end

