-- ==== Sys2Proof/Machine/State.lean ====
section
/-! DEFINITION. The state of the device: every register, buffer, counter, mode and pin the spec gives it, block by block, as plain data. Default field values are the reset values. -/

namespace Sys2Proof.Machine

/-- Faults of the model. -/
inductive Fault where
  /-- Raised by a command whose operand WellFormed rejects (a byte list of the wrong length, a token count over a
  frame's 12): no such command reaches the device. Safe: the model stops. -/
  | illFormed
deriving DecidableEq, Repr

/-- Refusals of the model. -/
inductive Refusal where
  /-- Raised by an arm of exec that has no meaning yet. Safe: the model stops. -/
  | notModelled (mnemonic : String)
deriving DecidableEq, Repr

/-! ## Tiles -/

/-- One context of a tile as CFG loads it (R42, R45, R242): claiming bed and quotas. -/
structure TileCtx where
  claimed : Bool := false
  bed : BitVec 8 := 0
  qcore : Nat := 0
  qport : List Nat := []
deriving DecidableEq, Repr

/-- A drain in progress (R100-R102): the tokens still to be read from the drained bank. -/
structure Drain where
  toks : List Token := []
deriving DecidableEq, Repr

/-- What an M tile holds (R89, Table MAC-1). -/
structure MState where
  code : AMap Byte := []
  scale : AMap (BitVec 16) := []
  acc0 : AMap Word := []
  acc1 : AMap Word := []
  bub0 : Bool := true
  bub1 : Bool := true
  active : Bool := false
  gsum : AMap Word := []
  kc : AMap Nat := []
  tag : AMap (Option (BitVec 4)) := []
  drain : Drain := {}
deriving DecidableEq, Repr

/-- What a Q tile holds (R115, Table ROT-1). -/
structure QState where
  buf : AMap Word := []
  bufBub : Bool := true
  scales : List (BitVec 16 × Bool) := []
  codes : List Byte := []
  codesBub : Bool := true
  qs : AMap (BitVec 16) := []
  ds : AMap (BitVec 16) := []
  satc : AMap Word := []
  fired : AMap Bool := []
  stepsat : AMap Nat := []
  noisy : AMap Bool := []
  quietN : AMap Nat := []
  bt : BitVec 4 := 0
  rt : Option (BitVec 4) := none
deriving DecidableEq, Repr

/-- A slot of an S-tile store: the token and its check bit (R137). -/
structure Slot where
  tok : Token := {}
  chk : Bool := false
deriving DecidableEq, Repr

/-- One copy of a queue's pointers (R150). -/
structure Ptrs where
  wp : BitVec 24 := 0
  rp : BitVec 24 := 0
  fp : BitVec 24 := 0
  mp : BitVec 24 := 0
  mv : Bool := false
deriving DecidableEq, Repr

/-- A queue of an S tile (R135, R150, R156). -/
structure Queue where
  a : Ptrs := {}
  b : Ptrs := {}
  froz : Bool := false
  hwm : Nat := 0
deriving DecidableEq, Repr

/-- A slot access (R139): write a token to a slot, or read a slot to an output port with the marker given. -/
inductive SlotAccess where
  | write (slot : Nat) (tok : Token)
  | read (slot : Nat) (op : Nat) (mark : Marker)
deriving DecidableEq, Repr

/-- What an S tile holds (R135, Table MEM-1). -/
structure SState where
  store : AMap Slot := []
  queues : AMap Queue := []
  idx : List Nat := [0, 0, 0, 0, 0, 0]
  lastDesc : Option Nat := none
  staging : List (BitVec 64) := []
  streamed : Option (List (BitVec 64)) := none
  ldgFresh : Bool := false
  portCnt : AMap Nat := []
  /-- the hard ports stand parked until the next release -/
  portsOff : Bool := true
  beatRank : Nat := 0
  bankUse : AMap Nat := []
  /-- queues pushed in the beat; accesses deferred, each with the rank of who made it -/
  pushedNow : List Nat := []
  deferred : List (Nat × SlotAccess) := []
  /-- queues that the core's control operation of this beat gave room for a push that waited on FREE = 0 (R148) -/
  freed : List Nat := []
  /-- the instruction whose slot access is deferred, for the event of its read (R160) -/
  deferPc : Nat := 0
deriving DecidableEq, Repr

/-- What an F tile holds (R180, Table SFW-1), with the tokens it holds between closing firings (R188). -/
structure FState where
  vb : AMap Word := []
  pos : BitVec 32 := 0
  phase : BitVec 4 := 0
  held : List Token := []
  allBub : Bool := true
  fill : Nat := 0
deriving DecidableEq, Repr

/-- What a W tile holds (R191). -/
structure WState where
  fl0 : Bool := false
  fl1 : Bool := false
  lc0 : BitVec 12 := 0
  lc1 : BitVec 12 := 0
deriving DecidableEq, Repr

/-- The stores of a tile whose entries carry parity (R90, R115, R180, R191). -/
inductive StoreId where
  | code | scale | bank0 | bank1 | qbuf | qs | ds | qcnt | vb | fcnt | wrec | flags
deriving DecidableEq, Repr

/-- A grid tile. -/
structure GridTile where
  words : AMap (BitVec 64) := []
  health : AMap Nat := []
  cfg : AMap TileCtx := []
  wrec : AMap (List Byte) := []
  badParity : List (StoreId × Nat) := []
  cur : BitVec 2 := 0
  inReset : Bool := true
  parked : Bool := true
  pc : BitVec 8 := 0
  rep : Nat := 0
  halted : Bool := false
  fired : Nat := 0
  tokUsed : Bool := false
  hiMark : Marker := .none
  closeMark : Marker := .none
  inb : AMap (List Token) := []
  pipe : AMap (List Token) := []
  /-- tokens of the last firing that the core's pipeline has not taken yet (R34; log entry 12) -/
  rest : AMap (List Token) := []
  outb : AMap (List Token) := []
  latch : AMap (List Token) := []
  acked : AMap (List Dest) := []
  passed : AMap Bool := []
  switched : Bool := true
  m : MState := {}
  q : QState := {}
  s : SState := {}
  f : FState := {}
  w : WState := {}
deriving DecidableEq, Repr

/-- An edge tile (R18, R468): its contexts' routing words and descriptors, its two paths and its counts. -/
structure EdgeTile where
  route : AMap (BitVec 64) := []
  edesc : AMap (BitVec 64) := []
  cfg : AMap TileCtx := []
  cur : BitVec 2 := 0
  parked : Bool := true
  inSlots : List Token := []
  outSlots : List Token := []
  acked : List Dest := []
  inCnt : Nat := 0
  outCnt : Nat := 0
  lastBseq : BitVec 4 := 0
  inMarked : Bool := false
  outMarked : Bool := false
  hiMark : Marker := .none
  switched : Bool := true
deriving DecidableEq, Repr

/-! ## Beds -/

/-- A bed of one context as BEDTAB defines it (R241). -/
structure BedDef where
  bed : BitVec 8 := 0
  flags : BitVec 8 := 0
  ntile : BitVec 16 := 0
  label : List Byte := []
  wrec : List Byte := []
deriving DecidableEq, Repr

/-- The diagnostic state of a bed (Table MAP-3) and its report of the step (R47, R260). -/
structure BedState where
  nonfin : Word := 0
  steer : Word := 0
  ovf : Word := 0
  cecc : Word := 0
  adapt : Word := 0
  nonfinStep : Bool := false
  steerStep : Bool := false
  adaptStep : Bool := false
  ovfWin : Bool := false
  reported : Bool := false
  report : Marker := .none
  firing : Bool := false
deriving DecidableEq, Repr

/-- The FAB window's selects and samples of one agent for one bed (R441, R442). -/
structure BedSel where
  qsel : BitVec 13 := 0
  tsel : BitVec 6 := 0
  sample : List Word := []
deriving DecidableEq, Repr

/-! ## PACE -/

/-- PACE states (Table PCE-5-S). -/
inductive PaceState where
  | idle | running | held | barrier | stopped | aborted
deriving DecidableEq, Repr

/-- The phases of abort handling (Table TWN-5). -/
inductive AbortPhase where
  | none | frozen | announced | resetDone
deriving DecidableEq, Repr

/-- The PACE commit group's values (R66). -/
structure PaceTiming where
  period : BitVec 24 := 0x7D0
  pmin : BitVec 24 := 0x7D0
  window : BitVec 24 := 0x7D0
  hallow : Word := 0
  laglim : BitVec 24 := 0
deriving DecidableEq, Repr

/-- A bed in the abort snapshot (R64). -/
structure BedSnap where
  bed : Nat := 0
  parked : Bool := true
  ltile : BitVec 16 := 0
  lfire : Nat := 0
deriving DecidableEq, Repr

/-- The abort snapshot (R64). -/
structure Snapshot where
  step : Nat := 0
  busy : Nat := 0
  hold : Nat := 0
  pace : List Word := []
  beds : List BedSnap := []
  queues : List (Nat × Nat × Queue) := []
  edges : List (Nat × Nat × Nat) := []
  namedTile : BitVec 16 := 0
  namedQueue : BitVec 8 := 0
  namedKind : BitVec 8 := 0
  stateBefore : PaceState := .idle
  time : Nat := 0
deriving DecidableEq, Repr

/-- The pace controller (R45-R68). -/
structure Pace where
  mode : BitVec 2 := 0
  act : PaceTiming := {}
  shadow : PaceTiming := {}
  pending : Bool := false
  wdog : BitVec 8 := 0x10
  holdlim : BitVec 24 := 0x186A0
  swhold : Bool := false
  tick : BitVec 16 := 0
  stopEn : Bool := false
  stopStep : BitVec 48 := 0
  holdCount : Word := 0
  holdNs : BitVec 64 := 0
  holdLast : Word := 0
  stepMiss : BitVec 16 := 0
  lagMiss : BitVec 16 := 0
  lastBusy : Word := 0
  maxBusy : Word := 0
  lag : Nat := 0
  lagArmed : Bool := true
  state : PaceState := .idle
  req : BitVec 7 := 0
  step : BitVec 48 := 0
  clock : Nat := 0
  relT : Nat := 0
  schedT : Nat := 0
  stepHold : Nat := 0
  standT : Nat := 0
  released : Bool := false
  complete : Bool := false
  completeT : Nat := 0
  /-- every bed has reported and the 10 ns release decision runs; what is left of it (Table PCE-1, R61) -/
  deciding : Bool := false
  decLeft : Nat := 0
  busy : Nat := 0
  rank : Marker := .stepEnd
  dupStep : BitVec 48 := 0
  dupComplete : Bool := false
  treeParityOk : Bool := true
  barrierT : Nat := 0
  stopByStep : Bool := false
  /-- RESUME lets the stop step go (R57) -/
  resumed : Bool := false
  abort : AbortPhase := .none
  fatal : Bool := false
  needPor : Bool := false
  snap : Snapshot := {}
  rakeAct : Bool := false
  /-- the step in force was released in a rake-out (R268) -/
  raked : Bool := false
  rakeDrop : Bool := false
  rakeLeft : Nat := 0
  rakeDropCnt : Word := 0
  stepsSinceWarm : Nat := 0
deriving DecidableEq, Repr

/-! ## Loader -/

/-- A tile block (R242). -/
structure TileBlock where
  tile : BitVec 16 := 0
  kind : BitVec 8 := 0
  bed : BitVec 8 := 0
  claimed : Bool := false
  qcore : Nat := 0
  qport : List Nat := []
  route : BitVec 64 := 0
  edesc : BitVec 64 := 0
  instrs : List (BitVec 64) := []
  consts : List (BitVec 64) := []
  off : Nat := 0
  ninstr : Nat := 0
  nconst : Nat := 0
deriving DecidableEq, Repr

/-- A stream descriptor (R275). -/
structure StreamDesc where
  addr : Nat := 0
  rowtok : Nat := 0
  nrow : Nat := 0
  pitch : Int := 0
  wrap : Bool := false
  fill : Bool := false
  fbub : Bool := false
  cap : Bool := false
  bf16 : Bool := false
deriving DecidableEq, Repr

/-- A stream list (R245). -/
structure StreamList where
  engine : Nat := 0
  /-- the image offset of its first descriptor -/
  off : Nat := 0
  write : Bool := false
  cmp : BitVec 8 := 0
  descs : List StreamDesc := []
deriving DecidableEq, Repr

/-- A MEMINIT record (R244). -/
structure MemRec where
  tile : BitVec 16 := 0
  store : BitVec 8 := 0
  off : Nat := 0
  bytes : List Byte := []
deriving DecidableEq, Repr

/-- A CHECK definition (R248). -/
structure CheckDef where
  rkind : BitVec 8 := 0
  off : Nat := 0
  ftype : BitVec 8 := 0
  flen : Nat := 0
  tol : Word := 0
  window : Nat := 0
deriving DecidableEq, Repr

/-- One context of a placement for this member. -/
structure CtxImage where
  ctx : BitVec 2 := 0
  beds : List BedDef := []
  blocks : List TileBlock := []
  streams : List StreamList := []
  nce : Option (List Byte) := none
  pp : Option (List Byte) := none
deriving DecidableEq, Repr

/-- The PACE chunk (R240, Table IMG-5). -/
structure PaceChunk where
  period : Nat := 0
  pmin : Nat := 0
  window : Nat := 0
  hallow : Nat := 0
  laglim : Nat := 0
  holdlim : Nat := 0
  mode : BitVec 8 := 0
  vplan : BitVec 8 := 0
  wdog : BitVec 8 := 0
  latdet : Nat := 0
  lattxt : Nat := 0
  latmeas : Nat := 0
deriving DecidableEq, Repr

/-- One placement as the image carries it for this device's chain position. -/
structure PlcImage where
  missing : BitVec 16 := 0xFFFF
  secmap : List Byte := []
  pace : PaceChunk := {}
  ctxs : List CtxImage := []
  meminit : List MemRec := []
  checks : List CheckDef := []
deriving DecidableEq, Repr

/-- The loaded image (R232-R249). -/
structure LoadedImage where
  adr : BitVec 8 := 0
  chainlen : Nat := 0
  fwmin : Word := 0
  chk : Bool := false
  hash : BitVec 384 := 0
  half : Bool := false
  plcs : List PlcImage := []
deriving DecidableEq, Repr

/-- Stage of a changeover front (CFG_SECT.FRONT). -/
inductive FrontState where
  | none | running | draining
deriving DecidableEq, Repr

/-- What the release sequence leads to (R269, R271). -/
inductive ReleaseGoal where
  | none | load | start
deriving DecidableEq, Repr

/-- A placement that CFG writes once the fabric is closed (R269): the image, the chain position and the placement. -/
structure PendLoad where
  im : LoadedImage := {}
  pos : Nat := 0
  plc : Nat := 0
deriving DecidableEq, Repr

/-- The configuration loader (11, 12). -/
structure Cfg where
  image : Option LoadedImage := none
  state : BitVec 4 := 0
  plc : BitVec 8 := 0
  adr : BitVec 8 := 0
  errCode : BitVec 16 := 0
  errRow : BitVec 8 := 0
  loc : Word := 0
  pos : BitVec 16 := 0
  errStage : BitVec 4 := 0
  stage : BitVec 4 := 0
  stageT : Nat := 0
  goal : ReleaseGoal := .none
  sec : BitVec 2 := 0
  nextSec : BitVec 2 := 0
  front : FrontState := .none
  swcnt : BitVec 16 := 0
  nceSwitched : Bool := true
  ppSwitched : Bool := true
  nceCtx : BitVec 2 := 0
  ppCtx : BitVec 2 := 0
  half : Bool := false
  /-- the load or switch under way completes the host command under execution -/
  loadCmd : Bool := false
  /-- the mailbox whose PLCSW message began the switch under way (R377) -/
  swMbox : Option Nat := none
  /-- the placement to be written when the stages are closed (R269) -/
  pend : Option PendLoad := none
deriving DecidableEq, Repr

/-! ## Events, interrupts, mailboxes -/

/-- An event record (Table HST-6). -/
structure EventRec where
  code : BitVec 16 := 0
  sev : BitVec 8 := 0
  srccls : BitVec 8 := 0
  srcid : BitVec 16 := 0
  step : BitVec 48 := 0
  addr : BitVec 64 := 0
  detail : BitVec 64 := 0
  eseq : Word := 0
  /-- the values that the event's rule records and that neither ADDR nor DETAIL carries (R463; log entry 77) -/
  more : List Nat := []
deriving DecidableEq, Repr

/-- A fault log entry (Table TWN-6). -/
structure LogEntry where
  ev : EventRec := {}
  tile : BitVec 16 := 0xFFFF
  ctx : BitVec 8 := 0xFF
  instr : BitVec 16 := 0xFFFF
  count : Word := 0
  req : Word := 0
  addr : BitVec 64 := 0
  time : BitVec 64 := 0
deriving DecidableEq, Repr

/-- An interrupt source (R352, IC_SRC). -/
structure Source where
  line : Bool := false
  sense : BitVec 2 := 1
  prio : BitVec 4 := 0
  mpen : BitVec 4 := 0
  vec : BitVec 64 := 0
  pend : Bool := false
  maskHost : Bool := true
  maskMp : Bool := true
  cnt : BitVec 8 := 0
  lastHost : Nat := 63
  lastMp : Nat := 3
deriving DecidableEq, Repr

/-- An interrupt target (R354, IC_TGT); t 0-63 vectors, 64-67 MP0-MP3. -/
structure Target where
  time : BitVec 16 := 1
  cnt : BitVec 8 := 1
  shTime : BitVec 16 := 1
  shCnt : BitVec 8 := 1
  pending : Bool := false
  stack : List (BitVec 4) := []
  eoierr : BitVec 8 := 0
  waiting : Nat := 0
  oldest : Nat := 0
  wprio : BitVec 4 := 0
  /-- MSI-X vector mask and messages held in the PBA of a vector target (R321, R354, R355: one message for each send); the MP
  interrupt line of an MP target -/
  vmask : Bool := true
  pba : Nat := 0
  /-- message address and data of a vector's entry of the MSI-X table (R321) -/
  msgAddr : BitVec 64 := 0
  msgData : Word := 0
  mpLine : Bool := false
deriving DecidableEq, Repr

/-- The interrupt controller. -/
structure Ic where
  src : AMap Source := []
  tgt : AMap Target := []
  /-- TAKEN of each agent (R357): key agent, value SRC x 256 + COUNT -/
  taken : AMap Word := []
  fmask : Bool := false
  /-- MSI-X Enable of the capability's Message Control -/
  msixEn : Bool := false
deriving DecidableEq, Repr

/-- A word of a mailbox queue with its parity bit (R349). -/
structure MboxWord where
  w : Word := 0
  ok : Bool := true
deriving DecidableEq, Repr

/-- One direction of a mailbox (R344, R346): the whole messages' words, the message being written. -/
structure MboxQ where
  words : List MboxWord := []
  /-- words of the head message not yet removed -/
  headLeft : Nat := 0
  part : List MboxWord := []
  left : Nat := 0
  skip : Nat := 0
deriving DecidableEq, Repr

/-- A mailbox (R344-R351). -/
structure Mbox where
  inq : MboxQ := {}
  outq : MboxQ := {}
  peer : BitVec 16 := 0
  dest : BitVec 4 := 0
  partDest : BitVec 4 := 0
  /-- the party each whole outbound message goes to (R348) -/
  outDests : List (BitVec 4) := []
  refused : Bool := false
  perr : Bool := false
  dropRefused : BitVec 16 := 0
  dropRejected : BitVec 16 := 0
  keptMseq : Option (BitVec 16) := none
  keptReply : List Word := []
deriving DecidableEq, Repr

/-! ## Host interface -/

/-- A ring (R323, Table HST-10). -/
structure Ring where
  en : Bool := false
  szl : BitVec 5 := 0
  base : BitVec 64 := 0
  pi : Word := 0
  ci : Word := 0
  baddb : Word := 0
deriving DecidableEq, Repr

/-- The fetched command (Table HST-4). -/
structure Command where
  opc : BitVec 16 := 0
  seq : BitVec 16 := 0
  quiet : Bool := false
  bytes : List Byte := []
  index : Word := 0
  t : Nat := 0
deriving DecidableEq, Repr

/-- The last command completed (R332). -/
structure Kept where
  opc : BitVec 16 := 0
  seq : BitVec 16 := 0
  status : BitVec 8 := 0
  evt : BitVec 16 := 0
deriving DecidableEq, Repr

/-- A request the device issues to the host (R319): bytes at an address, or a vector's MSI-X message, a write of its data to its
address. -/
inductive HostReq where
  | write (addr : BitVec 64) (bytes : List Byte)
  | msix (vector : Nat) (addr : BitVec 64) (data : Word)
deriving DecidableEq, Repr

/-- A host stream channel's inward buffer (R339). -/
structure StreamChan where
  buf : List Token := []
  outq : List Token := []
deriving DecidableEq, Repr

/-- The host interface (15). -/
structure Hq where
  rings : AMap Ring := []
  win : BitVec 6 := 0
  wbAddr : BitVec 64 := 0
  wbEn : Bool := false
  wbDirty : Bool := false
  kept : Option Kept := none
  cur : Option Command := none
  /-- ADDR and DETAIL of a completion that waits for a place in the event queue (R331) -/
  cplWait : Option (Nat × Nat) := none
  evlost : Word := 0
  lostNow : Word := 0
  eseq : Word := 0
  evq : List EventRec := []
  linkUp : Bool := false
  lspeed : BitVec 4 := 0
  lwidth : BitVec 4 := 0
  bme : Bool := false
  /-- Command register but for Bus Master Enable, base address registers, Max_Payload_Size and Max_Read_Request_Size codes (Table
  HST-1, HST-2) -/
  pciCmd : BitVec 16 := 0
  bars : AMap Word := []
  mps : BitVec 3 := 0
  mrrs : BitVec 3 := 2
  chans : AMap StreamChan := []
  msixOut : List Nat := []
deriving DecidableEq, Repr

/-! ## Links and twin -/

/-- Link states (Table LNK-7). -/
inductive LinkState where
  | off | train | hello | up | refused | failed
deriving DecidableEq, Repr

/-- The body of a frame sent (Table LNK-2). -/
inductive FrameBody where
  | idle
  | token (vc : Nat) (step : BitVec 32) (toks : List Token)
  | msg (words : List Word)
  | abort (origin : BitVec 16) (cause : BitVec 16) (step : BitVec 48)
  | nak
  | hello (r : HelloRec) (probe : BitVec 64)
  | sync (step : BitVec 48) (time : BitVec 64)
deriving DecidableEq, Repr

/-- A frame sent (Table LNK-1): SEQ is 0 in frames that are not sequenced. -/
structure SentFrame where
  seq : BitVec 16 := 0
  ack : BitVec 16 := 0
  cretVc : Nat := 0
  cret : Nat := 0
  body : FrameBody := .nak
deriving DecidableEq, Repr

/-- A link port (17, Table LNK-8). -/
structure LinkPort where
  en : Bool := false
  twin : Bool := false
  state : LinkState := .off
  stateT : Nat := 0
  mism : BitVec 10 := 0
  peerPos : BitVec 16 := 0
  peerStepping : BitVec 8 := 0
  peerAdr : BitVec 8 := 0
  rtt : Word := 0
  txseq : BitVec 16 := 0
  /-- sequenced frames numbered since TRAIN, up to half the range of SEQ (R364) -/
  txCount : Nat := 0
  rxe : BitVec 16 := 0
  ack : BitVec 16 := 0xFFFF
  ackT : Nat := 0
  cred : AMap Nat := []
  credRet : AMap Nat := []
  vcbuf : AMap (List (Token × BitVec 32)) := []
  /-- tokens taken from the outward edge and not yet framed, each with the step it was taken in -/
  vcout : AMap (List (Token × BitVec 32)) := []
  replay : List SentFrame := []
  /-- sequenced frames that wait for room in the replay buffer (R362) -/
  txq : List FrameBody := []
  nakSent : Bool := false
  replays : Nat := 0
  rxT : Nat := 0
  helloT : Nat := 0
  syncT : Nat := 0
  /-- a step has been released since the last SYNC (R373) -/
  syncDue : Bool := false
  /-- the hello record compared last (R370) -/
  peerRec : HelloRec := {}
  /-- the round-trip probes sent and not yet echoed (R369) -/
  probeTx : List (BitVec 64) := []
  crcerr : Word := 0
  replayCnt : Word := 0
  dup : Word := 0
  feccorr : Word := 0
  fecunc : Word := 0
  linkdn : Word := 0
  replayStep : Bool := false
  abortsSeen : List (BitVec 16 × BitVec 48) := []
  sent : List SentFrame := []
deriving DecidableEq, Repr

/-- The link block. -/
structure Lk where
  ports : AMap LinkPort := []
  nakmax : BitVec 8 := 8
  ttol : BitVec 16 := 1000
  epoch : BitVec 64 := 0
  /-- an EPOCH with FOLLOW waiting for a SYNC: port, value, start time (R372) -/
  follow : Option (Nat × BitVec 64 × Nat) := none
  /-- pace hints that stand: origin, step, voltage step (R375) -/
  hints : List (BitVec 16 × Word × BitVec 4) := []
  hintsSeen : List (BitVec 16 × Word) := []
  /-- VSET.REQ as it stood before the first hint -/
  ownReq : Option (BitVec 4) := none
deriving DecidableEq, Repr

/-- TW states (Table TWN-1). -/
inductive TwState where
  | off | wait | paired | conflict | solo
deriving DecidableEq, Repr

/-- A check entry's key and bytes (R385). -/
structure CheckEntry where
  defn : Nat := 0
  step : BitVec 48 := 0
  ordinal : Nat := 0
  bytes : List Byte := []
deriving DecidableEq, Repr

/-- The pair start (R383). -/
structure PairStart where
  waiting : Bool := false
  since : Nat := 0
  gotReady : Bool := false
  ts : Option Nat := none
deriving DecidableEq, Repr

/-- The twin manager (18). -/
structure Tw where
  en : Bool := false
  shadow : Bool := false
  port : BitVec 2 := 0
  hbmiss : BitVec 4 := 4
  tslead : BitVec 8 := 0x0A
  state : TwState := .off
  lead : Bool := false
  fence : Bool := false
  miss : Nat := 0
  take : BitVec 48 := 0
  takePending : Bool := false
  cmpcnt : Word := 0
  near : Word := 0
  maxdiff : Word := 0
  own : List CheckEntry := []
  partner : List CheckEntry := []
  badmsg : Word := 0
  hblost : Word := 0
  pstep : BitVec 48 := 0
  hbT : Nat := 0
  rxq : List (Nat × List Word) := []
  pair : PairStart := {}
  firstOwn : AMap (Option Word) := []
  firstSent : AMap Bool := []
  firstPeer : AMap (Option Word) := []
deriving DecidableEq, Repr

/-! ## Fault log, power, security -/

/-- Dump states (FLT_DUMP.STATE). -/
inductive DumpState where
  | none | writing | complete | failed
deriving DecidableEq, Repr

/-- The fault log and dump registers (R394, R395). -/
structure Flt where
  log : List LogEntry := []
  lost : BitVec 16 := 0
  idx : AMap (BitVec 9) := []
  data : AMap (List Word) := []
  dumpall : Bool := false
  dumpNum : BitVec 16 := 0
  dumpState : DumpState := .none
  dumpLen : Word := 0
  /-- how far the dump being written has come: MAGIC zeroed, sections written (R395), and the sections' lengths -/
  dumpStep : Nat := 0
  dumpLens : List Nat := []
  firstSev : BitVec 2 := 0
  firstCode : BitVec 16 := 0
deriving DecidableEq, Repr

/-- A domain being switched (R399): target on or off. -/
structure DomSwitch where
  d : Nat := 0
  on : Bool := false
deriving DecidableEq, Repr

/-- A thermal sensor's watch (R407): since when its reading is unchanged, and the least and greatest reading of each other sensor of
its block since then, in quarter degrees. -/
structure SensorWatch where
  since : Nat := 0
  mates : List (Nat × Int × Int) := []
deriving DecidableEq, Repr

/-- The power manager (19). -/
structure Pwr where
  autofab : Bool := true
  vcap : BitVec 4 := 15
  vtherm : BitVec 4 := 15
  vack : BitVec 4 := 10
  keep : Bool := false
  req : BitVec 4 := 10
  hyst : BitVec 8 := 5
  cap : BitVec 8 := 160
  floor : BitVec 4 := 0
  shHyst : BitVec 8 := 5
  shCap : BitVec 8 := 160
  shFloor : BitVec 4 := 0
  pending : Bool := false
  power : BitVec 16 := 0
  peak : BitVec 16 := 0
  mem : BitVec 2 := 3
  mgmt : BitVec 2 := 3
  /-- the MGMT step that runs: a change that falls due in a changeover is made at its end (R411) -/
  mgmtRun : BitVec 2 := 3
  memHeld : Bool := false
  thys : BitVec 4 := 3
  tthr : BitVec 8 := if Config.grade then 100 else 90
  tj : BitVec 16 := 0
  tjSens : BitVec 6 := 0
  sens : AMap (BitVec 16) := []
  seen : List Nat := []
  excl : List Nat := []
  watch : AMap SensorWatch := []
  autoret : Bool := true
  retdly : BitVec 8 := 100
  settle : BitVec 16 := 40
  cocnt : BitVec 16 := 0
  aonB : Bool := false
  co : Bool := false
  coT : Nat := 0
  coWarn : Bool := false
  selB : Bool := false
  bOk : Bool := false
  aOk : Bool := false
  aOkT : Nat := 0
  domReq : BitVec 30 := 0x3FFFFC3F
  domOn : BitVec 30 := 0x3FFFFC3F
  switching : List DomSwitch := []
  /-- unused fabric domains that a request switched on, and so keeps powered (R398) -/
  keepOn : List Nat := []
  thrcnt : BitVec 16 := 0
  avserr : BitVec 16 := 0
  vread : BitVec 16 := 0
  calm : Nat := 0
  capWarned : Bool := false
  capStep : Bool := false
  lastWin : Nat := 0
  thermT : Nat := 0
  /-- the voltage write in flight, the failures of its transaction, and whether one is due (R401, R403) -/
  wrOut : Option (BitVec 4) := none
  wrFails : Nat := 0
  wrDue : Bool := false
  retryT : Option Nat := none
  vWrT : Nat := 0
  /-- settling time of the last voltage write, failures of the readback, the mark of a thermal shutdown -/
  vWrN : Nat := 0
  rdFails : Nat := 0
  thermOff : Bool := false
  vbandWarned : Bool := false
  vinBand : Bool := true
  memOffT : Option Nat := none
  /-- the rails needed were in range as PORST_N rose; VDD_LNK is present (R450) -/
  railsOk : Bool := true
  lnkRail : Bool := true
  /-- SYS_CLK25 stands still; device time and the clocked domains run from the internal oscillator (R453) -/
  clkLost : Bool := false
  intOsc : Bool := false
  selfRefresh : Bool := false
deriving DecidableEq, Repr

/-- A fuse burn in progress (R427): the operation and its target. -/
inductive Burn where
  | prog (slot : Nat) (hash : BitVec 384)
  | revoke (slot : Nat)
  | img (v : Nat)
  | fw (v : Nat)
deriving DecidableEq, Repr

/-- The parity bit of each byte of the fuse shadow. -/
def shadowParity (v : BitVec 1672) : List Bool :=
  (List.range 209).map fun i => (List.range 8).foldl (fun p j => p ^^ v.getLsbD (8 * i + j)) false

/-- The fuses that change after delivery (Table SEC-3): the two of each value bit, the shadow copy that PD0 keeps of their OR, and
its parity (R425). -/
structure Fuses where
  bank0 : BitVec 1672 := Config.fuses false
  bank1 : BitVec 1672 := Config.fuses true
  shadow : BitVec 1672 := bank0 ||| bank1
  par : List Bool := shadowParity shadow
deriving DecidableEq, Repr

/-- Security and boot (20). -/
structure Sec where
  fuses : Fuses := {}
  bootState : BitVec 4 := 0
  bootCause : BitVec 8 := 0
  bootCopy : Bool := false
  bootRej : BitVec 2 := 0
  fwver : Word := 0
  fwsvn : BitVec 64 := 0
  fwHash : BitVec 384 := 0
  subVendor : BitVec 16 := 0
  subId : BitVec 16 := 0
  romRunning : Bool := false
  /-- MP0 to MP3 out of reset (R419) -/
  cores : BitVec 4 := 0
  /-- the CAUSE bytes printed on the UART console (R422), the firmware copy in management SRAM (R419), and the flash read that the ROM
  settled on (R420) -/
  uart : List Byte := []
  sram : List Byte := []
  flashRead : Sfdp := { quad := false, addr4 := false }
  open_ : Bool := false
  kind : BitVec 4 := 0
  locked : Bool := false
  fails : BitVec 8 := 0
  causePwr : Bool := true
  causePor : Bool := false
  causePin : Bool := false
  causeSoft : Bool := false
  causeWdog : Bool := false
  causeDbg : Bool := false
  nonce : Option (BitVec 256) := none
  nonceRegs : AMap (BitVec 256) := []
  reqEvt : BitVec 16 := 0
  reqResult : BitVec 8 := 0
  busy : Bool := false
  reqbuf : AMap Word := []
  burn : Option Burn := none
  sysWaits : Option SysCause := none
  chal : Option (BitVec 256) := none
  chalParts : List Byte := []
  chalNext : Nat := 0
deriving DecidableEq, Repr

/-! ## Sensor ports, NCE, PP -/

/-- An entry of a sensor queue (R309). -/
structure SpEntry where
  payload : BitVec 128 := 0
  par : BitVec 16 := 0
  vb : BitVec 16 := 0xFFFF
  sol : Bool := false
deriving DecidableEq, Repr

/-- One port view of a sensor port (R307, R309, R311). -/
structure SpView where
  pixfmt : BitVec 8 := 0
  lwm : BitVec 16 := 0x0800
  hwm : BitVec 16 := 0x1800
  shLwm : BitVec 16 := 0x0800
  shHwm : BitVec 16 := 0x1800
  queue : List SpEntry := []
  fullish : Bool := false
  expect : Option Word := none
  first : Word := 0
  lastRow : Word := 0
  lastLine : List (BitVec 16) := []
deriving DecidableEq, Repr

/-- Sensor port states (R305). -/
inductive SpState where
  | off | hunt | body
deriving DecidableEq, Repr

/-- A sensor port (14, Table SNS-5). -/
structure SensorPort where
  rate : BitVec 16 := 0
  ctlv : BitVec 4 := 0
  xod : Bool := false
  term : Bool := false
  nl : BitVec 2 := 0
  std : BitVec 2 := 0
  en : Bool := false
  gapmax : BitVec 8 := 4
  subst : Bool := false
  pending : Bool := false
  cfgerr : Bool := false
  /-- the supply monitor's last finding on the port's banks (R301, R414) -/
  supOk : Bool := true
  clklost : Bool := false
  state : SpState := .off
  discard : Bool := false
  v0 : SpView := {}
  v1 : SpView := {}
  xoff : Bool := false
  good : Word := 0
  short : Word := 0
  crc : Word := 0
  hdr : Word := 0
  late : Word := 0
  subs : Word := 0
  ovf : Word := 0
  xoffcnt : Word := 0
  badStep : Bool := false
  lateStep : Bool := false
  ovfStep : Bool := false
deriving DecidableEq, Repr

/-- A text line packed into a crop slot (R215, R225). -/
structure CropLine where
  view : Nat := 0
  rowBase : Word := 0
  y1 : Word := 0
  y2 : Word := 0
  x1 : Word := 0
  x2 : Word := 0
  boxid : Word := 0
deriving DecidableEq, Repr

/-- A crop slot in service (R215): chosen segment, window origin, clipping. -/
structure CropSlot where
  line : Option CropLine := none
  seg : Nat := 0
  r0 : Int := 0
  t0 : Int := 0
  clipped : Bool := false
  tokens : List Token := []
deriving DecidableEq, Repr

/-- The row state of a view in the NCE (R211, R212). -/
structure NceView where
  rows : List (List Word) := []
  dsRows : List (List Word) := []
  rowsIn : Nat := 0
deriving DecidableEq, Repr

/-- The stores of the NCE and the PP whose entries carry parity (R206, R231, Table NPP-1). -/
inductive BlockStore where
  | params | flatField | lineBuffer | weights | trickle | crop | queue | accepted | decoder | records
deriving DecidableEq, Repr

/-- The narrow-channel engine (10). -/
structure Nce where
  ffbank : BitVec 16 := 0
  ffen : BitVec 16 := 0
  shFfbank : BitVec 16 := 0
  shFfen : BitVec 16 := 0
  pending : Bool := false
  ffView : BitVec 4 := 0
  ffCol : BitVec 14 := 0
  /-- flat-field entries: key (bank x 16 + view) x 16,384 + column, value GAIN and OFFSET -/
  ff : AMap Word := []
  weights : AMap Byte := []
  cropcnt : Word := 0
  clipcnt : Word := 0
  clipStep : Bool := false
  sched : Nat := 0
  intakeDone : Bool := false
  views : AMap NceView := []
  /-- tokens that wait to enter the fabric: key north channel 0-31, or 32 + crop channel -/
  chan : AMap (List Token) := []
  /-- tokens taken from the fabric: key north channel 0-31, or 32 + crop channel -/
  rx : AMap (List Token) := []
  trickle : AMap (List Token) := []
  trickleStep : AMap Nat := []
  subsVb : Word := 0
  segRows : AMap Nat := []
  slots : AMap CropSlot := []
  cropWin : Nat := 0
  cropNext : AMap Nat := []
  reqDone : Bool := false
  lines : AMap (Option CropLine) := []
  badParity : List (BlockStore × Nat) := []
deriving DecidableEq, Repr

/-- A detection candidate (R220, R221). -/
structure Candidate where
  view : Nat := 0
  group : Nat := 0
  cls : Nat := 0
  head : Nat := 0
  rowBase : Word := 0
  y1 : Word := 0
  y2 : Word := 0
  x1 : Word := 0
  x2 : Word := 0
  score : BitVec 16 := 0
deriving DecidableEq, Repr

/-- A result record waiting for its ring (R228, R229). -/
structure ResultRec where
  kind : BitVec 8 := 0
  ring : Nat := 0
  bytes : List Byte := []
  step : BitVec 48 := 0
  ordinal : Nat := 0
deriving DecidableEq, Repr

/-- A decoder slot's collection (R226). -/
structure DecSlot where
  used : Bool := false
  boxid : Word := 0
  clipped : Bool := false
  view : Nat := 0
  syms : List (BitVec 16 × BitVec 16 × Bool) := []
deriving DecidableEq, Repr

/-- The detection post-processor (10). -/
structure Pp where
  queue : List Candidate := []
  qhwm : BitVec 13 := 0
  qdrop : Word := 0
  accept : Word := 0
  supp : Word := 0
  nextid : Word := 0
  accepted : List Candidate := []
  front : AMap (Option Word) := []
  headRow : AMap Nat := []
  /-- tokens each east channel has delivered since the task's or the context's start -/
  chanPos : AMap Nat := []
  rx : AMap (List Token) := []
  records : List ResultRec := []
  /-- the text-line boxes accepted in the crop window, with their BOXIDs, in order of arrival: the packer decides them as the
  window ends (R200, R225) -/
  held : List (Candidate × Word) := []
  /-- the lines that the packer kept, by descending score -/
  packed : List (CropLine × BitVec 16) := []
  /-- items of the window that the packer has decided -/
  winItems : Nat := 0
  dec : AMap DecSlot := []
  /-- the decoder slots of windows already cropped, newest first -/
  hist : List (AMap DecSlot) := []
  circ : Nat := 0
  ordDet : Nat := 0
  ordTxt : Nat := 0
  ordMeas : Nat := 0
  dropStep : Bool := false
  earlyStep : Bool := false
  stepDone : Bool := false
  badParity : List (BlockStore × Nat) := []
deriving DecidableEq, Repr

/-! ## Stream engines and memory -/

/-- A 16-byte unit that waits in a write buffer: its address, payload and side bits, the fabric tokens it stands for, whether
it ends its row, and by how much RWP advances once it is written (R276, R277, R296). -/
structure WUnit where
  addr : Nat := 0
  pay : BitVec 128 := 0
  side : BitVec 5 := 0
  toks : Nat := 1
  last : Bool := false
  adv : Nat := 0
deriving DecidableEq, Repr

/-- A burst outstanding (R282): a read of n units under a list's compression and format, a write of units, a descriptor fetch
of a read or a write list. -/
inductive BurstKind where
  | read (n : Nat) (cmp : BitVec 8) (bf16 : Bool)
  | write (units : List WUnit)
  | desc (write : Bool)
deriving DecidableEq, Repr

structure Burst where
  kind : BurstKind := .desc false
  addr : Nat := 0
deriving DecidableEq, Repr

/-- Where a list walk stands (R276): descriptor, row, next unit or token of the row. -/
structure Walk where
  d : Nat := 0
  row : Nat := 0
  u : Nat := 0
deriving DecidableEq, Repr

/-- A stream engine (13, SE_ENG). -/
structure Engine where
  hasRead : Bool := false
  hasWrite : Bool := false
  rlist : StreamList := {}
  wlist : StreamList := {}
  fetch : Walk := {}
  delivered : Nat := 0
  rbuf : List Token := []
  captured : List Nat := []
  wwalk : Walk := {}
  /-- tokens taken and not yet compressed, units waiting to be written -/
  wpart : List Token := []
  wbuf : List WUnit := []
  discardRow : Bool := false
  bursts : List Burst := []
  /-- descriptors fetched of the list being read ahead, and of the write list -/
  descFetched : Nat := 0
  wdescFetched : Nat := 0
  drop : Word := 0
  rbase : BitVec 36 := 0
  szl : BitVec 5 := 0
  full : Bool := false
  shRbase : BitVec 36 := 0
  shSzl : BitVec 5 := 0
  shFull : Bool := false
  pending : Bool := false
  rwp : Word := 0
  rrp : Word := 0
  /-- ring bytes taken up beyond RWP by rows not yet written -/
  capQueued : Nat := 0
  discStep : Bool := false
  nextFetch : Bool := false
deriving DecidableEq, Repr

/-- The stream engines' common registers and the arbiter (R285-R288). -/
structure Se where
  eng : AMap Engine := []
  warm : BitVec 8 := 0x10
  force : Bool := false
  rd : BitVec 6 := 32
  wr : BitVec 6 := 24
  rem : BitVec 6 := 8
  shRd : BitVec 6 := 32
  shWr : BitVec 6 := 24
  shRem : BitVec 6 := 8
  pending : Bool := false
  frameSlot : Nat := 0
  rrRd : Nat := 15
  rrWr : Nat := 15
  /-- requester granted last: 0 none, 1 read, 2 write, 3 remote, and the engine -/
  granted : Nat × Nat := (0, 0)
deriving DecidableEq, Repr

/-- The memory controller (R289-R295). -/
structure Mc where
  pkgsz : BitVec 4 := 0
  ranks : BitVec 2 := 0
  rate : BitVec 2 := 0
  chok : BitVec 8 := 0
  trained : Bool := false
  ready : Bool := false
  cecnt : Word := 0
  uecnt : Word := 0
  errAddr : BitVec 36 := 0
  errUe : Bool := false
  ceStep : Bool := false
  rateReq : Option (BitVec 2) := none
  quiesced : Bool := false
  /-- LPDDR6 payload bytes and the side bits (BSEQ, BUB) of each 16-byte unit -/
  mem : List Host.Cell := []
  side : AMap (BitVec 5) := []
deriving DecidableEq, Repr

/-- GLB registers (R435). -/
structure Glb where
  scratch : Word := 0
  violAddr : BitVec 36 := 0
  violSpace : BitVec 2 := 0
  violReq : BitVec 20 := 0
  violCode : BitVec 16 := 0
  violCnt : Word := 0
  stepping : Config.Stepping := Config.stepping
  gradeI : Bool := Config.grade
deriving DecidableEq, Repr

/-- What the device last answered to a reader (model's own field): none, a word, bytes with the poison mark, a Completer Abort, a bus
error to a management core, an error response on the JTAG port (R438), Configuration Request Retry Status (R419), a NACK on
PMBus (R458). -/
inductive Answer where
  | none
  | word (w : Word)
  | bytes (bs : List Byte) (poisoned : Bool)
  | abort
  | busError
  | jtagError
  | retry
  | nack
deriving DecidableEq, Repr

/-- The whole device, and the queue of commands that wait. -/
structure State where
  pending : List Instr := []
  /-- nanoseconds since power-on reset, and what EPOCH has set device time ahead of them (R50, R372) -/
  devTime : Nat := 0
  timeOff : Nat := 0
  tiles : AMap GridTile := []
  edges : AMap EdgeTile := []
  beds : AMap BedState := []
  sels : AMap BedSel := []
  pace : Pace := {}
  cfg : Cfg := {}
  ic : Ic := {}
  mbx : AMap Mbox := []
  hq : Hq := {}
  hostOut : List HostReq := []
  lk : Lk := {}
  tw : Tw := {}
  flt : Flt := {}
  pwr : Pwr := {}
  sec : Sec := {}
  sp : AMap SensorPort := []
  nce : Nce := {}
  pp : Pp := {}
  se : Se := {}
  mc : Mc := {}
  glb : Glb := {}
  /-- per agent latches of the LO reads (R67, R437): key agent x 2^26 + offset of the HI register -/
  latches : AMap Word := []
  answer : Answer := .none
  free : Nat := 0
deriving DecidableEq, Repr

/-- The device right after power-on reset with no command waiting. -/
def State.reset : State := {}

end Sys2Proof.Machine
end

