-- ==== Sys2Proof/Machine/Store.lean ====
section
/-! DEFINITION. Sparse arrays, LPDDR6 cells, bytes and bit fields: the small operations every other file uses. -/

namespace Sys2Proof.Machine

/-! ## Sparse arrays -/

/-- The value at a key, d where none is listed. -/
def mget {α : Type} (d : α) : AMap α → Nat → α
  | [], _ => d
  | (i, v) :: r, k => if i = k then v else mget d r k

/-- Delist a key. -/
def mdel {α : Type} (m : AMap α) (k : Nat) : AMap α := m.filter fun p => p.1 != k

/-- List a key before the first greater one. -/
def mins {α : Type} : AMap α → Nat → α → AMap α
  | [], k, v => [(k, v)]
  | (i, x) :: r, k, v => if k < i then (k, v) :: (i, x) :: r else (i, x) :: mins r k v

/-- Write a value at a key, keeping the canonical form: keys rising, the default not listed. -/
def mset {α : Type} [DecidableEq α] (d : α) (m : AMap α) (k : Nat) (v : α) : AMap α :=
  if v = d then mdel m k else mins (mdel m k) k v

/-- Change the value at a key. -/
def mmod {α : Type} [DecidableEq α] (d : α) (m : AMap α) (k : Nat) (f : α → α) : AMap α := mset d m k (f (mget d m k))

/-- Apply a function to every listed entry of a sparse array. -/
def mapAll {α : Type} [DecidableEq α] (d : α) : AMap α → (Nat → α → α) → AMap α
  | [], _ => []
  | (i, v) :: r, f => mset d (mapAll d r f) i (f i v)

/-- Keys strictly rising, starting above a bound. -/
def mRising {α : Type} : Nat → AMap α → Bool
  | _, [] => true
  | lo, (i, _) :: r => decide (lo ≤ i) && mRising (i + 1) r

/-- The canonical form of a sparse array with one default. -/
def mwf {α : Type} [DecidableEq α] (d : α) (m : AMap α) : Bool := mRising 0 m && m.all (fun p => decide (p.2 ≠ d))

/-! ## LPDDR6 (R292): an unlisted byte reads 0 (log entry 5, DESIGN CHOICE) -/

/-- What an unlisted LPDDR6 byte reads as. -/
def memDefault : Byte := 0

/-- One byte of LPDDR6. -/
def memGet (m : List Host.Cell) (a : Nat) : Byte := mget memDefault m a

/-- Write one byte. -/
def memSet (m : List Host.Cell) (a : Nat) (b : Byte) : List Host.Cell := mset memDefault m a b

/-- Read n bytes from a. -/
def memRead (m : List Host.Cell) (a : Nat) : Nat → List Byte
  | 0 => []
  | n + 1 => memGet m a :: memRead m (a + 1) n

/-- Write bytes from a. -/
def memWrite (m : List Host.Cell) (a : Nat) : List Byte → List Host.Cell
  | [] => m
  | b :: bs => memWrite (memSet m a b) (a + 1) bs

/-- The canonical form of LPDDR6. -/
abbrev memoryWf (m : List Host.Cell) : Bool := mwf memDefault m

/-! ## Numbers, bytes and bit fields (R5: little-endian) -/

/-- Bits [lo + len - 1 : lo] of a number. -/
def bits (w lo len : Nat) : Nat := w / 2 ^ lo % 2 ^ len

/-- Bit i of a number. -/
def bitAt (w i : Nat) : Bool := w / 2 ^ i % 2 == 1

/-- A number's low n bits read as two's complement. -/
def signed (n w : Nat) : Int := if w % 2 ^ n < 2 ^ (n - 1) then (w % 2 ^ n : Int) else (w % 2 ^ n : Int) - 2 ^ n

/-- Fields laid into a word: place and value. -/
def packN : List (Nat × Nat) → Nat
  | [] => 0
  | (lo, v) :: r => v * 2 ^ lo + packN r

/-- A 32-bit register from its fields. -/
def packW (fs : List (Nat × Nat)) : Word := BitVec.ofNat 32 (packN fs)

/-- Bytes read as a little-endian number. -/
def leNat : List Byte → Nat
  | [] => 0
  | b :: r => b.toNat + 256 * leNat r

/-- A number as n little-endian bytes. -/
def natLe : Nat → Nat → List Byte
  | 0, _ => []
  | n + 1, v => BitVec.ofNat 8 v :: natLe n (v / 256)

/-- n bytes of a list from a place. -/
def slice (bs : List Byte) (off n : Nat) : List Byte := (bs.drop off).take n

/-- The little-endian number of n bytes from a place. -/
def numAt (bs : List Byte) (off n : Nat) : Nat := leNat (slice bs off n)

/-- Are n bytes from a place all 0? -/
def zeroAt (bs : List Byte) (off n : Nat) : Bool := (slice bs off n).all (· == 0)

/-- Replace bytes from a place. -/
def putAt (bs : List Byte) (off : Nat) (v : List Byte) : List Byte := bs.take off ++ v ++ bs.drop (off + v.length)

/-- Words of k bytes each. -/
def leWords (k : Nat) : Nat → List Byte → List Nat
  | 0, _ => []
  | n + 1, bs => leNat (bs.take k) :: leWords k n (bs.drop k)

def b2n (b : Bool) : Nat := if b then 1 else 0

/-- A counter that saturates at all ones. -/
def satInc {n : Nat} (w : BitVec n) : BitVec n := if w.toNat + 1 < 2 ^ n then w + 1 else w

/-- A counter advanced by k, saturating at all ones. -/
def satAdd {n : Nat} (w : BitVec n) (k : Nat) : BitVec n := BitVec.ofNat n (min (w.toNat + k) (2 ^ n - 1))

/-- A number cut to n bits by saturation. -/
def satN (n v : Nat) : Nat := min v (2 ^ n - 1)

/-- The value with one bit set or cleared. -/
def putBit {n : Nat} (w : BitVec n) (i : Nat) (b : Bool) : BitVec n :=
  if b then w ||| BitVec.ofNat n (2 ^ i) else w &&& ~~~ BitVec.ofNat n (2 ^ i)

/-- Replace an entry of a list. -/
def lset {α : Type} (l : List α) (i : Nat) (v : α) : List α := l.set i v

/-- Insert before the first entry whose key is not lower. -/
def insertBy {α : Type} (key : α → Nat) (x : α) : List α → List α
  | [] => [x]
  | y :: r => if key x ≤ key y then x :: y :: r else y :: insertBy key x r

/-- Sort by a key, equal keys in their order. -/
def sortBy {α : Type} (key : α → Nat) : List α → List α
  | [] => []
  | x :: r => insertBy key x (sortBy key r)

/-- The entry of a list, d beyond its end. -/
def lget {α : Type} (d : α) (l : List α) (i : Nat) : α := l.getD i d

/-- The number of ones of a byte is odd. -/
def oddByte (b : Nat) : Bool :=
  (bits b 0 1 + bits b 1 1 + bits b 2 1 + bits b 3 1 + bits b 4 1 + bits b 5 1 + bits b 6 1 + bits b 7 1) % 2 == 1

end Sys2Proof.Machine
end

