-- ==== Sys2Proof/Machine/Operands.lean ====
section
/-! DEFINITION. What a command's operands are made of: exact fractions, the floating-point formats, the one rounding
rule, levels, tokens and their payload layouts, compressed blocks and instruction words (02, 04). -/

namespace Sys2Proof.Machine

/-! ## Exact values -/

/-- An exact value num / den, den positive. -/
structure Frac where
  num : Int := 0
  den : Nat := 1
deriving DecidableEq, Repr

def Frac.ofInt (i : Int) : Frac := { num := i }

def Frac.add (x y : Frac) : Frac :=
  if x.den = y.den then { num := x.num + y.num, den := x.den }
  else { num := x.num * y.den + y.num * x.den, den := x.den * y.den }

def Frac.neg (x : Frac) : Frac := { num := -x.num, den := x.den }

def Frac.sub (x y : Frac) : Frac := x.add y.neg

def Frac.mul (x y : Frac) : Frac := { num := x.num * y.num, den := x.den * y.den }

/-- The quotient; the callers divide by values other than 0. -/
def Frac.div (x y : Frac) : Frac :=
  { num := if y.num < 0 then -(x.num * y.den) else x.num * y.den, den := x.den * y.num.natAbs }

def Frac.abs (x : Frac) : Frac := { num := x.num.natAbs, den := x.den }

def Frac.isZero (x : Frac) : Bool := x.num == 0

def Frac.lt (x y : Frac) : Bool := decide (x.num * y.den < y.num * x.den)

def Frac.le (x y : Frac) : Bool := decide (x.num * y.den ≤ y.num * x.den)

def Frac.eq (x y : Frac) : Bool := x.num * y.den == y.num * x.den

def Frac.max (x y : Frac) : Frac := if x.lt y then y else x

def Frac.min (x y : Frac) : Frac := if y.lt x then y else x

/-- 2 to an integer power, as a fraction. -/
def pow2 (e : Int) : Frac := if 0 ≤ e then { num := 2 ^ e.toNat } else { num := 1, den := 2 ^ (-e).toNat }

/-- floor(log2 x) of a positive fraction. -/
def Frac.log2 (x : Frac) : Int :=
  let e : Int := (Nat.log2 x.num.natAbs : Int) - (Nat.log2 x.den : Int)
  if (pow2 e).le x.abs then e else e - 1

/-- Round to the nearest integer, halves away from 0 (R73). -/
def Frac.round (x : Frac) : Int :=
  let m : Nat := (2 * x.num.natAbs + x.den) / (2 * x.den)
  if x.num < 0 then -(m : Int) else m

/-- floor of a fraction. -/
def Frac.floor (x : Frac) : Int := Int.fdiv x.num x.den

/-! ## Floating-point formats (R69, Table NUM-1) -/

inductive FloatFmt where
  | fp32 | fp16 | bf16 | e4m3
deriving DecidableEq, Repr

def FloatFmt.fracBits : FloatFmt → Nat
  | .fp32 => 23 | .fp16 => 10 | .bf16 => 7 | .e4m3 => 3

def FloatFmt.bias : FloatFmt → Nat
  | .fp32 => 127 | .fp16 => 15 | .bf16 => 127 | .e4m3 => 7

def FloatFmt.width : FloatFmt → Nat
  | .fp32 => 32 | .fp16 => 16 | .bf16 => 16 | .e4m3 => 8

/-- The pattern of the largest finite value. -/
def FloatFmt.maxBits : FloatFmt → Nat
  | .fp32 => 0x7F7FFFFF | .fp16 => 0x7BFF | .bf16 => 0x7F7F | .e4m3 => 0x7E

def FloatFmt.signBit (f : FloatFmt) : Nat := 2 ^ (f.width - 1)

/-- The pattern without its sign. -/
def FloatFmt.magnitude (f : FloatFmt) (w : Nat) : Nat := w % f.signBit

/-- Is the pattern an infinity or a NaN? -/
def FloatFmt.nonFinite (f : FloatFmt) (w : Nat) : Bool := decide (f.maxBits < f.magnitude w)

/-- The pattern a consumer takes in place of an operand (R72): an infinity is the largest finite value of its sign,
a NaN is +0. -/
def FloatFmt.finite (f : FloatFmt) (w : Nat) : Nat :=
  if f.nonFinite w then
    (if f = .e4m3 then 0
     else if f.magnitude w = f.maxBits + 1 then w - 1 else 0)
  else w

/-- The exact value of a finite pattern. -/
def FloatFmt.value (f : FloatFmt) (w : Nat) : Frac :=
  let m := f.magnitude w
  let e := m / 2 ^ f.fracBits
  let fr := m % 2 ^ f.fracBits
  let sig : Nat := if e = 0 then fr else fr + 2 ^ f.fracBits
  let ex : Int := (if e = 0 then 1 else (e : Int)) - f.bias - f.fracBits
  let v := (pow2 ex).mul (Frac.ofInt sig)
  if f.signBit ≤ w % 2 ^ f.width then v.neg else v

/-- The value of an operand as consumed (R72). -/
def FloatFmt.operand (f : FloatFmt) (w : Nat) : Frac := f.value (f.finite w)

/-- Round an exact value into a format (R70, R71, R73): the pattern, and whether the rounded value lay out of range. -/
def FloatFmt.roundSat (f : FloatFmt) (x : Frac) : Nat × Bool :=
  if x.num = 0 then (0, false)
  else
    let e := x.abs.log2
    let emin : Int := 1 - f.bias
    let q : Int := (if e < emin then emin else e) - f.fracBits
    let m : Nat := (x.abs.div (pow2 q)).round.natAbs
    let w : Nat := ((q + f.fracBits + f.bias - 1).toNat) * 2 ^ f.fracBits + m
    let sat := decide (f.maxBits < w)
    let w' := if sat then f.maxBits else w
    (if x.num < 0 then f.signBit + w' else w', sat)

def FloatFmt.round (f : FloatFmt) (x : Frac) : Nat := (f.roundSat x).1

/-- FP32 arithmetic on patterns (R70, R71, R73). -/
def fadd32 (a b : Nat) : Nat := FloatFmt.fp32.round ((FloatFmt.fp32.value a).add (FloatFmt.fp32.value b))
def fsub32 (a b : Nat) : Nat := FloatFmt.fp32.round ((FloatFmt.fp32.value a).sub (FloatFmt.fp32.value b))
def fmul32 (a b : Nat) : Nat := FloatFmt.fp32.round ((FloatFmt.fp32.value a).mul (FloatFmt.fp32.value b))

/-- Convert a finite pattern from one format to another. -/
def convert (src dst : FloatFmt) (w : Nat) : Nat := dst.round (src.value w)

/-- An activation format: BF16 or FP16. -/
def actFmt (bf16 : Bool) : FloatFmt := if bf16 then .bf16 else .fp16

/-- The format of a two-bit field AF or OF: 0 FP16, 1 BF16, 2 FP32. -/
def fmtOfCode (c : Nat) : FloatFmt := if c = 0 then .fp16 else if c = 1 then .bf16 else .fp32

/-- Nearest end of a range. -/
def clampInt (lo hi x : Int) : Int := if x < lo then lo else if hi < x then hi else x

/-- The quantising conversion (R74, R81) of an exact value with a scale to a level: level and saturation. -/
def quantLevel (lo hi : Int) (x s : Frac) : Int × Bool :=
  if s.isZero then (0, !x.isZero)
  else
    let r := (x.div s).round
    (clampInt lo hi r, decide (r < lo) || decide (hi < r))

/-- The quantising conversion to E4M3 (R74, R81): 448 is the greatest value of the format, so every quotient beyond it saturates and
is counted, also one that lies nearer to 448 than to the next step of the grid (Example NUM-1: 460.0; DEDUCED, log entry 80). -/
def quantT8 (x s : Frac) : Nat × Bool :=
  if s.isZero then (0, !x.isZero)
  else
    let q := x.div s
    let r := FloatFmt.e4m3.roundSat q
    (r.1, r.2 || (Frac.ofInt 448).lt q.abs)

/-! ## Tokens (R19-R22) -/

/-- The parity bits of a payload (R20). -/
def parityOf (p : BitVec 128) : BitVec 16 :=
  BitVec.ofNat 16 (packN ((List.range 16).map fun j => (j, b2n (oddByte (bits p.toNat (8 * j) 8)))))

/-- Is PAR right? -/
def tokParOk (t : Token) : Bool := t.par == parityOf t.payload

def markRank : Marker → Nat
  | .none => 0 | .stepEnd => 1 | .sectionEnd => 2 | .taskEnd => 3

def markOfRank : Nat → Marker
  | 0 => .none | 1 => .stepEnd | 2 => .sectionEnd | _ => .taskEnd

/-- The higher-ranked marker (R22). -/
def markMax (a b : Marker) : Marker := if markRank a < markRank b then b else a

/-- The highest-ranked marker of some tokens. -/
def maxMark (ts : List Token) : Marker := ts.foldl (fun m t => markMax m t.mark) .none

/-- A data token with the parity its producer generates. -/
def mkToken (payload : BitVec 128) (mark : Marker) (ctx : BitVec 2) (bseq : BitVec 4) : Token :=
  { payload := payload, par := parityOf payload, bub := false, mark := mark, ctx := ctx, bseq := bseq }

/-- A bubble (R21). -/
def mkBubble (mark : Marker) (ctx : BitVec 2) (bseq : BitVec 4) : Token :=
  { bub := true, mark := mark, ctx := ctx, bseq := bseq }

/-- The payload an operation works on: a bubble's is zero. -/
def tokPay (t : Token) : Nat := if t.bub then 0 else t.payload.toNat

/-- Element j of width n of a token's payload (Table NUM-5). -/
def tokElem (t : Token) (n j : Nat) : Nat := bits (tokPay t) (n * j) n

/-- A payload from its elements of width n. -/
def mkPayload (n : Nat) (es : List Nat) : BitVec 128 :=
  BitVec.ofNat 128 (packN (es.zipIdx.map fun p => (n * p.2, p.1 % 2 ^ n)))

/-- The payload bytes. -/
def payBytes (p : BitVec 128) : List Byte := natLe 16 p.toNat

/-- The largest magnitude of a list. -/
def maxAbs (xs : List Frac) : Frac := xs.foldl (fun (m : Frac) x => m.max x.abs) {}

/-! ## Compressed blocks (R84-R86) -/

/-- The encoder of R85: source values to the block's bits. -/
def encodeBlock (wide : Bool) (xs : List Frac) : Nat :=
  let mx := maxAbs xs
  let fmt : Nat := if wide then 0x21 else 0x41
  if mx.isZero then fmt * 256
  else
    let e := mx.log2
    let ee : Int := if e + 127 < 1 then 1 else e + 127
    if wide then
      let m := fun (x : Frac) => (clampInt (-64) 63 (x.div (pow2 (ee - 132))).round) % 128
      packN ((0, ee.toNat) :: (8, fmt) :: xs.zipIdx.map fun p => (32 + 7 * p.2, (m p.1).toNat))
    else
      let sk : Nat → Nat := fun k =>
        let g := maxAbs ((xs.drop (4 * k)).take 4)
        if g.isZero then 3 else (if e - g.log2 < 3 then (e - g.log2).toNat else 3)
      let m := fun (j : Nat) (x : Frac) =>
        (clampInt (-4) 3 (x.div (pow2 (ee - 129 - (sk (j / 4) : Int)))).round) % 8
      packN ((0, ee.toNat) :: (8, fmt) :: ((List.range 8).map fun k => (16 + 2 * k, sk k))
        ++ xs.zipIdx.map fun p => (32 + 3 * p.2, (m p.2 p.1).toNat))

/-- Is a block malformed (R86)? -/
def blockMalformed (wide : Bool) (b : Nat) : Bool :=
  let e := bits b 0 8
  (bits b 8 8 != (if wide then 0x21 else 0x41)) || (wide && bits b 16 16 != 0) || e == 255 ||
  (e == 0 && (if wide then bits b 32 224 else bits b 32 96) != 0)

/-- The decoder of R86 into an activation format. -/
def decodeBlock (wide : Bool) (f : FloatFmt) (b : Nat) : List Nat :=
  (List.range 32).map fun j =>
    if bits b 0 8 = 0 then 0
    else if wide then f.round ((pow2 ((bits b 0 8 : Int) - 132)).mul (Frac.ofInt (signed 7 (bits b (32 + 7 * j) 7))))
    else f.round ((pow2 ((bits b 0 8 : Int) - 129 - (bits b (16 + 2 * (j / 4)) 2 : Int))).mul
      (Frac.ofInt (signed 3 (bits b (32 + 3 * j) 3))))

/-! ## Instruction words (R38, Table TRL-9) -/

def iOpc (w : BitVec 64) : Nat := bits w.toNat 56 8
def iIn (w : BitVec 64) : Nat := bits w.toNat 52 4
def iOut (w : BitVec 64) : Nat := bits w.toNat 48 4
def iPred (w : BitVec 64) : Nat := bits w.toNat 44 4
def iRep (w : BitVec 64) : Nat := bits w.toNat 32 12
def iMrk (w : BitVec 64) : Nat := bits w.toNat 30 2
def iBubm (w : BitVec 64) : Nat := bits w.toNat 28 2
def iJmp (w : BitVec 64) : Nat := bits w.toNat 20 8
def iSeq (w : BitVec 64) : Nat := bits w.toNat 18 2
def iOpnd (w : BitVec 64) : Nat := bits w.toNat 0 18

/-- The ports of a mask. -/
def maskPorts (m : Nat) : List Nat := (List.range 4).filter fun k => bitAt m k

/-! ## The plot map (R16, Table TRL-1) -/

inductive Kind where
  | s | m | f | w | q
deriving DecidableEq, Repr

/-- The kind of grid tile 32 r + c. -/
def tileKind (t : Nat) : Kind :=
  match t / 32 % 4, t % 32 % 4 with
  | 0, 1 => .m | 0, 3 => .f
  | 1, 0 => .m | 1, 2 => .w
  | 2, 1 => .m | 2, 3 => .q
  | 3, 0 => .f | 3, 2 => .m
  | _, _ => .s

/-- A number for each kind. -/
def Kind.code : Kind → Nat
  | .s => 0 | .m => 1 | .f => 2 | .w => 3 | .q => 4

end Sys2Proof.Machine
end

