-- ==== Sys2Proof/Machine/Ops.lean ====
section
/-! DEFINITION. Named access to the parts of the state, quotas and parking (R45), the least advanced tile (R64), the
loaded placement (R239) and device time (R50). -/

namespace Sys2Proof.Machine

/-! ## Access to the arrays of State -/

def State.tile (s : State) (t : Nat) : GridTile := mget {} s.tiles t
def State.setTile (s : State) (t : Nat) (g : GridTile) : State := { s with tiles := mset {} s.tiles t g }
def State.edge (s : State) (e : Nat) : EdgeTile := mget {} s.edges e
def State.setEdge (s : State) (e : Nat) (g : EdgeTile) : State := { s with edges := mset {} s.edges e g }
def State.bed (s : State) (b : Nat) : BedState := mget {} s.beds b
def State.setBed (s : State) (b : Nat) (x : BedState) : State := { s with beds := mset {} s.beds b x }
def State.port (s : State) (p : Nat) : LinkPort := mget {} s.lk.ports p
def State.setPort (s : State) (p : Nat) (x : LinkPort) : State :=
  { s with lk := { s.lk with ports := mset {} s.lk.ports p x } }
def State.ring (s : State) (n : Nat) : Ring := mget {} s.hq.rings n
def State.setRing (s : State) (n : Nat) (x : Ring) : State :=
  { s with hq := { s.hq with rings := mset {} s.hq.rings n x } }
def State.chan (s : State) (c : Nat) : StreamChan := mget {} s.hq.chans c
def State.setChan (s : State) (c : Nat) (x : StreamChan) : State :=
  { s with hq := { s.hq with chans := mset {} s.hq.chans c x } }
def State.sport (s : State) (k : Nat) : SensorPort := mget {} s.sp k
def State.setSport (s : State) (k : Nat) (x : SensorPort) : State := { s with sp := mset {} s.sp k x }
def State.engine (s : State) (k : Nat) : Engine := mget {} s.se.eng k
def State.setEngine (s : State) (k : Nat) (x : Engine) : State :=
  { s with se := { s.se with eng := mset {} s.se.eng k x } }

/-- PEER of mailbox m at reset (Table IRQ-1). -/
def mboxPeer0 (m : Nat) : BitVec 16 := if m < 4 then 0x0001 else if m = 4 then 0x0100 else if m < 7 then 0x1E00 else 0x8000

/-- DEST of mailbox m at reset: the lowest code its PEER permits (R348). -/
def mboxDest0 (m : Nat) : BitVec 4 := if m < 4 then 0 else if m = 4 then 8 else if m < 7 then 9 else 15

/-- Mailbox m as it stands after reset. -/
def mbox0 (m : Nat) : Mbox := { peer := mboxPeer0 m, dest := mboxDest0 m }

def State.mbox (s : State) (m : Nat) : Mbox := mget (mbox0 m) s.mbx m
def State.setMbox (s : State) (m : Nat) (x : Mbox) : State := { s with mbx := mset (mbox0 m) s.mbx m x }

/-- The sources that their chapters name as level-sensed (R352). -/
def levelSource (k : Nat) : Bool :=
  k == 26 || (decide (33 ≤ k) && decide (k ≤ 47) && k % 2 == 1) || (decide (68 ≤ k) && decide (k ≤ 71)) || k == 73 ||
  k == 105 || k == 106 || (decide (112 ≤ k) && decide (k ≤ 120)) || k == 126

/-- Source k as it stands after reset. -/
def source0 (k : Nat) : Source := { sense := if levelSource k then 0 else 1 }

def State.source (s : State) (k : Nat) : Source := mget (source0 k) s.ic.src k
def State.putSource (s : State) (k : Nat) (x : Source) : State :=
  { s with ic := { s.ic with src := mset (source0 k) s.ic.src k x } }
def State.target (s : State) (t : Nat) : Target := mget {} s.ic.tgt t
def State.setTarget (s : State) (t : Nat) (x : Target) : State :=
  { s with ic := { s.ic with tgt := mset {} s.ic.tgt t x } }

/-! ## Agents, times and the state of PACE -/

/-- A number for each agent: host 0, MP0-MP3 1 to 4, debug port 5. -/
def agentNo : Agent → Nat
  | .host _ => 0
  | .mp c => 1 + c.val
  | .dbg => 5

/-- REQ of R435: the requester of an access. -/
def agentReq : Agent → Nat
  | .host rid => rid.toNat
  | .mp c => 2 ^ 16 + c.val * 2 ^ 17
  | .dbg => 2 ^ 19

/-- Is a domain on (R397)? PD1 and above by number; PD0 is on whenever the device is supplied. -/
def State.domain (s : State) (d : Nat) : Bool := bitAt s.pwr.domOn.toNat d

def paceCode : PaceState → Nat
  | .idle => 0 | .running => 1 | .held => 2 | .barrier => 3 | .stopped => 4 | .aborted => 5

/-- Is PACE IDLE? -/
def State.idle (s : State) : Bool := s.pace.state == .idle

/-- Does hold stand (R51, R58)? -/
def State.holding (s : State) : Bool := s.pace.req != 0 || s.pace.state == .aborted

/-- Does the debug port's request stand (R53)? -/
def State.dbgHold (s : State) : Bool := bitAt s.pace.req.toNat 5

/-! ## The loaded placement (R238, R239, R256) -/

def emptyPlc : PlcImage := {}

/-- The loaded placement for this device. -/
def State.plc (s : State) : PlcImage :=
  match s.cfg.image with
  | some im => im.plcs.getD s.cfg.plc.toNat emptyPlc
  | none => emptyPlc

/-- Is an image loaded (CFG_LDSTAT.STATE 0x3)? -/
def State.loaded (s : State) : Bool := s.cfg.state == 3

/-- Sections of the task (SECMAP byte 0). -/
def State.nsec (s : State) : Nat := numAt s.plc.secmap 0 1

/-- LOOP of the section map. -/
def State.loops (s : State) : Bool := numAt s.plc.secmap 1 1 == 1

/-- The context of a section. -/
def State.secCtx (s : State) (k : Nat) : Nat := numAt s.plc.secmap (2 + k) 1 % 4

/-- The context of the current section (CFG_SECT.CTX). -/
def State.curCtx (s : State) : Nat := s.secCtx s.cfg.sec.toNat

/-- What the placement holds for a context. -/
def State.ctxImage (s : State) (x : Nat) : CtxImage := (s.plc.ctxs.find? (fun c => c.ctx.toNat == x)).getD {}

def State.curImage (s : State) : CtxImage := s.ctxImage s.curCtx

/-- The ADR in force (R37); 1 with no image. -/
def State.adr (s : State) : Nat :=
  match s.cfg.image with
  | some im => im.adr.toNat
  | none => 1

/-- The beds defined in the current context, by ascending bed ID. -/
def State.bedIds (s : State) : List Nat := (List.range 256).filter fun b => s.curImage.beds.any fun d => d.bed.toNat == b

/-- The claimed blocks of a bed in the current context, in ascending tile ID. -/
def State.bedBlocks (s : State) (b : Nat) : List TileBlock :=
  sortBy (fun x => x.tile.toNat) (s.curImage.blocks.filter fun k => k.claimed && k.bed.toNat == b)

/-! ## Tile identities (R242) -/

/-- The tile ID of edge tile e = 32 side + index. -/
def edgeId (e : Nat) : Nat := 0x8000 + e / 32 * 0x2000 + e % 32

/-- Is a tile ID an edge tile's? -/
def isEdgeId (i : Nat) : Bool := bitAt i 15

/-- The number of the edge tile that a tile ID names. -/
def edgeOfId (i : Nat) : Nat := bits i 13 2 * 32 + bits i 0 5

/-! ## Quotas and parking (R45, R145) -/

/-- A grid tile's context entry in force. -/
def GridTile.ctxCfg (g : GridTile) : TileCtx := mget {} g.cfg g.cur.toNat

/-- An edge tile's context entry in force. -/
def EdgeTile.ctxCfg (g : EdgeTile) : TileCtx := mget {} g.cfg g.cur.toNat

/-- The quota of a port: IP0-IP3 then OP0-OP3; an edge tile's 0 is inward and 4 outward. -/
def TileCtx.quota (c : TileCtx) (k : Nat) : Nat := lget 0 c.qport k

/-- Are all hard ports of an S tile parked? -/
def GridTile.portsParked (g : GridTile) : Bool :=
  g.s.portsOff || (List.range 8).all fun k => decide (g.ctxCfg.quota k ≤ mget 0 g.s.portCnt k)

/-- Is a grid tile parked: its core and, on an S tile, its hard ports? -/
def State.tileParked (s : State) (t : Nat) : Bool :=
  (s.tile t).parked && (tileKind t != .s || (s.tile t).portsParked)

/-- Is the tile with this tile ID parked? -/
def State.idParked (s : State) (i : Nat) : Bool :=
  if isEdgeId i then (s.edge (edgeOfId i)).parked else s.tileParked i

/-- The work count of a tile in the step (R64). -/
def State.workCount (s : State) (i : Nat) : Nat :=
  if isEdgeId i then (s.edge (edgeOfId i)).inCnt + (s.edge (edgeOfId i)).outCnt
  else if tileKind i = .s then
    (s.tile i).fired + ((List.range 8).map fun k => mget 0 (s.tile i).s.portCnt k).sum
  else (s.tile i).fired

/-- The quota a tile's work count is measured against (R64). -/
def State.workQuota (s : State) (i : Nat) : Nat :=
  if isEdgeId i then
    let c := (s.edge (edgeOfId i)).ctxCfg
    c.quota 0 + c.quota 4
  else if tileKind i = .s then
    let c := (s.tile i).ctxCfg
    c.qcore + ((List.range 8).map c.quota).sum
  else (s.tile i).ctxCfg.qcore

/-- The least advanced of some tiles: exact quotients, ties to the lowest tile ID (R64). -/
def State.leastOf (s : State) : List Nat → Option Nat
  | [] => none
  | i :: r =>
    match s.leastOf r with
    | none => some i
    | some j => if s.workCount j * s.workQuota i < s.workCount i * s.workQuota j then some j else some i

/-- The least advanced tile of a bed (R64): among its tiles that have not parked, else its lowest tile. -/
def State.leastTile (s : State) (b : Nat) : Option Nat :=
  let ids := (s.bedBlocks b).map fun k => k.tile.toNat
  match s.leastOf (ids.filter fun i => !s.idParked i) with
  | some i => some i
  | none => ids.head?

/-! ## The effective voltage step (R401) -/

/-- v_eff. -/
def Pwr.veff (p : Pwr) : Nat := min p.req.toNat (min p.vcap.toNat p.vtherm.toNat)

/-- Change the power manager; a change of v_eff makes a voltage write due. -/
def changePwr (s : State) (f : Pwr → Pwr) : State :=
  let p := f s.pwr
  { s with pwr := { p with wrDue := p.wrDue || p.veff != s.pwr.veff } }

/-- No pace hint stands any more: the voltage step goes back to the one before the first hint (R375). -/
def dropHints (s : State) : State :=
  let s1 := { s with lk := { s.lk with hints := [], hintsSeen := [], ownReq := none } }
  match s.lk.ownReq with
  | none => s1
  | some r => changePwr s1 fun p => { p with req := r }

/-! ## Time (R50) -/

/-- Device time as its register and records show it: 64 bits. -/
def State.time64 (s : State) : Nat := (s.devTime + s.timeOff) % 2 ^ 64

/-! ## The S tile's queue descriptors and bindings (R140, R142), which the snapshot and the FAB window also read -/

/-- A constant of a tile's current context. -/
def GridTile.const (g : GridTile) (k : Nat) : Nat := (mget 0 g.words (g.cur.toNat * 384 + 257 + k)).toNat

/-- The current context's routing word. -/
def GridTile.route (g : GridTile) : Nat := (mget 0 g.words (g.cur.toNat * 384 + 256)).toNat

/-- The descriptor of queue q, 0 when unused. -/
def GridTile.qdesc (g : GridTile) (q : Nat) : Nat := g.const (110 + q)

def qUsed (d : Nat) : Bool := d != 0
def qRet (d : Nat) : Bool := bitAt d 59
def qKeep (d : Nat) : Bool := bitAt d 58
def qBase (d : Nat) : Nat := bits d 43 15
def qSize (d : Nat) : Nat := 2 ^ bits d 39 4

/-- Positions count modulo 2^24 (R143). -/
def dist (a b : BitVec 24) : Nat := (a - b).toNat

def GridTile.queue (g : GridTile) (q : Nat) : Queue := mget {} g.s.queues q
def GridTile.setQueue (g : GridTile) (q : Nat) (x : Queue) : GridTile :=
  { g with s := { g.s with queues := mset {} g.s.queues q x } }

def Queue.occ (x : Queue) : Nat := dist x.a.wp x.a.fp
def Queue.avl (x : Queue) : Nat := dist x.a.wp x.a.rp
def Queue.free (x : Queue) (d : Nat) : Nat := qSize d - x.occ

/-- What a port of an S tile is bound to: none = the core, some q = queue q (R140). Ports 0-3 IP, 4-7 OP. -/
def GridTile.binding (g : GridTile) (k : Nat) : Option Nat :=
  let v := bits (g.const 126) (5 * k) 5
  if v = 0 then none else some (v - 1)

/-- The current instruction word. -/
def GridTile.instr (g : GridTile) : BitVec 64 := mget 0 g.words (g.cur.toNat * 384 + g.pc.toNat)

/-- Any port of an S tile bound? -/
def GridTile.anyBound (g : GridTile) (ks : List Nat) : Bool := ks.any fun k => (g.binding k).isSome

/-- The free values of the model are drawn one by one (log entry 4). -/
def State.drawFree (s : State) : BitVec 256 × State := (Config.freeBits s.free, { s with free := s.free + 1 })

end Sys2Proof.Machine
end

