-- ==== Sys2Proof/Machine/Wire.lean ====
section
/-! DEFINITION. What a link port's transmitter does: numbering, replay buffer, acknowledgement and credit return in every
frame (R360, R362, R365). -/

namespace Sys2Proof.Machine

/-- The VC whose credit return a frame carries: the lowest with tokens to return (R360). -/
def creditVc (p : LinkPort) : Nat := ((List.range 8).find? fun v => mget 0 p.credRet v != 0).getD 0

/-- A frame with the acknowledgement and the credit return of the moment; the return is taken off the port. -/
def stampFrame (p : LinkPort) (seq : BitVec 16) (b : FrameBody) : SentFrame × LinkPort :=
  let v := creditVc p
  let n := min (mget 0 p.credRet v) 4095
  ({ seq := seq, ack := p.rxe - 1, cretVc := v, cret := n, body := b },
   { p with credRet := mset 0 p.credRet v (mget 0 p.credRet v - n) })

/-- Send a frame that is not sequenced. -/
def sendPlain (p : LinkPort) (b : FrameBody) : LinkPort :=
  let (f, p') := stampFrame p 0 b
  { p' with sent := f :: p'.sent }

/-- Number and send a sequenced frame, keeping it in the replay buffer (R362). -/
def sendNow (now : Nat) (p : LinkPort) (b : FrameBody) : LinkPort :=
  let (f, p') := stampFrame p p.txseq b
  { p' with sent := f :: p'.sent, replay := p'.replay ++ [f], txseq := p.txseq + 1, txCount := min (2 ^ 15) (p.txCount + 1),
            ackT := if p'.replay.isEmpty then now else p'.ackT }

/-- Send a sequenced frame, or let it wait while 64 frames are outstanding (R362). -/
def sendSeq (now : Nat) (p : LinkPort) (b : FrameBody) : LinkPort :=
  if p.replay.length < 64 && p.txq.isEmpty then sendNow now p b else { p with txq := p.txq ++ [b] }

/-- Send what waits while the replay buffer has room. -/
def drainTxq (now : Nat) : List FrameBody → LinkPort → LinkPort
  | [], p => { p with txq := [] }
  | b :: r, p => if p.replay.length < 64 then drainTxq now r (sendNow now p b) else { p with txq := b :: r }

/-- Replay every outstanding frame (R362). -/
def replayAll (now : Nat) (p : LinkPort) : LinkPort :=
  { p with sent := p.replay.reverse ++ p.sent, replayCnt := satInc p.replayCnt, replays := p.replays + 1, ackT := now }

/-- Is the port in UP? -/
def LinkPort.isUp (p : LinkPort) : Bool := p.state == .up

/-- Send a sequenced frame on every port in UP that passes the test (R374). -/
def sendOnUp (s : State) (ok : Nat → Bool) (b : FrameBody) : State :=
  (List.range 4).foldl
    (fun s p => if (s.port p).isUp && ok p then s.setPort p (sendSeq s.devTime (s.port p) b) else s) s

/-! ## The bytes of a frame (R360, Table LNK-1) -/

/-- One bit of the CRC-32 of IEEE 802.3, least significant bit first. The standard is named and not restated (PRESUMED, log entry 84). -/
def crc32Bit (r : BitVec 32) : BitVec 32 := if r.getLsbD 0 then (r >>> 1) ^^^ 0xEDB88320#32 else r >>> 1

/-- One byte of it. -/
def crc32Byte (r : BitVec 32) (b : Byte) : BitVec 32 := (List.range 8).foldl (fun r _ => crc32Bit r) (r ^^^ b.zeroExtend 32)

/-- The CRC-32 of some bytes. -/
def crc32 (bs : List Byte) : BitVec 32 := ~~~(bs.foldl crc32Byte 0xFFFFFFFF#32)

/-- Bits [152:0] of a token (Table TRL-3). -/
def tokenBits (u : Token) : Nat :=
  packN [(0, u.payload.toNat), (128, u.par.toNat), (144, b2n u.bub), (145, markRank u.mark), (147, u.ctx.toNat), (149, u.bseq.toNat)]

/-- A list cut or padded with zeros to n bytes. -/
def padBytes (n : Nat) (bs : List Byte) : List Byte := (bs ++ List.replicate n 0).take n

/-- The hello record's 64 bytes with its probe (Table LNK-4). -/
def helloBytes (r : HelloRec) (probe : BitVec 64) : List Byte :=
  natLe 4 r.part.toNat ++ [r.stepping, r.adr] ++ natLe 2 r.pos.toNat ++ natLe 4 r.fwver.toNat ++ natLe 16 r.hash.toNat ++
  padBytes 16 r.secmap ++ natLe 8 r.epoch.toNat ++ [r.plc, r.port] ++ natLe 2 r.resv.toNat ++ natLe 8 probe.toNat

/-- FTYPE, and VCN with NTOK, of a body. -/
def FrameBody.head : FrameBody → List Byte
  | .idle => [0x00, 0]
  | .token vc _ ts => [0x01, BitVec.ofNat 8 (16 * vc + ts.length)]
  | .nak => [0x02, 0]
  | .hello _ _ => [0x03, 0]
  | .sync _ _ => [0x04, 0]
  | .msg _ => [0x05, 0]
  | .abort _ _ _ => [0x06, 0]

/-- STEP of a frame: 0 but in TOKEN frames. -/
def FrameBody.step : FrameBody → Nat
  | .token _ st _ => st.toNat
  | _ => 0

/-- Bytes 12 onwards (Table LNK-2), before the padding to byte 251. -/
def FrameBody.bytes : FrameBody → List Byte
  | .idle => []
  | .nak => []
  | .token _ _ ts => ts.flatMap fun u => natLe 20 (tokenBits u)
  | .hello r v => helloBytes r v
  | .sync st t => natLe 6 st.toNat ++ [0, 0] ++ natLe 8 t.toNat
  | .msg ws => ws.flatMap fun w => natLe 4 w.toNat
  | .abort o c st => natLe 2 o.toNat ++ natLe 2 c.toNat ++ natLe 6 st.toNat

/-- The 256 bytes in which a frame that `sent` holds goes out (R360). -/
def SentFrame.bytes (f : SentFrame) : List Byte :=
  let b := padBytes 252 (f.body.head ++ natLe 2 f.seq.toNat ++ natLe 2 f.ack.toNat ++ natLe 2 (f.cret + 4096 * f.cretVc) ++
    natLe 4 f.body.step ++ f.body.bytes)
  b ++ natLe 4 (crc32 b).toNat

/-- Does a port carry frames: UP, HELLO, REFUSED (R370)? -/
def LinkPort.receives (x : LinkPort) : Bool := x.state == .up || x.state == .hello || x.state == .refused

/-- Every port that has nothing else to send sends an IDLE frame, with the acknowledgement and the credit of the moment (R360). Frames
go back to back; the model sends one for each device time increment (DESIGN CHOICE, log entry 84). -/
def sendIdles (s : State) : State :=
  (List.range 4).foldl (fun s p => if (s.port p).receives then s.setPort p (sendPlain (s.port p) .idle) else s) s

end Sys2Proof.Machine
end

