-- ==== Sys2Proof/Machine/Flags.lean ====
section
/-! DEFINITION. The flags of the block: interrupt sources and their arming (R352, R353), the generation of events
(R461), the fault log (R394), the abort snapshot (R64) and the abort (R58, R374). -/

namespace Sys2Proof.Machine

/-! ## Interrupt sources -/

/-- Effective host bit and MP bit of a source (R353). -/
def Source.effHost (x : Source) : Bool := x.pend && !x.maskHost
def Source.effMp (x : Source) : Bool := x.pend && !x.maskMp

/-- The first enabled of n targets after the last used, round robin (R353). -/
def nextTarget (n last : Nat) (enabled : Nat → Bool) : Option Nat :=
  ((List.range n).map fun i => (last + 1 + i) % n).find? enabled

/-- One request at a target: the set's count, its oldest time and its highest priority (R354). -/
def requestAt (s : State) (t : Nat) (prio : BitVec 4) : State :=
  let x := s.target t
  s.setTarget t { x with
    waiting := x.waiting + 1
    oldest := if x.waiting = 0 then s.devTime else x.oldest
    wprio := if x.waiting = 0 || decide (x.wprio < prio) then prio else x.wprio }

/-- Arm a source towards the host (R353). -/
def armHost (s : State) (k : Nat) : State :=
  let x := s.source k
  match nextTarget 64 x.lastHost (fun v => bitAt x.vec.toNat v) with
  | none => s
  | some v => requestAt (s.putSource k { x with lastHost := v }) v x.prio

/-- Arm a source towards the management cores (R353). -/
def armMp (s : State) (k : Nat) : State :=
  let x := s.source k
  match nextTarget 4 x.lastMp (fun v => bitAt x.mpen.toNat v) with
  | none => s
  | some v => requestAt (s.putSource k { x with lastMp := v }) (64 + v) x.prio

/-- Give a source a new value; each effective bit that goes from 0 to 1 arms (R353). -/
def State.setSource (s : State) (k : Nat) (x : Source) : State :=
  let o := s.source k
  let s1 := s.putSource k x
  let s2 := if !o.effHost && x.effHost then armHost s1 k else s1
  if !o.effMp && x.effMp then armMp s2 k else s2

/-- One raise of an event source (R352). -/
def raiseSource (s : State) (k : Nat) : State :=
  let x := s.source k
  s.setSource k { x with pend := true, cnt := satInc x.cnt }

/-! ## Events -/

/-- What an event says, beside its code. -/
structure EvArgs where
  srcid : Nat := 0
  addr : Nat := 0
  detail : Nat := 0
  tile : Nat := 0xFFFF
  ctx : Nat := 0xFF
  instr : Nat := 0xFFFF
  count : Nat := 0
  req : Nat := 0
  more : List Nat := []
deriving DecidableEq, Repr

/-- DETAIL from its first and second value (R463). -/
def two (a b : Nat) : Nat := a % 2 ^ 32 + b % 2 ^ 32 * 2 ^ 32

/-- Severities: 0 info, 1 warning, 2 task-abort, 3 device-fatal (Table EVT-3). -/
def evSev (c : Nat) : Nat :=
  if c ∈ [0x030E, 0x0706, 0x0B05, 0x0B0C, 0x0B11, 0x0B12, 0x0C09, 0x0D09] then 3
  else if c ∈ [0x0208, 0x020A, 0x020B, 0x0601, 0x0604, 0x0611, 0x0612, 0x0701, 0x0702, 0x0804, 0x080A, 0x0A03, 0x0A06,
      0x0A08, 0x0C0A, 0x0D04, 0x0D05, 0x0D06, 0x0D0B, 0x0D0C, 0x0E03] then 2
  else if (0x0401 ≤ c ∧ c ≤ 0x0405) ∨ (0x0407 ≤ c ∧ c ≤ 0x040C) ∨ (0x0501 ≤ c ∧ c ≤ 0x0506) ∨
      (0x0905 ≤ c ∧ c ≤ 0x0909) then 2
  else if c ∈ [0x0201, 0x0406, 0x0603, 0x0705, 0x0901, 0x0903, 0x0A09, 0x0B01, 0x0B04, 0x0B09, 0x0B0A, 0x0B0F, 0x0C01,
      0x0C04, 0x0C07, 0x0D07, 0x0D08, 0x0D0A, 0x0E01, 0x0F04] then 0
  else 1

/-- Source classes (Table EVT-3). -/
def evClass (c : Nat) : Nat :=
  if c ∈ [0x0201, 0x0202, 0x0205, 0x0204, 0x0206, 0x020B, 0x0209] then 6
  else if (0x0401 ≤ c ∧ c ≤ 0x040C) ∨ (0x0501 ≤ c ∧ c ≤ 0x0506) ∨ c ∈ [0x0601, 0x0604, 0x0602, 0x0D04] then 2
  else if c ∈ [0x040D, 0x040E, 0x0603, 0x0610, 0x0611] then 1
  else if c ∈ [0x0612, 0x0701, 0x0702, 0x0707, 0x0709] then 4
  else if c ∈ [0x0704, 0x0705, 0x0706] then 0xA
  else if (0x0801 ≤ c ∧ c ≤ 0x080A) ∨ c = 0x0B10 then 3
  else if 0x0901 ≤ c ∧ c ≤ 0x090B then 5
  else if c = 0x0B0E then 9
  else if c ∈ [0x0F01, 0x0F02, 0x0F03] then 7
  else 0

/-- Interrupt sources (Table EVT-3; the alternatives of one row as the originating tables give them). -/
def evSource (c srcid : Nat) : Nat :=
  if c ∈ [0x0101, 0x0102, 0x0103, 0x0104, 0x0F08] then 124
  else if c ∈ [0x0201, 0x0205, 0x0209, 0x020A] then 1
  else if c = 0x0202 then 10
  else if c = 0x0203 then 11
  else if c ∈ [0x0204, 0x0206, 0x0207, 0x0208, 0x020B] then 12
  else if c / 256 = 3 then 84
  else if c ∈ [0x0406, 0x040D, 0x040E] then 81
  else if c / 256 = 4 then 80
  else if c / 256 = 5 then 82
  else if c / 256 = 6 then 83
  else if c ∈ [0x0701, 0x0702] then 48
  else if c ∈ [0x0704, 0x0705] then 49
  else if c = 0x0706 then 50
  else if c = 0x0708 then 52
  else if c / 256 = 7 then 51
  else if c / 256 = 8 then 32 + 2 * (srcid % 8)
  else if c / 256 = 9 then 64 + srcid % 4
  else if c ∈ [0x0A04, 0x0A05] then 74
  else if c / 256 = 0xA then 72
  else if c ∈ [0x0B01, 0x0B02] then 96
  else if c ∈ [0x0B03, 0x0B04] then 97
  else if c = 0x0B05 then 98
  else if c = 0x0B06 then 99
  else if c ∈ [0x0B07, 0x0B08] then 100
  else if c ∈ [0x0B09, 0x0B0A, 0x0B0F] then 101
  else if c ∈ [0x0B0D, 0x0B0E] then 103
  else if c = 0x0B10 then 104
  else if c / 256 = 0xB then 102
  else if c ∈ [0x0C06, 0x0C07] then 126
  else if c / 256 = 0xC then 123
  else if c ∈ [0x0D01, 0x0D0E] then 24
  else if c = 0x0D02 then 17
  else if c = 0x0D03 then 18
  else if c ∈ [0x0D04, 0x0D0C] then 21
  else if c ∈ [0x0D05, 0x0D0B] then 19
  else if c = 0x0D06 then 20
  else if c = 0x0D07 then 22
  else if c ∈ [0x0D08, 0x0D0A] then 23
  else if c = 0x0D09 then 25
  else if c / 256 = 0xE then 85
  else if c ∈ [0x0F01, 0x0F02, 0x0F03] then 121
  else if c ∈ [0x0F05, 0x0F06] then 122
  else 125

/-- Put a record into the event queue of R336, or lose it. -/
def queueRecord (s : State) (r : EventRec) : State :=
  if s.hq.evq.length < 256 then
    let s1 := { s with hq := { s.hq with evq := s.hq.evq ++ [r] } }
    if s1.hq.evq.length = 129 then raiseSource s1 11 else s1
  else
    raiseSource { s with hq := { s.hq with evlost := satInc s.hq.evlost, lostNow := satInc s.hq.lostNow } } 11

/-- The record of an event of this moment (Table HST-6). -/
def mkRecord (s : State) (code : Nat) (a : EvArgs) : EventRec :=
  { code := BitVec.ofNat 16 code, sev := BitVec.ofNat 8 (evSev code), srccls := BitVec.ofNat 8 (evClass code)
    srcid := BitVec.ofNat 16 a.srcid, step := s.pace.step, addr := BitVec.ofNat 64 a.addr
    detail := BitVec.ofNat 64 a.detail, eseq := s.hq.eseq, more := a.more }

/-- Generate an event but for its fault-log entry and its abort (R335, R336, R461). -/
def eventBase (s : State) (code : Nat) (a : EvArgs) : State :=
  let r := mkRecord s code a
  raiseSource (queueRecord { s with hq := { s.hq with eseq := s.hq.eseq + 1 } } r) (evSource code a.srcid)

/-- Drop the oldest entry whose severity is below task-abort (R394). -/
def dropMinor : List LogEntry → Option (List LogEntry)
  | [] => none
  | e :: r => if e.ev.sev < 2 then some r else (dropMinor r).map (e :: ·)

/-- Enter a record into the fault log (R394); source 124 rises for each entry added (R396). -/
def logEntry (s : State) (e : LogEntry) : State :=
  if s.flt.log.length < 512 then raiseSource { s with flt := { s.flt with log := s.flt.log ++ [e] } } 124
  else
    match dropMinor s.flt.log with
    | some l => raiseSource { s with flt := { s.flt with log := l ++ [e] } } 124
    | none => eventBase { s with flt := { s.flt with lost := satInc s.flt.lost } } 0x0F08 {}

/-! ## PACE's registers, which the snapshot freezes (R64) and the register map reads -/

/-- A register of one field from bit 0. -/
def regOf {n : Nat} (v : BitVec n) : Option Word := some (BitVec.ofNat 32 v.toNat)

/-- A register from its fields. -/
def fields (fs : List (Nat × Nat)) : Option Word := some (packW fs)

/-- A number in a register, saturating. -/
def satReg (v : Nat) : Option Word := some (BitVec.ofNat 32 (satN 32 v))

/-- The low and the high half of a 64-bit number. -/
def loHalf (v : Nat) : Word := BitVec.ofNat 32 v
def hiHalf (v : Nat) : Word := BitVec.ofNat 32 (v / 2 ^ 32)

/-- A register of PACE by its offset in the block (R67); hi gives the value of a HI register by its BAR0 offset. -/
def paceWord (s : State) (hi : Nat → Word) (o : Nat) : Option Word :=
  let p := s.pace
  match o with
  | 0x000 => regOf p.mode
  | 0x004 => fields [(8, p.req.toNat), (4, b2n s.holding), (0, paceCode p.state)]
  | 0x008 => some (loHalf p.step.toNat)
  | 0x00C => some (hi 0x1000C)
  | 0x010 => some (loHalf s.time64)
  | 0x014 => some (hi 0x10014)
  | 0x020 => regOf p.act.period
  | 0x024 => regOf p.act.pmin
  | 0x028 => regOf p.act.window
  | 0x02C => regOf p.act.hallow
  | 0x030 => regOf p.act.laglim
  | 0x03C => fields [(0, b2n p.pending)]
  | 0x040 => regOf p.wdog
  | 0x044 => regOf p.holdlim
  | 0x04C => fields [(0, b2n p.swhold)]
  | 0x050 => regOf p.holdCount
  | 0x054 => some (loHalf p.holdNs.toNat)
  | 0x058 => some (hi 0x10058)
  | 0x05C => regOf p.holdLast
  | 0x060 => fields [(16, p.lagMiss.toNat), (0, p.stepMiss.toNat)]
  | 0x064 => regOf p.lastBusy
  | 0x068 => regOf p.maxBusy
  | 0x06C => satReg p.lag
  | 0x070 => regOf p.tick
  | 0x074 => some (loHalf p.stopStep.toNat)
  | 0x078 => fields [(31, b2n p.stopEn), (0, bits p.stopStep.toNat 32 16)]
  | 0x820 => regOf p.shadow.period
  | 0x824 => regOf p.shadow.pmin
  | 0x828 => regOf p.shadow.window
  | 0x82C => regOf p.shadow.hallow
  | 0x830 => regOf p.shadow.laglim
  | _ => none

/-- PACE's registers at offsets 0x000 to 0x07C at this instant, HI registers with the true upper half (Table TWN-8). -/
def frozenPace (s : State) : List Word :=
  let hi := fun off => if off = 0x1000C then hiHalf s.pace.step.toNat else if off = 0x10014 then hiHalf s.time64 else hiHalf s.pace.holdNs.toNat
  (List.range 32).map fun i => (paceWord s hi (4 * i)).getD 0

/-! ## The abort -/

/-- The state of each defined bed for the snapshot (R64). -/
def snapBeds (s : State) : List BedSnap :=
  s.bedIds.map fun b =>
    let t := (s.leastTile b).getD 0xFFFF
    { bed := b, parked := (s.bedBlocks b).all fun k => s.idParked k.tile.toNat
      ltile := BitVec.ofNat 16 t, lfire := s.workCount t }

/-- Busy time of the current step so far, hold excluded (R61, R63). -/
def busyNow (s : State) : Nat := s.pace.clock - s.pace.relT - s.pace.stepHold

/-- The snapshot of R64, without a named queue or tile. -/
def takeSnapshot (s : State) : Snapshot :=
  { step := s.pace.step.toNat, busy := if s.pace.complete then s.pace.busy else busyNow s
    hold := s.pace.stepHold, pace := frozenPace s, beds := snapBeds s
    queues := (s.tiles.filter fun p => tileKind p.1 == .s).flatMap fun p => p.2.s.queues.map fun q => (p.1, q.1, q.2)
    edges := s.edges.map fun p => (p.1, p.2.inCnt, p.2.outCnt)
    namedTile := 0xFFFF, stateBefore := s.pace.state, time := s.time64 }

/-- Does firmware run: the ROM has started it (R419), ready or still training LPDDR6? -/
def State.fwRuns (s : State) : Bool := s.sec.bootState == 1 || s.sec.bootState == 3

/-- Does firmware write a fault dump after an event of this severity (R395)? -/
def dumpAfter (s : State) (sev : Nat) : Bool := s.fwRuns && (sev == 3 || s.flt.dumpall)

/-- Send a frame on every port in UP that passes the test, unless PACE is IDLE. -/
def announce (s : State) (ok : Nat → Bool) (frame : FrameBody) : State := if s.idle then s else sendOnUp s ok frame

/-- Note that firmware writes a fault dump after an event of this severity, from its beginning (R395). -/
def noteDump (s : State) (sev : Nat) : State :=
  { s with flt := { s.flt with
    dumpState := if dumpAfter s sev then .writing else s.flt.dumpState
    dumpStep := if dumpAfter s sev then 0 else s.flt.dumpStep } }

/-- PACE_HOLD_LAST at an entry or a join (R52). -/
def holdLastOf (s : State) (req : BitVec 7) : Word := packW [(8, s.pace.step.toNat % 2 ^ 24), (0, req.toNat)]

/-- PACE enters ABORTED: it asserts hold with no source bit, which is a hold entry of its own where no request stood (R52,
R58); a 10 ns decision under way is over without a completion, for the abort wins (R58). -/
def abortPace (s : State) (fatal por : Bool) (snap : Snapshot) : Pace :=
  let entry := s.pace.req == 0
  { s.pace with state := .aborted, abort := .announced, fatal := fatal, needPor := por, snap := snap
                rakeAct := false, rakeDrop := false, rakeLeft := 0, deciding := false, decLeft := 0
                holdCount := if entry then satInc s.pace.holdCount else s.pace.holdCount
                holdLast := if entry then holdLastOf s 0 else s.pace.holdLast }

/-- The freeze and announce phases of an abort (Table TWN-5): PACE enters ABORTED, the snapshot is taken, ABORT frames
go out on every port in UP that passes the test (R58, R64, R374). An abort already under way changes nothing else (R393).
A front that runs stands as it is until the next TASK_START: no further tile switches, and CFG_SECT and CFG_FRONT go on
showing it (R265, R444). -/
def abortWith (s0 : State) (sev code : Nat) (snap : Snapshot) (ok : Nat → Bool) (frame : FrameBody) : State :=
  let s := noteDump s0 sev
  let fatal := s.pace.fatal || sev == 3
  let por := s.pace.needPor || code == 0x0C09
  if s.pace.state = .aborted then { s with pace := { s.pace with fatal := fatal, needPor := por } }
  else
    let first := s.flt.firstCode == 0
    let s1 := announce s ok frame
    { s1 with
      pace := abortPace s1 fatal por snap
      flt := { s1.flt with firstSev := if first then BitVec.ofNat 2 sev else s1.flt.firstSev
                           firstCode := if first then BitVec.ofNat 16 code else s1.flt.firstCode } }

/-- The ABORT frame of this device for a cause (R374). -/
def abortFrameOf (s : State) (code : Nat) : FrameBody := .abort s.cfg.pos (BitVec.ofNat 16 code) s.pace.step

/-- Does an event of this code enter the fault log (R394)? -/
def evLogged (code : Nat) : Bool := decide (2 ≤ evSev code) || code / 256 == 1 || code / 256 == 0xA

/-- Record, interrupt and fault-log entry of an event (R461). -/
def recordEvent (s : State) (code : Nat) (a : EvArgs) : State :=
  let r := mkRecord s code a
  let s1 := eventBase s code a
  if evLogged code then
    logEntry s1 { ev := r, tile := BitVec.ofNat 16 a.tile, ctx := BitVec.ofNat 8 a.ctx, instr := BitVec.ofNat 16 a.instr
                  count := BitVec.ofNat 32 a.count, req := BitVec.ofNat 32 a.req, addr := BitVec.ofNat 64 a.addr
                  time := BitVec.ofNat 64 s.time64 }
  else s1

/-- Generate an event (R461); a task-abort or device-fatal one aborts the task (R58). -/
def event (s : State) (code : Nat) (a : EvArgs := {}) : State :=
  let s1 := recordEvent s code a
  if evSev code < 2 then s1
  else abortWith s1 (evSev code) code (takeSnapshot s1) (fun _ => true) (abortFrameOf s1 code)

/-- What a run-time event of a tile records (R44, R463): the tile, its context and instruction index, and beyond ADDR and DETAIL
the repeat index (R114, R134) and the values given. -/
def tileArgs (s : State) (t : Nat) (addr d0 d1 count : Nat := 0) (more : List Nat := []) : EvArgs :=
  let g := s.tile t
  { srcid := t, addr := addr, detail := two d0 d1, tile := t, ctx := g.cur.toNat, instr := g.pc.toNat, count := count
    more := g.rep :: more }

/-- A run-time event of a tile. -/
def tileEvent (s : State) (t code : Nat) (addr d0 d1 count : Nat := 0) (more : List Nat := []) : State :=
  event s code (tileArgs s t addr d0 d1 count more)

/-! ## Bed counters (R440) -/

/-- The bed of a tile in its current context. -/
def State.tileBed (s : State) (t : Nat) : Nat := (s.tile t).ctxCfg.bed.toNat

/-- Count n non-finite replacements of a bed; the first in a step raises 0x0610 (R72). -/
def countNonfin (s : State) (b n : Nat) : State :=
  if n = 0 then s
  else
    let x := s.bed b
    let s1 := s.setBed b { x with nonfin := satAdd x.nonfin n, nonfinStep := true }
    if x.nonfinStep then s1 else event s1 0x0610 { srcid := b }

/-- Count a steer drop of tile t; the first in a step raises 0x040D, which records the tile, its context and the instruction
index beside the bed (R196, R205). -/
def countSteer (s : State) (t : Nat) : State :=
  let b := s.tileBed t
  let x := s.bed b
  let s1 := s.setBed b { x with steer := satInc x.steer, steerStep := true }
  if x.steerStep then s1
  else event s1 0x040D { srcid := b, more := [t, (s.tile t).cur.toNat, (s.tile t).pc.toNat] }

/-- Count a corrected context-store error (R43). -/
def countCecc (s : State) (t : Nat) : State :=
  let b := s.tileBed t
  let x := s.bed b
  s.setBed b { x with cecc := satInc x.cecc }

end Sys2Proof.Machine
end

