-- ==== Sys2Proof/Machine/Access.lean ====
section
/-! DEFINITION. Access violations (R433-R438, Table MAP-2) and the powered state of a register's domain. -/

namespace Sys2Proof.Machine

/-- The address space of an agent's register accesses (GLB_VIOL_ADDR_HI.SPACE). -/
def agentSpace : Agent → Nat
  | .host _ => 0
  | _ => 1

/-- One violating access. -/
structure Violation where
  code : Nat
  addr : Nat
  req : Nat
  space : Nat
  write : Bool
  be : Nat := 15
  ndw : Nat := 1
deriving DecidableEq, Repr

/-- Record a violation (R435). -/
def violate (s : State) (v : Violation) : State :=
  let s1 := { s with glb := { s.glb with
    violAddr := BitVec.ofNat 36 v.addr, violSpace := BitVec.ofNat 2 v.space, violReq := BitVec.ofNat 20 v.req
    violCode := BitVec.ofNat 16 v.code, violCnt := satInc s.glb.violCnt } }
  event s1 v.code { addr := v.addr, req := v.req
                    detail := packN [(0, v.req % 2 ^ 16), (16, b2n v.write), (20, v.be), (24, min v.ndw 255), (32, v.req)] }

/-- A violation of a whole-doubleword register access by an agent. -/
def violateReg (s : State) (a : Agent) (code off : Nat) (write : Bool) : State :=
  violate s { code := code, addr := off, req := agentReq a, space := agentSpace a, write := write }

/-- A write to a locked register (R436). -/
def locked (s : State) (a : Agent) (off : Nat) : State := violateReg s a 0x0103 off true

/-- Is a domain on and not being switched (R433)? -/
def State.powered (s : State) (d : Nat) : Bool := s.domain d && !(s.pwr.switching.any fun x => x.d == d)

/-- The domains on which a block of BAR0 rests, by its window number (Table MAP-1). -/
def blockDomain (w : Nat) : Nat :=
  match w with
  | 0x1 => 13 | 0x4 => 2 | 0x5 => 13 | 0x6 => 3 | 0x7 => 3 | 0x8 => 10 | 0xB => 0 | 0xC => 0 | 0xD => 11 | 0xE => 12
  | _ => if w < 0x10 then 1 else 13

/-- Does an offset lie among n blocks of size d from base; then its block and its place there. -/
def blockAtOff (o base d n : Nat) : Option (Nat × Nat) :=
  if base ≤ o ∧ o < base + d * n then some ((o - base) / d, (o - base) % d) else none

/-- Is an offset one of the SP registers held in PD1 while PD10 is off (R433)? -/
def spShadowed (off : Nat) : Bool :=
  match blockAtOff off 0x80100 0x80 8 with
  | some (_, r) => r ≤ 0x0C
  | none =>
    match blockAtOff off 0x80900 0x80 8 with
    | some (_, r) => r == 0x08 || r == 0x0C
    | none => false

/-- Is the domain of an offset on (R433)? -/
def offPowered (s : State) (off : Nat) : Bool := s.powered (blockDomain (off / 0x10000)) || spShadowed off

/-- May an access be answered at all: after a boot that failed only reads of GLB and SEC are (R422). -/
def bootAnswers (s : State) (off : Nat) (write : Bool) : Bool :=
  s.sec.bootState != 0xF || (!write && (off / 0x10000 == 0 || off / 0x10000 == 0xC))

/-- Does a register access at an offset reach a register that answers (R422, R433)? -/
def rowOpen (s : State) (off : Nat) (write : Bool) : Bool := bootAnswers s off write && offPowered s off

/-- Does an agent issue accesses: a management core out of reset (R419), the debug port only while open, but for the mailboxes (R429,
R430)? -/
def agentReaches (s : State) (a : Agent) (off : Nat) : Bool :=
  match a with
  | .host _ => true
  | .mp c => bitAt s.sec.cores.toNat c.val
  | .dbg => s.sec.open_ || off / 0x10000 == 3

/-- The answer of a violating read (Table MAP-2, R438): a Completer Abort, a bus error to a management core, an error response on the
JTAG port. -/
def abortAnswer : Agent → Answer
  | .host _ => .abort
  | .mp _ => .busError
  | .dbg => .jtagError

/-- A command that is an agent's access to the register at an offset: done where the register answers, else a violation. -/
def rowAccess (s : State) (a : Agent) (off : Nat) (write : Bool) (f : State → State) : State :=
  if !agentReaches s a off then s
  else if rowOpen s off write then f s
  else
    let s1 := violateReg s a 0x0102 off write
    if write then s1 else { s1 with answer := abortAnswer a }

/-- A command that is a register write and names no agent: the host's, with a Requester ID that is a free value (log entry 86). -/
def rowWrite (s : State) (off : Nat) (f : State → State) : State :=
  if rowOpen s off true then f s
  else
    let (v, s1) := s.drawFree
    violateReg s1 (.host (v.truncate 16)) 0x0102 off true

/-- A command that is a write in firmware's local view: it comes from a core out of reset. -/
def rowFirmware (s : State) (off : Nat) (f : State → State) : State :=
  if s.sec.cores != 0 && rowOpen s off true then f s else s

/-- The value latched for an agent at a HI register. -/
def State.latched (s : State) (a : Agent) (off : Nat) : Word := mget 0 s.latches (agentNo a * 2 ^ 26 + off)

/-- Latch a HI register for an agent. -/
def State.latch (s : State) (a : Agent) (off : Nat) (w : Word) : State :=
  { s with latches := mset 0 s.latches (agentNo a * 2 ^ 26 + off) w }

end Sys2Proof.Machine
end

