-- ==== Sys2Proof/Machine/Commands.lean ====
section
/-! DEFINITION. The completion of host commands (R331-R333) and the messages that TW and firmware put on a link by themselves
(R345, R382). -/

namespace Sys2Proof.Machine

/-! ## Completions -/

/-- The statuses of R333. -/
def stDone : Nat := 0
def stRefused : Nat := 1
def stMalformed : Nat := 2
def stWrong : Nat := 3

/-- DETAIL of a completion record. -/
def completionDetail (opc seq : BitVec 16) (status : Nat) (dup : Bool) (evt : Nat) : Nat :=
  packN [(0, opc.toNat), (16, seq.toNat), (32, status), (40, b2n dup), (48, evt)]

/-- The completion record of R333; with the event queue full it waits for a place (R331). -/
def completion (s : State) (opc seq : BitVec 16) (status : Nat) (dup : Bool) (evt : Nat) (index : Word) : State :=
  let d := completionDetail opc seq status dup evt
  if s.hq.evq.length < 256 then event s 0x0201 { addr := index.toNat, detail := d }
  else { s with hq := { s.hq with cplWait := some (index.toNat, d) } }

/-- The command under execution ends: its SEQ and outcome are kept, its completion written unless QUIET and done. -/
def finishCmd (s : State) (status evt : Nat) : State :=
  match s.hq.cur with
  | none => s
  | some c =>
    let s1 := { s with hq := { s.hq with
      cur := none
      kept := some { opc := c.opc, seq := c.seq, status := BitVec.ofNat 8 status, evt := BitVec.ofNat 16 evt } } }
    if c.quiet && status == stDone then s1 else completion s1 c.opc c.seq status false evt c.index

/-- The command is refused with an event (status 0x01). -/
def refuseCmd (s : State) (code : Nat) (a : EvArgs := {}) : State := finishCmd (event s code a) stRefused code

/-- The ring index of the command under execution. -/
def curIndex (s : State) : Nat :=
  match s.hq.cur with
  | none => 0
  | some c => c.index.toNat

/-- The command is in the wrong state (status 0x03). -/
def wrongState (s : State) : State := finishCmd (event s 0x0209 { addr := curIndex s }) stWrong 0

/-- The command is malformed (status 0x02). -/
def malformedCmd (s : State) : State := finishCmd (event s 0x0205 { addr := curIndex s }) stMalformed 0

/-- Is a command of this opcode under execution? -/
def curIs (s : State) (opc : Nat) : Bool :=
  match s.hq.cur with
  | none => false
  | some c => c.opc.toNat == opc

/-- The bytes of the command under execution. -/
def curBytes (s : State) : List Byte :=
  match s.hq.cur with
  | none => []
  | some c => c.bytes

/-! ## The twin link (R379) -/

/-- Is the pair formed? -/
def State.paired (s : State) : Bool := s.tw.state == .paired

/-- Is port p the twin link: the port that TW_CFG names, while TW is PAIRED, and only then? -/
def State.twinLink (s : State) (p : Nat) : Bool := s.paired && s.tw.port.toNat == p

/-! ## Messages built outside the mailboxes (R382): MSEQ and SENDER are free values (log entry 4) -/

/-- The words of a TWIN message. -/
def twinWords (hi : Nat) (sub w1 : Nat) (rest : List Nat) : List Word :=
  packW [(0, hi % 2 ^ 16), (16, 0x30), (24, 1 + rest.length), (28, hi / 2 ^ 16 % 16)] ::
  packW [(0, w1), (24, sub)] :: rest.map (BitVec.ofNat 32)

/-- Send a TWIN message on the twin's port while it is in UP. -/
def twinSend (s : State) (sub w1 : Nat) (rest : List Nat) : State :=
  let p := s.tw.port.toNat
  if (s.port p).isUp then
    let (v, s1) := s.drawFree
    s1.setPort p (sendSeq s1.devTime (s1.port p) (.msg (twinWords (v.toNat % 2 ^ 20) sub w1 rest)))
  else s

end Sys2Proof.Machine
end

