-- ==== Sys2Proof/Machine/Params.lean ====
section
/-! DEFINITION. The NCE and PP parameter blocks of a context (10 R206-R227, 11 R246, Tables IMG-8 and IMG-9) as the blocks read them. -/

namespace Sys2Proof.Machine

/-! ## NCEPAR -/

/-- The NCE parameter block in force, 1,024 zero bytes where the context has none. -/
def State.nceBlock (s : State) : List Byte := ((s.ctxImage s.cfg.nceCtx.toNat).nce).getD []

/-- Does the context in force give the NCE a block? -/
def State.nceOn (s : State) : Bool := (s.ctxImage s.cfg.nceCtx.toNat).nce.isSome

def nvWidth (b : List Byte) (v : Nat) : Nat := numAt b (16 * v) 2
def nvBf16 (b : List Byte) (v : Nat) : Bool := numAt b (16 * v + 2) 1 == 1
def nvPort (b : List Byte) (v : Nat) : Nat := bits (numAt b (16 * v + 3) 1) 0 3
def nvPview (b : List Byte) (v : Nat) : Nat := bits (numAt b (16 * v + 3) 1) 3 1
def nvDs (b : List Byte) (v : Nat) : Nat := numAt b (16 * v + 4) 1
def nvGroup (b : List Byte) (v : Nat) : Nat := numAt b (16 * v + 5) 1
def nvFlat (b : List Byte) (v : Nat) : Bool := bitAt (numAt b (16 * v + 6) 1) 0
def nvTrickle (b : List Byte) (v : Nat) : Nat := numAt b (16 * v + 7) 1
def nvP (b : List Byte) (v : Nat) : Nat := numAt b (16 * v + 8) 2
def nvQrs (b : List Byte) (v : Nat) : Nat := numAt b (16 * v + 10) 2

/-- The views of a block: those with a width. -/
def nceViews (b : List Byte) : List Nat := (List.range 16).filter fun v => nvWidth b v != 0

def nceNsched (b : List Byte) : Nat := numAt b 256 2
/-- The view of place i of the schedule. -/
def nceSched (b : List Byte) (i : Nat) : Nat := numAt b (272 + i % max 1 (nceNsched b)) 1

/-- Role and unit of a channel: north 0-31, crop 32-39. -/
def chRole (b : List Byte) (c : Nat) : Nat := numAt b (336 + 4 * c) 1
def chUnit (b : List Byte) (c : Nat) : Nat := numAt b (336 + 4 * c + 1) 1

/-- The channels of a role and unit, in channel order. -/
def chansOf (b : List Byte) (role unit : Nat) : List Nat :=
  (List.range 40).filter fun c => chRole b c == role && chUnit b c == unit

/-- A first-layer group. -/
structure FlGroup where
  cin : Nat
  cout : Nat
  kx : Nat
  ky : Nat
  stx : Nat
  sty : Nat
  pxl : Nat
  pxh : Nat
  padm : Nat
  act : Nat
  fmt : Nat
  woff : Nat
deriving DecidableEq, Repr

def flGroup (b : List Byte) (g : Nat) : FlGroup :=
  let f := fun o => numAt b (496 + 16 * g + o) 1
  { cin := f 0, cout := f 1, kx := f 2, ky := f 3, stx := f 4, sty := f 5, pxl := f 6, pxh := f 7, padm := f 8
    act := f 9, fmt := f 10, woff := numAt b (496 + 16 * g + 12) 4 }

def llCin (b : List Byte) : Nat := numAt b 560 2
def llCout (b : List Byte) : Nat := numAt b 562 1
def llAct (b : List Byte) : Nat := numAt b 563 1
def llWoff (b : List Byte) : Nat := numAt b 564 4

/-- The crop parameters (Table NPP-4). -/
def crST (b : List Byte) : Nat := numAt b 576 1
def crRH (b : List Byte) : Nat := numAt b 577 1
def crRWT (b : List Byte) : Nat := numAt b 578 1
def crHC (b : List Byte) : Nat := numAt b 579 1
def crWC (b : List Byte) : Nat := numAt b 580 2
def crNSEG (b : List Byte) : Nat := numAt b 582 1
def crCW (b : List Byte) : Nat := numAt b 584 4
def crMROW0 (b : List Byte) : Nat := numAt b 588 4
def crWADV (b : List Byte) : Nat := numAt b 592 2

def sgSC (b : List Byte) (k : Nat) : Nat := numAt b (608 + 16 * k) 2
def sgRT (b : List Byte) (k : Nat) : Nat := numAt b (608 + 16 * k + 2) 2
def sgReader (b : List Byte) (k : Nat) : Nat := numAt b (608 + 16 * k + 4) 2
def sgQueue (b : List Byte) (k : Nat) : Nat := numAt b (608 + 16 * k + 6) 1
def sgView (b : List Byte) (k : Nat) : Nat := numAt b (608 + 16 * k + 7) 1

/-! ## PPPAR -/

/-- The PP parameter block in force. -/
def State.ppBlock (s : State) : List Byte := ((s.ctxImage s.cfg.ppCtx.toNat).pp).getD []

/-- Does the context in force give the PP a block? -/
def State.ppOn (s : State) : Bool := (s.ctxImage s.cfg.ppCtx.toNat).pp.isSome

/-- A head of the PP. -/
structure Head where
  on : Bool
  ed : Bool
  first : Nat
  count : Nat
  stride : Nat
  perRow : Nat
  ts : Nat
  roff : Int
  views : List Nat
deriving DecidableEq, Repr

def ppHead (b : List Byte) (h : Nat) : Head :=
  let o := 32 * h
  { on := bitAt (numAt b o 1) 0, ed := bitAt (numAt b o 1) 1, first := numAt b (o + 1) 1, count := numAt b (o + 2) 1
    stride := numAt b (o + 3) 1, perRow := numAt b (o + 4) 2, ts := numAt b (o + 6) 2, roff := signed 32 (numAt b (o + 8) 4)
    views := (List.range (numAt b (o + 12) 1)).map fun i => numAt b (o + 16 + i) 1 }

/-- The enabled heads. -/
def ppHeads (b : List Byte) : List Nat := (List.range 16).filter fun h => (ppHead b h).on

def ppClassGroup (b : List Byte) (c : Nat) : Nat := numAt b (512 + c) 1
def ppTextClass (b : List Byte) (c : Nat) : Bool := bitAt (numAt b (768 + c / 8) 1) (c % 8)
def ppSW (b : List Byte) : Nat := numAt b 800 2
def ppT (b : List Byte) : Nat := numAt b 802 2
/-- The ring of a record kind: 1 detection, 2 text, 3 measurement. -/
def ppRing (b : List Byte) (kind : Nat) : Nat := numAt b (803 + kind) 1 % 8
def ppPacker (b : List Byte) : Nat := numAt b 807 1
def ppSlots (b : List Byte) : Nat := numAt b 808 1
def ppL (b : List Byte) : Nat := numAt b 809 1
def ppEnd (b : List Byte) : Nat := numAt b 810 1
def ppMeas (b : List Byte) : Nat := numAt b 811 1

/-! ## The PP's step (R14, R222) -/

/-- Has an outward edge tile of a block met its quota of the step; one that has switched at a front has. -/
def State.edgeOut (s : State) (e : Nat) : Bool :=
  let g := s.edge e
  !g.ctxCfg.claimed || decide (g.ctxCfg.quota 4 ≤ g.outCnt) || (s.pace.rank == .sectionEnd && g.switched)

/-- Has the PP done the step's work, and are its records written? A record stands a number of steps after its row that no data
value changes (R14), so the next release, and the PP's own switch, wait for it (DEDUCED, log entry 79). -/
def State.ppSettled (s : State) : Bool := !s.ppOn || (s.pp.stepDone && s.pp.records.isEmpty)

/-! ## The line the NCE waits for -/

/-- The view of the schedule's next line. -/
def State.nextView (s : State) : Nat := nceSched s.nceBlock s.nce.sched

/-- The input queue of a view (R309). -/
def State.viewQueue (s : State) (b : List Byte) (v : Nat) : List SpEntry :=
  let p := s.sport (nvPort b v)
  if nvPview b v = 0 then p.v0.queue else p.v1.queue

/-- Does the scheduled line stand whole in its queue? -/
def State.lineReady (s : State) : Bool :=
  decide (nvWidth s.nceBlock s.nextView / 8 ≤ (s.viewQueue s.nceBlock s.nextView).length)

end Sys2Proof.Machine
end

