-- ==== Sys2Proof/Machine/Pair.lean ====
section
/-! DEFINITION. What the twin manager does inside other blocks' commands (18): FIRST rows (R384), check entries and their
compare (R385-R387), the loss of the partner (R389). -/

namespace Sys2Proof.Machine

/-- Is the compare active (R385)? -/
def State.comparing (s : State) : Bool :=
  s.paired && (match s.cfg.image with
    | some im => im.chk
    | none => false)

/-! ## FIRST rows -/

/-- Does a view of the loaded placement name port view 2 k + v (R306, R384)? -/
def portViewNamed (s : State) (k v : Nat) : Bool :=
  s.plc.ctxs.any fun c =>
    match c.nce with
    | none => false
    | some b => (nceViews b).any fun i => nvPort b i == k && nvPview b i == v

/-- Compare the two FIRST rows of a port view once both are held. -/
def compareFirst (s : State) (key : Nat) : State :=
  match mget none s.tw.firstOwn key, mget none s.tw.firstPeer key with
  | some a, some b => if a = b then s else event s 0x0A06 { detail := two key a.toNat }
  | _, _ => s

/-- A port view has its FIRST row: it is sent and compared. -/
def ownFirst (s : State) (key : Nat) (row : Word) : State :=
  if s.paired && portViewNamed s (key / 2) (key % 2) then
    let s1 := { s with tw := { s.tw with firstOwn := mset none s.tw.firstOwn key (some row)
                                         firstSent := mset false s.tw.firstSent key true } }
    compareFirst (twinSend s1 5 key [row.toNat]) key
  else s

/-! ## Check entries -/

/-- Bytes of one element of a definition (Table TWN-3). -/
def checkWidth (d : CheckDef) : Nat :=
  match d.ftype.toNat with
  | 0 => 1
  | 1 => 4
  | 2 => 2
  | _ => if d.flen ≤ 2 then d.flen else 4

/-- The elements of a field. -/
def checkElems (d : CheckDef) (bs : List Byte) : List Nat := leWords (checkWidth d) (d.flen / max 1 (checkWidth d)) bs

/-- The floating format of a definition's elements, if they have one. -/
def checkFmt (d : CheckDef) : Option FloatFmt :=
  match d.ftype.toNat with
  | 1 => some .fp32
  | 2 => some .fp16
  | _ => none

/-- Two elements: equal, within tolerance with their difference, or beyond it. -/
inductive ElemCmp where
  | same
  | near (diff : Frac)
  | beyond
deriving DecidableEq, Repr

/-- Compare two elements, exactly (R386). -/
def compareElem (d : CheckDef) (a b : Nat) : ElemCmp :=
  if a = b then .same
  else
    match checkFmt d with
    | none => .beyond
    | some f =>
      if f.nonFinite a || f.nonFinite b then .beyond
      else
        let x := ((f.value a).sub (f.value b)).abs
        if x.isZero then .same else if x.le (FloatFmt.fp32.value d.tol.toNat) then .near x else .beyond

/-- The first element beyond tolerance: its index and both values. -/
def firstBeyond (d : CheckDef) (xs : List (Nat × Nat)) : Option (Nat × Nat × Nat) :=
  (xs.zipIdx.find? fun p => compareElem d p.1.1 p.1.2 == .beyond).map fun p => (p.2, p.1.1, p.1.2)

/-- The largest difference within tolerance. -/
def largestNear (d : CheckDef) (xs : List (Nat × Nat)) : Frac :=
  xs.foldl (fun m p => match compareElem d p.1 p.2 with
    | .near x => m.max x
    | _ => m) {}

/-- The definition of an index. -/
def checkDef (s : State) (i : Nat) : CheckDef := s.plc.checks.getD i {}

/-- A matched pair of entries (R386). -/
def compareEntries (s : State) (own peer : CheckEntry) : State :=
  let d := checkDef s own.defn
  let xs := (checkElems d own.bytes).zip (checkElems d peer.bytes)
  let s1 := { s with tw := { s.tw with cmpcnt := satInc s.tw.cmpcnt } }
  match firstBeyond d xs with
  | some (i, a, b) => event s1 0x0A03 { addr := packN [(0, own.defn), (16, own.ordinal), (40, i)], detail := two a b }
  | none =>
    let m := largestNear d xs
    if m.isZero then s1
    else
      let w := FloatFmt.fp32.round m
      { s1 with tw := { s1.tw with near := satInc s1.tw.near
                                   maxdiff := if s1.tw.maxdiff.toNat < w then BitVec.ofNat 32 w else s1.tw.maxdiff } }

/-- Do two entries have one key? -/
def sameKey (a b : CheckEntry) : Bool :=
  a.defn == b.defn && a.step == b.step && a.ordinal % 2 ^ 24 == b.ordinal % 2 ^ 24

/-- ADDR and DETAIL of 0x0A08: the key, and the cause bit. -/
def unmatchedArgs (e : CheckEntry) (cause : Nat) : EvArgs :=
  { addr := packN [(0, e.defn), (16, e.ordinal % 2 ^ 24)], detail := two e.step.toNat cause }

/-- An own entry: matched, or kept, or a store full (R385, R387). -/
def ownEntry (s : State) (e : CheckEntry) : State :=
  match s.tw.partner.find? (sameKey e) with
  | some p => compareEntries { s with tw := { s.tw with partner := s.tw.partner.erase p } } e p
  | none =>
    if s.tw.own.length < 4096 then { s with tw := { s.tw with own := s.tw.own ++ [e] } }
    else event s 0x0A08 (unmatchedArgs e 2)

/-- A partner's entry. -/
def partnerEntry (s : State) (e : CheckEntry) : State :=
  match s.tw.own.find? (sameKey e) with
  | some o => compareEntries { s with tw := { s.tw with own := s.tw.own.erase o } } o e
  | none =>
    if s.tw.partner.length < 4096 then { s with tw := { s.tw with partner := s.tw.partner ++ [e] } }
    else event s 0x0A08 (unmatchedArgs e 2)

/-- Pad bytes with zeros to whole words. -/
def padWords (bs : List Byte) : List Nat := leWords 4 ((bs.length + 3) / 4) (bs ++ [0, 0, 0])

/-- The check entry of one definition for a record, sent as a DIGEST message (R385). -/
def checkEntryOf (s : State) (i : Nat) (d : CheckDef) (r : ResultRec) : State :=
  let bs := slice r.bytes d.off d.flen
  let s1 := twinSend s 4 (r.ordinal % 2 ^ 24) (packN [(0, r.step.toNat % 2 ^ 16), (16, i)] :: padWords bs)
  ownEntry s1 { defn := i, step := r.step, ordinal := r.ordinal, bytes := bs }

/-- The check entries of a record. -/
def checkRecord (s : State) (r : ResultRec) : State :=
  if s.comparing then
    s.plc.checks.zipIdx.foldl (fun s p => if p.1.rkind = r.kind then checkEntryOf s p.2 p.1 r else s) s
  else s

/-! ## The loss of the partner -/

/-- The partner is declared lost (R389). -/
def partnerLost (s : State) : State :=
  let s1 := { s with tw := { s.tw with state := .solo, fence := true, own := [], partner := [], takePending := s.tw.shadow } }
  if s.tw.shadow then s1 else event s1 0x0A05

/-- The ROLE message of this device (R381). -/
def sendRole (s : State) : State := twinSend s 1 (b2n s.tw.shadow) []

/-! ## The twin's port -/

/-- The twin manager's port is misnamed: CONFLICT (Table TWN-1). -/
def twinCheckPort (s : State) : State :=
  if s.tw.state = .wait && !(s.port s.tw.port.toNat).twin then event { s with tw := { s.tw with state := .conflict } } 0x0A01 else s

/-- Port p leaves UP: what it brought for TW is gone, and a pair formed over it waits again while PACE is IDLE (Table TWN-1). -/
def leaveUp (s : State) (p : Nat) : State :=
  if (s.port p).isUp then
    let s1 := { s with tw := { s.tw with rxq := s.tw.rxq.filter fun m => m.1 != p } }
    if s1.idle && s1.twinLink p then twinCheckPort { s1 with tw := { s1.tw with state := .wait, miss := 0 } } else s1
  else s

end Sys2Proof.Machine
end

