-- ==== Sys2Proof/Machine/Sensor.lean ====
section
/-! DEFINITION. Sensor ports (14, R300-R317): lines, their checks and row order, input queues and watermarks. -/

namespace Sys2Proof.Machine

/-! ## Queues and XOFF_N (R311) -/

/-- A queue's full-ish state after its occupancy or its watermarks changed. -/
def SpView.mark (v : SpView) : SpView :=
  { v with fullish := if v.fullish then decide (v.lwm.toNat < v.queue.length) else decide (v.hwm.toNat ≤ v.queue.length) }

/-- Do ports queue lines and drive XOFF_N (Table SNS-4)? -/
def State.portsLive (s : State) : Bool := !s.idle && s.pace.state != .aborted

/-- Both queues marked anew; XOFF_N follows, its assertions counted. -/
def SensorPort.refresh (p : SensorPort) (live : Bool) : SensorPort :=
  let p1 := { p with v0 := p.v0.mark, v1 := p.v1.mark }
  let x := live && (p1.v0.fullish || p1.v1.fullish)
  { p1 with xoff := x, xoffcnt := if x && !p.xoff then satInc p.xoffcnt else p.xoffcnt }

/-- A queue emptied. -/
def SpView.empty (v : SpView) : SpView := { v with queue := [], fullish := false }

/-- The port goes to OFF (R301). -/
def SensorPort.off (p : SensorPort) : SensorPort :=
  { p with en := false, state := .off, discard := false, v0 := p.v0.empty, v1 := p.v1.empty, xoff := false }

/-- View v of a port. -/
def SensorPort.view (p : SensorPort) (v : Nat) : SpView := if v = 0 then p.v0 else p.v1

def SensorPort.setView (p : SensorPort) (v : Nat) (x : SpView) : SensorPort :=
  if v = 0 then { p with v0 := x } else { p with v1 := x }

/-! ## Lines (R302-R306) -/

/-- One byte into the CRC of R304. -/
def crcBit (c : Nat) : Nat → Nat
  | 0 => c
  | n + 1 => crcBit (if 2 ^ 15 ≤ c then (2 * c % 2 ^ 16) ^^^ 0x1021 else 2 * c) n

def crc16 (bs : List Byte) : Nat := bs.foldl (fun c b => crcBit (c ^^^ (b.toNat * 256)) 8) 0xFFFF

/-- Header fields of a line body (Table SNS-2). -/
def lnView (b : List Byte) : Nat := numAt b 1 1
def lnFmt (b : List Byte) : Nat := numAt b 2 1
def lnRow (b : List Byte) : Word := BitVec.ofNat 32 (numAt b 4 4)
def lnWidth (b : List Byte) : Nat := numAt b 8 2

/-- Bytes of a body as its header gives them (R305). -/
def lnLength (b : List Byte) : Nat := 16 + lnWidth b * lnFmt b / 8 + 2

/-- Is the CRC right? -/
def lnCrcOk (b : List Byte) : Bool :=
  let n := b.length - 2
  crc16 (b.take n) == numAt b n 2

/-- The widths that the image's views give port view 2 k + v. -/
def viewWidths (s : State) (k v : Nat) : List Nat :=
  s.plc.ctxs.flatMap fun c =>
    match c.nce with
    | none => []
    | some b => ((nceViews b).filter fun i => nvPort b i == k && nvPview b i == v).map fun i => nvWidth b i

/-- Are header, format and width as R306 asks? -/
def lnHdrOk (s : State) (k : Nat) (b : List Byte) : Bool :=
  numAt b 0 1 == 0xA1 && decide (lnView b < 2) && [8, 10, 12, 16].contains (lnFmt b) && zeroAt b 3 1 && zeroAt b 10 6 &&
  lnFmt b == ((s.sport k).view (lnView b)).pixfmt.toNat && (viewWidths s k (lnView b)).contains (lnWidth b)

/-- The pixels of a line. -/
def lnPixels (b : List Byte) : List (BitVec 16) :=
  let n := lnFmt b
  let pay := b.drop 16
  (List.range (lnWidth b)).map fun i =>
    BitVec.ofNat 16 (bits (leNat (slice pay (n * i / 8) 3)) (n * i % 8) n)

/-- The first bad line in a step raises 0x0801 (R306). -/
def badLine (s : State) (k : Nat) (p : SensorPort) (view row : Nat) : State :=
  let s1 := s.setSport k { p with badStep := true }
  if (s.sport k).badStep then s1 else event s1 0x0801 { srcid := k + 256 * view, detail := two row 0 }

/-! ## Row order (R307-R310) -/

/-- The entries of a line (R309). -/
def lineEntries (px : List (BitVec 16)) (vb : BitVec 16) : List SpEntry :=
  (List.range (px.length / 8)).map fun j =>
    let w := mkPayload 16 (((px.drop (8 * j)).take 8).map (·.toNat))
    { payload := w, par := parityOf w, vb := vb, sol := j == 0 }

/-- n substitute rows of a view (R308). -/
def substEntries (p : SensorPort) (v width : Nat) : Nat → List SpEntry
  | 0 => []
  | n + 1 =>
    lineEntries (if p.subst then List.replicate width 0 else (p.view v).lastLine) 0 ++ substEntries p v width n

/-- A line accepted after n substitute rows. -/
def acceptLine (s : State) (k v n : Nat) (b : List Byte) : State :=
  let p := s.sport k
  let x := p.view v
  let px := lnPixels b
  let row := lnRow b
  let add := substEntries p v (lnWidth b) n ++ lineEntries px 0xFFFF
  if 8192 < x.queue.length + add.length then
    let s1 := s.setSport k { p with ovf := satInc p.ovf, ovfStep := true }
    if p.ovfStep then s1 else event s1 0x0806 { srcid := k + 256 * v, detail := two row.toNat 0 }
  else
    let isFirst := x.expect.isNone
    let x1 := { x with queue := x.queue ++ add, expect := some (row + 1), lastRow := row, lastLine := px
                       first := if isFirst then row else x.first }
    let p1 := ({ p with good := satInc p.good, subs := satAdd p.subs n }.setView v x1).refresh s.portsLive
    let s1 := s.setSport k p1
    let s2 := if n = 0 then s1
      else event s1 0x0803 { srcid := k + 256 * v, detail := two (x.expect.getD 0).toNat row.toNat }
    if isFirst then ownFirst s2 (2 * k + v) row else s2

/-- A good line while ports queue lines. -/
def orderLine (s : State) (k v : Nat) (b : List Byte) : State :=
  let p := s.sport k
  match (p.view v).expect with
  | none => acceptLine s k v 0 b
  | some e =>
    let d := (lnRow b - e).toNat
    if d ≤ p.gapmax.toNat then acceptLine s k v d b
    else if d < 2 ^ 31 then event s 0x0804 { srcid := k + 256 * v, detail := two e.toNat (lnRow b).toNat }
    else
      let s1 := s.setSport k { p with late := satInc p.late, lateStep := true }
      if p.lateStep then s1 else event s1 0x0802 { srcid := k + 256 * v, detail := two (lnRow b).toNat 0 }

/-- A body is complete: its checks in the order CRC, HDR, then its row. -/
def lineBody (s : State) (k : Nat) (b : List Byte) : State :=
  let p := s.sport k
  if p.state != .body || p.clklost || b.length != lnLength b then s
  else
    let p1 := { p with state := .hunt, discard := false }
    if p.discard then s.setSport k p1
    else if !lnCrcOk b then badLine s k { p1 with crc := satInc p.crc } (lnView b % 2) (lnRow b).toNat
    else if !lnHdrOk s k b then badLine s k { p1 with hdr := satInc p.hdr } (lnView b % 2) (lnRow b).toNat
    else if s.portsLive then orderLine (s.setSport k p1) k (lnView b) b
    else s.setSport k { p1 with good := satInc p.good }

/-- The sync word stands on all lanes: a line in progress ends short (R305). -/
def lineSync (s : State) (k : Nat) : State :=
  let p := s.sport k
  if p.state = .off || p.clklost then s
  else if p.state = .body && !p.discard then badLine s k { p with short := satInc p.short } 0 0
  else s.setSport k { p with state := .body, discard := false }

/-- LINE_SYNC (R305). -/
def execLineSync (k : Fin 8) (s : State) : Host.Outcome State Fault Refusal := .next (lineSync s k)

/-! ## Lanes (R302, R305) -/

/-- The lanes of a port: 1, 2, 4 or 8 (Table SNS-5). -/
def SensorPort.lanes (p : SensorPort) : Nat := 2 ^ p.nl.toNat

/-- The bytes of the first c lane-cycles: byte i stands on lane i mod nl. -/
def laneBytes (nl : Nat) (ls : List (List Byte)) (c : Nat) : List Byte :=
  (List.range c).flatMap fun j => (List.range nl).map fun l => (ls.getD l []).getD j 0

/-- Does the sync word stand on all lanes at byte position j? -/
def syncAt (nl : Nat) (ls : List (List Byte)) (j : Nat) : Bool :=
  (List.range nl).all fun l => slice (ls.getD l []) j 4 == [0x0F, 0xE2, 0x47, 0xB9]

/-- The lane-cycles that all lanes hold. -/
def laneCycles (nl : Nat) (ls : List (List Byte)) : Nat :=
  (List.range nl).foldl (fun n l => min n (ls.getD l []).length) (ls.getD 0 []).length

/-- The lane-cycles of the body that the lanes begin with; none while its header is not complete. -/
def bodyCycles (nl : Nat) (ls : List (List Byte)) : Option Nat :=
  let h := (16 + nl - 1) / nl
  if laneCycles nl ls < h then none else some ((lnLength (laneBytes nl ls h) + nl - 1) / nl)

/-- The lines that a sync word inside their body ends short, and the bytes of the body complete after them, its filler left out. -/
def readLanes (nl : Nat) : Nat → List (List Byte) → Nat × Option (List Byte)
  | 0, _ => (0, none)
  | n + 1, ls =>
    let t := laneCycles nl ls
    match (List.range (t - 3)).find? fun j => syncAt nl ls j && (match bodyCycles nl ls with
      | some c => decide (j + 4 ≤ c)
      | none => true) with
    | some j => let r := readLanes nl n (ls.map fun l => l.drop (j + 4)); (r.1 + 1, r.2)
    | none =>
      match bodyCycles nl ls with
      | some c => if c ≤ t then (0, some ((laneBytes nl ls c).take (lnLength (laneBytes nl ls c)))) else (0, none)
      | none => (0, none)

/-- The lanes' bytes after the sync, read to the end of a body: each sync word inside a body ends that line as a short one. -/
def lineComplete (s : State) (k : Nat) (ls : List (List Byte)) : State :=
  let p := s.sport k
  if p.state != .body || p.clklost then s
  else
    let r := readLanes p.lanes (laneCycles p.lanes ls + 1) ls
    let s1 := (List.range r.1).foldl (fun s _ => lineSync s k) s
    match r.2 with
    | some b => lineBody s1 k b
    | none => s1

/-- LINE_COMPLETE (R305, R306). -/
def execLineComplete (k : Fin 8) (lanes : List (List Byte)) (s : State) : Host.Outcome State Fault Refusal :=
  .next (lineComplete s k lanes)

/-! ## Clock, enable, counters -/

/-- CLOCK_LOST (R316): a port that is OFF, be its EN held in the shadow of an unpowered PD10 (R433), watches no clock. -/
def clockLost (s : State) (k : Nat) : State :=
  let p := s.sport k
  if p.en && p.state != .off && !p.clklost then
    event (s.setSport k { p with clklost := true, state := .hunt, discard := false }) 0x0805 { srcid := k }
  else s

def execClockLost (k : Fin 8) (s : State) : Host.Outcome State Fault Refusal := .next (clockLost s k)

/-- SENSOR_CLOCK_RETURN (R316). -/
def clockReturn (s : State) (k : Nat) : State := s.setSport k { s.sport k with clklost := false }

def execSensorClockReturn (k : Fin 8) (s : State) : Host.Outcome State Fault Refusal := .next (clockReturn s k)

/-- Do the values of SP_k_CFG stand in Tables SNS-1 and SNS-5 (R301)? -/
def spCfgOk (v : Nat) : Bool :=
  decide (bits v 8 4 ≤ 4) && decide (200 ≤ bits v 16 16) &&
  (match bits v 1 2 with
   | 1 => decide (bits v 16 16 ≤ 1600)
   | 2 => decide (bits v 16 16 ≤ 2500)
   | _ => false)

/-- A write of SP_k_CFG (R301). -/
def spEnable (s : State) (k : Nat) (cfg : Word) (supplyOk : Bool) : State :=
  if s.idle then
    let v := cfg.toNat
    let p := { s.sport k with rate := BitVec.ofNat 16 (bits v 16 16), ctlv := BitVec.ofNat 4 (bits v 8 4), xod := bitAt v 6
                              term := bitAt v 5, nl := BitVec.ofNat 2 (bits v 3 2), std := BitVec.ofNat 2 (bits v 1 2)
                              supOk := supplyOk }
    if !bitAt v 0 then s.setSport k p.off
    else if spCfgOk v && supplyOk then
      s.setSport k { p with en := true, cfgerr := false, state := if p.state = .off && s.domain 10 then .hunt else p.state }
    else event (s.setSport k { p.off with cfgerr := true }) 0x0808 { srcid := k }
  else s

/-- SP_ENABLE (R301); a locked write is REGISTER_WRITE's (R435). -/
def execSpEnable (k : Fin 8) (cfg : Word) (supplyOk : Bool) (s : State) : Host.Outcome State Fault Refusal :=
  .next (rowWrite s (0x80100 + 0x80 * k) fun s => spEnable s k cfg supplyOk)

/-- Every port's counters cleared (R317). -/
def spClrstat (s : State) : State :=
  { s with sp := mapAll {} s.sp fun _ p => { p with good := 0, short := 0, crc := 0, hdr := 0, late := 0, subs := 0, ovf := 0, xoffcnt := 0 } }

/-- SP_CLRSTAT. -/
def execSpClrstat (s : State) : Host.Outcome State Fault Refusal := .next (rowWrite s 0x80000 spClrstat)

end Sys2Proof.Machine
end

