-- ==== Sys2Proof/Machine/Records.lean ====
section
/-! DEFINITION. Result records that wait for their ring (10, R226-R229) and the packer of text lines (R200, R225). -/

namespace Sys2Proof.Machine

/-! ## Result rings (R228, R320) -/

/-- Does the device issue requests to the host (R320)? -/
def State.canRequest (s : State) : Bool := s.hq.linkUp && s.hq.bme

/-- Entries of a ring in use. -/
def Ring.used (r : Ring) : Nat := (r.pi - r.ci).toNat

/-- Entries a ring holds at most. -/
def Ring.size (r : Ring) : Nat := 2 ^ r.szl.toNat

/-- Has ring n room for an entry that the device writes now? -/
def ringRoom (s : State) (n : Nat) : Bool := (s.ring n).en && decide ((s.ring n).used < (s.ring n).size) && s.canRequest

/-- The result rings that a PP parameter block names. -/
def namedRings (b : List Byte) : List Nat := [2 + ppRing b 1, 2 + ppRing b 2, 2 + ppRing b 3]

/-- While a ring that the block names has no room, or the device issues no request, the PP accepts no token (R228, R320). -/
def ppBlocked (s : State) : Bool := (namedRings s.ppBlock).any fun n => !ringRoom s n

/-! ## Records -/

/-- The header of a record. -/
def recHeader (kind view flags boxid step : Nat) : List Byte :=
  natLe 1 kind ++ natLe 1 view ++ natLe 2 flags ++ natLe 4 boxid ++ natLe 6 step ++ natLe 2 0

/-- A record of 64 bytes. -/
def recBytes (header body : List Byte) : List Byte := header ++ body ++ List.replicate (48 - body.length) 0

/-- The bytes of a detection record. -/
def detBytes (c : Candidate) (flags boxid step : Nat) : List Byte :=
  recBytes (recHeader 1 c.view flags boxid step)
    (natLe 4 c.rowBase.toNat ++ natLe 4 c.y1.toNat ++ natLe 4 c.y2.toNat ++ natLe 4 c.x1.toNat ++ natLe 4 c.x2.toNat ++
     natLe 2 c.score.toNat ++ natLe 1 c.cls ++ natLe 1 c.head)

/-- A record joins those that wait for their ring. -/
def addRecord (s : State) (kind : Nat) (bytes : List Byte) (ord : Nat) : State :=
  let r : ResultRec := { kind := BitVec.ofNat 8 kind, ring := ppRing s.ppBlock kind, bytes := bytes, step := s.pace.step, ordinal := ord }
  { s with pp := { s.pp with records := s.pp.records ++ [r] } }

/-- The detection record of a box, with its flags: bit 0 text line, bit 1 not read. -/
def detRecord (s : State) (x : Candidate × Word) (flags : Nat) : State :=
  let s1 := addRecord s 1 (detBytes x.1 flags x.2.toNat s.pace.step.toNat) s.pp.ordDet
  { s1 with pp := { s1.pp with ordDet := s1.pp.ordDet + 1 } }

/-! ## The packer (R200, R225) -/

/-- The text line of an accepted box. -/
def lineOf (c : Candidate) (boxid : Word) : CropLine :=
  { view := c.view, rowBase := c.rowBase, y1 := c.y1, y2 := c.y2, x1 := c.x1, x2 := c.x2, boxid := boxid }

/-- Insert a line by descending score, after equals. -/
def insertLine (x : CropLine × BitVec 16) : List (CropLine × BitVec 16) → List (CropLine × BitVec 16)
  | [] => [x]
  | d :: r =>
    if (FloatFmt.fp16.value d.2.toNat).lt (FloatFmt.fp16.value x.2.toNat) then x :: d :: r else d :: insertLine x r

/-- Count dropped items in a bed that the context defines (R12); the first in a window raises 0x040E, with the window's number of
items and S. -/
def countOvf (s : State) (bed dropped items slots : Nat) : State :=
  if dropped = 0 || !s.bedIds.contains bed then s
  else
    let x := s.bed bed
    let s1 := s.setBed bed { x with ovf := satAdd x.ovf dropped, ovfWin := true }
    if x.ovfWin then s1 else event s1 0x040E { srcid := bed, detail := two items slots }

/-- The packer's slots: none where the context has no crop windows. -/
def packSlots (s : State) : Nat := if crCW s.nceBlock = 0 then 0 else crST s.nceBlock

/-- The window's lines, by descending score, equals in order of arrival. -/
def windowLines (held : List (Candidate × Word)) : List (CropLine × BitVec 16) :=
  held.foldl (fun l x => insertLine (lineOf x.1 x.2, x.1.score) l) []

/-- The crop window ends: the S highest-scored lines are packed, the others dropped, counted and flagged "not read" in their
detection records, which are decided with them. R225 flags every dropped box and R200 drops the lowest-scored of the whole window,
so a text line's record waits for the window's end, on which it depends (R14; DEDUCED, log entry 79). -/
def closeWindow (s : State) : State :=
  let lines := windowLines s.pp.held
  let slots := packSlots s
  let lost := (lines.drop slots).map fun x => x.1.boxid
  let n := s.pp.winItems + s.pp.held.length
  let s1 := countOvf s (ppPacker s.ppBlock) lost.length n slots
  let s2 := s1.pp.held.foldl (fun s x => detRecord s x (1 + 2 * b2n (lost.contains x.2))) s1
  { s2 with pp := { s2.pp with held := [], packed := lines.take slots, winItems := n } }

end Sys2Proof.Machine
end

