-- ==== Sys2Proof/Machine/Firing.lean ====
section
/-! DEFINITION. What every firing of a core does (R23, R29, R38-R46): readiness, checks, consumption, markers, flow,
quota and park. The tile files say what one instruction adds. -/

namespace Sys2Proof.Machine

/-! ## Parking (R45): what a tile does at the moment it parks -/

/-- The Q descriptor word A at constant d. -/
def qdA (g : GridTile) (d : Nat) : Nat := g.const d

/-- Does descriptor word A set ADP, and is the word a transport descriptor (Table ROT-3)? -/
def qdAdp (a : Nat) : Bool := bitAt a 34
def qdNch (a : Nat) : Nat := bits a 35 7 + 1

/-- The adaptive descriptor of the current context: the first that a QNT or SCO names with ADP = 1 (R122). -/
def adaptiveDesc (g : GridTile) : Option Nat :=
  (((List.range 256).map fun i => mget 0 g.words (g.cur.toNat * 384 + i)).find? fun w =>
    (iOpc w == 5 || iOpc w == 6) && qdAdp (qdA g (bits (iOpnd w) 0 7))).map fun w => bits (iOpnd w) 0 7

/-- The lesser and the greater of two FP16 patterns by value. -/
def fp16Min (a b : Nat) : Nat := if (FloatFmt.fp16.value b).lt (FloatFmt.fp16.value a) then b else a
def fp16Max (a b : Nat) : Nat := if (FloatFmt.fp16.value a).lt (FloatFmt.fp16.value b) then b else a

/-- The update of one channel of an adaptive descriptor at park (R122): the tile's state, and whether the scale changed. -/
def adaptChannel (q : QState) (up quiet smin smax c : Nat) : QState × Bool :=
  let old := (mget 0 q.qs c).toNat
  let v := FloatFmt.fp16.value old
  let hot := decide (up ≤ mget 0 q.stepsat c)
  let quietNow := !(mget false q.noisy c)
  let n := mget 0 q.quietN c + 1
  let new := if hot then fp16Min (FloatFmt.fp16.round (v.mul (Frac.ofInt 2))) smax
    else if quietNow && decide (quiet ≤ n) then fp16Max (FloatFmt.fp16.round (v.div (Frac.ofInt 2))) smin
    else old
  let n' := if hot then 0 else if quietNow then (if quiet ≤ n then 0 else n) else 0
  ({ q with qs := mset 0 q.qs c (BitVec.ofNat 16 new), quietN := mset 0 q.quietN c n'
            stepsat := mset 0 q.stepsat c 0, noisy := mset false q.noisy c false }, new != old)

/-- The update of every channel: the state and the number of scale changes. -/
def adaptAll (q : QState) (up quiet smin smax : Nat) : List Nat → QState × Nat
  | [] => (q, 0)
  | c :: r =>
    let (q1, ch) := adaptChannel q up quiet smin smax c
    let (q2, n) := adaptAll q1 up quiet smin smax r
    (q2, n + b2n ch)

/-- Count adaptive changes of a bed; the first in a step raises 0x0603 (R122). -/
def countAdapt (s : State) (b n : Nat) : State :=
  if n = 0 then s
  else
    let x := s.bed b
    let s1 := s.setBed b { x with adapt := satAdd x.adapt n, adaptStep := true }
    if x.adaptStep then s1 else event s1 0x0603 { srcid := b }

/-- The first item in which two copies of a queue's pointers differ, with both values (R150). -/
def ptrDiff (x : Queue) : Option (Nat × Nat × Nat) :=
  if x.a.wp ≠ x.b.wp then some (0, x.a.wp.toNat, x.b.wp.toNat)
  else if x.a.rp ≠ x.b.rp then some (1, x.a.rp.toNat, x.b.rp.toNat)
  else if x.a.fp ≠ x.b.fp then some (2, x.a.fp.toNat, x.b.fp.toNat)
  else if x.a.mp ≠ x.b.mp then some (3, x.a.mp.toNat, x.b.mp.toNat)
  else if x.a.mv ≠ x.b.mv then some (4, b2n x.a.mv, b2n x.b.mv)
  else none

/-- Freeze a queue whose copies differ and abort with 0x0502 (R150); `instr` names the instruction or hard port that
compared them, 0xFFFF for neither. The faults of a token of the same beat, `pre`, come first (R160). -/
def pointerFault (s : State) (t q instr : Nat) (pre : State → State := id) : State :=
  let g := s.tile t
  let x := g.queue q
  match ptrDiff x with
  | none => s
  | some (i, va, vb) =>
    event (pre (s.setTile t (g.setQueue q { x with froz := true }))) 0x0502
      { srcid := t, addr := q + 16 * i, detail := two va vb, tile := t, ctx := g.cur.toNat, instr := instr }

/-- Compare every used queue of a tile that parks (R150). -/
def parkS (s : State) (t : Nat) : State :=
  (List.range 16).foldl (fun s q => if qUsed ((s.tile t).qdesc q) then pointerFault s t q 0xFFFF else s) s

/-! ## Stores with parity -/

/-- A written entry carries right parity again. -/
def GridTile.clean (g : GridTile) (st : StoreId) (i : Nat) : GridTile :=
  if g.badParity.isEmpty then g else { g with badParity := g.badParity.filter (fun p => p != (st, i)) }

/-- Written entries carry right parity again. -/
def GridTile.cleanAll (g : GridTile) (st : StoreId) (is : List Nat) : GridTile :=
  if g.badParity.isEmpty then g else { g with badParity := g.badParity.filter fun p => !(p.1 == st && is.contains p.2) }

/-- A number for a store in the DETAIL field of its parity event (log entry 17). -/
def storeCode : StoreId → Nat
  | .code => 1 | .scale => 2 | .bank0 => 3 | .bank1 => 4 | .qbuf => 5 | .qs => 6 | .ds => 7 | .qcnt => 8 | .vb => 9
  | .fcnt => 10 | .wrec => 11 | .flags => 12

/-! ## Faults of a tile, and context-store reads (R43) -/

/-- A fault a firing detects: its code, ADDR, the two values of DETAIL, and what else the rule records. -/
structure FireFault where
  code : Nat
  addr : Nat := 0
  d0 : Nat := 0
  d1 : Nat := 0
  more : List Nat := []
deriving DecidableEq, Repr

/-- COUNT of a fault's log entry (Table TWN-6): the firing count where the event's table logs it, the repeat index of a
fault of Tables MAC-8 and ROT-8 (R114, R134), else none. -/
def faultCount (g : GridTile) (fired code : Nat) : Nat :=
  if code ∈ [0x0407, 0x040A, 0x040B, 0x0D04] then fired else if code ∈ [0x0408, 0x0409, 0x0601, 0x0604] then g.rep else 0

/-- Raise the faults of one firing or beat in ascending order of code, then of ADDR (R461). -/
def raiseFaults (s : State) (t fired : Nat) (fs : List FireFault) : State :=
  (sortBy (fun a => a.code * 2 ^ 64 + a.addr) fs).foldl
    (fun s f => tileEvent s t f.code f.addr f.d0 f.d1 (faultCount (s.tile t) fired f.code) f.more) s

/-- Read words of the current context: a single error is corrected and counted, and reported with 0x0406; a double one, 0x0405,
ends the reading. The events are those of the firing that reads, and are raised with its faults in the order of R461. -/
def readWords (s : State) (t : Nat) : List Nat → State × List FireFault
  | [] => (s, [])
  | i :: r =>
    let g := s.tile t
    let key := g.cur.toNat * 384 + i
    match mget 0 g.health key with
    | 0 => readWords s t r
    | 1 =>
      let (s1, fs) := readWords (countCecc (s.setTile t { g with health := mset 0 g.health key 0 }) t) t r
      (s1, { code := 0x0406, addr := i } :: fs)
    | _ => (s, [{ code := 0x0405, addr := i, d0 := g.cur.toNat, d1 := i }])

/-- Did a reading stop at an uncorrectable word? -/
def wordLost (fs : List FireFault) : Bool := fs.any fun f => f.code == 0x0405

/-- The words of a context that a tile takes up with no firing: at tile reset and at a switch. -/
def takeWords (s : State) (t : Nat) (is : List Nat) : State :=
  let (s1, fs) := readWords s t is
  raiseFaults s1 t 0 fs

/-- The parity faults of the entries read, one for each bad entry: the store and the entry; 0x040C logs the entry alone. -/
def parityFaults (g : GridTile) (code : Nat) (es : List (StoreId × Nat)) : List FireFault :=
  if g.badParity.isEmpty then []
  else (g.badParity.filter fun p => es.contains p).map fun p =>
    if code = 0x040C then { code := code, addr := p.2, d0 := p.2, more := [storeCode p.1] }
    else { code := code, addr := p.2, d0 := storeCode p.1, d1 := p.2 }

/-! ## The park of a Q tile (R122) and of an S tile (R150) -/

/-- The entries that the adaptive update reads: every channel's step counters, and QS where its scale changes (R115). -/
def adaptReads (q : QState) (up quiet : Nat) (cs : List Nat) : List (StoreId × Nat) :=
  cs.map (fun c => (.qcnt, c)) ++
  (cs.filter fun c => decide (up ≤ mget 0 q.stepsat c) ||
    (!(mget false q.noisy c) && decide (quiet ≤ mget 0 q.quietN c + 1))).map fun c => (.qs, c)

/-- A Q tile parks: the adaptive update of R122; an entry that it reads with wrong parity aborts the task instead (R115). -/
def parkQ (s : State) (t instr : Nat) : State :=
  let g := s.tile t
  match adaptiveDesc g with
  | none => s
  | some d =>
    let a := qdA g d
    let b := g.const (d + 1)
    let cs := List.range (qdNch a)
    match parityFaults g 0x0604 (adaptReads g.q (bits a 26 8) (bits a 18 8) cs) with
    | [] =>
      let (q, n) := adaptAll g.q (bits a 26 8) (bits a 18 8) (bits b 48 16) (bits b 32 16) cs
      countAdapt (s.setTile t { g with q := q }) (s.tileBed t) n
    | fs => (sortBy (fun f => f.addr) fs).foldl
        (fun s f => event s f.code { tileArgs s t f.addr f.d0 f.d1 with instr := instr }) s

/-- What a tile does when it parks; `instr` is the instruction whose firing parked it. -/
def parkHook (s : State) (t instr : Nat) : State :=
  match tileKind t with
  | .q => parkQ s t instr
  | .s => parkS s t
  | _ => s

/-! ## A firing -/

/-- What an instruction adds to a firing: its own faults, the tile with its stores changed, the tokens produced on each
port, the non-finite operands replaced, a steer drop, and for W tiles a next index of its own. -/
structure Plan where
  g : GridTile
  faults : List FireFault := []
  out : List (Nat × List Token) := []
  nonfin : Nat := 0
  steer : Bool := false
  counts : Bool := true
  jump : Option (BitVec 8) := none
  closes : Bool := true
  flips : Bool := false
  warns : List (Nat × Nat) := []

/-- Can the core of tile t start a firing of opcode opc (R29, R41, R45): all tokens of the one before are in its pipeline? -/
def canFire (s : State) (t : Nat) (k : Kind) (opc : Nat) : Bool :=
  let g := s.tile t
  tileKind t == k && !g.inReset && !g.parked && !g.halted && g.rest.isEmpty && !s.holding && iOpc g.instr == opc &&
  (maskPorts (iIn g.instr)).all fun p => !(mget [] g.inb p).isEmpty

/-- The tokens a firing consumes: one from each port of IN. -/
def heads (g : GridTile) (w : BitVec 64) : List (Nat × Token) :=
  (maskPorts (iIn w)).filterMap fun p => (mget [] g.inb p).head?.map fun t => (p, t)

/-- The tokens alone. -/
def toksOf (ts : List (Nat × Token)) : List Token := ts.map (·.2)

/-- The token consumed on a port; an empty bubble where the port is not in IN. -/
def tokAt (ts : List (Nat × Token)) (p : Nat) : Token :=
  match ts.find? (fun x => x.1 == p) with
  | some x => x.2
  | none => { bub := true }

/-- Do all tokens carry one marker? -/
def sameMark : List Token → Bool
  | [] => true
  | t :: r => r.all fun u => u.mark == t.mark

/-- The faults every kind checks of what it consumes, in code order (R20, R23, Table TRL-10). -/
def fabricFaults (g : GridTile) (w : BitVec 64) (ts : List (Nat × Token)) : List FireFault :=
  ((ts.filter fun x => !tokParOk x.2).map fun x =>
    { code := 0x0401, d0 := x.1, d1 := (x.2.par ^^^ parityOf x.2.payload).toNat }) ++
  ((ts.filter fun x => x.2.ctx != g.cur).map fun x =>
    { code := 0x0402, d0 := x.1, d1 := x.2.ctx.toNat }) ++
  (if iMrk w == 2 && !sameMark (toksOf ts) then
    [{ code := 0x0403, d0 := g.pc.toNat, d1 := packN (ts.map fun x => (2 * x.1, markRank x.2.mark)) }] else []) ++
  (if iBubm w == 2 then (ts.filter fun x => x.2.bub).map fun x => { code := 0x0404, d0 := x.1, d1 := g.pc.toNat } else [])

/-- Is this the firing that completes the quota? -/
def completing (g : GridTile) : Bool := g.fired + 1 == g.ctxCfg.qcore

/-- The quota and marker check (R46); beside the instruction index and the firing count the event records the markers seen, two
bits for each port. -/
def quotaFaults (g : GridTile) (ts : List (Nat × Token)) : List FireFault :=
  if ts.all fun x => (x.2.mark != .none) == completing g then []
  else [{ code := 0x0D04, d0 := g.pc.toNat, d1 := g.fired + 1
          more := [packN (ts.map fun x => (2 * x.1, markRank x.2.mark))] }]

/-- Does a core output port drive a route (R103, R132)? R132 does not say whether it means a port of the instruction's OUT field or
any of the tile's: the model takes any (DESIGN CHOICE, log entry 78). -/
def opDrives (g : GridTile) (k : Nat) : Bool := (List.range 8).any fun f => bits g.route (4 * f) 4 == 9 + k

/-- A quota-completing firing that is not a flip firing (M) or not closing (Q, F) while an output drives a route
(R103, R132, R189). -/
def closingFaults (k : Kind) (g : GridTile) (p : Plan) : List FireFault :=
  if !completing g || !(opDrives g 0 || opDrives g 1) || !p.counts then []
  else
    match k with
    | .m => if p.flips then [] else [{ code := 0x0407, d0 := g.pc.toNat, d1 := g.fired + 1 }]
    | .q => if p.closes then [] else [{ code := 0x040A, d0 := g.pc.toNat, d1 := g.fired + 1 }]
    | .f => if p.closes then [] else [{ code := 0x040B, d0 := g.pc.toNat, d1 := g.fired + 1 }]
    | _ => []

/-- Take the consumed tokens out of the input buffers; a marker taken is noted for the front and the bed report. -/
def consume (g : GridTile) (ts : List (Nat × Token)) : GridTile :=
  ts.foldl (fun g x =>
    { g with inb := mset [] g.inb x.1 ((mget [] g.inb x.1).drop 1)
             passed := if x.2.mark == .none then g.passed else mset false g.passed (8 + x.1) true
             hiMark := markMax g.hiMark x.2.mark
             tokUsed := true }) g

/-- Depth of the core of a kind (Table TRL-8). -/
def coreDepth (adr : Nat) : Kind → Nat
  | .m => if adr = 2 then 4 else 6
  | .f => if adr = 2 then 6 else 8
  | .s => 3
  | .w => 1
  | .q => if adr = 2 then 4 else 5

/-- The tokens a firing produced follow those of the core's pipeline. -/
def produce (g : GridTile) (out : List (Nat × List Token)) : GridTile :=
  out.foldl (fun g x => { g with pipe := mset [] g.pipe x.1 (mget [] g.pipe x.1 ++ x.2) }) g

/-- A pipeline holds no more tokens than the core's depth (R34); those beyond wait in the firing, which gives one a beat. -/
def spill (d : Nat) (g : GridTile) : GridTile :=
  if g.pipe.all fun p => decide (p.2.length ≤ d) then g
  else { g with pipe := mapAll [] g.pipe fun _ l => l.take d, rest := mapAll [] g.pipe fun _ l => l.drop d }

/-- The next instruction (R38, Table TRL-9 SEQ). -/
def advance (g : GridTile) (w : BitVec 64) (m : Marker) (jump : Option (BitVec 8)) : GridTile :=
  match jump with
  | some i => { g with pc := i, rep := 0 }
  | none =>
    if iSeq w == 2 && m != .none then { g with pc := BitVec.ofNat 8 (iJmp w), rep := 0 }
    else if g.rep < iRep w then { g with rep := g.rep + 1 }
    else if iSeq w == 1 then { g with pc := BitVec.ofNat 8 (iJmp w), rep := 0 }
    else if iSeq w == 3 then { g with rep := 0, halted := true }
    else { g with pc := g.pc + 1, rep := 0 }

/-- Count the firing towards the quota and park on the last (R45). -/
def countFiring (g : GridTile) (counts : Bool) : GridTile :=
  if counts then { g with fired := g.fired + 1, parked := g.parked || g.fired + 1 == g.ctxCfg.qcore } else g

/-- Warnings of a firing, each raised once. R128 names the counter c and Table ROT-8 says of no value that it is logged: c stands in
the low half of DETAIL, ADDR is 0 (DESIGN CHOICE, log entry 42). -/
def raiseWarns (s : State) (t : Nat) (ws : List (Nat × Nat)) : State :=
  ws.foldl (fun s w => tileEvent s t w.1 0 w.2) s

/-- What a firing leaves: the tile as it then stands, its warnings and the park's in ascending code order (R461), each with the
instruction that fired. -/
def afterFiring (s : State) (t : Nat) (p : Plan) (g1 : GridTile) : State :=
  let b := s.tileBed t
  let instr := (s.tile t).pc.toNat
  let s1 := if p.steer then countSteer s t else s
  let s2 := (raiseWarns s1 t p.warns).setTile t g1
  let s3 := if p.counts && s2.tileParked t then parkHook s2 t instr else s2
  countNonfin s3 b p.nonfin

/-- The tile as a firing without a fault leaves it. -/
def firedTile (s : State) (k : Kind) (p : Plan) (w : BitVec 64) (ts : List (Nat × Token)) : GridTile :=
  countFiring (advance (spill (coreDepth s.adr k) (produce (consume p.g ts) p.out)) w (maxMark (toksOf ts)) p.jump) p.counts

/-- Carry out a firing whose words have been read with the corrections `pre`: its faults, or its whole effect. -/
def commitFiring (s : State) (t : Nat) (k : Kind) (p : Plan) (w : BitVec 64) (ts : List (Nat × Token)) (pre : List FireFault) :
    State :=
  let g := s.tile t
  let fs := fabricFaults g w ts ++ closingFaults k g p ++ p.faults ++ (if p.counts then quotaFaults g ts else [])
  if fs.isEmpty then
    afterFiring (raiseFaults s t (g.fired + 1) pre) t p (firedTile s k p w ts)
  else raiseFaults s t (g.fired + 1) (pre ++ fs)

/-- One firing of tile t: waits (nothing changes) unless the core can fire and the instruction is ready. The instruction word and
its constants are read at every firing, repeats included, once the firing is ready: R43 names each fetch and does not say
whether a repeat fetches again (DESIGN CHOICE, log entry 78). -/
def fire (s : State) (t : Nat) (k : Kind) (opc : Nat) (ready : GridTile → BitVec 64 → Bool)
    (consts : GridTile → BitVec 64 → List Nat) (plan : State → GridTile → BitVec 64 → List (Nat × Token) → Plan) : State :=
  let g := s.tile t
  if canFire s t k opc && ready g g.instr then
    let (s1, pre) := readWords s t (g.pc.toNat :: (consts g g.instr).map (257 + ·))
    let g1 := s1.tile t
    if wordLost pre then raiseFaults s1 t (g.fired + 1) pre
    else
      let ts := heads g1 g1.instr
      commitFiring s1 t k (plan s1 g1 g1.instr ts) g1.instr ts pre
  else s

/-! ## Markers and tags of produced tokens -/

/-- BSEQ where the instruction sets none (R24). -/
def copyBseq (ts : List (Nat × Token)) : BitVec 4 :=
  match ts.head? with
  | some x => x.2.bseq
  | none => 0

/-- The marker of the last token of a firing on each port: the highest consumed since the previous closing firing, or the
rank where the quota-completing firing consumes nothing (R46, R132, R258). -/
def lastMark (rank : Marker) (g : GridTile) (w : BitVec 64) (ts : List (Nat × Token)) : Marker :=
  if iIn w == 0 then (if completing g then rank else .none) else markMax g.closeMark (maxMark (toksOf ts))

/-- Put a marker on the last token of a list and none on the others. -/
def markLast (m : Marker) : List Token → List Token
  | [] => []
  | [t] => [{ t with mark := m }]
  | t :: r => { t with mark := .none } :: markLast m r

/-- Has port p room for n tokens (R29): they all fit behind those of the pipeline, or, where a firing gives more than the core
holds, the pipeline is empty and the firing goes on as its tokens move out (R34; log entry 12)? -/
def roomOn (adr : Nat) (k : Kind) (g : GridTile) (p n : Nat) : Bool :=
  decide ((mget [] g.pipe p).length + min n (coreDepth adr k) ≤ coreDepth adr k)

/-- Has every port of a mask room for n tokens? -/
def roomFor (adr : Nat) (k : Kind) (g : GridTile) (m n : Nat) : Bool := (maskPorts m).all fun p => roomOn adr k g p n

/-- Has every port of OUT room for the one token that a firing gives it? -/
def roomAll (adr : Nat) (k : Kind) (g : GridTile) (m : Nat) : Bool := roomFor adr k g m 1

end Sys2Proof.Machine
end

