-- ==== Sys2Proof/Machine/Fabric.lean ====
section
/-! DEFINITION. SLOT_TRANSFER: one token moves one slot (R26-R28, R34), out of a core, along tracks and latches with forks,
and through the edge tiles (R18, R258, R267, R284, R339, R365, R367, R468). -/

namespace Sys2Proof.Machine

/-! ## Tracks (R25, R31): sides N 0, E 1, S 2, W 3; track x = 2 side + k; its incoming select is 1 + x -/

def oppSide (d : Nat) : Nat := (d + 2) % 4

/-- Where an outgoing track of grid tile t leads: a grid tile or an edge tile. -/
inductive Across where
  | grid (t : Nat)
  | edge (e : Nat)
deriving DecidableEq, Repr

/-- The neighbour on side d of grid tile t. -/
def neighbour (t d : Nat) : Across :=
  match d with
  | 0 => if t < 32 then .edge t else .grid (t - 32)
  | 1 => if t % 32 = 31 then .edge (32 + t / 32) else .grid (t + 1)
  | 2 => if 992 ≤ t then .edge (64 + t % 32) else .grid (t + 32)
  | _ => if t % 32 = 0 then .edge (96 + t / 32) else .grid (t - 1)

/-- The grid neighbour of edge tile e (R18). -/
def edgeNeighbour (e : Nat) : Nat :=
  match e / 32 with
  | 0 => e % 32
  | 1 => e % 32 * 32 + 31
  | 2 => 992 + e % 32
  | _ => e % 32 * 32

/-- The routing word in force at an edge tile. -/
def EdgeTile.word (g : EdgeTile) : Nat := (mget 0 g.route g.cur.toNat).toNat

/-- The descriptor in force at an edge tile. -/
def EdgeTile.desc (g : EdgeTile) : Nat := (mget 0 g.edesc g.cur.toNat).toNat

/-- The destinations of a grid tile that select incoming source j. -/
def gridTaps (s : State) (t j : Nat) : List Dest :=
  let w := (s.tile t).route
  (List.range 12).filterMap fun f =>
    if bits w (4 * f) 4 = j then
      some (if f < 8 then .latch (Fin.ofNat 1024 t) (Fin.ofNat 8 f) else .ip (Fin.ofNat 1024 t) (Fin.ofNat 4 (f - 8)))
    else none

/-- The destinations at the far end of a track on side d, number k, of a tile: what selects it there. -/
def farTaps (s : State) (a : Across) (d k : Nat) : List Dest :=
  let j := 1 + 2 * oppSide d + k
  match a with
  | .grid t => gridTaps s t j
  | .edge e => if bits (s.edge e).word 32 4 = j then [.edgeOut (Fin.ofNat 128 e)] else []

/-- The destinations of outgoing track x of grid tile t. -/
def trackTaps (s : State) (t x : Nat) : List Dest := farTaps s (neighbour t (x / 2)) (x / 2) (x % 2)

/-- The outgoing tracks of a grid tile that output port k drives. -/
def opTracks (s : State) (t k : Nat) : List Nat :=
  (List.range 8).filter fun x => bits (s.tile t).route (4 * x) 4 == 9 + k

/-- Every destination of a slot: the branches of its fork (R28). -/
def destsOf (s : State) : Place → List Dest
  | .op t k => (opTracks s t k).flatMap fun x => trackTaps s t x
  | .latch t x => trackTaps s t x
  | .edgeIn e =>
    let d := oppSide (e.val / 32)
    ((List.range 2).filter fun k => bits (s.edge e).word (4 * (2 * d + k)) 4 == 9).flatMap fun k =>
      farTaps s (.grid (edgeNeighbour e)) d k

/-! ## Slots -/

/-- The key of a source slot in a grid tile's acknowledge map. -/
def placeKey : Place → Nat
  | .op _ k => k
  | .latch _ x => 4 + x
  | .edgeIn _ => 0

/-- The tokens of a source slot. -/
def slotToks (s : State) : Place → List Token
  | .op t k => mget [] (s.tile t).outb k
  | .latch t x => mget [] (s.tile t).latch x
  | .edgeIn e => (s.edge e).inSlots

/-- The destinations that have taken the head token of a slot. -/
def slotAcked (s : State) (p : Place) : List Dest :=
  match p with
  | .op t _ => mget [] (s.tile t).acked (placeKey p)
  | .latch t _ => mget [] (s.tile t).acked (placeKey p)
  | .edgeIn e => (s.edge e).acked

/-- Note that a destination has taken the head token. -/
def setAcked (s : State) (p : Place) (a : List Dest) : State :=
  match p with
  | .op t _ => s.setTile t { s.tile t with acked := mset [] (s.tile t).acked (placeKey p) a }
  | .latch t _ => s.setTile t { s.tile t with acked := mset [] (s.tile t).acked (placeKey p) a }
  | .edgeIn e => s.setEdge e { s.edge e with acked := a }

/-- Empty the head of a slot; a marked token that leaves is noted for the front (R262). -/
def popSlot (s : State) (p : Place) : State :=
  match p with
  | .op t k =>
    let g := s.tile t
    let marked := ((mget [] g.outb k).head?.map fun x => x.mark != .none).getD false
    s.setTile t { g with
      outb := mset [] g.outb k ((mget [] g.outb k).drop 1)
      passed := if marked then (opTracks s t k).foldl (fun m x => mset false m x true) g.passed else g.passed }
  | .latch t x =>
    let g := s.tile t
    let marked := ((mget [] g.latch x).head?.map fun u => u.mark != .none).getD false
    s.setTile t { g with
      latch := mset [] g.latch x ((mget [] g.latch x).drop 1)
      passed := if marked then mset false g.passed x true else g.passed }
  | .edgeIn e => s.setEdge e { s.edge e with inSlots := (s.edge e).inSlots.drop 1 }

/-- Has a destination room (Table TRL-8)? -/
def destRoom (s : State) : Dest → Bool
  | .ip t k => decide ((mget [] (s.tile t).inb k).length < 2)
  | .latch t x => (mget [] (s.tile t).latch x).isEmpty
  | .edgeOut e => decide ((s.edge e).outSlots.length < 2)

/-- Put a token into a destination. -/
def putDest (s : State) (d : Dest) (u : Token) : State :=
  match d with
  | .ip t k => s.setTile t { s.tile t with inb := mset [] (s.tile t).inb k (mget [] (s.tile t).inb k ++ [u]) }
  | .latch t x => s.setTile t { s.tile t with latch := mset [] (s.tile t).latch x [u] }
  | .edgeOut e => s.setEdge e { s.edge e with outSlots := (s.edge e).outSlots ++ [u] }

/-- One destination takes the head token of a slot; the slot empties once all have (R28). -/
def capture (s : State) (p : Place) (d : Dest) : State :=
  match (slotToks s p).head? with
  | none => s
  | some u =>
    if (destsOf s p).contains d && !(slotAcked s p).contains d && destRoom s d then
      let a := d :: slotAcked s p
      let s1 := putDest s d u
      if (destsOf s p).all fun x => a.contains x then setAcked (popSlot s1 p) p [] else setAcked s1 p a
    else s

/-! ## Out of a core -/

/-- The oldest token of a core's pipeline enters the output buffer, and the next token that the firing still has to give enters the
pipeline. -/
def emitCore (s : State) (t k : Nat) : State :=
  let g := s.tile t
  match mget [] g.pipe k with
  | [] => s
  | u :: r =>
    if (mget [] g.outb k).isEmpty then
      s.setTile t { g with pipe := mset [] g.pipe k (r ++ (mget [] g.rest k).take 1)
                           rest := mset [] g.rest k ((mget [] g.rest k).drop 1), outb := mset [] g.outb k [u] }
    else s

/-! ## Inward edge paths -/

/-- The read list an engine runs in a context, and its token total; none when a descriptor wraps (R275, R280). -/
def descTok (d : StreamDesc) : Nat := d.rowtok * d.nrow

def listTotal (l : StreamList) : Option Nat :=
  if l.descs.any fun d => d.wrap then none else some ((l.descs.map descTok).sum)

/-- FOLLOW and SRC of a south edge descriptor (Table STR-1). -/
def southFollow (d : Nat) : Bool := bitAt d 52
def southSrc (d : Nat) : Nat := bits d 48 4

/-- The engine whose read list feeds e(S,2k). -/
def feeder (s : State) (k : Nat) : Nat :=
  let d := (s.edge (64 + 2 * k)).desc
  if southFollow d then southSrc d else k

/-- Every engine number whose edge receives engine j's read list. -/
def recipients (s : State) (j : Nat) : List Nat :=
  (List.range 16).filter fun k =>
    decide (0 < (s.edge (64 + 2 * k)).ctxCfg.quota 0) && feeder s k == j

/-- Is a token of the current list at the head of engine j's buffer for edge k (R280, R284)? -/
def streamHead (s : State) (k : Nat) : Option Token :=
  let j := feeder s k
  let e := s.engine j
  let more := match listTotal e.rlist with
    | none => true
    | some n => decide (e.delivered < n) || e.captured.contains j
  if e.captured.contains k || !more then none else e.rbuf.head?

/-- Edge k takes the head token of its feeder (R280, R284): the engine counts what its own edge captures, and the token leaves the
buffer once every recipient has captured it. -/
def takeStream (s : State) (k : Nat) : State :=
  let j := feeder s k
  let e := s.engine j
  let c := k :: e.captured
  let all := (recipients s j).all fun i => c.contains i
  s.setEngine j { e with
    rbuf := if all then e.rbuf.drop 1 else e.rbuf
    captured := if all then [] else c
    delivered := if k = j then e.delivered + 1 else e.delivered }

/-- The step a west edge expects of a token's frame: its own step less SOFF (R367). -/
def westStep (s : State) (e : Nat) : BitVec 32 :=
  s.pace.step.truncate 32 - BitVec.ofNat 32 (bits (s.edge e).desc 40 4)

/-- The head token an inward path may take from its block. -/
def inwardHead (s : State) (e : Nat) : Option Token :=
  match e / 32 with
  | 0 => (mget [] s.nce.chan (e % 32)).head?
  | 1 => if e % 32 < 16 then none
         else if e % 32 < 24 then (s.chan (e % 32 - 16)).buf.head?
         else (mget [] s.nce.chan (32 + (e % 32 - 24))).head?
  | 2 => if e % 2 = 0 then streamHead s (e % 32 / 2) else none
  | _ => ((mget [] (s.port (e % 32 / 8)).vcbuf (e % 8)).head?).map (·.1)

/-- Take the head token off the block; a link returns a credit (R365), a host stream advances CI (R339). -/
def inwardPop (s : State) (e : Nat) : State :=
  match e / 32 with
  | 0 => { s with nce := { s.nce with chan := mset [] s.nce.chan (e % 32) ((mget [] s.nce.chan (e % 32)).drop 1) } }
  | 1 =>
    if e % 32 < 24 then
      let c := e % 32 - 16
      let x := s.chan c
      let r := s.ring (10 + c)
      raiseSource ((s.setChan c { x with buf := x.buf.drop 1 }).setRing (10 + c) { r with ci := r.ci + 1 }) 13
    else
      let k := 32 + (e % 32 - 24)
      { s with nce := { s.nce with chan := mset [] s.nce.chan k ((mget [] s.nce.chan k).drop 1) } }
  | 2 => takeStream s (e % 32 / 2)
  | _ =>
    let p := e % 32 / 8
    let v := e % 8
    let x := s.port p
    s.setPort p { x with vcbuf := mset [] x.vcbuf v ((mget [] x.vcbuf v).drop 1)
                         credRet := mset 0 x.credRet v (mget 0 x.credRet v + 1) }

/-- Does the frame of the head token of a west edge carry another step than expected (R367)? -/
def westSkew (s : State) (e : Nat) : Option (BitVec 32) :=
  if e / 32 = 3 then
    match (mget [] (s.port (e % 32 / 8)).vcbuf (e % 8)).head? with
    | some (_, st) => if st = westStep s e then none else some st
    | none => none
  else none

/-- Park an edge tile that has met its quota in both directions (R45). -/
def parkEdge (g : EdgeTile) : EdgeTile :=
  if g.ctxCfg.quota 0 ≤ g.inCnt ∧ g.ctxCfg.quota 4 ≤ g.outCnt then { g with parked := true } else g

/-- May an edge tile start a transfer (R30, R45)? -/
def edgeLive (s : State) (e : Nat) : Bool := (s.edge e).ctxCfg.claimed && !(s.edge e).parked && !s.holding

/-- Put a token on the inward path of an edge tile and count it. -/
def pushInward (s : State) (e : Nat) (u : Token) : State :=
  let g := s.edge e
  s.setEdge e (parkEdge { g with inSlots := g.inSlots ++ [u], inCnt := g.inCnt + 1, lastBseq := u.bseq
                                 inMarked := g.inMarked || u.mark != .none })

/-- A token moves from a block onto an inward edge path: CTX by R23, the rank on the step's last token by R258, a bubble
during a rake-out (R267). -/
def inward (s : State) (e : Nat) : State :=
  let g := s.edge e
  let q := g.ctxCfg.quota 0
  if edgeLive s e && decide (g.inCnt < q) && decide (g.inSlots.length < 2) then
    let last := g.inCnt + 1 == q
    if s.pace.rakeAct then
      pushInward s e (mkBubble (if last then s.pace.rank else .none) g.cur g.lastBseq)
    else
      match inwardHead s e with
      | none => s
      | some u =>
        match westSkew s e with
        | some st =>
          event s 0x0907 { srcid := e % 32 / 8, detail := two st.toNat (westStep s e).toNat
                           tile := edgeId e, ctx := g.cur.toNat }
        | none =>
          let u1 := if e / 32 = 3 then { u with mark := if last then s.pace.rank else u.mark }
            else { u with ctx := g.cur, mark := if last then s.pace.rank else .none }
          pushInward (inwardPop s e) e u1
  else s

/-! ## Outward edge paths -/

/-- Can the block take the token of an outward path? South tokens leave by ENGINE_TOKEN_RECEIVE. -/
def outwardRoom (s : State) (e : Nat) : Bool :=
  match e / 32 with
  | 0 => true
  | 1 =>
    if 16 ≤ e % 32 ∧ e % 32 < 24 then
      let r := s.ring (18 + (e % 32 - 16))
      r.en && decide (r.used + (s.chan (e % 32 - 16)).outq.length < r.size)
    else if e % 32 < 16 then !ppBlocked s
    else true
  | 2 => false
  | _ => decide (0 < mget 0 (s.port (e % 32 / 8)).cred (e % 8)) && (s.port (e % 32 / 8)).isUp

/-- The block takes the token. -/
def outwardPut (s : State) (e : Nat) (u : Token) : State :=
  match e / 32 with
  | 0 => { s with nce := { s.nce with rx := mset [] s.nce.rx (e % 32) (mget [] s.nce.rx (e % 32) ++ [u]) } }
  | 1 =>
    if e % 32 < 16 then { s with pp := { s.pp with rx := mset [] s.pp.rx (e % 32) (mget [] s.pp.rx (e % 32) ++ [u]) } }
    else if e % 32 < 24 then
      let c := e % 32 - 16
      s.setChan c { s.chan c with outq := (s.chan c).outq ++ [u] }
    else
      let k := 32 + (e % 32 - 24)
      { s with nce := { s.nce with rx := mset [] s.nce.rx k (mget [] s.nce.rx k ++ [u]) } }
  | 2 => s
  | _ =>
    let p := e % 32 / 8
    let v := e % 8
    let x := s.port p
    s.setPort p { x with cred := mset 0 x.cred v (mget 0 x.cred v - 1)
                         vcout := mset [] x.vcout v (mget [] x.vcout v ++ [(u, s.pace.step.truncate 32)]) }

/-- Count a token that an outward path passed. -/
def popOutward (s : State) (e : Nat) (u : Token) : State :=
  let g := s.edge e
  s.setEdge e (parkEdge { g with outSlots := g.outSlots.drop 1, outCnt := g.outCnt + 1
                                 outMarked := g.outMarked || u.mark != .none, hiMark := markMax g.hiMark u.mark })

/-- The parity event of an outward edge (R20). -/
def outwardParity (s : State) (e : Nat) (u : Token) : State :=
  event s 0x0401 { srcid := edgeId e, detail := two 0 (u.par ^^^ parityOf u.payload).toNat, tile := edgeId e
                   ctx := (s.edge e).cur.toNat }

/-- A token moves from an outward edge path into its block; without link credit a rake-out with DROPLK discards it
(R20, R267, R365). -/
def outward (s : State) (e : Nat) : State :=
  let g := s.edge e
  match g.outSlots.head? with
  | none => s
  | some u =>
    if edgeLive s e && decide (g.outCnt < g.ctxCfg.quota 4) then
      let drop := e / 32 == 3 && s.pace.rakeAct && s.pace.rakeDrop && !outwardRoom s e
      if outwardRoom s e || drop then
        if tokParOk u then
          if drop then popOutward { s with pace := { s.pace with rakeDropCnt := satInc s.pace.rakeDropCnt } } e u
          else popOutward (outwardPut s e u) e u
        else outwardParity s e u
      else s
    else s

/-- One slot transfer. -/
def slotMove (s : State) (m : Move) : State :=
  if s.cfg.stage = 0 || s.cfg.stage = 15 then s
  else
    match m with
    | .emit t k => emitCore s t k
    | .capture p d => capture s p d
    | .inward e => inward s e
    | .outward e => outward s e

/-- SLOT_TRANSFER (R27). -/
def execSlotTransfer (m : Move) (s : State) : Host.Outcome State Fault Refusal := .next (slotMove s m)

end Sys2Proof.Machine
end

