-- ==== Sys2Proof/Machine/STile.lean ====
section
/-! DEFINITION. The S tile: hard ports, bank service, queue operations, the address generator and NOP of every kind's core
(07, R135-R160; R40). -/

namespace Sys2Proof.Machine

/-! ## Slots and banks (R136, R137) -/

/-- The bank of a slot. -/
def slotBank (i : Nat) : Nat := 2 * (i / 16384) + i % 2

/-- The check bit of a stored token: even parity over BUB, MARK, CTX and BSEQ. -/
def sideParity (t : Token) : Bool :=
  (b2n t.bub + bits (markRank t.mark) 0 1 + bits (markRank t.mark) 1 1 + bits t.ctx.toNat 0 1 + bits t.ctx.toNat 1 1 +
   bits t.bseq.toNat 0 1 + bits t.bseq.toNat 1 1 + bits t.bseq.toNat 2 1 + bits t.bseq.toNat 3 1) % 2 == 1

/-- Does a slot pass its read check? -/
def slotOk (x : Slot) : Bool := tokParOk x.tok && x.chk == sideParity x.tok

def slotAt (g : GridTile) (i : Nat) : Slot := mget {} g.s.store i

def putSlot (g : GridTile) (i : Nat) (t : Token) : GridTile :=
  { g with s := { g.s with store := mset {} g.s.store i { tok := t, chk := sideParity t } } }

/-- Carry out a slot access; a read that fails its check produces nothing and gives its slot. -/
def doAccess (g : GridTile) : SlotAccess → GridTile × Option Nat
  | .write i t => (putSlot g i t, none)
  | .read i k m =>
    let x := slotAt g i
    if slotOk x then (produce g [(k, [{ x.tok with ctx := g.cur, mark := m }])], none) else (g, some i)

def accessSlot : SlotAccess → Nat
  | .write i _ => i
  | .read i _ _ => i

/-- A slot access claims its bank: served while the bank has served fewer than two in the beat, else deferred (R139). -/
def claim (g : GridTile) (who : Nat) (a : SlotAccess) : GridTile × Option Nat :=
  let b := slotBank (accessSlot a)
  if mget 0 g.s.bankUse b < 2 then
    doAccess { g with s := { g.s with bankUse := mset 0 g.s.bankUse b (mget 0 g.s.bankUse b + 1) } } a
  else ({ g with s := { g.s with deferred := g.s.deferred ++ [(who, a)], deferPc := if who = 5 then g.pc.toNat else g.s.deferPc } }, none)

/-- Serve deferred accesses in the order they had: the tile, and the ranks and slots of the reads that failed. -/
def serveAll (g : GridTile) : List (Nat × SlotAccess) → GridTile × List (Nat × Nat)
  | [] => (g, [])
  | (w, a) :: r =>
    let (g1, f) := claim g w a
    let (g2, fs) := serveAll g1 r
    (g2, (f.toList.map fun i => (w, i)) ++ fs)

/-- What INSTR names for an access of a rank: the hard pop port, or the instruction that made it (R160). -/
def accessInstr (g : GridTile) (rank : Nat) : Nat := if 6 ≤ rank then 0xFF04 + (rank - 6) else g.s.deferPc

/-- The event of a failed store read that was deferred (R137, R160). -/
def readFault (s : State) (t : Nat) (x : Nat × Nat) : State :=
  event s 0x0501 { tileArgs s t x.2 x.2 (slotBank x.2) with instr := accessInstr (s.tile t) x.1 }

/-- Begin the next beat of an S tile: the banks are free and deferred accesses come first; one deferred again keeps the instruction that
made it. -/
def nextBeat (s : State) (t : Nat) : State :=
  let g := s.tile t
  let (g1, fs) := serveAll { g with s := { g.s with bankUse := [], pushedNow := [], freed := [], deferred := [], beatRank := 0 } } g.s.deferred
  fs.foldl (fun s i => readFault s t i) (s.setTile t { g1 with s := { g1.s with deferPc := g.s.deferPc } })

/-- Place an operation of a rank in a beat: a new beat when the rank has passed, a queue it reads was pushed in this one, or
an access of its own is still deferred (log entry 13). Ranks: hard push IPk k + 1, core 5, hard pop OPk k + 6. -/
def inBeat (s : State) (t rank : Nat) (qs : List Nat) : State :=
  let g := s.tile t
  if rank ≤ g.s.beatRank || qs.any (fun q => g.s.pushedNow.contains q) || g.s.deferred.any (fun d => d.1 == rank) then nextBeat s t
  else s

/-- Does a push of port IPk into queue q take place in the beat in which the core's control operation gave it room, after that
operation (R148, R149)? -/
def pushFreed (g : GridTile) (q : Nat) : Bool := g.s.beatRank == 5 && g.s.freed.contains q && !g.s.pushedNow.contains q

/-- Note the rank of an operation in its beat. -/
def noteRank (g : GridTile) (rank : Nat) : GridTile := { g with s := { g.s with beatRank := rank } }

/-- Has an operation of this rank an access still deferred? -/
def stillDeferred (g : GridTile) (rank : Nat) : Bool := g.s.deferred.any fun d => d.1 == rank

/-- BANK_DEFERRED_ACCESS: the accesses left over by the last beat are served in the next (R139). -/
def bankDeferred (s : State) (t : Nat) : State :=
  if tileKind t == .s && !(s.tile t).s.deferred.isEmpty then nextBeat s t else s

def execBankDeferredAccess (t : Fin 1024) (s : State) : Host.Outcome State Fault Refusal := .next (bankDeferred s t)

/-! ## Queues (R143, R144) -/

/-- One operation on both copies of a queue's pointers (R150). -/
def bothPtrs (x : Queue) (f : Ptrs → Ptrs) : Queue := { x with a := f x.a, b := f x.b }

/-- Advance WP by one and note the largest OCC. -/
def pushPtrs (x : Queue) : Queue :=
  let y := bothPtrs x fun p => { p with wp := p.wp + 1 }
  { y with hwm := max y.hwm y.occ }

/-- Advance RP by n; in FIFO mode FP follows. -/
def popPtrs (ret : Bool) (n : Nat) (x : Queue) : Queue :=
  bothPtrs x fun p =>
    let r := p.rp + BitVec.ofNat 24 n
    { p with rp := r, fp := if ret then p.fp else r }

/-- The slot of a queue position. -/
def qSlot (d : Nat) (p : BitVec 24) : Nat := qBase d + p.toNat % qSize d

/-- Can a queue take a token, or give one? -/
def canPush (g : GridTile) (q : Nat) : Bool := !(g.queue q).froz && decide (0 < (g.queue q).free (g.qdesc q))
def canPop (g : GridTile) (q : Nat) : Bool := !(g.queue q).froz && decide (0 < (g.queue q).avl)

/-- Push a token into a queue, as an operation of a rank. -/
def pushQueue (g : GridTile) (rank q : Nat) (t : Token) : GridTile :=
  let x := g.queue q
  let g1 := g.setQueue q (pushPtrs x)
  (claim { g1 with s := { g1.s with pushedNow := q :: g1.s.pushedNow } } rank (.write (qSlot (g.qdesc q) x.a.wp) t)).1

/-! ## End markers (R146) -/

/-- The tile's end marker of the step. -/
def endMarker (rank : Marker) (g : GridTile) : Marker := if g.tokUsed then g.hiMark else rank

/-- Has every bound input port taken its end-of-step marker? -/
def pushersDone (g : GridTile) : Bool :=
  (List.range 4).all fun k => (g.binding k).isNone || decide (g.ctxCfg.quota k ≤ mget 0 g.s.portCnt k)

/-- Does the core's program consume tokens? -/
def coreConsumes (g : GridTile) : Bool :=
  (List.range 256).any fun i => iIn (mget 0 g.words (g.cur.toNat * 384 + i)) != 0

/-! ## Hard ports (R140, R145) -/

/-- May a hard port act: tile released, machine not held, quota not made? -/
def portLive (s : State) (t k : Nat) : Bool :=
  let g := s.tile t
  tileKind t == .s && !g.inReset && g.ctxCfg.claimed && !g.s.portsOff && !s.holding &&
  decide (mget 0 g.s.portCnt k < g.ctxCfg.quota k)

/-- An event of a hard port: the instruction field names the port (R160). -/
def portEvent (s : State) (t k code addr d0 d1 : Nat) : State :=
  event s code { srcid := t, addr := addr, detail := two d0 d1, tile := t, ctx := (s.tile t).cur.toNat
                 instr := 0xFF00 + k, count := if code = 0x0D04 then mget 0 (s.tile t).s.portCnt k + 1 else 0 }

/-- The faults of a token that a hard push port takes (R20, R23, R145). -/
def pushFaults (g : GridTile) (ip : Nat) (u : Token) : List FireFault :=
  (if tokParOk u then [] else [{ code := 0x0401, d0 := ip, d1 := (u.par ^^^ parityOf u.payload).toNat }]) ++
  (if u.ctx = g.cur then [] else [{ code := 0x0402, d0 := ip, d1 := u.ctx.toNat }]) ++
  (if (u.mark != .none) == (mget 0 g.s.portCnt ip + 1 == g.ctxCfg.quota ip) then []
   else [{ code := 0x0D04, d0 := 0xFF00 + ip, d1 := mget 0 g.s.portCnt ip + 1 }])

/-- Compare the tile's queues once its last part parks (R150). -/
def portPark (s : State) (t : Nat) : State := if s.tileParked t then parkS s t else s

/-- One hard push of port ip (R140, R144, R145). -/
def hardPushOp (s : State) (t ip : Nat) : State :=
  let g0 := s.tile t
  match g0.binding ip, (mget [] g0.inb ip).head? with
  | some q, some u =>
    if portLive s t ip && decide (2 ≤ s.cfg.stage.toNat) && !(g0.queue q).froz then
      let now := pushFreed g0 q
      let s1 := if now then s else inBeat s t (ip + 1) []
      let g := s1.tile t
      if canPush g q && !stillDeferred g (ip + 1) then
        let fs := pushFaults g ip u
        let raise := fun s => fs.foldl (fun s f => portEvent s t ip f.code f.addr f.d0 f.d1) s
        match ptrDiff (g0.queue q) with
        | some _ => pointerFault s t q (0xFF00 + ip) raise
        | none =>
          if fs.isEmpty then
            let g1 := pushQueue (noteRank g (if now then 5 else ip + 1)) (ip + 1) q u
            let g2 := consume g1 [(ip, u)]
            portPark (s1.setTile t { g2 with s := { g2.s with portCnt := mset 0 g2.s.portCnt ip (mget 0 g2.s.portCnt ip + 1) } }) t
          else raise s
      else s
    else s
  | _, _ => s

def execHardPush (t : Fin 1024) (ip : Fin 4) (s : State) : Host.Outcome State Fault Refusal := .next (hardPushOp s t ip)

/-- May the production that completes the quota of an output port go out (R146)? -/
def popMayEnd (g : GridTile) : Bool := pushersDone g && (!coreConsumes g || g.parked)

/-- One hard pop of port op (R140, R144-R146). -/
def hardPopOp (s : State) (t op : Nat) : State :=
  let g0 := s.tile t
  match g0.binding (4 + op) with
  | some q =>
    if portLive s t (4 + op) && !(g0.queue q).froz then
      let s1 := inBeat s t (op + 6) [q]
      let g := s1.tile t
      let ends := mget 0 g.s.portCnt (4 + op) + 1 == g.ctxCfg.quota (4 + op)
      if canPop g q && !stillDeferred g (op + 6) && decide ((mget [] g.pipe op).length < 3) && (!ends || popMayEnd g) then
        match ptrDiff (g0.queue q) with
        | some _ => pointerFault s t q (0xFF04 + op)
        | none =>
          let x := g.queue q
          let d := g.qdesc q
          let m := if ends then endMarker s.pace.rank g else .none
          let (g1, f) := claim (noteRank g (op + 6)) (op + 6) (.read (qSlot d x.a.rp) op m)
          match f with
          | some i => portEvent s1 t (4 + op) 0x0501 i i (slotBank i)
          | none =>
            let g2 := g1.setQueue q (popPtrs (qRet d) 1 x)
            portPark (s1.setTile t { g2 with s := { g2.s with portCnt := mset 0 g2.s.portCnt (4 + op) (mget 0 g2.s.portCnt (4 + op) + 1) } }) t
      else s
    else s
  | none => s

def execHardPop (t : Fin 1024) (op : Fin 4) (s : State) : Host.Outcome State Fault Refusal := .next (hardPopOp s t op)

/-! ## Core operations -/

/-- The queue an instruction names. -/
def instrQueue (w : BitVec 64) : Nat := bits (iOpnd w) 0 4

/-- N of SKIP and RELEASE. -/
def instrN (w : BitVec 64) : Nat := bits (iOpnd w) 4 14

/-- One core firing of an S tile as an operation of rank 5 on some queues: placed in a beat, copies compared as it takes place, then
fired. -/
def sCore (s : State) (t opc : Nat) (qs : GridTile → BitVec 64 → List Nat) (ready : State → GridTile → BitVec 64 → Bool)
    (consts : GridTile → BitVec 64 → List Nat) (plan : State → GridTile → BitVec 64 → List (Nat × Token) → Plan) : State :=
  let g0 := s.tile t
  let ql := qs g0 g0.instr
  if canFire s t .s opc && ql.all (fun q => !(g0.queue q).froz) then
    let s1 := inBeat s t 5 ql
    let g := s1.tile t
    if ready s1 g g.instr && !stillDeferred g 5 then
      match ql.find? fun q => (ptrDiff (g0.queue q)).isSome with
      | some q => pointerFault s t q g0.pc.toNat fun s => raiseFaults s t (g0.fired + 1) (fabricFaults g0 g0.instr (heads g0 g0.instr))
      | none => fire (s1.setTile t (noteRank g 5)) t .s opc (fun _ _ => true) consts plan
    else s
  else s

def oneQueue (_ : GridTile) (w : BitVec 64) : List Nat := [instrQueue w]
def noQueue (_ : GridTile) (_ : BitVec 64) : List Nat := []

/-- The constants of a queue instruction. -/
def queueConst (_ : GridTile) (w : BitVec 64) : List Nat := [110 + instrQueue w]

/-- Room for the production of a core firing, and its waits when it completes the quota (R29, R146). -/
def sRoom (s : State) (g : GridTile) (w : BitVec 64) : Bool :=
  roomAll s.adr .s g (iOut w) && (!completing g || pushersDone g || iOut w == 0)

/-- The marker of a core production (R146); tokens of this firing are counted in. -/
def coreMark (s : State) (g : GridTile) (ts : List (Nat × Token)) : Marker :=
  if completing g then
    (if g.tokUsed || !ts.isEmpty then markMax g.hiMark (maxMark (toksOf ts)) else s.pace.rank)
  else .none

/-- The output port of a mask with one port. -/
def onePort (m : Nat) : Nat := ((maskPorts m).head?).getD 0

/-- A consumed token as it is stored (R158). -/
def storedTok (w : BitVec 64) (u : Token) : Token :=
  if u.bub && iBubm w == 1 then { u with bub := false, payload := 0, par := 0 } else u

/-- The plan of a firing that claims one slot access. -/
def accessPlan (g : GridTile) (a : SlotAccess) (f : GridTile → GridTile) : Plan :=
  let (g1, bad) := claim g 5 a
  match bad with
  | some i => { g := g, faults := [{ code := 0x0501, addr := i, d0 := i, d1 := slotBank i }] }
  | none => { g := f g1 }

/-! ### PUSH, POP -/

def pushPlan (_ : State) (g : GridTile) (w : BitVec 64) (ts : List (Nat × Token)) : Plan :=
  { g := pushQueue g 5 (instrQueue w) (storedTok w (tokAt ts (onePort (iIn w)))) }

def pushFire (s : State) (t : Nat) : State :=
  sCore s t 1 oneQueue (fun s g w => canPush g (instrQueue w) && decide (2 ≤ s.cfg.stage.toNat)) queueConst pushPlan

def execPush (t : Fin 1024) (s : State) : Host.Outcome State Fault Refusal := .next (pushFire s t)

def popPlan (s : State) (g : GridTile) (w : BitVec 64) (ts : List (Nat × Token)) : Plan :=
  let q := instrQueue w
  let d := g.qdesc q
  let x := g.queue q
  accessPlan g (.read (qSlot d x.a.rp) (onePort (iOut w)) (coreMark s g ts)) fun g1 => g1.setQueue q (popPtrs (qRet d) 1 x)

def popFire (s : State) (t : Nat) : State :=
  sCore s t 2 oneQueue (fun s g w => canPop g (instrQueue w) && sRoom s g w) queueConst popPlan

def execPop (t : Fin 1024) (s : State) : Host.Outcome State Fault Refusal := .next (popFire s t)

/-! ### RUN (R152-R155) -/

/-- DESC and RST of a RUN. -/
def runDesc (w : BitVec 64) : Nat := bits (iOpnd w) 4 7
def runRst (w : BitVec 64) : Bool := bitAt (iOpnd w) 11

/-- The eight words of the descriptor a RUN uses; none where the streamed one is absent. -/
def agWords (g : GridTile) (w : BitVec 64) : Option (List Nat) :=
  if runDesc w = 127 then g.s.streamed.map fun l => l.map fun x => x.toNat
  else some ((List.range 8).map fun k => g.const (runDesc w + k))

/-- Fields of the header words (Table MEM-6) and level words (Table MEM-7). -/
structure Ag where
  a : Nat
  b : Nat
  lv : List Nat
deriving DecidableEq, Repr

def Ag.ofWords (l : List Nat) : Ag := { a := lget 0 l 0, b := lget 0 l 1, lv := l.drop 2 }
def Ag.wr (x : Ag) : Bool := bitAt x.a 59
def Ag.rel (x : Ag) : Bool := bitAt x.a 58
def Ag.orgRp (x : Ag) : Bool := bitAt x.a 57
def Ag.padEdge (x : Ag) : Bool := bits x.a 55 2 == 1
def Ag.qn (x : Ag) : Nat := bits x.a 51 4
def Ag.base (x : Ag) : Nat := bits x.a 36 15
def Ag.xs (x : Ag) : Int := signed 16 (bits x.a 20 16)
def Ag.ys (x : Ag) : Int := signed 16 (bits x.a 4 16)
def Ag.x0 (x : Ag) : Int := signed 16 (bits x.b 48 16)
def Ag.y0 (x : Ag) : Int := signed 16 (bits x.b 32 16)
def Ag.w (x : Ag) : Nat := bits x.b 16 16
def Ag.h (x : Ag) : Nat := bits x.b 0 16
def lvN (l : Nat) : Nat := bits l 52 12
def lvDx (l : Nat) : Int := signed 16 (bits l 36 16)
def lvDy (l : Nat) : Int := signed 16 (bits l 20 16)
def lvDa (l : Nat) : Int := signed 20 (bits l 0 20)

/-- The sum over the levels of index times increment. -/
def agSum (f : Nat → Int) (idx lv : List Nat) : Int := ((idx.zip lv).map fun p => (p.1 : Int) * f p.2).sum

/-- Where a RUN firing reads or writes (R153): outside the extent, or an offset. -/
def agOffset (x : Ag) (idx : List Nat) : Option Int :=
  let px := x.x0 + agSum lvDx idx x.lv
  let py := x.y0 + agSum lvDy idx x.lv
  let out := (decide (0 < x.w) && (decide (px < 0) || decide ((x.w : Int) ≤ px))) ||
    (decide (0 < x.h) && (decide (py < 0) || decide ((x.h : Int) ≤ py)))
  let cx := if 0 < x.w then clampInt 0 (x.w - 1) px else px
  let cy := if 0 < x.h then clampInt 0 (x.h - 1) py else py
  if out && !x.padEdge then none else some (cy * x.ys + cx * x.xs + agSum lvDa idx x.lv)

/-- The next position of the nest (R153). -/
def agNext : List Nat → List Nat → List Nat
  | i :: r, l :: ls => if i + 1 < lvN l then (i + 1) :: r else 0 :: agNext r ls
  | idx, _ => idx

/-- The loop indices a firing starts from. -/
def runIdx (g : GridTile) (w : BitVec 64) : List Nat :=
  if (runRst w && g.rep == 0) || g.s.lastDesc != some (runDesc w) || (runDesc w == 127 && g.s.ldgFresh) then List.replicate 6 0
  else g.s.idx

/-- Is a streamed descriptor malformed for this RUN (R155)? -/
def agMalformed (w : BitVec 64) (x : Ag) : Bool :=
  bits x.a 60 4 != 6 || decide (2 ≤ bits x.a 55 2) || bits x.a 0 4 != 0 || x.lv.any (fun l => lvN l == 0) || (x.rel && x.wr) ||
  (if x.wr then (maskPorts (iIn w)).length != 1 || iOut w != 0 else iIn w != 0 || (maskPorts (iOut w)).length != 1)

/-- Does the descriptor a RUN uses abort the task at this firing: a streamed one that is malformed? -/
def agRefused (w : BitVec 64) (x : Ag) : Bool := runDesc w == 127 && agMalformed w x

/-- Is a slot inside the region of a used queue? -/
def inQueueRegion (g : GridTile) (i : Nat) : Bool :=
  (List.range 16).any fun q =>
    let d := g.qdesc q
    qUsed d && decide (qBase d ≤ i) && decide (i < qBase d + qSize d)

/-- The origin of a relative read, as a distance from FP. -/
def agOrigin (g : GridTile) (x : Ag) : Nat := if x.orgRp then dist (g.queue x.qn).a.rp (g.queue x.qn).a.fp else 0

/-- Why a RUN firing cannot address its slot (R154), and the slot otherwise. A streamed descriptor with REL = 1 that names an unused
queue is not in R155's list of malformed ones and R154 gives it no outcome: the model takes the queue's zero descriptor as it
stands, SIZE = 1, so the read waits or its offset leaves the bounds, event 0x0506 (DESIGN CHOICE, log entry 78). -/
def agSlot (g : GridTile) (x : Ag) (off : Int) : Except Int Nat :=
  if x.rel then
    let r := (agOrigin g x : Int) + off
    if r < 0 ∨ (qSize (g.qdesc x.qn) : Int) ≤ r then .error r
    else .ok (qSlot (g.qdesc x.qn) ((g.queue x.qn).a.fp + BitVec.ofNat 24 r.toNat))
  else
    let i := (x.base : Int) + off
    if i < 0 ∨ 32767 < i ∨ inQueueRegion g i.toNat then .error i else .ok i.toNat

/-- Must a relative read wait for its position to be written (R153)? -/
def agWaits (g : GridTile) (x : Ag) (off : Int) : Bool :=
  x.rel && decide (((g.queue x.qn).occ : Int) ≤ (agOrigin g x : Int) + off) &&
  decide ((agOrigin g x : Int) + off < (qSize (g.qdesc x.qn) : Int))

/-- The queues a RUN reads. -/
def runQueues (g : GridTile) (w : BitVec 64) : List Nat :=
  match agWords g w with
  | some l => if (Ag.ofWords l).rel && !agRefused w (Ag.ofWords l) then [(Ag.ofWords l).qn] else []
  | none => []

/-- Is a RUN ready: room, the wait of R146, the position written? -/
def runReady (s : State) (g : GridTile) (w : BitVec 64) : Bool :=
  sRoom s g w &&
  match agWords g w with
  | none => true
  | some l =>
    agRefused w (Ag.ofWords l) ||
    match agOffset (Ag.ofWords l) (runIdx g w) with
    | none => true
    | some off => !agWaits g (Ag.ofWords l) off

/-- The nest after a firing. -/
def runAdvance (w : BitVec 64) (idx : List Nat) (x : Ag) (g : GridTile) : GridTile :=
  { g with s := { g.s with idx := agNext idx x.lv, lastDesc := some (runDesc w), ldgFresh := false } }

/-- The bounds fault of a RUN (R154): ADDR the offending slot or offset, a negative one as 64 bits of two's complement, which R154 does
not state (DESIGN CHOICE, log entry 29); DETAIL i[0] and i[1]; beyond them the descriptor index and the other loop indices. -/
def agFault (desc : Nat) (off : Int) (idx : List Nat) : FireFault :=
  { code := 0x0506, addr := (off % 2 ^ 64).toNat, d0 := lget 0 idx 0, d1 := lget 0 idx 1, more := desc :: idx.drop 2 }

def runPlan (s : State) (g : GridTile) (w : BitVec 64) (ts : List (Nat × Token)) : Plan :=
  match agWords g w with
  | none => { g := g, faults := [{ code := 0x0503 }] }
  | some l =>
    let x := Ag.ofWords l
    if agRefused w x then { g := g, faults := [{ code := 0x0503, d0 := x.a, d1 := x.b, more := l }] }
    else
      let idx := runIdx g w
      match agOffset x idx with
      | none =>
        { g := runAdvance w idx x g
          out := if x.wr then [] else [(onePort (iOut w), [mkToken 0 (coreMark s g ts) g.cur 0])] }
      | some off =>
        match agSlot g x off with
        | .error o => { g := g, faults := [agFault (runDesc w) o idx] }
        | .ok i =>
          if x.wr then accessPlan g (.write i (storedTok w (tokAt ts (onePort (iIn w))))) (runAdvance w idx x)
          else accessPlan g (.read i (onePort (iOut w)) (coreMark s g ts)) (runAdvance w idx x)

/-- The constants a RUN reads. -/
def runConsts (g : GridTile) (w : BitVec 64) : List Nat :=
  (if runDesc w = 127 then [] else (List.range 8).map fun k => runDesc w + k) ++ (runQueues g w).map fun q => 110 + q

def runFire (s : State) (t : Nat) : State := sCore s t 3 runQueues runReady runConsts runPlan

def execRun (t : Fin 1024) (s : State) : Host.Outcome State Fault Refusal := .next (runFire s t)

/-! ### Queue control (R147) -/

/-- The limit of RELEASE: MP if the mark is valid, else RP. -/
def releaseLimit (p : Ptrs) : BitVec 24 := if p.mv then p.mp else p.rp

/-- A control operation on the queue an instruction names. Where it gives room to a queue that had none, a push that waits takes
place in the same beat (R148). -/
def ctlPlan (f : Queue → Queue) (_ : State) (g : GridTile) (w : BitVec 64) (_ : List (Nat × Token)) : Plan :=
  let q := instrQueue w
  let x := g.queue q
  let d := g.qdesc q
  let g1 := g.setQueue q (f x)
  { g := if x.free d = 0 ∧ 0 < (f x).free d then { g1 with s := { g1.s with freed := q :: g1.s.freed } } else g1 }

def always (_ : State) (_ : GridTile) (_ : BitVec 64) : Bool := true

def markFire (s : State) (t : Nat) : State :=
  sCore s t 4 oneQueue always queueConst (ctlPlan fun x => bothPtrs x fun p => { p with mp := p.rp, mv := true })

def execMark (t : Fin 1024) (s : State) : Host.Outcome State Fault Refusal := .next (markFire s t)

def unmarkFire (s : State) (t : Nat) : State :=
  sCore s t 5 oneQueue always queueConst (ctlPlan fun x => bothPtrs x fun p => { p with mv := false })

def execUnmark (t : Fin 1024) (s : State) : Host.Outcome State Fault Refusal := .next (unmarkFire s t)

def rewindPlan (s : State) (g : GridTile) (w : BitVec 64) (ts : List (Nat × Token)) : Plan :=
  if (g.queue (instrQueue w)).a.mv then
    ctlPlan (fun x => bothPtrs x fun p => { p with rp := p.mp }) s g w ts
  else { g := g, faults := [{ code := 0x0504, d0 := instrQueue w }] }

def rewindFire (s : State) (t : Nat) : State := sCore s t 6 oneQueue always queueConst rewindPlan

def execRewind (t : Fin 1024) (s : State) : Host.Outcome State Fault Refusal := .next (rewindFire s t)

def skipPlan (s : State) (g : GridTile) (w : BitVec 64) (ts : List (Nat × Token)) : Plan :=
  ctlPlan (popPtrs (qRet (g.qdesc (instrQueue w))) (instrN w)) s g w ts

def skipFire (s : State) (t : Nat) : State :=
  sCore s t 7 oneQueue (fun _ g w => decide (instrN w ≤ (g.queue (instrQueue w)).avl)) queueConst skipPlan

def execSkip (t : Fin 1024) (s : State) : Host.Outcome State Fault Refusal := .next (skipFire s t)

def releasePlan (s : State) (g : GridTile) (w : BitVec 64) (ts : List (Nat × Token)) : Plan :=
  let p := (g.queue (instrQueue w)).a
  let n := instrN w
  if n = 0 then ctlPlan (fun x => bothPtrs x fun p => { p with fp := releaseLimit p }) s g w ts
  else if n ≤ dist (releaseLimit p) p.fp then
    ctlPlan (fun x => bothPtrs x fun p => { p with fp := p.fp + BitVec.ofNat 24 n }) s g w ts
  else { g := g, faults := [{ code := 0x0505, d0 := p.fp.toNat, d1 := n, more := [p.mp.toNat, p.rp.toNat] }] }

def releaseFire (s : State) (t : Nat) : State := sCore s t 8 oneQueue always queueConst releasePlan

def execRelease (t : Fin 1024) (s : State) : Host.Outcome State Fault Refusal := .next (releaseFire s t)

/-! ### QCNT, LDG (R155, R156) -/

/-- The lanes of a QCNT token. -/
def qcntLanes (x : Queue) (d : Nat) : List Nat :=
  [x.occ, x.avl, x.free d, b2n x.a.mv, if x.a.mv then dist x.a.rp x.a.mp else 0, 0, 0, 0]

def qcntPlan (s : State) (g : GridTile) (w : BitVec 64) (ts : List (Nat × Token)) : Plan :=
  let q := instrQueue w
  { g := g, out := [(onePort (iOut w), [mkToken (mkPayload 16 (qcntLanes (g.queue q) (g.qdesc q))) (coreMark s g ts) g.cur 0])] }

def qcntFire (s : State) (t : Nat) : State := sCore s t 9 oneQueue sRoom queueConst qcntPlan

def execQcnt (t : Fin 1024) (s : State) : Host.Outcome State Fault Refusal := .next (qcntFire s t)

def ldgPlan (_ : State) (g : GridTile) (w : BitVec 64) (ts : List (Nat × Token)) : Plan :=
  let u := tokAt ts (onePort (iIn w))
  let ws := [BitVec.ofNat 64 (tokElem u 64 0), BitVec.ofNat 64 (tokElem u 64 1)]
  let st := (if g.rep = 0 then [] else g.s.staging) ++ ws
  { g := { g with s := if g.rep = 3 then { g.s with staging := [], streamed := some st, ldgFresh := true }
                       else { g.s with staging := st } } }

def ldgFire (s : State) (t : Nat) : State := sCore s t 10 noQueue always (fun _ _ => []) ldgPlan

def execLdg (t : Fin 1024) (s : State) : Host.Outcome State Fault Refusal := .next (ldgFire s t)

/-! ## NOP (R40) of every kind -/

/-- The marker of a NOP's bubbles on a tile other than an S tile. -/
def nopMark (s : State) (g : GridTile) (w : BitVec 64) (ts : List (Nat × Token)) : Marker :=
  if completing g then (if iIn w = 0 then s.pace.rank else maxMark (toksOf ts))
  else if iMrk w = 1 then .none else maxMark (toksOf ts)

def nopPlan (s : State) (k : Kind) (g : GridTile) (w : BitVec 64) (ts : List (Nat × Token)) : Plan :=
  let m := if k = .s then coreMark s g ts else nopMark s g w ts
  { g := { g with closeMark := .none }, out := (maskPorts (iOut w)).map fun p => (p, [mkBubble m g.cur (copyBseq ts)]) }

/-- Room for a NOP's bubbles (R29, R100). -/
def nopRoom (s : State) (k : Kind) (g : GridTile) (w : BitVec 64) : Bool :=
  match k with
  | .s => sRoom s g w
  | .m => iOut w == 0 || (g.m.drain.toks.isEmpty && (mget [] g.outb 0).isEmpty && roomAll s.adr .m g (iOut w))
  | _ => roomAll s.adr k g (iOut w)

def nopFire (s : State) (t : Nat) : State :=
  let k := tileKind t
  if k = .s then sCore s t 0 noQueue (fun s g w => nopRoom s .s g w) (fun _ _ => []) (fun s g w ts => nopPlan s .s g w ts)
  else fire s t k 0 (nopRoom s k) (fun _ _ => []) (fun s g w ts => nopPlan s k g w ts)

def execNop (t : Fin 1024) (s : State) : Host.Outcome State Fault Refusal := .next (nopFire s t)

end Sys2Proof.Machine
end

