-- ==== Sys2Proof/Machine/Context.lean ====
section
/-! DEFINITION. How a tile, an edge tile, a stream engine, the NCE and the PP enter a context: at tile reset (R41, R91, R116,
R157, R180, R191, R271, R280) and at a switch (R257, R263). -/

namespace Sys2Proof.Machine


/-! ## Grid tiles -/

/-- The transport descriptor of a context: of the first QNT or SCO of its program (R121). -/
def transportDesc (g : GridTile) : Option Nat :=
  (((List.range 256).map fun i => mget 0 g.words (g.cur.toNat * 384 + i)).find? fun w => iOpc w == 5 || iOpc w == 6).map
    fun w => g.const (bits (iOpnd w) 0 7)

/-- QS from the constant block (R121). -/
def initialQs (g : GridTile) : AMap (BitVec 16) :=
  match transportDesc g with
  | none => []
  | some a => (List.range (qdNch a)).foldl (fun m c =>
      mset 0 m c (BitVec.ofNat 16 (bits (g.const (bits a 11 7 + c / 4)) (16 * (c % 4)) 16))) []

/-- The M tile at reset (full) and at a switch (R91). -/
def enterM (full : Bool) (m : MState) : MState :=
  { code := m.code, scale := m.scale, kc := if full then [] else m.kc, tag := if full then [] else m.tag }

/-- The Q tile (R116): the saturation counters stay. -/
def enterQ (g : GridTile) : QState :=
  { buf := g.q.buf, qs := initialQs g, satc := g.q.satc, fired := g.q.fired }

/-- Does a queue keep its pointers at a switch between contexts (R157)? -/
def queueKept (g : GridTile) (x q : Nat) : Bool :=
  let a := g.qdesc q
  let b := (mget 0 g.words (x * 384 + 257 + (110 + q))).toNat
  qKeep a && qKeep b && qBase a == qBase b && qSize a == qSize b && qRet a == qRet b

/-- The S tile: queues kept where R157 says so, or all reset; hard ports parked. -/
def enterS (full : Bool) (g : GridTile) (x : Nat) : SState :=
  { store := g.s.store
    queues := if full then [] else mapAll {} g.s.queues fun q v => if queueKept g x q then v else { froz := v.froz } }

/-- The stores whose contents, and parity, live through a reset of the tile. -/
def keptStore : StoreId → Bool
  | .code => true | .scale => true | .wrec => true | .qbuf => true | .qcnt => true
  | _ => false

/-- A grid tile takes up context x: at tile reset (full) or at a switch. Every slot is empty, the core parked at index 0. At a
switch, which the section-end step's completion may follow (R262), the step's work count and the highest marker consumed stay
for the bed's report and the snapshot (R64, R260). -/
def enterGrid (full : Bool) (x : BitVec 2) (g : GridTile) : GridTile :=
  let c := (mget ({} : TileCtx) g.cfg x.toNat).claimed
  let g1 : GridTile := {
    words := g.words, health := g.health, cfg := g.cfg, wrec := g.wrec, badParity := g.badParity.filter fun p => keptStore p.1
    cur := x, inReset := !c, m := enterM full g.m, s := { enterS full g x.toNat with portCnt := if full then [] else g.s.portCnt }
    fired := if full then 0 else g.fired, hiMark := if full then .none else g.hiMark }
  { g1 with q := enterQ { g1 with q := g.q } }

/-! ## Edge tiles -/

def enterEdge (full : Bool) (x : BitVec 2) (g : EdgeTile) : EdgeTile :=
  { route := g.route, edesc := g.edesc, cfg := g.cfg, cur := x, lastBseq := if full then 0 else g.lastBseq
    inCnt := if full then 0 else g.inCnt, outCnt := if full then 0 else g.outCnt, hiMark := if full then .none else g.hiMark }

/-! ## Stream engines -/

/-- What follows the section in force: the next one, or the first of a loop (R256). -/
def nextSection (s : State) : Nat := if s.cfg.sec.toNat + 1 < s.nsec then s.cfg.sec.toNat + 1 else 0

/-- The list of engine k for a direction in context x. -/
def State.listOf (s : State) (x k : Nat) (write : Bool) : Option StreamList :=
  (s.ctxImage x).streams.find? fun l => l.engine == k && l.write == write

/-- Engine k starts its read list of context x (R280); what it fetched ahead of the list stays, and so does the last token of the old
list while a follower still owes its capture (R284). -/
def startRead (s : State) (x k : Nat) (e : Engine) : Engine :=
  let l := s.listOf x k false
  if e.nextFetch then { e with hasRead := l.isSome, rlist := l.getD {}, delivered := 0, nextFetch := false }
  else
    { e with hasRead := l.isSome, rlist := l.getD {}, fetch := {}, descFetched := 0, delivered := 0
             rbuf := if e.captured.isEmpty then [] else e.rbuf.take 1 }

/-- Engine k starts its write list of context x (R281). -/
def startWrite (s : State) (x k : Nat) (e : Engine) : Engine :=
  let l := s.listOf x k true
  { e with hasWrite := l.isSome, wlist := l.getD {}, wwalk := {}, wdescFetched := 0, wpart := [], discardRow := false }

/-- Both buffers of an engine emptied (R280). -/
def emptyEngine (e : Engine) : Engine :=
  { e with rbuf := [], captured := [], wpart := [], wbuf := [], bursts := [], fetch := {}, descFetched := 0, capQueued := 0
           nextFetch := false, discardRow := false }

/-- Both lists of every engine start in context x, buffers empty. -/
def startEngines (s : State) (x : Nat) : State :=
  (List.range 16).foldl (fun s k => s.setEngine k (startWrite s x k (startRead s x k (emptyEngine (s.engine k))))) s

/-! ## NCE and PP -/

/-- The NCE's line buffers, trickle buffers and crop state cleared (R257). -/
def clearNce (n : Nce) : Nce :=
  { n with sched := 0, intakeDone := false, views := [], chan := [], rx := [], trickle := [], trickleStep := [], segRows := []
           slots := [], cropWin := 0, cropNext := [], reqDone := false, lines := [] }

/-- The PP's candidate queue, accepted list and decoder slots cleared (R257). Records that wait for their ring stay (R337). -/
def clearPp (p : Pp) : Pp :=
  { p with queue := [], accepted := [], front := [], headRow := [], chanPos := [], rx := [], held := []
           packed := [], winItems := 0, dec := [], hist := [], circ := 0 }

/-- The NCE takes up context x: it keeps its buffers where the parameter block does not change. -/
def enterNce (s : State) (x : BitVec 2) : State :=
  let same := (s.ctxImage s.cfg.nceCtx.toNat).nce == (s.ctxImage x.toNat).nce
  { s with nce := if same then s.nce else clearNce s.nce, cfg := { s.cfg with nceCtx := x, nceSwitched := true } }

/-- The PP takes up context x: it keeps what it holds where the parameter block does not change. Lines that the packer has not
decided are decided first, so that no record is lost (R337). -/
def enterPp (s0 : State) (x : BitVec 2) : State :=
  let same := (s0.ctxImage s0.cfg.ppCtx.toNat).pp == (s0.ctxImage x.toNat).pp
  let s := if same || s0.pp.held.isEmpty then s0 else closeWindow s0
  { s with cfg := { s.cfg with ppCtx := x, ppSwitched := true }, pp := if same then s.pp else clearPp s.pp }

/-- Every tile enters a context from tile reset: stage 3 of the release sequence (R269, R271). -/
def resetTiles (s : State) (x : BitVec 2) : State :=
  { s with tiles := mapAll {} s.tiles fun _ g => enterGrid true x g
           edges := mapAll {} s.edges fun _ g => enterEdge true x g }

/-- Every core held in reset (Table TWN-5, R271): slots empty, queues reset but for FROZ and HWM. Whether the tile had switched
in a front that the abort ended stays on show in CFG_FRONT (R444). -/
def holdGrid (g : GridTile) : GridTile :=
  { enterGrid true g.cur g with
    inReset := true
    switched := g.switched
    q := g.q
    s := { store := g.s.store, queues := mapAll {} g.s.queues fun _ v => { froz := v.froz, hwm := v.hwm } } }

/-- Empty the edge's two paths. -/
def holdEdge (g : EdgeTile) : EdgeTile := { g with inSlots := [], outSlots := [], acked := [], parked := true }

end Sys2Proof.Machine
end

