-- ==== Sys2Proof/Machine/Pace.lean ====
section
/-! DEFINITION. The pace controller (03, R45-R68) and the abort's reset and clear phases (R58, R271, R393): bed reports, read lists,
hold, the step watchdog. Completion and release stand in Release.lean. -/

namespace Sys2Proof.Machine

/-! ## Rank and read lists (R259, R260, R280) -/

/-- The engines whose read list the current context runs on their own edge. -/
def readEngines (s : State) : List Nat := (List.range 16).filter fun k => (s.engine k).hasRead

/-- Inward quota of the edge tile of engine k. -/
def readQuota (s : State) (k : Nat) : Nat := (s.edge (64 + 2 * k)).ctxCfg.quota 0

/-- Tokens left of a read list: none when it is unbounded. -/
def tokensLeft (e : Engine) : Option Nat := (listTotal e.rlist).map fun n => n - e.delivered

/-- Does the list end in the step about to be released? -/
def listEnds (s : State) (k : Nat) : Bool := tokensLeft (s.engine k) == some (readQuota s k)

/-- Does a list hold fewer tokens than its quota but more than zero? -/
def listShort (s : State) (k : Nat) : Bool :=
  match tokensLeft (s.engine k) with
  | some n => decide (0 < n) && decide (n < readQuota s k)
  | none => false

/-- The engines of the read-list fault of R260, as bits; 0 when there is none. -/
def listFault (s : State) : Nat :=
  let ks := readEngines s
  let ends := ks.filter (listEnds s)
  let short := ks.filter (listShort s)
  if short.isEmpty && (ends.isEmpty || ends.length == ks.length) then 0
  else packN ((if short.isEmpty then ks.filter fun k => !(listEnds s k) else short).map fun k => (k, 1))

/-! ## Bed reports, and what an ended task leaves (R47, R56) -/

/-- The buffers of the engines and of the inward host streams empty: at every abort and at the end of a rake-out (R280, R340). -/
def dropBuffers (s : State) : State :=
  { s with
    se := { s.se with eng := mapAll {} s.se.eng fun _ e => emptyEngine e }
    hq := { s.hq with chans := mapAll {} s.hq.chans fun _ c => { c with buf := [] } } }

/-- What every block drops at the end of a task (R375, R387, Table SNS-4). -/
def endTaskBlocks (s0 : State) : State :=
  let s := dropHints s0
  { s with
    tw := { s.tw with own := [], partner := [] }
    sp := mapAll {} s.sp fun _ p => { p with xoff := false } }

/-- Is a step released and not complete? -/
def stepRuns (s : State) : Bool := s.pace.released && !s.pace.complete && s.pace.state != .idle && s.pace.state != .aborted

/-- The highest marker that a bed's tiles consumed, the rank if none (R260). -/
def bedMark (s : State) (b : Nat) : Marker :=
  let m := (s.bedBlocks b).foldl (fun m k =>
    let i := k.tile.toNat
    markMax m (if isEdgeId i then (s.edge (edgeOfId i)).hiMark else (s.tile i).hiMark)) .none
  if m = .none then s.pace.rank else m

/-- Have all tiles of a bed parked? -/
def bedParked (s : State) (b : Nat) : Bool := (s.bedBlocks b).all fun k => s.idParked k.tile.toNat

/-- Every bed has reported: the 10 ns release decision begins (Table PCE-1, R61; log entry 21). -/
def beginDecision (s : State) : State := { s with pace := { s.pace with deciding := true, decLeft := 10 } }

/-- BED_REPORT (R47, R260). -/
def bedReport (s : State) (b : Nat) : State :=
  if stepRuns s && s.bedIds.contains b && !(s.bed b).reported && bedParked s b then
    let s1 := s.setBed b { s.bed b with reported := true, report := bedMark s b, firing := false }
    if s1.bedIds.all fun k => (s1.bed k).reported then beginDecision s1 else s1
  else s

def execBedReport (b : Fin 256) (s : State) : Host.Outcome State Fault Refusal := .next (bedReport s b)

/-! ## The PACE commit group (R66) -/

/-- The rules on the values of a PACE commit (R66). -/
def paceOk (x : PaceTiming) : Bool :=
  decide (500 ≤ x.period.toNat) && decide (500 ≤ x.pmin.toNat) && decide (x.pmin.toNat ≤ x.period.toNat) &&
  decide (0 < x.window.toNat) && decide (x.window.toNat ≤ x.period.toNat)

/-! ## Hold (R30, R51-R54, Table PCE-3) -/

/-- A claimed edge tile short of its inward quota. -/
def inwardShort (s : State) (e : Nat) : Bool :=
  (s.edge e).ctxCfg.claimed && !(s.edge e).parked && decide ((s.edge e).inCnt < (s.edge e).ctxCfg.quota 0)

/-- A claimed edge tile short of its outward quota: R366 asks for no token that waits. -/
def outwardShort (s : State) (e : Nat) : Bool :=
  (s.edge e).ctxCfg.claimed && !(s.edge e).parked && decide ((s.edge e).outCnt < (s.edge e).ctxCfg.quota 4)

/-- Source 0: an inward NCE edge tile waits because the scheduled line is not there (R207). -/
def spHolds (s : State) : Bool :=
  !s.pace.rakeAct && s.nceOn && !s.nce.intakeDone && !s.lineReady &&
  (List.range 32).any fun i => inwardShort s i && (mget [] s.nce.chan i).isEmpty

/-- Tokens in an engine's write path. -/
def writeOcc (e : Engine) : Nat := e.wpart.length + (e.wbuf.map fun u => u.toks).sum

/-- The descriptor that the next token of the write list falls under. -/
def writeDesc (e : Engine) : Option StreamDesc := if e.hasWrite then e.wlist.descs[e.wwalk.d]? else none

/-- 1, 2 or 4 fabric tokens a unit of 16 bytes stands for (R276). -/
def cmpRatio (c : BitVec 8) : Nat := if c = 0x21 then 2 else if c = 0x41 then 4 else 1

/-- Bytes of a row (R276). -/
def rowBytes (cmp : BitVec 8) (d : StreamDesc) : Nat := d.rowtok * 16 / cmpRatio cmp

/-- Free bytes of a capture ring (R296). -/
def ringFree (e : Engine) : Int := (2 ^ e.szl.toNat : Int) - ((e.rwp - e.rrp).toNat + e.capQueued)

/-- Does the next token begin a capture row that the ring cannot take (R296)? -/
def rowNoFit (e : Engine) : Bool :=
  match writeDesc e with
  | none => false
  | some d => d.cap && e.wwalk.u == 0 && (e.szl == 0 || decide (ringFree e < rowBytes e.wlist.cmp d))

/-- Room in the write buffer of an engine; a row that must wait for its ring has none (R283, R296). -/
def writeRoom (e : Engine) : Bool := decide (writeOcc e < 2048) && !(rowNoFit e && e.szl != 0 && !e.full)

/-- Source 1: read data late, or the write buffer full (R283). -/
def seHolds (s : State) : Bool :=
  (List.range 16).any fun k =>
    (!s.pace.rakeAct && inwardShort s (64 + 2 * k) && (streamHead s k).isNone && (s.engine (feeder s k)).rbuf.isEmpty) ||
    (outwardShort s (64 + 2 * k + 1) && !writeRoom (s.engine k))

/-- Source 2: a link brings no token, or gives no credit (R366, R267). -/
def lkHolds (s : State) : Bool :=
  (List.range 32).any fun i =>
    (!s.pace.rakeAct && inwardShort s (96 + i) && (mget [] (s.port (i / 8)).vcbuf (i % 8)).isEmpty) ||
    (!(s.pace.rakeAct && s.pace.rakeDrop) && outwardShort s (96 + i) && !outwardRoom s (96 + i))

/-- Source 3: the PP or an outward host stream ring has no room, or an inward ring holds no entry (R228, R340). Records that wait
between two steps hold the machine too (R228, R320; DEDUCED, log entry 79). -/
def eastHolds (s : State) : Bool :=
  (!s.pp.records.isEmpty && ppBlocked s) ||
  (List.range 24).any fun i =>
    (outwardShort s (32 + i) && !outwardRoom s (32 + i)) ||
    (!s.pace.rakeAct && decide (16 ≤ i) && inwardShort s (32 + i) && (s.chan (i - 16)).buf.isEmpty &&
     (s.ring (10 + (i - 16))).used == 0)

/-- Does the condition of a hold source stand? DBG and SW have commands of their own. -/
def holdStands (s : State) : Nat → Bool
  | 0 => spHolds s
  | 1 => seHolds s
  | 2 => lkHolds s
  | 3 => eastHolds s
  | 4 => s.pwr.co
  | 5 => s.dbgHold
  | _ => s.pace.swhold

/-- A request reaches PACE (R51, R52). -/
def requestHold (s : State) (k : Nat) : State :=
  let req := putBit s.pace.req k true
  if req = s.pace.req then s
  else
    let entry := !s.holding
    if s.idle then { s with pace := { s.pace with req := req, standT := 0 } }
    else { s with pace := { s.pace with
      req := req
      standT := if entry then 0 else s.pace.standT
      holdCount := if entry then satInc s.pace.holdCount else s.pace.holdCount
      holdLast := holdLastOf s req
      state := if s.pace.state = .running then .held else s.pace.state } }

/-- A request is withdrawn (R51). -/
def withdrawHold (s : State) (k : Nat) : State :=
  let req := putBit s.pace.req k false
  { s with pace := { s.pace with
    req := req
    standT := if req = 0 then 0 else s.pace.standT
    state := if req = 0 && s.pace.state == .held then .running else s.pace.state } }

/-- HOLD_ENTRY: the condition of a source has arisen. -/
def holdEntry (s : State) (k : Nat) : State :=
  if holdStands s k && !bitAt s.pace.req.toNat k then requestHold s k else s

def execHoldEntry (src : Fin 7) (s : State) : Host.Outcome State Fault Refusal := .next (holdEntry s src)

/-- HOLD_EXIT: the condition of a source has gone. -/
def holdExit (s : State) (k : Nat) : State :=
  if !holdStands s k && bitAt s.pace.req.toNat k then withdrawHold s k else s

def execHoldExit (src : Fin 7) (s : State) : Host.Outcome State Fault Refusal := .next (holdExit s src)

/-- HOLD_LIMIT_EXCEEDED (R54): the standing time strictly exceeds the limit. -/
def holdLimit (s : State) : State :=
  if s.pace.req != 0 && !s.idle && s.pace.state != .aborted && s.pace.holdlim != 0 &&
     decide (s.pace.holdlim.toNat * 1000 < s.pace.standT) then
    event s 0x0D06 { detail := two s.pace.req.toNat 0 }
  else s

def execHoldLimitExceeded (s : State) : Host.Outcome State Fault Refusal := .next (holdLimit s)

/-! ## The step watchdog (R63, R64) -/

/-- The watchdog's limit in ns. -/
def wdogLimit (s : State) : Nat :=
  (if s.pace.wdog = 0 then 256 else s.pace.wdog.toNat) * s.pace.act.period.toNat

/-- Does a token wait to be pushed into queue q of tile t? -/
def pushWaits (g : GridTile) (q : Nat) : Bool :=
  ((List.range 4).any fun k => g.binding k == some q && !(mget [] g.inb k).isEmpty) ||
  (!g.parked && !g.halted && iOpc g.instr == 1 && instrQueue g.instr == q &&
   (maskPorts (iIn g.instr)).all fun p => !(mget [] g.inb p).isEmpty)

/-- The used queues of a tile that qualify. -/
def fullQueues (s : State) (t : Nat) : List Nat :=
  let g := s.tile t
  if tileKind t = .s && !s.tileParked t then
    (List.range 16).filter fun q => qUsed (g.qdesc q) && (g.queue q).free (g.qdesc q) == 0 && pushWaits g q
  else []

/-- The queue that PACE names: lowest bed, then tile, then queue number. -/
def namedQueue (s : State) : Option (Nat × Nat) :=
  (s.bedIds.flatMap fun b => (s.bedBlocks b).flatMap fun k =>
    if isEdgeId k.tile.toNat then [] else (fullQueues s k.tile.toNat).map fun q => (k.tile.toNat, q)).head?

/-- The tile that PACE names where no queue qualifies. -/
def namedTile (s : State) : Option Nat := (s.bedIds.find? fun b => !(s.bed b).reported).bind s.leastTile

/-- The snapshot of a stall fault, with what it names. -/
def stallSnapshot (s : State) : Snapshot :=
  match namedQueue s with
  | some (t, q) => { takeSnapshot s with namedTile := BitVec.ofNat 16 t, namedQueue := BitVec.ofNat 8 q, namedKind := 1 }
  | none => { takeSnapshot s with namedTile := BitVec.ofNat 16 ((namedTile s).getD 0xFFFF), namedKind := 2 }

/-- STALL_FAULT (R63): the busy time strictly exceeds the limit. DETAIL: the tile, and the queue or all ones (log entry 22). -/
def stallFault (s : State) : State :=
  if stepRuns s && decide (wdogLimit s < busyNow s) then
    let snap := stallSnapshot s
    let t := snap.namedTile.toNat
    let q := if snap.namedKind = 1 then snap.namedQueue.toNat else 0xFFFFFFFF
    let s1 := recordEvent s 0x0D05 { detail := two t q, tile := t }
    abortWith s1 2 0x0D05 snap (fun _ => true) (abortFrameOf s1 0x0D05)
  else s

def execStallFault (s : State) : Host.Outcome State Fault Refusal := .next (stallFault s)

/-! ## Reset and clear phases of an abort (Table TWN-5) -/

/-- What the reset phase does outside the grid: engine, port and host stream buffers emptied (R280, R340, Table SNS-4). -/
def abortBlocks (s : State) : State :=
  let s1 := endTaskBlocks (dropBuffers s)
  { s1 with sp := mapAll {} s1.sp fun _ p => { p with
      v0 := { p.v0 with queue := [], fullish := false }, v1 := { p.v1 with queue := [], fullish := false }, xoff := false } }

/-- ABORT_RESET: once the announce phase is over. -/
def abortReset (s : State) : State :=
  if s.pace.state = .aborted && s.pace.abort = .announced then
    let s0 := if s.cfg.goal = .start then
        finishCmd { s with cfg := { s.cfg with goal := .none } } stRefused s.flt.firstCode.toNat else s
    let s1 := abortBlocks s0
    { s1 with
      tiles := mapAll {} s1.tiles fun _ g => holdGrid g
      edges := mapAll {} s1.edges fun _ g => holdEdge g
      beds := mapAll {} s1.beds fun _ x => { x with firing := false }
      pace := { s1.pace with abort := .resetDone } }
  else s

def execAbortReset (s : State) : Host.Outcome State Fault Refusal := .next (abortReset s)

/-- Must a dump be taken before the clear (Table TWN-5)? -/
def dumpDue (s : State) : Bool := s.flt.dumpState == .writing

/-- ABORT_CLEARED: after a task-abort only (R58, R393, R417). -/
def abortCleared (s : State) : State :=
  if s.pace.state = .aborted && s.pace.abort = .resetDone && !s.pace.fatal && !s.pace.needPor && !dumpDue s then
    { s with pace := { s.pace with state := .idle, abort := .none, released := false, complete := false } }
  else s

def execAbortCleared (s : State) : Host.Outcome State Fault Refusal := .next (abortCleared s)

end Sys2Proof.Machine
end

