-- ==== Sys2Proof/Machine/Stream.lean ====
section
/-! DEFINITION. Stream engines and the LPDDR6 controller (13, R273-R299): list walks, bursts and their arbitration, the write
path with compression and capture rings, units with their side bits and errors. -/

namespace Sys2Proof.Machine

/-! ## LPDDR6 units (R277, R289, R292) -/

/-- M in bytes; 0 when not trained. -/
def memSize (s : State) : Nat := if s.mc.pkgsz = 0 then 0 else 2 ^ (s.mc.pkgsz.toNat + 32)

/-- The end of the task region (Table STR-4). -/
def taskTop (s : State) : Nat := memSize s - 1040 * 2 ^ 20

/-- The first byte of image half h. -/
def halfBase (s : State) (h : Bool) : Nat := memSize s - (if h then 528 else 1040) * 2 ^ 20

/-- The first byte of the dump region. -/
def dumpBase (s : State) : Nat := memSize s - 16 * 2 ^ 20

/-- The payload of the unit at a. -/
def unitPay (s : State) (a : Nat) : BitVec 128 := BitVec.ofNat 128 (leNat (memRead s.mc.mem a 16))

/-- The side bits of the unit at a: BSEQ in [3:0], BUB in [4]. -/
def unitSide (s : State) (a : Nat) : BitVec 5 := mget 0 s.mc.side (a / 16)

/-- The 16 side bits that the memory's metadata holds for the unit at a: BSEQ, BUB, the code over payload, BSEQ and BUB, and two
zeros. The code is what its 133 bits make it, so State holds BSEQ and BUB alone; a unit that has changed in the memory comes as the
`UnitHealth` that its read finds (DESIGN CHOICE, log entry 82). -/
def unitMeta (s : State) (a : Nat) : BitVec 16 :=
  0#2 ++ Config.secded (unitSide s a ++ unitPay s a) ++ unitSide s a

/-- Do bytes from a touch [lo, lo + n)? -/
def touches (a len lo n : Nat) : Bool := decide (a < lo + n) && decide (lo < a + len)

/-- Does a write touch what R237 and R292 keep from the host and the engines: the loaded image half, the dump region? -/
def memKept (s : State) (a len : Nat) : Bool :=
  (s.cfg.state != 0 && touches a len (halfBase s s.cfg.half) (512 * 2 ^ 20)) || touches a len (dumpBase s) (16 * 2 ^ 20)

/-- Store a unit with its side bits. -/
def putUnit (s : State) (a : Nat) (pay : BitVec 128) (side : BitVec 5) : State :=
  { s with mc := { s.mc with mem := memWrite s.mc.mem a (payBytes pay), side := mset 0 s.mc.side (a / 16) side } }

/-- Side bits from a token's. -/
def sideOf (t : Token) : BitVec 5 := BitVec.ofNat 5 (t.bseq.toNat + 16 * b2n t.bub)

/-- Note an error's address. -/
def noteError (s : State) (a : Nat) (ue : Bool) : State := { s with mc := { s.mc with errAddr := BitVec.ofNat 36 a, errUe := ue } }

/-- A corrected unit: counted, 0x0705 once a step (R291). -/
def corrected1 (s : State) (a : Nat) : State :=
  let s1 := noteError { s with mc := { s.mc with cecnt := satInc s.mc.cecnt, ceStep := true } } a false
  if s.mc.ceStep then s1 else event s1 0x0705 { srcid := a / 256 % 8, addr := a }

/-- An uncorrectable unit: counted, its address kept. -/
def uncorrectable1 (s : State) (a : Nat) : State :=
  noteError { s with mc := { s.mc with uecnt := satInc s.mc.uecnt } } a true

/-- An uncorrectable unit that a remote access or the loader reads: 0x0704 with the address and the requester (R291, R299). The loader
is no requester of Table TWN-6 and is recorded as 0 (DESIGN CHOICE, log entry 77). -/
def badRead (s : State) (a req : Nat) : State :=
  event (uncorrectable1 s a) 0x0704 { srcid := a / 256 % 8, addr := a, detail := two a req }

/-! ## Read lists (R275, R276, R280) -/

/-- The list an engine reads ahead: the current one, or the next section's. -/
def fetchList (s : State) (k : Nat) (e : Engine) : Option StreamList :=
  if e.nextFetch then s.listOf (s.secCtx (nextSection s)) k false else if e.hasRead then some e.rlist else none

/-- Is there a next section? -/
def hasNext (s : State) : Bool := decide (s.cfg.sec.toNat + 1 < s.nsec) || s.loops

/-- Units of a row. -/
def rowUnits (cmp : BitVec 8) (d : StreamDesc) : Nat := rowBytes cmp d / 16

/-- A walk moved n places in rows of the width given. -/
def moveWalk (w : Walk) (d : StreamDesc) (width n : Nat) : Walk :=
  let p := w.row * width + w.u + n
  if p < d.nrow * width then { w with row := p / width, u := p % width }
  else if d.wrap then { d := 0, row := 0, u := 0 }
  else { d := w.d + 1, row := 0, u := 0 }

/-- Tokens that outstanding reads will bring. -/
def comingTokens (e : Engine) : Nat :=
  (e.bursts.map fun b => match b.kind with
    | .read n c _ => n * cmpRatio c
    | _ => 0).sum

/-- Reads outstanding? -/
def readsOut (e : Engine) : Bool := e.bursts.any fun b => match b.kind with
  | .read _ _ _ => true
  | _ => false

/-- Room in the read buffer. -/
def readRoom (e : Engine) : Nat := 2048 - e.rbuf.length - comingTokens e

/-- The token of a FILL descriptor (R279). -/
def fillToken (d : StreamDesc) : Token := { bub := d.fbub }

/-- FILL tokens enter the buffer, as many as it has room for; a current list, once its last token has been fetched, gives way to the
list of the next section. An engine with no current list fetches nothing ahead (R279, R280). -/
def advanceFill (s : State) (k : Nat) : Nat → Engine → Engine
  | 0, e => e
  | n + 1, e =>
    match fetchList s k e with
    | none => e
    | some l =>
      match l.descs[e.fetch.d]? with
      | none =>
        if !e.nextFetch && hasNext s && !s.pace.rakeAct && !readsOut e then advanceFill s k n { e with nextFetch := true, fetch := {}, descFetched := 0 }
        else e
      | some d =>
        if d.fill && decide (e.fetch.d < e.descFetched) && !readsOut e then
          let m := min (readRoom e) (d.nrow * d.rowtok - (e.fetch.row * d.rowtok + e.fetch.u))
          if m = 0 then e
          else advanceFill s k n { e with rbuf := e.rbuf ++ List.replicate m (fillToken d), fetch := moveWalk e.fetch d d.rowtok m }
        else e

/-- Every engine's FILL tokens. -/
def fillEngines (s : State) : State :=
  { s with se := { s.se with eng := (List.range 16).foldl (fun m k => mset {} m k (advanceFill s k 16 (mget {} m k))) s.se.eng } }

/-- The data burst an engine would read next: address and units; none with no data to fetch or no room. -/
def nextRead (s : State) (k : Nat) (e : Engine) : Option (Nat × Nat × StreamList × StreamDesc) :=
  match fetchList s k e with
  | none => none
  | some l =>
    match l.descs[e.fetch.d]? with
    | none => none
    | some d =>
      if d.fill then none
      else
        let a := ((d.addr : Int) + e.fetch.row * d.pitch + 16 * e.fetch.u).toNat
        let n := min ((256 - a % 256) / 16) (rowUnits l.cmp d - e.fetch.u)
        if e.fetch.d < e.descFetched && n * cmpRatio l.cmp ≤ readRoom e && n != 0 then some (a, n, l, d) else none

/-- Does an engine need descriptors of the list it reads ahead? -/
def needsDesc (s : State) (k : Nat) (e : Engine) : Bool :=
  match fetchList s k e with
  | none => false
  | some l => decide (e.fetch.d < l.descs.length) && decide (e.descFetched ≤ e.fetch.d) &&
      !(e.bursts.any fun b => b.kind == .desc false)

/-- Does it need descriptors of its write list? -/
def needsWdesc (e : Engine) : Bool :=
  e.hasWrite && decide (e.wwalk.d < e.wlist.descs.length) && decide (e.wdescFetched ≤ e.wwalk.d) &&
  !(e.bursts.any fun b => b.kind == .desc true)

/-- The units of one write burst from the head of the buffer: up to a 256-byte boundary or the row's end (R282). -/
def burstUnits : List WUnit → Option (List WUnit)
  | [] => none
  | u :: r =>
    if u.last || (u.addr + 16) % 256 == 0 then some [u]
    else
      match r with
      | [] => none
      | v :: _ => if v.addr = u.addr + 16 then (burstUnits r).map (u :: ·) else some [u]

/-- What a front flushes: the run at the head whatever its length (R264). -/
def flushUnits : List WUnit → List WUnit
  | [] => []
  | [u] => [u]
  | u :: v :: r => if u.last || (u.addr + 16) % 256 == 0 || v.addr != u.addr + 16 then [u] else u :: flushUnits (v :: r)

/-- The write burst an engine would issue. -/
def nextWrite (s : State) (e : Engine) : Option (List WUnit) :=
  match burstUnits e.wbuf with
  | some l => some l
  | none => if s.cfg.front != .none && !e.wbuf.isEmpty then some (flushUnits e.wbuf) else none

/-- Has an engine room for one more burst? -/
def mayBurst (e : Engine) : Bool := decide (e.bursts.length < 6)

def wantsRead (s : State) (k : Nat) : Bool :=
  let e := s.engine k
  mayBurst e && (needsDesc s k e || needsWdesc e || (nextRead s k e).isSome)

def wantsWrite (s : State) (k : Nat) : Bool := mayBurst (s.engine k) && (nextWrite s (s.engine k)).isSome

/-! ## Arbitration (R285-R287) -/

/-- Does the controller arbitrate by deadline (R285)? -/
def byDeadline (s : State) : Bool :=
  s.idle || s.pace.state == .aborted || (s.se.warm != 0 && decide (s.pace.stepsSinceWarm ≤ s.se.warm.toNat)) || s.pace.rakeAct || s.se.force

/-- A requester: class 1 read, 2 write, 3 remote; its engine. -/
abbrev Requester := Nat × Nat

/-- The key of a requester: numerator and denominator, none when it has no key (R287). -/
def deadlineKey (s : State) : Requester → Option (Nat × Nat)
  | (1, k) =>
    let q := (s.edge (64 + 2 * k)).ctxCfg.quota 0
    if q = 0 then none else some ((s.engine k).rbuf.length, q)
  | (2, k) =>
    let q := (s.edge (65 + 2 * k)).ctxCfg.quota 4
    if q = 0 then none else some (2048 - writeOcc (s.engine k), q)
  | _ => some (1, 1)

/-- The requester whose buffer runs dry first: the first of equals in the order given. -/
def firstDry (s : State) : List Requester → Option Requester
  | [] => none
  | r :: l =>
    match deadlineKey s r with
    | none => firstDry s l
    | some (a, b) =>
      match firstDry s l with
      | none => some r
      | some x =>
        match deadlineKey s x with
        | none => some r
        | some (c, d) => if c * b < a * d then some x else some r

/-- Engines that want, in ascending order. -/
def readers (s : State) : List Nat := (List.range 16).filter (wantsRead s)
def writers (s : State) : List Nat := (List.range 16).filter (wantsWrite s)

/-- The deadline winner. -/
def deadlineWinner (s : State) (remote : Bool) : Option Requester :=
  let rem : List Requester := if remote then [(3, 0)] else []
  if s.idle || s.pace.state == .aborted then rem.head?
  else firstDry s ((readers s).map (fun k => (1, k)) ++ (writers s).map (fun k => (2, k)) ++ rem)

/-- The next of some engines after the last served. -/
def roundRobin (last : Nat) (ks : List Nat) : Option Nat := ((List.range 16).map fun i => (last + 1 + i) % 16).find? ks.contains

/-- The class that owns the frame's current slot; 0 none (R286). -/
def slotClass (s : State) : Nat :=
  let i := s.se.frameSlot
  let r := s.se.rd.toNat
  let w := r + s.se.wr.toNat
  if i < r then 1 else if i < w then 2 else if i < w + s.se.rem.toNat then 3 else 0

/-- The requester of a class. -/
def ofClass (s : State) (remote : Bool) (c : Nat) : Option Requester :=
  if c = 1 then (roundRobin s.se.rrRd (readers s)).map fun k => (1, k)
  else if c = 2 then (roundRobin s.se.rrWr (writers s)).map fun k => (2, k)
  else if c = 3 && remote then some (3, 0) else none

/-- The split winner: the slot's class, else reads, writes, remote. -/
def splitWinner (s : State) (remote : Bool) : Option Requester := [slotClass s, 1, 2, 3].findSome? (ofClass s remote)

/-- The requester granted. -/
def winner (s : State) (remote : Bool) : Option Requester := if byDeadline s then deadlineWinner s remote else splitWinner s remote

/-! ## Issue -/

/-- Where descriptor i of a list stands in the loaded half (R292). -/
def descAddr (s : State) (l : StreamList) (i : Nat) : Nat := halfBase s s.cfg.half + l.off + 32 * i

/-- Engine k issues a read: descriptors first, then data. -/
def issueRead (s : State) (k : Nat) : State :=
  let e := s.engine k
  if needsDesc s k e then
    s.setEngine k { e with bursts := e.bursts ++ [{ kind := .desc false, addr := descAddr s ((fetchList s k e).getD {}) e.descFetched }] }
  else if needsWdesc e then
    s.setEngine k { e with bursts := e.bursts ++ [{ kind := .desc true, addr := descAddr s e.wlist e.wdescFetched }] }
  else
    match nextRead s k e with
    | none => s
    | some (a, n, l, d) =>
      s.setEngine k { e with bursts := e.bursts ++ [{ kind := .read n l.cmp d.bf16, addr := a }]
                             fetch := moveWalk e.fetch d (rowUnits l.cmp d) n }

/-- Engine k issues a write. -/
def issueWrite (s : State) (k : Nat) : State :=
  let e := s.engine k
  match nextWrite s e with
  | none => s
  | some us =>
    s.setEngine k { e with bursts := e.bursts ++ [{ kind := .write us, addr := (us.headD {}).addr }], wbuf := e.wbuf.drop us.length }

/-- Grant a slot to a requester. -/
def grant (s : State) (r : Requester) : State :=
  let s1 := { s with se := { s.se with
    granted := r
    frameSlot := if byDeadline s then s.se.frameSlot else (s.se.frameSlot + 1) % 64
    rrRd := if r.1 = 1 then r.2 else s.se.rrRd
    rrWr := if r.1 = 2 then r.2 else s.se.rrWr } }
  if r.1 = 1 then issueRead s1 r.2 else if r.1 = 2 then issueWrite s1 r.2 else s1

/-- One burst slot (R285-R287, R294, R295). -/
def burstIssue (s : State) (remote : Bool) : State :=
  if s.mc.ready && !s.mc.quiesced then
    let s1 := fillEngines s
    match winner s1 remote with
    | none => s1
    | some r => grant s1 r
  else s

/-- BURST_ISSUE. -/
def execBurstIssue (remote : Bool) (s : State) : Host.Outcome State Fault Refusal := .next (burstIssue s remote)

/-! ## Completion (R282, R291) -/

/-- The tokens of an uncompressed unit. -/
def unitToken (s : State) (a : Nat) : Token :=
  let sd := (unitSide s a).toNat
  let pay := unitPay s a
  { payload := pay, par := parityOf pay, bub := bitAt sd 4, bseq := BitVec.ofNat 4 (sd % 16) }

/-- A compressed block at a. -/
def blockBits (s : State) (wide : Bool) (a : Nat) : Nat := leNat (memRead s.mc.mem a (if wide then 32 else 16))

/-- Its four tokens. -/
def blockTokens (s : State) (wide bf16 : Bool) (a : Nat) : List Token :=
  let sd := (unitSide s a).toNat
  let bs := BitVec.ofNat 4 (sd % 16)
  if bitAt sd 4 then List.replicate 4 (mkBubble .none 0 bs)
  else
    let vs := decodeBlock wide (actFmt bf16) (blockBits s wide a)
    (List.range 4).map fun i => mkToken (mkPayload 16 ((vs.drop (8 * i)).take 8)) .none 0 bs

/-- The tokens a read burst brings, or the first malformed block. -/
def readTokens (s : State) (cmp : BitVec 8) (bf16 : Bool) (a n : Nat) : List Token × Option Nat :=
  if cmp = 0 then ((List.range n).map fun i => unitToken s (a + 16 * i), none)
  else
    let wide := cmp == 0x21
    let step := if wide then 32 else 16
    let as := (List.range (16 * n / step)).map fun i => a + step * i
    (as.flatMap (blockTokens s wide bf16), as.find? fun x => blockMalformed wide (blockBits s wide x))

/-- Units of a burst. -/
def burstLength : BurstKind → Nat
  | .read n _ _ => n
  | .write us => us.length
  | .desc _ => 16

/-- The units of a write are accepted; those in memory kept from the engines are dropped, and logged once a burst (R237). -/
def acceptUnits (s : State) (us : List WUnit) : State :=
  let kept := us.filter fun u => memKept s u.addr 16
  let s1 := (us.filter fun u => !memKept s u.addr 16).foldl (fun s u => putUnit s u.addr u.pay u.side) s
  match kept with
  | [] => s1
  | u :: _ => violate s1 { code := 0x0104, addr := u.addr, req := 0, space := 2, write := true, ndw := 4 * kept.length }

/-- What a burst of engine k brings. -/
def finishBurst (s : State) (k : Nat) (b : Burst) : State :=
  let e := s.engine k
  match b.kind with
  | .desc w => s.setEngine k (if w then { e with wdescFetched := e.wdescFetched + 8 } else { e with descFetched := e.descFetched + 8 })
  | .write us =>
    let adv := (us.map fun u => u.adv).sum
    (acceptUnits s us).setEngine k { e with rwp := e.rwp + BitVec.ofNat 32 adv, capQueued := e.capQueued - adv }
  | .read n c bf =>
    match readTokens s c bf b.addr n with
    | (_, some a) =>
      event s 0x0611 { srcid := (s.edge (64 + 2 * k)).ctxCfg.bed.toNat, addr := a
                       detail := two k (blockBits s (c == 0x21) a), tile := edgeId (64 + 2 * k) }
    | (ts, none) => s.setEngine k { e with rbuf := e.rbuf ++ ts }

/-- The unit in which an error is found: inside the burst, else its first. -/
def errorUnit (b : Burst) (a : Nat) : Nat :=
  if b.addr ≤ a ∧ a < b.addr + 16 * burstLength b.kind then a / 16 * 16 else b.addr

/-- The oldest burst of engine k ends. A corrected unit's 0x0705 follows the 0x0611 of the same burst, in code order (R461). -/
def burstComplete (s : State) (k : Nat) (h : UnitHealth) (a : Nat) : State :=
  let e := s.engine k
  match e.bursts with
  | [] => s
  | b :: r =>
    let s1 := s.setEngine k { e with bursts := r }
    match b.kind, h with
    | .write _, _ => finishBurst s1 k b
    | _, .good => finishBurst s1 k b
    | _, .corrected => corrected1 (finishBurst s1 k b) (errorUnit b a)
    | _, .uncorrectable =>
      event (uncorrectable1 s1 (errorUnit b a)) 0x0701 { srcid := k, addr := errorUnit b a, detail := two (errorUnit b a) 0 }

/-- BURST_COMPLETE. -/
def execBurstComplete (k : Fin 16) (health : UnitHealth) (addr : Nat) (s : State) : Host.Outcome State Fault Refusal :=
  .next (burstComplete s k health addr)

/-! ## ENGINE_TOKEN_RECEIVE (R278, R281, R296) -/

/-- The byte address of offset off in the row the write list stands at. -/
def writeAddr (e : Engine) (d : StreamDesc) (off : Nat) : Nat :=
  if d.cap then e.rbase.toNat + (e.rwp.toNat + e.capQueued + off) % 2 ^ e.szl.toNat
  else ((d.addr : Int) + e.wwalk.row * d.pitch + off).toNat

/-- The units of a compressed block of four tokens. A source value that is an infinity or a NaN is taken as `encodeBlock` takes it,
replaced as R72 replaces one at a tile, uncounted and with no event: R85 speaks of values taken exactly and says nothing of these
(DESIGN CHOICE, log entry 78). -/
def blockUnits (e : Engine) (d : StreamDesc) (ts : List Token) (last : Bool) (adv : Nat) : List WUnit :=
  let wide := e.wlist.cmp == 0x21
  let f := actFmt d.bf16
  let xs := ts.flatMap fun t => (List.range 8).map fun l => f.operand (tokElem t 16 l)
  let bits1 := encodeBlock wide xs
  let side := BitVec.ofNat 5 (((ts.headD {}).bseq).toNat + 16 * b2n (ts.all fun t => t.bub))
  let blk := e.wwalk.u / 4
  if wide then
    [{ addr := writeAddr e d (32 * blk), pay := BitVec.ofNat 128 bits1, side := side, toks := 2 },
     { addr := writeAddr e d (32 * blk + 16), pay := BitVec.ofNat 128 (bits1 / 2 ^ 128), side := side, toks := 2, last := last, adv := adv }]
  else [{ addr := writeAddr e d (16 * blk), pay := BitVec.ofNat 128 bits1, side := side, toks := 4, last := last, adv := adv }]

/-- Source tokens of a block that differ in BSEQ: two of the tags. -/
def bseqDiffer : List Token → Option (Nat × Nat)
  | [] => none
  | t :: r => (r.find? fun u => u.bseq != t.bseq).map fun u => (t.bseq.toNat, u.bseq.toNat)

/-- The engine after a token of a row it writes. -/
def writeToken (e : Engine) (d : StreamDesc) (u : Token) : Engine :=
  let lastTok := e.wwalk.u + 1 == d.rowtok
  let adv := if d.cap && lastTok then rowBytes e.wlist.cmp d else 0
  let walk := moveWalk e.wwalk d d.rowtok 1
  if e.wlist.cmp = 0 then
    { e with wbuf := e.wbuf ++ [{ addr := writeAddr e d (16 * e.wwalk.u), pay := u.payload, side := sideOf u, last := lastTok, adv := adv }]
             wwalk := walk, capQueued := e.capQueued + adv }
  else
    let ts := e.wpart ++ [u]
    if ts.length < 4 then { e with wpart := ts, wwalk := walk }
    else { e with wpart := [], wbuf := e.wbuf ++ blockUnits e d ts lastTok adv, wwalk := walk, capQueued := e.capQueued + adv }

/-- A token of a row that is discarded (R296). -/
def discardToken (e : Engine) (d : StreamDesc) : Engine :=
  { e with wwalk := moveWalk e.wwalk d d.rowtok 1, discardRow := e.wwalk.u + 1 != d.rowtok }

/-- The first token of a row that the ring does not take: the row's tokens counted, 0x0709 once a step. -/
def dropRow (s : State) (k : Nat) (e : Engine) (d : StreamDesc) : State :=
  let s1 := s.setEngine k { discardToken e d with drop := satAdd e.drop d.rowtok, discStep := true }
  if e.discStep then s1 else event s1 0x0709 { srcid := k }

/-- A token whose edge has room and whose parity is right: into the write path of engine k. -/
def storeToken (s : State) (k : Nat) (u : Token) : State :=
  let e := s.engine k
  match writeDesc e with
  | none => s
  | some d =>
    if e.discardRow then s.setEngine k (discardToken e d)
    else if rowNoFit e then dropRow s k e d
    else s.setEngine k (writeToken e d u)

/-- The disagreement of tags that the token would complete (R278). -/
def tagFault (e : Engine) (u : Token) : Option (Nat × Nat) :=
  if e.wlist.cmp != 0 && e.wpart.length == 3 && !e.discardRow then bseqDiffer (e.wpart ++ [u]) else none

/-- The head token of e(S,2k+1) enters the engine. -/
def engineReceive (s : State) (k : Nat) : State :=
  let x := 65 + 2 * k
  let g := s.edge x
  let e := s.engine k
  match g.outSlots.head? with
  | none => s
  | some u =>
    if edgeLive s x && decide (g.outCnt < g.ctxCfg.quota 4) then
      if !tokParOk u then outwardParity s x u
      else
        match writeDesc e with
        | none =>
          if s.pace.rakeAct then popOutward (s.setEngine k { e with drop := satInc e.drop }) x u
          else event s 0x0702 { srcid := k }
        | some _ =>
          if !writeRoom e || e.wdescFetched ≤ e.wwalk.d then s
          else
            match tagFault e u with
            | some (a, b) => event s 0x0612 { srcid := k, detail := two a b }
            | none => popOutward (storeToken s k u) x u
    else s

/-- ENGINE_TOKEN_RECEIVE. -/
def execEngineTokenReceive (k : Fin 16) (s : State) : Host.Outcome State Fault Refusal := .next (engineReceive s k)

/-! ## Registers with rows of their own -/

/-- Does a value of RRP lie in the range RWP − 2^SZL to RWP (R297)? -/
def rrpOk (e : Engine) (v : Word) : Bool := decide ((e.rwp - v).toNat ≤ (if e.szl = 0 then 0 else 2 ^ e.szl.toNat))

/-- SE_CLRSTAT (R299). -/
def seClrstat (s : State) : State := { s with se := { s.se with eng := mapAll {} s.se.eng fun _ e => { e with drop := 0 } } }

def execSeClrstat (s : State) : Host.Outcome State Fault Refusal := .next (rowWrite s 0x60000 seClrstat)

/-- MC_CLRCNT (R291). -/
def mcClrcnt (s : State) : State := { s with mc := { s.mc with cecnt := 0, uecnt := 0 } }

def execMcClrcnt (s : State) : Host.Outcome State Fault Refusal := .next (rowWrite s 0x7000C mcClrcnt)

end Sys2Proof.Machine
end

