-- ==== Sys2Proof/Machine/Power.lean ====
section
/-! DEFINITION. The power manager (19, R397-R415) and the supply and PMBus commands of 22: domains, the fabric voltage, the cap
governor, thermal control, supplies and changeover. -/

namespace Sys2Proof.Machine

/-! ## Voltage steps -/

/-- The nominal VFAB of a voltage step in mV (R400). -/
def nominalMv (v : Nat) : Nat := 550 + 20 * v

/-! ## Domains (R397-R399) -/

/-- The fabric block of a grid tile, and of an edge tile. -/
def gridFab (t : Nat) : Nat := t / 32 / 8 * 4 + t % 32 / 8
def edgeFab (e : Nat) : Nat := gridFab (edgeNeighbour e)

/-- Does the loaded placement use a fabric block (R398)? -/
def fabUsed (s : State) (b : Nat) : Bool :=
  s.plc.ctxs.any fun c => c.blocks.any fun k =>
    let i := k.tile.toNat
    (if isEdgeId i then edgeFab (edgeOfId i) else gridFab i) == b &&
    (k.claimed || (!isEdgeId i && bits k.route.toNat 0 48 != 0) || k.qport.any fun q => q != 0)

/-- May a domain be switched off now (Table PWR-1)? w is the word of the request. -/
def offPermitted (s : State) (w : Nat) (d : Nat) : Bool :=
  if d ≤ 2 then false
  else if d ≤ 5 then s.idle && s.cfg.goal != .load && s.cfg.state != 2 && s.flt.dumpState != .writing && bits w 3 3 == 0
  else if d ≤ 9 then !(s.port (d - 6)).en
  else if d = 10 then (List.range 8).all fun k => !(s.sport k).en
  else if d ≤ 13 then s.idle && s.cfg.state == 0
  else (s.loaded && !fabUsed s (d - 14)) || (s.idle && s.cfg.state == 0)

/-- May a domain be switched on now? A link domain needs VDD_LNK (R450). -/
def onPermitted (s : State) (w : Nat) (d : Nat) : Bool :=
  !s.pwr.thermOff && (d < 3 || 5 < d || bits w 3 3 == 7) && (d < 6 || 9 < d || s.pwr.lnkRail)

/-- The state a domain has or is going to have. -/
def domTarget (s : State) (d : Nat) : Bool :=
  match s.pwr.switching.find? fun x => x.d == d with
  | some x => x.on
  | none => s.domain d

/-- Does the loaded placement leave a domain's fabric block unused (R398)? -/
def unusedFab (s : State) (d : Nat) : Bool := decide (14 ≤ d) && s.loaded && !fabUsed s (d - 14)

/-- The domains that a request keeps powered: an unused fabric block that it switches on, until one switches it off (R398). -/
def keptOn (s : State) (d : Nat) (on : Bool) : List Nat :=
  let rest := s.pwr.keepOn.filter fun k => k != d
  if on && unusedFab s d then rest ++ [d] else rest

/-- One domain of a DOMREQ write. -/
def requestDomain (s : State) (w : Nat) (d : Nat) : State :=
  let want := bitAt w d
  if want = domTarget s d then { s with pwr := { s.pwr with domReq := putBit s.pwr.domReq d want } }
  else if (if want then onPermitted s w d else offPermitted s w d) then
    { s with pwr := { s.pwr with
      domReq := putBit s.pwr.domReq d want
      keepOn := keptOn s d want
      switching := (s.pwr.switching.filter fun x => x.d != d) ++ [{ d := d, on := want }] } }
  else event s 0x0B0E { srcid := d }

/-- A write of PWR_DOMREQ (R397). -/
def domainRequest (s : State) (v : BitVec 30) : State := (List.range 30).foldl (fun s d => requestDomain s v.toNat d) s

/-- DOMAIN_REQUEST. -/
def execDomainRequest (v : BitVec 30) (s : State) : Host.Outcome State Fault Refusal :=
  .next (rowWrite s 0xB0060 fun s => domainRequest s v)

/-- PACE after PD13 lost its state: an abort under way stands until a reset (R393). -/
def lostPace (p : Pace) : Pace :=
  { ({} : Pace) with state := p.state, abort := p.abort, fatal := p.fatal, needPor := p.needPor, snap := p.snap, req := p.req }

/-- What a domain loses when it is off (Table PWR-1). -/
def loseDomain (s : State) (d : Nat) : State :=
  if d = 3 ∨ d = 4 ∨ d = 5 then { s with mc := { s.mc with ready := false } }
  else if 6 ≤ d ∧ d ≤ 9 then twinCheckPort ((leaveUp s (d - 6)).setPort (d - 6) {})
  else if d = 10 then { s with sp := mapAll {} s.sp fun _ p => { p.off with en := p.en } }
  else if d = 11 then { s with nce := {} }
  else if d = 12 then { s with pp := {} }
  else if d = 13 then { s with pace := lostPace s.pace, cfg := {} }
  else if 14 ≤ d then
    { s with tiles := s.tiles.filter fun p => gridFab p.1 != d - 14
             edges := s.edges.filter fun p => edgeFab p.1 != d - 14 }
  else s

/-- Switch a domain at once. -/
def setDomain (s : State) (d : Nat) (on : Bool) : State :=
  let s1 := { s with pwr := { s.pwr with
    domOn := putBit s.pwr.domOn d on, switching := s.pwr.switching.filter fun x => x.d != d } }
  if on then
    (if d = 10 then
      { s1 with sp := mapAll {} s1.sp fun _ p => { p with state := if p.en && p.state == .off then .hunt else p.state } }
     else if 3 ≤ d ∧ d ≤ 5 then { s1 with mc := { s1.mc with ready := s1.mc.trained && bits s1.pwr.domOn.toNat 3 3 == 7 } }
     else s1)
  else loseDomain s1 d

/-- DOMAIN_SWITCH_COMPLETE (R399). -/
def domainComplete (s : State) (d : Nat) : State :=
  match s.pwr.switching.find? fun x => x.d == d with
  | some x => setDomain s d x.on
  | none => s

def execDomainSwitchComplete (d : Fin 30) (s : State) : Host.Outcome State Fault Refusal := .next (domainComplete s d)

/-- The unused fabric domains that are on and that no request keeps powered. -/
def unusedFabs (s : State) : List Nat :=
  ((List.range 16).filter fun b => !fabUsed s b && domTarget s (14 + b) && !s.pwr.keepOn.contains (14 + b)).map (14 + ·)

/-- AUTOFAB_SWITCH_OFF (R398). -/
def autofab (s : State) : State :=
  if s.pwr.autofab && s.loaded && s.cfg.goal == .none then
    let ds := unusedFabs s
    { s with pwr := { s.pwr with
        switching := (s.pwr.switching.filter fun x => !ds.contains x.d) ++ ds.map fun d => { d := d, on := false } } }
  else s

def execAutofabSwitchOff (s : State) : Host.Outcome State Fault Refusal := .next (autofab s)

/-! ## AVSBus (R400-R403) -/

/-- Does a changeover hold back writes and clock changes (R411)? -/
def State.changing (s : State) : Bool := s.pwr.co

/-- A voltage write goes out with the v_eff in force. -/
def sendVoltage (s : State) : State :=
  let v := s.pwr.veff
  let n := if s.pwr.vack.toNat < v then v - s.pwr.vack.toNat else s.pwr.vack.toNat - v
  { s with pwr := { s.pwr with wrOut := some (BitVec.ofNat 4 v), wrDue := false, wrFails := 0, retryT := none
                               vWrT := s.devTime, vWrN := 20000 * max 1 n } }

/-- VOLTAGE_WRITE: due, none outstanding, no changeover. -/
def voltageWrite (s : State) : State :=
  if s.pwr.wrDue && s.pwr.wrOut.isNone && s.pwr.retryT.isNone && !s.changing then sendVoltage s else s

def execVoltageWrite (s : State) : Host.Outcome State Fault Refusal := .next (voltageWrite s)

/-- The regulator's response to the write outstanding, or none (R403). -/
def voltageAck (s : State) (ok : Bool) : State :=
  match s.pwr.wrOut with
  | none => s
  | some v =>
    if ok then { s with pwr := { s.pwr with vack := v, wrOut := none, wrFails := 0 } }
    else
      let p := { s.pwr with avserr := satInc s.pwr.avserr, wrFails := s.pwr.wrFails + 1 }
      if p.wrFails < 3 then { s with pwr := p }
      else event { s with pwr := { p with wrOut := none, retryT := some s.devTime } } 0x0B07

/-- VOLTAGE_WRITE_ACK. -/
def execVoltageWriteAck (ok : Bool) (s : State) : Host.Outcome State Fault Refusal := .next (voltageAck s ok)

/-- AVS_RETRY: 1 ms after the last failure. -/
def avsRetry (s : State) : State :=
  match s.pwr.retryT with
  | none => s
  | some t => if t + 1000000 ≤ s.devTime && !s.changing then sendVoltage s else s

def execAvsRetry (s : State) : Host.Outcome State Fault Refusal := .next (avsRetry s)

/-- Is VFAB settling after a write? -/
def settling (s : State) : Bool := s.pwr.wrOut.isSome || decide (s.devTime < s.pwr.vWrT + s.pwr.vWrN)

/-- A changeover whose readback is still out of band 1 ms after SETTLE (R411). -/
def lateSettle (s : State) : Bool :=
  s.pwr.co && !s.pwr.coWarn && decide (s.pwr.coT + (max 1 s.pwr.settle.toNat) * 1000 + 1000000 ≤ s.devTime)

/-- A changeover goes on holding without a readback in band: 0x0B08, once. -/
def warnLate (s : State) (mv : Nat) : State := event { s with pwr := { s.pwr with coWarn := true } } 0x0B08 { detail := two mv 0 }

/-- A readback of VFAB, or no valid response. -/
def vfabReadback (s : State) (mv : Option (BitVec 16)) : State :=
  match mv with
  | none =>
    let p := { s.pwr with avserr := satInc s.pwr.avserr, rdFails := s.pwr.rdFails + 1 }
    let s1 := if p.rdFails < 3 then { s with pwr := p } else event { s with pwr := { p with rdFails := 0 } } 0x0B07
    if lateSettle s1 && !s1.pwr.vinBand then warnLate s1 s1.pwr.vread.toNat else s1
  | some m =>
    let nom := nominalMv s.pwr.veff
    let low := decide (100 * m.toNat < 97 * nom)
    let inBand := !low && decide (100 * m.toNat ≤ 103 * nom)
    let s1 := { s with pwr := { s.pwr with
      vread := m, rdFails := 0, vinBand := inBand, vbandWarned := if inBand then false else s.pwr.vbandWarned } }
    if lateSettle s1 && !inBand then warnLate s1 m.toNat
    else if low && !settling s && !s.pwr.co && !s.pwr.vbandWarned then
      event { s1 with pwr := { s1.pwr with vbandWarned := true } } 0x0B08 { detail := two m.toNat 0 }
    else s1

/-- VFAB_READBACK (R403, R411). -/
def execVfabReadback (mv : Option (BitVec 16)) (s : State) : Host.Outcome State Fault Refusal := .next (vfabReadback s mv)

/-- A write of PWR_VSET (R401). -/
def vsetWrite (s : State) (keep : Bool) (req : BitVec 4) : State := changePwr s fun p => { p with keep := keep, req := req }

/-- VSET_WRITE. -/
def execVsetWrite (keep : Bool) (req : BitVec 4) (s : State) : Host.Outcome State Fault Refusal :=
  .next (rowWrite s 0xB0008 fun s => vsetWrite s keep req)

/-! ## Clock steps (R295, R404) -/

/-- A write of PWR_CLK: the memory step becomes a rate request, held until training is complete; the management cores' step changes
at once, but in a changeover at its end (R411). -/
def clockStep (s : State) (mem mgmt : BitVec 2) : State :=
  let s1 := { s with pwr := { s.pwr with mem := mem, mgmt := mgmt, mgmtRun := if s.changing then s.pwr.mgmtRun else mgmt } }
  if mem = s.pwr.mem && !s.pwr.memHeld then s1
  else if s.mc.trained then { s1 with mc := { s1.mc with rateReq := some mem } }
  else { s1 with pwr := { s1.pwr with memHeld := true } }

/-- CLOCK_STEP_CHANGE. -/
def execClockStepChange (mem mgmt : BitVec 2) (s : State) : Host.Outcome State Fault Refusal :=
  .next (rowWrite s 0xB0030 fun s => clockStep s mem mgmt)

/-- Any burst outstanding? -/
def burstsOut (s : State) : Bool := s.se.eng.any fun p => !p.2.bursts.isEmpty

/-- RATE_CHANGE (R295): quiesce while bursts are outstanding, then relock and resume. In self-refresh (R453) and after the loss of a
channel (R294) the memory stays as it is. -/
def rateChange (s : State) : State :=
  match s.mc.rateReq with
  | none => s
  | some r =>
    if s.changing || s.pwr.selfRefresh || s.mc.chok != 0xFF then s
    else if burstsOut s then { s with mc := { s.mc with quiesced := true } }
    else { s with mc := { s.mc with rate := r, rateReq := none, quiesced := false } }

def execRateChange (s : State) : Host.Outcome State Fault Refusal := .next (rateChange s)

/-! ## The cap governor (R405) -/

/-- The governor's evaluation of a window power p in 1/16 W. -/
def governor (s : State) (p : Nat) : State :=
  let w := s.pwr
  let cap := 16 * w.cap.toNat
  let isOver := decide (cap < p)
  let lower := isOver && decide (w.floor.toNat < w.vcap.toNat)
  let below := decide (p < cap - 16 * w.hyst.toNat)
  let calm := if lower then 0 else if below then w.calm + 1 else 0
  let raise := !lower && below && decide (10 ≤ calm) && decide (w.vcap.toNat < 15)
  let vcap := if lower then w.vcap - 1 else if raise then w.vcap + 1 else w.vcap
  let s1 := changePwr s fun x => { x with
    vcap := vcap, calm := if raise then 0 else calm, capStep := x.capStep || lower, capWarned := x.capWarned && isOver }
  let s2 := if lower && !w.capStep then event s1 0x0B01 else s1
  if isOver && vcap == w.floor && !w.capWarned then event { s2 with pwr := { s2.pwr with capWarned := true } } 0x0B02 else s2

/-- CAP_GOVERNOR: a window closes with power p. -/
def capGovernor (s : State) (p : BitVec 16) : State :=
  governor { s with pwr := { s.pwr with power := p, lastWin := p.toNat, peak := if s.pwr.peak < p then p else s.pwr.peak } } p.toNat

def execCapGovernor (p : BitVec 16) (s : State) : Host.Outcome State Fault Refusal := .next (capGovernor s p)

/-! ## Thermal control (R407-R409) -/

/-- TCRIT in °C. -/
def tcrit (s : State) : Nat := if s.glb.gradeI then 115 else 105

/-- A reading in quarter degrees as a signed number. -/
def quarter (t : BitVec 16) : Int := t.toInt

/-- The highest reading among sensors that are not excluded, with its sensor. -/
def hottest (p : Pwr) : List Nat → Option (Nat × BitVec 16)
  | [] => none
  | i :: r =>
    let t := mget 0 p.sens i
    match hottest p r with
    | none => some (i, t)
    | some (j, u) => if quarter t < quarter u then some (j, u) else some (i, t)

/-- TJ anew. -/
def updateTj (p : Pwr) : Pwr :=
  match hottest p ((List.range 48).filter fun i => p.seen.contains i && !p.excl.contains i) with
  | none => p
  | some (i, t) => { p with tj := t, tjSens := BitVec.ofNat 6 i }

/-- PD3-PD5 go off after a thermal shutdown. -/
def memoryOff (s : State) : State :=
  [3, 4, 5].foldl (fun s d => setDomain s d false) { s with pwr := { s.pwr with memOffT := none } }

/-- Thermal shutdown (R409): PD6-PD29 off at once, PD3-PD5 later. -/
def thermalShutdown (s : State) : State :=
  if s.pwr.thermOff then s
  else
    let s1 := event { s with pwr := { s.pwr with thermOff := true, memOffT := some s.devTime } } 0x0B05
    let s2 := (List.range 24).foldl (fun s i => setDomain s (6 + i) false) s1
    if s2.flt.dumpState = .writing then s2 else memoryOff s2

/-- A sensor is excluded. -/
def excludeSensor (s : State) (i : Nat) : State :=
  event { s with pwr := updateTj { s.pwr with excl := s.pwr.excl ++ [i] } } 0x0B06 { detail := two i 0 }

/-- The block of a sensor, numbered as the power domains are (Table PWR-3). -/
def sensorBlock (i : Nat) : Nat :=
  if i < 32 then 14 + i / 2
  else
    match i with
    | 32 => 3 | 33 => 4 | 34 => 5 | 35 => 3
    | 36 => 6 | 37 => 7 | 38 => 8 | 39 => 9
    | 40 => 2 | 41 => 10 | 42 => 11 | 43 => 12 | 44 => 13 | 45 => 1
    | _ => 0

/-- The other sensors of a sensor's block. -/
def blockMates (i : Nat) : List Nat := (List.range 48).filter fun j => j != i && sensorBlock j == sensorBlock i

/-- The watch of a sensor whose reading has just changed: its mates as last read. -/
def freshWatch (p : Pwr) (t : Nat) (i : Nat) : SensorWatch :=
  { since := t, mates := ((blockMates i).filter fun j => p.seen.contains j).map fun j =>
      (j, quarter (mget 0 p.sens j), quarter (mget 0 p.sens j)) }

/-- A mate's reading noted in a watch. -/
def noteMate (w : SensorWatch) (j : Nat) (q : Int) : SensorWatch :=
  { w with mates :=
      if w.mates.any fun m => m.1 == j then w.mates.map fun m => if m.1 = j then (j, min m.2.1 q, max m.2.2 q) else m
      else w.mates ++ [(j, q, q)] }

/-- The watches after a reading of sensor i. -/
def noteReading (p : Pwr) (now i : Nat) (t : BitVec 16) : AMap SensorWatch :=
  let w1 := (blockMates i).foldl (fun w j => mset {} w j (noteMate (mget {} w j) i (quarter t))) p.watch
  if p.seen.contains i && mget 0 p.sens i == t then w1 else mset {} w1 i (freshWatch p now i)

/-- Is a sensor's reading unchanged for 100 ms while another of its block has moved by 2 °C or more (R407; log entry 87)? -/
def stuckSensor (w : SensorWatch) (now : Nat) : Bool :=
  decide (w.since + 100000000 ≤ now) && w.mates.any fun m => decide (m.2.1 + 8 ≤ m.2.2)

/-- THERMAL_SENSOR_READ (R407). -/
def thermalRead (s : State) (i : Nat) (t : BitVec 16) : State :=
  if s.pwr.excl.contains i then s
  else if quarter t < -220 ∨ 600 < quarter t then excludeSensor s i
  else
    let seen := if s.pwr.seen.contains i then s.pwr.seen else s.pwr.seen ++ [i]
    let watch := noteReading s.pwr s.devTime i t
    let s1 := { s with pwr := updateTj { s.pwr with sens := mset 0 s.pwr.sens i t, seen := seen, watch := watch } }
    if stuckSensor (mget {} watch i) s.devTime then excludeSensor s1 i
    else if 4 * (tcrit s1 : Int) ≤ quarter s1.pwr.tj then thermalShutdown s1
    else s1

/-- The reading is in quarters of a degree: whole degrees, rounded down, and quarters. -/
def execThermalSensorRead (i : Fin 48) (deg : BitVec 14) (quarters : BitVec 2) (s : State) : Host.Outcome State Fault Refusal :=
  .next (thermalRead s i (deg ++ quarters))

/-- THERMAL_LIMIT_STEP (R408): one step down per 100 µs, one up per 1 ms. -/
def thermalStep (s : State) : State :=
  let tthr : Int := 4 * (min s.pwr.tthr.toNat (tcrit s - 1) : Nat)
  let thys : Int := 4 * (max 1 s.pwr.thys.toNat : Nat)
  let tj := quarter s.pwr.tj
  if tthr ≤ tj then
    if s.pwr.vtherm ≠ 0 ∧ s.pwr.thermT + 100000 ≤ s.devTime then
      let first := s.pwr.vtherm == 15
      let s1 := changePwr s fun p => { p with vtherm := p.vtherm - 1, thermT := s.devTime
                                              thrcnt := if first then satInc p.thrcnt else p.thrcnt }
      if first then event s1 0x0B03 else s1
    else s
  else if tj < tthr - thys then
    if s.pwr.vtherm ≠ 15 ∧ s.pwr.thermT + 1000000 ≤ s.devTime then
      let s1 := changePwr s fun p => { p with vtherm := p.vtherm + 1, thermT := s.devTime }
      if s1.pwr.vtherm = 15 then event s1 0x0B04 else s1
    else s
  else s

def execThermalLimitStep (s : State) : Host.Outcome State Fault Refusal := .next (thermalStep s)

/-- MEMORY_DOMAINS_OFF_LIMIT (R409): 10 ms after the shutdown. -/
def memoryOffLimit (s : State) : State :=
  match s.pwr.memOffT with
  | none => s
  | some t => if t + 10000000 ≤ s.devTime then memoryOff s else s

def execMemoryDomainsOffLimit (s : State) : Host.Outcome State Fault Refusal := .next (memoryOffLimit s)

/-- PWR_CLRSTAT (R415). -/
def pwrClrstat (s : State) : State := { s with pwr := { s.pwr with peak := 0, thrcnt := 0, avserr := 0 } }

def execPwrClrstat (s : State) : Host.Outcome State Fault Refusal := .next (rowWrite s 0xB0000 pwrClrstat)

/-! ## Supplies (R410-R414) -/

/-- A changeover to a path begins. -/
def beginChangeover (s : State) (toB : Bool) : State :=
  event { s with pwr := { s.pwr with selB := toB, co := true, coT := s.devTime, coWarn := false, vinBand := false
                                     cocnt := satInc s.pwr.cocnt } } (if toB then 0x0B09 else 0x0B0A)

/-- Path A or B rises. -/
def pathRises (s : State) (b : Bool) : State :=
  if b then { s with pwr := { s.pwr with bOk := true, selB := s.pwr.selB || !s.pwr.aOk } }
  else { s with pwr := { s.pwr with aOk := true, aOkT := s.devTime } }

/-- Path A or B falls. -/
def pathFalls (s : State) (b : Bool) : State :=
  let s1 := { s with pwr := { s.pwr with aOk := s.pwr.aOk && b, bOk := s.pwr.bOk && !b } }
  let other := if b then s.pwr.aOk else s.pwr.bOk
  if !other then event s1 0x0B0C
  else if b = s.pwr.selB then
    (if b then event s1 0x0B0C else beginChangeover s1 true)
  else event s1 0x0B0B

/-- SUPPLY_OK_CHANGE (R410, R412): a filtered change of SUP_A_OK or SUP_B_OK. With B selected its fall changes over to A. -/
def supplyChange (s : State) (b level : Bool) : State :=
  let old := if b then s.pwr.bOk else s.pwr.aOk
  if old = level then s
  else if level then pathRises s b
  else if b && s.pwr.selB && s.pwr.aOk && !s.pwr.co then beginChangeover { s with pwr := { s.pwr with bOk := false } } false
  else pathFalls s b

def execSupplyOkChange (pathB : Bool) (level : Bool) (s : State) : Host.Outcome State Fault Refusal := .next (supplyChange s pathB level)

/-- CHANGEOVER_SETTLE (R411): SETTLE has passed and a readback lies in band. -/
def changeoverSettle (s : State) : State :=
  if s.pwr.co && s.pwr.vinBand && decide (s.pwr.coT + max 1 s.pwr.settle.toNat * 1000 ≤ s.devTime) then
    { s with pwr := { s.pwr with co := false, mgmtRun := s.pwr.mgmt } }
  else s

def execChangeoverSettle (s : State) : Host.Outcome State Fault Refusal := .next (changeoverSettle s)

/-- RETDLY in ns. -/
def retdly (s : State) : Nat := (if s.pwr.retdly = 0 then 256 else s.pwr.retdly.toNat) * 1000000

/-- AUTO_RETURN (R410). -/
def autoReturn (s : State) : State :=
  if s.pwr.selB && s.pwr.autoret && s.pwr.aOk && !s.pwr.co && decide (s.pwr.aOkT + retdly s ≤ s.devTime) then beginChangeover s false
  else s

def execAutoReturn (s : State) : Host.Outcome State Fault Refusal := .next (autoReturn s)

/-- SELA (R410). -/
def sela (s : State) : State := if s.pwr.selB && s.pwr.aOk && !s.pwr.co then beginChangeover s false else s

def execSela (s : State) : Host.Outcome State Fault Refusal := .next (rowWrite s 0xB0058 sela)

/-- AON_SWITCH (R413). -/
def aonSwitch (s : State) (toB : Bool) : State :=
  if s.pwr.aonB = toB then s else event { s with pwr := { s.pwr with aonB := toB } } 0x0B0F

def execAonSwitch (toB : Bool) (s : State) : Host.Outcome State Fault Refusal := .next (aonSwitch s toB)

/-- BANK_SUPPLY_OUT_OF_BAND (R414). -/
def bankSupply (s : State) (k : Nat) : State :=
  if (s.sport k).en then event (s.setSport k { (s.sport k).off with supOk := false }) 0x0B10 { srcid := k } else s

def execBankSupplyOutOfBand (k : Fin 8) (s : State) : Host.Outcome State Fault Refusal := .next (bankSupply s k)

/-- A number for each monitored rail. -/
def railNo : Rail → Nat
  | .vdig => 0 | .vpll => 1 | .vddioSys => 2 | .vddq => 3 | .vddMphy => 4 | .vddPcie => 5

/-- RAIL_OUT_OF_RANGE (R449). -/
def railFault (s : State) (r : Rail) (reading : BitVec 32) : State := event s 0x0B12 { detail := two (railNo r) reading.toNat }

def execRailOutOfRange (r : Rail) (reading : BitVec 32) (s : State) : Host.Outcome State Fault Refusal := .next (railFault s r reading)

/-- SYS_CLK25_LOSS (R453): SYS_CLK25 has stood still for 1 µs. A clock that stands still cannot stop again: while it is lost the row
stands for its return, which the table gives no row (DESIGN CHOICE, log entry 88); only a SYS reset goes back to it. -/
def clk25Loss (s : State) : State :=
  if s.pwr.clkLost then { s with pwr := { s.pwr with clkLost := false } }
  else event { s with pwr := { s.pwr with clkLost := true, intOsc := true, selfRefresh := true }, mc := { s.mc with quiesced := true } } 0x0B11

def execSysClk25Loss (s : State) : Host.Outcome State Fault Refusal := .next (clk25Loss s)

/-! ## PMBus (R458) -/

/-- PWR_STATUS.THR. -/
def Pwr.thr (p : Pwr) : Bool := decide (p.vtherm.toNat < 15)

/-- What the PMBus target answers a command code with: three commands, and a NACK to every other (R458). It works while PD1 is on. -/
def pmbusAnswer (s : State) (code : Nat) : Answer :=
  if !s.domain 1 then .none
  else
    match code with
    | 0x8D => .word (s.pwr.tj.zeroExtend 32)
    | 0x96 => .word (s.pwr.power.zeroExtend 32)
    | 0x78 => .word (packW [(2, b2n s.pwr.thr)])
    | _ => .nack

/-- A PMBus read of a command code. -/
def pmbusRead (s : State) (code : Nat) : State := { s with answer := pmbusAnswer s code }

def execReadTemperature1 (s : State) : Host.Outcome State Fault Refusal := .next (pmbusRead s 0x8D)

def execReadPout (s : State) : Host.Outcome State Fault Refusal := .next (pmbusRead s 0x96)

/-- Bit 2 stands while v_therm is below 15. -/
def execStatusByte (s : State) : Host.Outcome State Fault Refusal := .next (pmbusRead s 0x78)

end Sys2Proof.Machine
end

