-- ==== Sys2Proof/Machine/Irq.lean ====
section
/-! DEFINITION. The interrupt controller's commands (16, R352-R357): source lines, sends, the write instants of PEND and MASK,
SENSE, TAKE and EOI. -/

namespace Sys2Proof.Machine

/-! ## Lines -/

/-- The level that a line source's block drives (R68, R317, R352, R378, R396, R415, R431). -/
def lineLevel (s : State) (k : Nat) : Bool :=
  if k = 26 then s.holding
  else if 33 ≤ k ∧ k ≤ 47 then (s.sport ((k - 33) / 2)).v0.fullish || (s.sport ((k - 33) / 2)).v1.fullish
  else if 68 ≤ k ∧ k ≤ 71 then (s.port (k - 68)).en && !(s.port (k - 68)).isUp
  else if k = 73 then s.tw.en && s.tw.state != .paired
  else if k = 105 then s.pwr.co
  else if k = 106 then s.pwr.thr
  else if 112 ≤ k ∧ k ≤ 119 then bitAt (s.mbox (k - 112)).peer.toNat 0 && !(s.mbox (k - 112)).outq.words.isEmpty
  else if k = 120 then (List.range 8).any fun m => !(s.mbox m).inq.words.isEmpty
  else k == 126 && s.sec.open_

/-- Is a change of a line to this level an event under a sense mode (Table IRQ-5)? -/
def senseEvent (sense : BitVec 2) (level : Bool) : Bool :=
  match sense.toNat with
  | 2 => !level
  | 3 => true
  | _ => level

/-- SOURCE_LINE_CHANGE (R352): a line source's line has come to the level given. An event source has no line; source 12 is raised by an
error that AER reports, which no other command brings (R341; log entry 86). -/
def sourceLine (s : State) (k : Nat) (level : Bool) : State :=
  let x := s.source k
  if k = 12 then (if level then raiseSource s 12 else s)
  else if levelSource k && lineLevel s k == level && x.line != level then
    let ev := senseEvent x.sense level
    s.setSource k { x with line := level, pend := x.pend || ev, cnt := if ev then satInc x.cnt else x.cnt }
  else s

def execSourceLineChange (k : Fin 128) (level : Bool) (s : State) : Host.Outcome State Fault Refusal := .next (sourceLine s k level)

/-! ## Sends (R354) -/

/-- The write-back block (Table HST-3). -/
def wbBlock (s : State) : List Byte :=
  natLe 4 (s.ring 0).ci.toNat ++ natLe 4 (s.ring 1).pi.toNat ++
  ((List.range 8).flatMap fun k => natLe 4 (s.ring (2 + k)).pi.toNat) ++ List.replicate 24 0

/-- WRITE_BACK (R327): after a change of an index in the block, while enabled. -/
def writeBack (s : State) : State :=
  if s.hq.wbEn && s.hq.wbDirty && s.canRequest then
    { s with hostOut := .write s.hq.wbAddr (wbBlock s) :: s.hostOut, hq := { s.hq with wbDirty := false } }
  else s

def execWriteBack (s : State) : Host.Outcome State Fault Refusal := .next (writeBack s)

/-- The message of a vector: its entry's data, written to its entry's address (R321). -/
def msixReq (s : State) (v : Nat) : HostReq := .msix v (s.target v).msgAddr (s.target v).msgData

/-- Issue an MSI-X message, the write-back block before it (R328); while no request is issued it waits. -/
def issueMsix (s : State) (v : Nat) : State :=
  if s.canRequest && s.hq.msixOut.isEmpty then
    let s1 := writeBack s
    { s1 with hostOut := msixReq s1 v :: s1.hostOut }
  else { s with hq := { s.hq with msixOut := s.hq.msixOut ++ [v] } }

/-- Does the MSI-X function hold a vector's message back: MSI-X is not enabled, the function or the vector is masked (R354)? -/
def msixHeld (s : State) (v : Nat) : Bool := !s.ic.msixEn || s.ic.fmask || (s.target v).vmask

/-- Present a vector's message to the MSI-X function: one held back waits in the PBA. -/
def presentMsix (s : State) (v : Nat) : State :=
  if msixHeld s v then s.setTarget v { s.target v with pba := (s.target v).pba + 1 } else issueMsix s v

/-- Do the two conditions of R354 hold at a target? -/
def sendDue (s : State) (x : Target) : Bool :=
  decide (0 < x.waiting) && (decide (x.cnt.toNat ≤ x.waiting) || decide (x.oldest + x.time.toNat * 1000 ≤ s.devTime)) &&
  (match x.stack with
   | [] => true
   | top :: _ => decide (x.stack.length < 8) && decide (top < x.wprio))

/-- INTERRUPT_SEND: the send pushes WPRIO and empties the set. -/
def interruptSend (s : State) (t : Nat) : State :=
  let x := s.target t
  if sendDue s x then
    let s1 := s.setTarget t { x with stack := x.wprio :: x.stack, waiting := 0, oldest := 0, wprio := 0, mpLine := decide (64 ≤ t) }
    if t < 64 then presentMsix s1 t else s1
  else s

def execInterruptSend (t : Fin 68) (s : State) : Host.Outcome State Fault Refusal := .next (interruptSend s t)

/-- What the PBA holds of a vector is issued once nothing holds it back. -/
def releasePba (s : State) (v : Nat) : State :=
  if msixHeld s v then s
  else (List.range (s.target v).pba).foldl (fun s _ => issueMsix s v) (s.setTarget v { s.target v with pba := 0 })

/-- The Function Mask and MSI-X Enable of Message Control. -/
def msixControl (s : State) (en mask : Bool) : State :=
  (List.range 64).foldl releasePba { s with ic := { s.ic with msixEn := en, fmask := mask } }

/-- A vector's mask bit. -/
def vectorMask (s : State) (v : Nat) (mask : Bool) : State := releasePba (s.setTarget v { s.target v with vmask := mask }) v

/-- MSIX_VECTOR_UNMASK: one vector's mask, or the function mask (R321, R354). -/
def msixUnmask (s : State) : Option (Fin 64) → State
  | some v => vectorMask s v false
  | none => msixControl s s.ic.msixEn false

def execMsixVectorUnmask (v : Option (Fin 64)) (s : State) : Host.Outcome State Fault Refusal := .next (msixUnmask s v)

/-! ## Writes of PEND, MASK and SENSE (R352, R353, R356) -/

/-- Change each of the 32 sources of word k by its bit of v, in ascending order. -/
def eachBit (s : State) (k : Nat) (v : Word) (f : Source → Bool → Source) : State :=
  (List.range 32).foldl (fun s j => s.setSource (32 * k + j) (f (s.source (32 * k + j)) (bitAt v.toNat j))) s

/-- PEND_WRITE: a level-sensed source whose line is 1 stays 1. -/
def pendWrite (s : State) (k : Nat) (v : Word) : State :=
  eachBit s k v fun x b => { x with pend := b || (x.sense == 0 && x.line) }

def execPendWrite (k : Fin 4) (v : Word) (s : State) : Host.Outcome State Fault Refusal :=
  .next (rowWrite s (0x20010 + 4 * k) fun s => pendWrite s k v)

/-- MASK_WRITE of the host's or the management side's mask word. -/
def maskWrite (s : State) (mpSide : Bool) (k : Nat) (v : Word) : State :=
  eachBit s k v fun x b => if mpSide then { x with maskMp := b } else { x with maskHost := b }

def execMaskWrite (mpSide : Bool) (k : Fin 4) (v : Word) (s : State) : Host.Outcome State Fault Refusal :=
  .next ((if mpSide then rowFirmware else rowWrite) s (0x20020 + 4 * k) fun s => maskWrite s mpSide k v)

/-- SENSE_CHANGE: to level sensing while the line stands at 1 sets pending and arms; nothing else moves. -/
def senseChange (s : State) (k : Nat) (sense : BitVec 2) : State :=
  let x := s.source k
  s.setSource k { x with sense := sense, pend := x.pend || (x.sense != 0 && sense == 0 && x.line) }

def execSenseChange (k : Fin 128) (sense : BitVec 2) (s : State) : Host.Outcome State Fault Refusal :=
  .next (rowWrite s (0x21000 + 16 * k) fun s => senseChange s k sense)

/-! ## TAKE and EOI (R355, R357) -/

/-- TAKE of an agent: TAKEN holds SRC and COUNT, the counter clears. -/
def takeCounter (s : State) (a : Agent) (k : Nat) : State :=
  let x := s.source k
  let s1 := s.putSource k { x with cnt := 0 }
  { s1 with ic := { s1.ic with taken := mset 0 s1.ic.taken (agentNo a) (packW [(8, k), (0, x.cnt.toNat)]) } }

def execTake (a : Agent) (k : Fin 128) (s : State) : Host.Outcome State Fault Refusal :=
  .next (rowAccess s a 0x20040 true fun s => takeCounter s a k)

/-- Is the agent the host function? -/
def isHost : Agent → Bool
  | .host _ => true
  | _ => false

/-- EOI: a write of 1 pops the stack; on an MP target it is locked against the host. -/
def eoi (s : State) (a : Agent) (t : Nat) (v : Bool) : State :=
  let x := s.target t
  if !v then s
  else if 64 ≤ t && isHost a then locked s a (0x2200C + 0x10 * t)
  else
    match x.stack with
    | [] => event (s.setTarget t { x with eoierr := satInc x.eoierr }) 0x0F06
    | _ :: r => s.setTarget t { x with stack := r, mpLine := x.mpLine && !r.isEmpty }

def execEoi (a : Agent) (t : Fin 68) (v : Bool) (s : State) : Host.Outcome State Fault Refusal :=
  .next (rowAccess s a (0x2200C + 0x10 * t) true fun s => eoi s a t v)

end Sys2Proof.Machine
end

