-- ==== Sys2Proof/Machine/Mailbox.lean ====
section
/-! DEFINITION. The mailboxes (16, R344-R349): words written and removed, the sender's stamp, PEER, and messages to and from the
links. -/

namespace Sys2Proof.Machine

/-! ## Queues -/

/-- Words of a queue that are neither held nor reserved (R346). -/
def MboxQ.freeWords (q : MboxQ) : Nat := 16 - (q.words.length + q.part.length + q.left)

/-- LEN of a header. -/
def hdrLen (w : Word) : Nat := bits w.toNat 24 4

/-- TYPE of a header. -/
def hdrType (w : Word) : Nat := bits w.toNat 16 8

/-- MSEQ of a header. -/
def hdrSeq (w : Word) : BitVec 16 := w.truncate 16

/-- A header with the SENDER that the device writes (R346). -/
def stampSender (w : Word) (code : Nat) : Word := packW [(0, bits w.toNat 0 28), (28, code)]

/-- Words of the head message, its header at the head. -/
def MboxQ.headWords (q : MboxQ) : Nat :=
  match q.words with
  | [] => 0
  | h :: _ => 1 + hdrLen h.w

/-- The sender code of an agent (Table IRQ-1). -/
def senderCode : Agent → Nat
  | .host _ => 0
  | .mp c => 1 + c.val
  | .dbg => 15

/-- A queue of a mailbox: inbound towards firmware, or outbound. -/
def Mbox.queue (x : Mbox) (inb : Bool) : MboxQ := if inb then x.inq else x.outq
def Mbox.setQueue (x : Mbox) (inb : Bool) (q : MboxQ) : Mbox := if inb then { x with inq := q } else { x with outq := q }

/-- A header comes to the head of the outbound queue: the parity of its whole message is checked (R349). -/
def headArrives (s : State) (m : Nat) : State :=
  let x := s.mbox m
  if x.outq.words.isEmpty || x.outq.headLeft != 0 then s
  else
    let n := x.outq.headWords
    let s1 := s.setMbox m { x with outq := { x.outq with headLeft := n } }
    match (x.outq.words.take n).findIdx? fun w => !w.ok with
    | none => s1
    | some i =>
      event (s1.setMbox m { x with outq := { x.outq with headLeft := n }, perr := true }) 0x0F03 { srcid := m, detail := two i 0 }

/-! ## Whole or not at all (R346) -/

/-- A message refused for room. -/
def refuseMessage (s : State) (m : Nat) (inb : Bool) (sender : Nat) (h : Word) (skip : Nat) : State :=
  let x := s.mbox m
  let q := x.queue inb
  event (s.setMbox m { x.setQueue inb { q with skip := skip } with refused := true, dropRefused := satInc x.dropRefused }) 0x0F01
    { srcid := m, detail := two sender (hdrSeq h).toNat }

/-- A message from or to a party that PEER does not permit. -/
def rejectMessage (s : State) (m : Nat) (inb : Bool) (sender skip : Nat) : State :=
  let x := s.mbox m
  let q := x.queue inb
  event (s.setMbox m { x.setQueue inb { q with skip := skip, part := [], left := 0 } with dropRejected := satInc x.dropRejected }) 0x0F02
    { srcid := m, detail := two sender 0 }

/-- May a whole outbound message go to the party of a code: PEER permits it and its port is in UP, code 8 being the twin link, which
stands only while TW is PAIRED (R348, R379)? -/
def destOk (s : State) (m d : Nat) : Bool :=
  bitAt (s.mbox m).peer.toNat d &&
  (if d = 8 then s.twinLink s.tw.port.toNat && (s.port s.tw.port.toNat).isUp else if 9 ≤ d ∧ d ≤ 12 then (s.port (d - 9)).isUp else true)

/-- The last word of a message is in the queue: its reader sees it, or its party turns it away. -/
def finishMessage (s : State) (m : Nat) (inb : Bool) (sender : Nat) : State :=
  let x := s.mbox m
  let q := x.queue inb
  if !inb && !destOk s m x.partDest.toNat then rejectMessage s m inb sender 0
  else
    let q1 := { q with words := q.words ++ q.part, part := [] }
    let x1 := { x.setQueue inb q1 with outDests := if inb then x.outDests else x.outDests ++ [x.partDest] }
    if inb then s.setMbox m x1 else headArrives (s.setMbox m x1) m

/-- A word goes into the message being written. -/
def addWord (s : State) (m : Nat) (inb : Bool) (sender : Nat) (w : Word) (left : Nat) : State :=
  let x := s.mbox m
  let q := x.queue inb
  let s1 := s.setMbox m (x.setQueue inb { q with part := q.part ++ [{ w := w }], left := left })
  if left = 0 then finishMessage s1 m inb sender else s1

/-- A word written to a queue. -/
def putWord (s : State) (m : Nat) (inb : Bool) (sender : Nat) (allowed : Bool) (w : Word) : State :=
  let x := s.mbox m
  let q := x.queue inb
  if 0 < q.skip then s.setMbox m (x.setQueue inb { q with skip := q.skip - 1 })
  else if 0 < q.left then addWord s m inb sender w (q.left - 1)
  else if !allowed then rejectMessage s m inb sender (hdrLen w)
  else if q.freeWords < hdrLen w + 1 then refuseMessage s m inb sender w (hdrLen w)
  else addWord (s.setMbox m { x with refused := false, partDest := if inb then x.partDest else x.dest }) m inb sender
    (stampSender w sender) (hdrLen w)

/-- MAILBOX_TX_WRITE: the host and the debug port write towards firmware, a management core towards the peer. -/
def mailboxTx (s : State) (a : Agent) (m : Nat) (w : Word) : State :=
  match a with
  | .host _ =>
    if bitAt (s.mbox m).peer.toNat 0 then putWord s m true 0 true w else locked s a (0x30000 + 0x40 * m)
  | .dbg => putWord s m true 15 (bitAt (s.mbox m).peer.toNat 15) w
  | .mp c => putWord s m false (1 + c.val) true w

def execMailboxTxWrite (a : Agent) (m : Fin 8) (w : Word) (s : State) : Host.Outcome State Fault Refusal :=
  .next (rowAccess s a (0x30000 + 0x40 * m) true fun s => mailboxTx s a m w)

/-! ## Removal (R349) -/

/-- Remove the head word of the outbound queue. -/
def popOut (s : State) (m : Nat) : State :=
  let x := s.mbox m
  if x.outq.words.isEmpty then s
  else
    let n := x.outq.headLeft - 1
    let s1 := s.setMbox m { x with
      outq := { x.outq with words := x.outq.words.drop 1, headLeft := n }
      perr := x.perr && n != 0
      outDests := if n = 0 then x.outDests.drop 1 else x.outDests }
    if n = 0 then headArrives s1 m else s1

/-- Remove the head word of the inbound queue. -/
def popIn (s : State) (m : Nat) : State :=
  let x := s.mbox m
  if x.inq.words.isEmpty then s
  else
    let n := if x.inq.headLeft = 0 then x.inq.headWords else x.inq.headLeft
    s.setMbox m { x with inq := { x.inq with words := x.inq.words.drop 1, headLeft := n - 1 } }

/-- Do something n times. -/
def times (n : Nat) (f : State → State) (s : State) : State := (List.range n).foldl (fun s _ => f s) s

/-- MAILBOX_POP: N words, or every word held; a management core removes from the inbound queue. -/
def mailboxPop (s : State) (a : Agent) (m n : Nat) : State :=
  match a with
  | .mp _ => times n (fun s => popIn s m) s
  | _ => times n (fun s => popOut s m) s

def execMailboxPop (a : Agent) (m : Fin 8) (n : BitVec 5) (s : State) : Host.Outcome State Fault Refusal :=
  .next (rowAccess s a (0x30008 + 0x40 * m) true fun s => mailboxPop s a m n.toNat)

/-! ## PEER (R344) -/

/-- Is a PEER mask one that the device takes? -/
def peerOk (v : BitVec 16) : Bool := (!bitAt v.toNat 0 || v == 1) && v &&& 0x60FE == 0

/-- PEER_WRITE. -/
def peerWrite (s : State) (m : Nat) (v : BitVec 16) : State := if peerOk v then s.setMbox m { s.mbox m with peer := v } else s

def execPeerWrite (m : Fin 8) (v : BitVec 16) (s : State) : Host.Outcome State Fault Refusal :=
  .next (rowFirmware s (0x30010 + 0x40 * m) fun s => peerWrite s m v)

/-! ## Links (R347, R348) -/

/-- The port that a sender code names. -/
def portOfCode (s : State) (d : Nat) : Option Nat :=
  if d = 8 then (if s.paired then some s.tw.port.toNat else none) else if 9 ≤ d ∧ d ≤ 12 then some (d - 9) else none

/-- MESSAGE_FORWARD: the head outbound message goes over the port that its DEST names; a message of bad parity is discarded. -/
def messageForward (s : State) (m : Nat) : State :=
  let x := s.mbox m
  let n := x.outq.headWords
  match x.outDests.head?.bind fun d => portOfCode s d.toNat with
  | none => s
  | some p =>
    if x.outq.headLeft = n && 0 < n && (s.port p).isUp then
      let s1 := if x.perr then s
        else s.setPort p (sendSeq s.devTime (s.port p) (.msg ((x.outq.words.take n).map fun w => w.w)))
      times n (fun s => popOut s m) s1
    else s

def execMessageForward (m : Fin 8) (s : State) : Host.Outcome State Fault Refusal := .next (messageForward s m)

/-- A message that arrived on a link with a sender code: the lowest mailbox that permits it takes it whole (R347). -/
def linkMessage (s : State) (code : Nat) (ws : List Word) : State :=
  match ws with
  | [] => s
  | h :: _ =>
    match (List.range 8).find? fun m => bitAt (s.mbox m).peer.toNat code with
    | none => event s 0x0F02 { detail := two code 0 }
    | some m =>
      let x := s.mbox m
      if x.inq.freeWords < hdrLen h + 1 then refuseMessage s m true code h x.inq.skip
      else
        let body := (ws.drop 1 ++ List.replicate 15 0).take (hdrLen h)
        let new := (stampSender h code :: body).map fun w => ({ w := w } : MboxWord)
        s.setMbox m { x with inq := { x.inq with words := x.inq.words ++ new }, refused := false }

end Sys2Proof.Machine
end

