-- ==== Sys2Proof/Machine/Crypto.lean ====
section
/-! DEFINITION. The two standards that R423 names: SHA-384 (FIPS 180-4) and ECDSA over brainpoolP384r1 (RFC 5639). The spec restates
neither; their constants and steps are the standards' own (PRESUMED, log entry 2). -/

namespace Sys2Proof.Crypto

/-! ## SHA-384 -/

/-- A 64-bit word of SHA-384. -/
abbrev Word64 := BitVec 64

/-- The eight words of the hash state. -/
structure HashState where
  (a b c d e f g h : Word64)
deriving DecidableEq, Repr

/-- The initial hash value. -/
def initial : List Word64 :=
  [0xcbbb9d5dc1059ed8, 0x629a292a367cd507, 0x9159015a3070dd17, 0x152fecd8f70e5939,
   0x67332667ffc00b31, 0x8eb44a8768581511, 0xdb0c2e0d64f98fa7, 0x47b5481dbefa4fa4]

/-- The constants of the eighty rounds. -/
def roundK : List Word64 :=
  [0x428a2f98d728ae22, 0x7137449123ef65cd, 0xb5c0fbcfec4d3b2f, 0xe9b5dba58189dbbc,
   0x3956c25bf348b538, 0x59f111f1b605d019, 0x923f82a4af194f9b, 0xab1c5ed5da6d8118] ++
  [0xd807aa98a3030242, 0x12835b0145706fbe, 0x243185be4ee4b28c, 0x550c7dc3d5ffb4e2,
   0x72be5d74f27b896f, 0x80deb1fe3b1696b1, 0x9bdc06a725c71235, 0xc19bf174cf692694] ++
  [0xe49b69c19ef14ad2, 0xefbe4786384f25e3, 0x0fc19dc68b8cd5b5, 0x240ca1cc77ac9c65,
   0x2de92c6f592b0275, 0x4a7484aa6ea6e483, 0x5cb0a9dcbd41fbd4, 0x76f988da831153b5] ++
  [0x983e5152ee66dfab, 0xa831c66d2db43210, 0xb00327c898fb213f, 0xbf597fc7beef0ee4,
   0xc6e00bf33da88fc2, 0xd5a79147930aa725, 0x06ca6351e003826f, 0x142929670a0e6e70] ++
  [0x27b70a8546d22ffc, 0x2e1b21385c26c926, 0x4d2c6dfc5ac42aed, 0x53380d139d95b3df,
   0x650a73548baf63de, 0x766a0abb3c77b2a8, 0x81c2c92e47edaee6, 0x92722c851482353b] ++
  [0xa2bfe8a14cf10364, 0xa81a664bbc423001, 0xc24b8b70d0f89791, 0xc76c51a30654be30,
   0xd192e819d6ef5218, 0xd69906245565a910, 0xf40e35855771202a, 0x106aa07032bbd1b8] ++
  [0x19a4c116b8d2d0c8, 0x1e376c085141ab53, 0x2748774cdf8eeb99, 0x34b0bcb5e19b48a8,
   0x391c0cb3c5c95a63, 0x4ed8aa4ae3418acb, 0x5b9cca4f7763e373, 0x682e6ff3d6b2b8a3] ++
  [0x748f82ee5defb2fc, 0x78a5636f43172f60, 0x84c87814a1f0ab72, 0x8cc702081a6439ec,
   0x90befffa23631e28, 0xa4506cebde82bde9, 0xbef9a3f7b2c67915, 0xc67178f2e372532b] ++
  [0xca273eceea26619c, 0xd186b8c721c0c207, 0xeada7dd6cde0eb1e, 0xf57d4f7fee6ed178,
   0x06f067aa72176fba, 0x0a637dc5a2c898a6, 0x113f9804bef90dae, 0x1b710b35131c471b] ++
  [0x28db77f523047d84, 0x32caab7b40c72493, 0x3c9ebe0a15c9bebc, 0x431d67c49c100d4c,
   0x4cc5d4becb3e42b6, 0x597f299cfc657e2a, 0x5fcb6fab3ad6faec, 0x6c44198c4a475817]

def bigSigma0 (x : Word64) : Word64 := x.rotateRight 28 ^^^ x.rotateRight 34 ^^^ x.rotateRight 39
def bigSigma1 (x : Word64) : Word64 := x.rotateRight 14 ^^^ x.rotateRight 18 ^^^ x.rotateRight 41
def smallSigma0 (x : Word64) : Word64 := x.rotateRight 1 ^^^ x.rotateRight 8 ^^^ x >>> 7
def smallSigma1 (x : Word64) : Word64 := x.rotateRight 19 ^^^ x.rotateRight 61 ^^^ x >>> 6
def choose (x y z : Word64) : Word64 := (x &&& y) ^^^ (~~~x &&& z)
def majority (x y z : Word64) : Word64 := (x &&& y) ^^^ (x &&& z) ^^^ (y &&& z)

/-- One round with its constant and schedule word. -/
def round (s : HashState) (k w : Word64) : HashState :=
  let t1 := s.h + bigSigma1 s.e + choose s.e s.f s.g + k + w
  let t2 := bigSigma0 s.a + majority s.a s.b s.c
  { a := t1 + t2, b := s.a, c := s.b, d := s.c, e := s.d + t1, f := s.e, g := s.f, h := s.g }

/-- The schedule word after the sixteen in force. -/
def nextWord (ws : List Word64) : Word64 :=
  smallSigma1 (ws.getD 14 0) + ws.getD 9 0 + smallSigma0 (ws.getD 1 0) + ws.getD 0 0

/-- The rounds, the sixteen schedule words in force sliding along. -/
def rounds : List Word64 → List Word64 → HashState → HashState
  | [], _, s => s
  | k :: ks, ws, s => rounds ks (ws.drop 1 ++ [nextWord ws]) (round s k (ws.headD 0))

/-- A list of eight words as a hash state, and back. -/
def stateOf (l : List Word64) : HashState :=
  { a := l.getD 0 0, b := l.getD 1 0, c := l.getD 2 0, d := l.getD 3 0, e := l.getD 4 0, f := l.getD 5 0, g := l.getD 6 0, h := l.getD 7 0 }
def HashState.words (s : HashState) : List Word64 := [s.a, s.b, s.c, s.d, s.e, s.f, s.g, s.h]

/-- A big-endian number of bytes. -/
def beValue (bs : List Byte) : Nat := bs.foldl (fun n b => n * 256 + b.toNat) 0

/-- The n bytes of a number, big-endian. -/
def beBytes : Nat → Nat → List Byte
  | 0, _ => []
  | n + 1, v => beBytes n (v / 256) ++ [BitVec.ofNat 8 v]

/-- The sixteen words of a block of 128 bytes. -/
def blockWords (bs : List Byte) : List Word64 := (List.range 16).map fun i => BitVec.ofNat 64 (beValue ((bs.drop (8 * i)).take 8))

/-- The hash value after n blocks of bytes. -/
def blocks : Nat → List Byte → List Word64 → List Word64
  | 0, _, h => h
  | n + 1, bs, h =>
    blocks n (bs.drop 128) (List.zipWith (· + ·) h (rounds roundK (blockWords (bs.take 128)) (stateOf h)).words)

/-- The padding: a 1 bit, zeros, and the length in bits as a 128-bit number. -/
def padded (bs : List Byte) : List Byte :=
  bs ++ [0x80#8] ++ List.replicate ((239 - bs.length % 128) % 128) 0 ++ beBytes 16 (8 * bs.length)

/-- SHA-384: the first six words of the last hash value. -/
def sha384 (bs : List Byte) : List Byte :=
  ((blocks ((padded bs).length / 128) (padded bs) initial).take 6).flatMap fun w => beBytes 8 w.toNat

/-! ## The curve -/

def curveP : Nat := 0x8CB91E82A3386D280F5D6F7E50E641DF152F7109ED5456B412B1DA197FB71123ACD3A729901D1A71874700133107EC53
def curveA : Nat := 0x7BC382C63D8C150C3C72080ACE05AFA0C2BEA28E4FB22787139165EFBA91F90F8AA5814A503AD4EB04A8C7DD22CE2826
def curveB : Nat := 0x04A8C7DD22CE28268B39B55416F0447C2FB77DE107DCD2A62E880EA53EEB62D57CB4390295DBC9943AB78696FA504C11
def curveGx : Nat := 0x1D1C64F068CF45FFA2A63A81B7C13F6B8847A3E77EF14FE3DB7FCAFE0CBD10E8E826E03436D646AAEF87B2E247D4AF1E
def curveGy : Nat := 0x8ABE1D7520F9C2A45CB1EB8E95CFD55262B70B29FEEC5864E19C054FF99129280E4646217791811142820341263C5315

/-- The order of the base point. -/
def curveN : Nat := 0x8CB91E82A3386D280F5D6F7E50E641DF152F7109ED5456B31F166E6CAC0425A7CF3AB6AF6B7FC3103B883202E9046565

/-- A point in Jacobian coordinates: (x / z², y / z³), the point at infinity where z is 0. -/
structure Point where
  x : Nat := 1
  y : Nat := 1
  z : Nat := 0
deriving DecidableEq, Repr

/-- A difference modulo p. -/
def subP (a b : Nat) : Nat := (a + (curveP - b % curveP)) % curveP

/-- A point added to itself. -/
def Point.double (q : Point) : Point :=
  if q.z = 0 ∨ q.y = 0 then {}
  else
    let y2 := q.y * q.y % curveP
    let s := 4 * (q.x * y2) % curveP
    let z2 := q.z * q.z % curveP
    let m := (3 * (q.x * q.x) + curveA * (z2 * z2 % curveP)) % curveP
    let x := subP (m * m % curveP) (2 * s)
    { x := x, y := subP (m * subP s x) (8 * (y2 * y2)), z := 2 * (q.y * q.z) % curveP }

/-- The sum of two points. -/
def Point.add (q r : Point) : Point :=
  if q.z = 0 then r
  else if r.z = 0 then q
  else
    let qz2 := q.z * q.z % curveP
    let rz2 := r.z * r.z % curveP
    let u1 := q.x * rz2 % curveP
    let u2 := r.x * qz2 % curveP
    let s1 := q.y * (rz2 * r.z % curveP) % curveP
    let s2 := r.y * (qz2 * q.z % curveP) % curveP
    if u1 = u2 then (if s1 = s2 then q.double else {})
    else
      let h := subP u2 u1
      let h2 := h * h % curveP
      let h3 := h * h2 % curveP
      let d := subP s2 s1
      let v := u1 * h2 % curveP
      let x := subP (d * d) (h3 + 2 * v)
      { x := x, y := subP (d * subP v x) (s1 * h3), z := h * (q.z * r.z % curveP) % curveP }

/-- The low n bits of k, most significant first: doubling and adding. -/
def Point.mulBits (q : Point) (k : Nat) : Nat → Point → Point
  | 0, acc => acc
  | n + 1, acc =>
    let d := acc.double
    Point.mulBits q k n (if k.testBit n then d.add q else d)

/-- A multiple of a point. -/
def Point.mul (q : Point) (k : Nat) : Point := q.mulBits k 384 {}

/-- A power modulo m: the low n bits of e, most significant first. -/
def powBits (a e m : Nat) : Nat → Nat → Nat
  | 0, acc => acc
  | n + 1, acc =>
    let d := acc * acc % m
    powBits a e m n (if e.testBit n then d * a % m else d)

/-- The inverse modulo a prime of 384 bits. -/
def inverse (a m : Nat) : Nat := powBits (a % m) (m - 2) m 384 1

/-- The affine coordinates of a point other than the one at infinity. -/
def Point.affineX (q : Point) : Nat :=
  let i := inverse q.z curveP
  q.x * (i * i % curveP) % curveP
def Point.affineY (q : Point) : Nat :=
  let i := inverse q.z curveP
  q.y * (i * i % curveP * i % curveP) % curveP

def basePoint : Point := { x := curveGx, y := curveGy, z := 1 }

/-- Is (x, y) a point on the curve, in the coordinates of the field? -/
def onCurve (x y : Nat) : Bool :=
  decide (x < curveP) && decide (y < curveP) && y * y % curveP == (x * x * x + curveA * x + curveB) % curveP

/-! ## ECDSA -/

/-- R423 steps 1, 3 and 4 for a public key of 97 bytes, a digest, r and s. -/
def verify (key digest r s : List Byte) : Bool :=
  let x := beValue ((key.drop 1).take 48)
  let y := beValue (key.drop 49)
  let rn := beValue r
  let sn := beValue s
  let w := inverse sn curveN
  let q := (basePoint.mul (beValue digest * w % curveN)).add (({ x := x, y := y, z := 1 } : Point).mul (rn * w % curveN))
  key.length == 97 && key.headD 0 == 4 && onCurve x y &&
  decide (1 ≤ rn) && decide (rn < curveN) && decide (1 ≤ sn) && decide (sn < curveN) &&
  q.z != 0 && q.affineX % curveN == rn

/-- The signature r and s, 96 bytes, of a digest under a private scalar, with the number k that a signer draws for it. -/
def sign (d k : Nat) (digest : List Byte) : List Byte :=
  let r := (basePoint.mul k).affineX % curveN
  beBytes 48 r ++ beBytes 48 (inverse k curveN * (beValue digest + r * d) % curveN)

/-- The public key of a private scalar, 97 bytes. -/
def publicKey (d : Nat) : List Byte :=
  let q := basePoint.mul d
  0x04#8 :: (beBytes 48 q.affineX ++ beBytes 48 q.affineY)

end Sys2Proof.Crypto
end

