-- ==== Sys2Proof/Machine/Security.lean ====
section
/-! DEFINITION. Security (20, R423-R430): signature checks, fuses, signed requests, nonces, the debug port. SHA-384 and ECDSA stand in
Machine/Crypto.lean (log entry 2). -/

namespace Sys2Proof.Machine

/-! ## Signatures (R423) -/

/-- A 48-byte big-endian integer. -/
def beNat (bs : List Byte) : BitVec 384 := BitVec.ofNat 384 (leNat bs.reverse)

/-- The SHA-384 hash of bytes, byte 0 lowest. -/
def hashOf (bs : List Byte) : BitVec 384 := BitVec.ofNat 384 (leNat (Crypto.sha384 bs))

/-- The 48 bytes of a hash, byte 0 first. -/
def hashBytes (h : BitVec 384) : List Byte := natLe 48 h.toNat

/-- R423: a 97-byte key that is a point on the curve and whose hash is the one required, and a signature over a digest. -/
def sigPasses (key : List Byte) (required digest : BitVec 384) (r s : List Byte) : Bool :=
  key.length == 97 && hashOf key == required && Crypto.verify key (hashBytes digest) r s

/-! ## Fuses (R425, R427, Table SEC-3) -/

/-- Where a slot's hash, PROG and REV, and the two counters stand among the fuse bits. -/
def hashBit (k : Nat) : Nat := 384 * k
def progBit (k : Nat) : Nat := 1536 + k
def revBit (k : Nat) : Nat := 1540 + k
def fwBit : Nat := 1544
def imgBit : Nat := 1608

/-- The hash that a slot holds. -/
def slotHash (f : Fuses) (k : Nat) : BitVec 384 := f.shadow.extractLsb' (hashBit k) 384

/-- A slot whose hash area has a blown bit while PROG is 0 is damaged (R427). -/
def slotDamaged (f : Fuses) (k : Nat) : Bool := !f.shadow.getLsbD (progBit k) && slotHash f k != 0

/-- Does a slot read as programmed; as revoked? -/
def slotProg (f : Fuses) (k : Nat) : Bool := f.shadow.getLsbD (progBit k) || slotDamaged f k
def slotRev (f : Fuses) (k : Nat) : Bool := f.shadow.getLsbD (revBit k) || slotDamaged f k

/-- The bits of a counter that are not blown, lowest first: its 64 bits stand from bit b on. -/
def unblown (f : Fuses) (b : Nat) : List Nat := ((List.range 64).map (b + ·)).filter fun i => !f.shadow.getLsbD i

/-- The value of a counter: the number of bits blown, 0 to 64. -/
def counterOf (f : Fuses) (b : Nat) : Nat := 64 - (unblown f b).length
def Fuses.arbFw (f : Fuses) : Nat := counterOf f fwBit
def Fuses.arbImg (f : Fuses) : Nat := counterOf f imgBit

/-- Toggle a bit of a list of them. -/
def toggleAt : List Bool → Nat → List Bool
  | [], _ => []
  | b :: r, 0 => (!b) :: r
  | b :: r, i + 1 => b :: toggleAt r i

/-- A value bit blown: both of its fuses, and the shadow with its parity. -/
def blow (f : Fuses) (i : Nat) : Fuses :=
  let m : BitVec 1672 := BitVec.ofNat 1672 (2 ^ i)
  { bank0 := f.bank0 ||| m, bank1 := f.bank1 ||| m, shadow := f.shadow ||| m
    par := if f.shadow.getLsbD i then f.par else toggleAt f.par (i / 8) }

/-- The fuses sensed anew into the shadow. -/
def resense (f : Fuses) : Fuses := { bank0 := f.bank0, bank1 := f.bank1 }

/-- Is a slot programmed and unrevoked? -/
def slotGood (f : Fuses) (k : Nat) : Bool := slotProg f k && !slotRev f k

/-! ## Signed requests (R426, Tables SEC-4 and SEC-5) -/

/-- The 320 bytes of SEC_REQBUF. -/
def reqBytes (s : State) : List Byte := (List.range 80).flatMap fun k => natLe 4 (mget 0 s.sec.reqbuf k).toNat

def reqRop (b : List Byte) : Nat := numAt b 0 2
def reqSigner (b : List Byte) : Nat := numAt b 2 1
def reqTarget (b : List Byte) : Nat := numAt b 3 1
def reqHash (b : List Byte) : BitVec 384 := BitVec.ofNat 384 (numAt b 4 48)
def reqValue (b : List Byte) : Nat := numAt b 4 8
def reqNonce (b : List Byte) : BitVec 256 := BitVec.ofNat 256 (numAt b 52 32)
def reqKey (b : List Byte) : List Byte := slice b 112 97

/-- Is a request well formed? -/
def reqFormed (b : List Byte) : Bool :=
  decide (1 ≤ reqRop b) && decide (reqRop b ≤ 4) && (decide (reqSigner b ≤ 3) || reqSigner b == 0xFF) && decide (reqTarget b ≤ 3) &&
  zeroAt b 84 28 && zeroAt b 209 15 &&
  (match reqRop b with
   | 1 => true
   | 2 => zeroAt b 4 48
   | _ => zeroAt b 12 40)

/-- The hash that the signing key must have. -/
def reqRequired (f : Fuses) (b : List Byte) : BitVec 384 := if reqSigner b = 0xFF then reqHash b else slotHash f (reqSigner b)

/-- Does the request's signature pass? -/
def reqSigned (f : Fuses) (b : List Byte) : Bool :=
  sigPasses (reqKey b) (reqRequired f b) (hashOf (slice b 0 224)) (slice b 224 48) (slice b 272 48)

/-- Is the request authorised (Table SEC-5)? -/
def reqAuthorised (s : State) (b : List Byte) : Bool :=
  let f := s.sec.fuses
  let g := decide (reqSigner b ≤ 3) && slotGood f (reqSigner b)
  match reqRop b with
  | 1 => !slotProg f (reqTarget b) && (g || (reqSigner b == 0xFF && (List.range 4).all fun k => !slotProg f k))
  | 2 => g && !slotDamaged f (reqTarget b) && (List.range 4).any fun k => k != reqTarget b && slotGood f k
  | 3 => g && decide (f.arbImg < reqValue b) && decide (reqValue b ≤ 64)
  | _ => g && decide (f.arbFw < reqValue b) && decide (reqValue b ≤ 64) && decide (reqValue b ≤ s.sec.fwsvn.toNat)

/-- The burn of a request. -/
def reqBurn (b : List Byte) : Burn :=
  match reqRop b with
  | 1 => .prog (reqTarget b) (reqHash b)
  | 2 => .revoke (reqTarget b)
  | 3 => .img (reqValue b)
  | _ => .fw (reqValue b)

/-- A request ends with a result (R426). -/
def endRequest (s : State) (result : Nat) : State :=
  let code := if result = 0 then 0x0C04 else 0x0C03
  event { s with sec := { s.sec with reqResult := BitVec.ofNat 8 result, reqEvt := BitVec.ofNat 16 code, busy := false, burn := none } }
    code

/-- SEC runs the request in SEC_REQBUF; the nonce is consumed. -/
def runRequest (s : State) : State :=
  let b := reqBytes s
  let s1 := { s with sec := { s.sec with nonce := none } }
  if !reqFormed b then endRequest s1 4
  else if s.sec.nonce ≠ some (reqNonce b) then endRequest s1 1
  else if !reqSigned s.sec.fuses b then endRequest s1 2
  else if !reqAuthorised s b then endRequest s1 3
  else { s1 with sec := { s1.sec with busy := true, burn := some (reqBurn b) } }

/-- A write of GO = 1 with a request of this ROP. -/
def goWith (s : State) (rop : Nat) : State := if !s.sec.busy && reqRop (reqBytes s) == rop then runRequest s else s

def execProg (s : State) : Host.Outcome State Fault Refusal := .next (rowWrite s 0xC0060 fun s => goWith s 1)
def execRevoke (s : State) : Host.Outcome State Fault Refusal := .next (rowWrite s 0xC0060 fun s => goWith s 2)
def execAdvImg (s : State) : Host.Outcome State Fault Refusal := .next (rowWrite s 0xC0060 fun s => goWith s 3)
def execAdvFw (s : State) : Host.Outcome State Fault Refusal := .next (rowWrite s 0xC0060 fun s => goWith s 4)

/-- The value bits that a burn blows, in order: a hash from its lowest bit on (log entry 59), PROG and REV after everything else, a
counter upwards one bit at a time (R427). -/
def burnBits (f : Fuses) : Burn → List Nat
  | .prog k h => (((List.range 384).filter fun i => h.getLsbD i).map (hashBit k + ·)) ++ [progBit k]
  | .revoke k => [revBit k]
  | .img v => (unblown f imgBit).take (v - f.arbImg)
  | .fw v => (unblown f fwBit).take (v - f.arbFw)

/-- The fuses after a burn: whole, or broken off after n bits, one bit at least not blown (R427). -/
def burnt (f : Fuses) (b : Burn) (ok : Bool) (n : Nat) : Fuses :=
  let is := burnBits f b
  (if ok then is else is.take (min n (is.length - 1))).foldl blow f

/-- The burn ends with its read-back. -/
def burnEnds (s : State) (b : Burn) (ok : Bool) (bits : Nat) : State :=
  endRequest { s with sec := { s.sec with fuses := burnt s.sec.fuses b ok bits } } (if ok then 0 else 5)

/-! ## Nonces (R426) -/

/-- NONCE_DRAW: the read of SEC_NONCE0 draws a nonce, a free value, into the agent's own registers. -/
def nonceDraw (s : State) (a : Agent) : State :=
  let (v, s1) := s.drawFree
  { s1 with sec := { s1.sec with nonce := some v, nonceRegs := mset 0 s1.sec.nonceRegs (agentNo a) v }
            answer := .word (v.truncate 32) }

def execNonceDraw (a : Agent) (s : State) : Host.Outcome State Fault Refusal := .next (rowAccess s a 0xC0040 false fun s => nonceDraw s a)

/-! ## The debug port (R429, R430) -/

/-- DEBUG_CLOSE: closing an open port releases any halt. -/
def debugClose (s : State) : State :=
  if s.sec.open_ then event (withdrawHold { s with sec := { s.sec with open_ := false } } 5) 0x0C07 else s

def execDebugClose (s : State) : Host.Outcome State Fault Refusal := .next (debugClose s)

/-- DEBUG_HALT: the open port halts the machine, or lets it go. -/
def debugHalt (s : State) (halt : Bool) : State :=
  if !s.sec.open_ then s else if halt then requestHold s 5 else withdrawHold s 5

def execDebugHalt (halt : Bool) (s : State) : Host.Outcome State Fault Refusal := .next (debugHalt s halt)

/-- The shadow after the bits named have been upset. -/
def upset (v : BitVec 1672) (flips : List Nat) : BitVec 1672 := flips.foldl (fun v i => v ^^^ BitVec.ofNat 1672 (2 ^ i)) v

/-- FUSE_SELF_CHECK (R425): the shadow, of whose bits those named were upset since the last check, against its parity. -/
def fuseCheck (s : State) (flips : List Nat) : State :=
  let f := { s.sec.fuses with shadow := upset s.sec.fuses.shadow flips }
  let s1 := { s with sec := { s.sec with fuses := f } }
  if shadowParity f.shadow == f.par then s1 else event (debugClose s1) 0x0C09

def execFuseSelfCheck (flips : List Nat) (s : State) : Host.Outcome State Fault Refusal := .next (fuseCheck s flips)

/-! ## The JTAG port (R429) -/

/-- An instruction shifted into the TAP: the four that IEEE 1149.1 keeps open always, or any other. -/
inductive TapInstr where
  | bypass | idcode | samplePreload | extest
  | other (code : Nat)
deriving DecidableEq, Repr

/-- The instruction that the TAP carries out: every other one reads as BYPASS until the port is opened. -/
def tapSelects (s : State) (i : TapInstr) : TapInstr :=
  match i with
  | .other c => if s.sec.open_ then .other c else .bypass
  | i => i

/-- The signature of a response block over the challenge and SERIAL (R429). -/
def responseOk (s : State) (n : BitVec 256) (b : List Byte) : Bool :=
  let kind := numAt b 0 1
  let required := if kind = 0x10 then Config.vroot else slotHash s.sec.fuses kind
  zeroAt b 1 15 && zeroAt b 113 15 && (kind == 0x10 || (decide (kind ≤ 3) && slotGood s.sec.fuses kind)) &&
  sigPasses (slice b 16 97) required (hashOf (natLe 32 n.toNat ++ natLe 16 Config.serial.toNat)) (slice b 128 48) (slice b 176 48)

/-- KIND of SEC_DBG for a block's key kind. -/
def kindCode (k : Nat) : BitVec 4 := if k = 0x10 then 8 else BitVec.ofNat 4 k

/-- The verified response opens the port; a failed one is counted, three lock it. The challenge is consumed. -/
def openPort (s : State) (n : BitVec 256) (b : List Byte) : State × Bool :=
  let s1 := { s with sec := { s.sec with chal := none, chalParts := [], chalNext := 0 } }
  if responseOk s n b then
    (event { s1 with sec := { s1.sec with open_ := true, kind := kindCode (numAt b 0 1) } } 0x0C06, true)
  else
    let f := satInc s1.sec.fails
    (event { s1 with sec := { s1.sec with fails := f, locked := decide (3 ≤ f.toNat) } } 0x0C05, false)

end Sys2Proof.Machine
end

