-- ==== Sys2Proof/WellFormed.lean ====
section
/-! DEFINITION. Which commands can reach the device: the lengths their operands must have. -/

namespace Sys2Proof

/-- A read of host memory brings back exactly the bytes asked for (R329, R339). -/
def HostRead.wf (n : Nat) : HostRead → Bool
  | .ok bs => bs.length == n
  | .failed => true

/-- The bytes of what an access addresses (Table HST-2; a function's configuration space is 4 KiB). -/
def RegSpace.size : RegSpace → Nat
  | .bar0 => 0x4000000
  | .bar4 => 0x10000
  | .config => 0x1000
  | .msixControl => 4
  | .deviceControl => 4

/-- A register access lies in its space and names at least one doubleword (R432, R434). -/
def RegAccess.wf (a : RegAccess) : Bool := decide (a.offset < a.space.size) && decide (1 ≤ a.ndw) && decide (a.ndw ≤ 1024)

/-- Is a command well formed? -/
def Instr.wf : Instr → Bool
  | .commandFetch r => r.wf 64
  | .hostStreamFetch _ r => r.wf 32
  | .registerWrite a => a.wf
  | .loReadLatch a => a.wf
  | .bar2Read off len _ _ => decide (off + len ≤ 2 ^ 34) && decide (1 ≤ len) && decide (len ≤ 4096)
  | .bar2Write off bs _ _ => decide (off + bs.length ≤ 2 ^ 34) && decide (1 ≤ bs.length) && decide (bs.length ≤ 4096)
  | .tokenFrame _ _ _ ts => decide (1 ≤ ts.length) && decide (ts.length ≤ 12)
  | .msgFrame _ _ ws => decide (1 ≤ ws.length) && decide (ws.length ≤ 16)
  | .hello _ _ r _ => r.secmap.length == 16
  | .firmwareVerify f => !f.dirOk || decide (64 ≤ f.bytes.length)
  | _ => true

end Sys2Proof
end

