-- ==== Sys2Proof/Machine/Boot.lean ====
section
/-! DEFINITION. Resets (20, R416-R418; 21, Table MAP-4) and boot (R419-R422, R294), the PCI Express link (R320). -/

namespace Sys2Proof.Machine

/-! ## The PCI Express link (R320) -/

/-- What waited for the link or for Bus Master Enable is issued. -/
def flushMsix (s : State) : State :=
  if s.canRequest then
    let s1 := if s.hq.msixOut.isEmpty then s else writeBack s
    { s1 with hostOut := (s1.hq.msixOut.map (msixReq s1)).reverse ++ s1.hostOut, hq := { s1.hq with msixOut := [] } }
  else s

/-- LINK_DOWN without a reset. -/
def linkDown (s : State) : State := { s with hq := { s.hq with linkUp := false, lspeed := 0, lwidth := 0 } }

def execLinkDown (s : State) : Host.Outcome State Fault Refusal := .next (linkDown s)

/-- PCIE_LINK_UP: speed and width are what the partner negotiates, free among those of Table HST-1. -/
def pcieLinkUp (s : State) : State :=
  if s.hq.linkUp then s
  else
    let (v, s1) := s.drawFree
    flushMsix { s1 with hq := { s1.hq with
      linkUp := true, lspeed := BitVec.ofNat 4 (1 + v.toNat % 5), lwidth := BitVec.ofNat 4 (2 ^ (v.toNat / 5 % 3)) } }

def execPcieLinkUp (s : State) : Host.Outcome State Fault Refusal := .next (pcieLinkUp s)

/-- BUS_MASTER_ENABLE_CLEARED. -/
def bmeCleared (s : State) : State := { s with hq := { s.hq with bme := false } }

def execBusMasterEnableCleared (s : State) : Host.Outcome State Fault Refusal := .next (bmeCleared s)

/-- BUS_MASTER_ENABLE_SET. -/
def bmeSet (s : State) : State := flushMsix { s with hq := { s.hq with bme := true } }

def execBusMasterEnableSet (s : State) : Host.Outcome State Fault Refusal := .next (bmeSet s)

/-! ## FUNC reset (R320, Table MAP-4) -/

/-- A source's host-side bits at a FUNC reset. -/
def funcSource (x : Source) : Source := { x with maskHost := true, vec := 0 }

/-- A target at a FUNC reset: a vector target loses COAL, COMMIT, STACK, its mask and its PBA; an MP target stays. -/
def funcTarget (t : Nat) (x : Target) : Target := if t < 64 then {} else x

/-- A mailbox at a FUNC reset: with the host as peer its queues empty; kept MSEQ and reply stay. -/
def funcMbox (x : Mbox) : Mbox :=
  if bitAt x.peer.toNat 0 then { x with inq := {}, outq := {}, outDests := [], perr := false } else x

/-- The IC at a FUNC reset. -/
def funcIc (s : State) : State :=
  let s1 := (List.range 128).foldl (fun s k => s.putSource k (funcSource (s.source k))) s
  { s1 with ic := { s1.ic with tgt := mapAll {} s1.ic.tgt funcTarget, fmask := false, msixEn := false } }

/-- What a FUNC reset leaves of the host interface. -/
def funcHq (q : Hq) (up : Bool) : Hq :=
  { eseq := q.eseq, evlost := q.evlost, lostNow := q.lostNow, evq := q.evq, linkUp := q.linkUp && up
    lspeed := if up then q.lspeed else 0, lwidth := if up then q.lwidth else 0 }

/-- Does a trigger leave the link up? -/
def funcKeepsLink : FuncCause → Bool
  | .flr => true
  | .d3hot => true
  | _ => false

/-- FUNC_RESET. -/
def funcReset (s : State) (c : FuncCause) : State :=
  let s1 := if s.idle then s else event s 0x0208
  let s2 := funcIc s1
  let s3 := (List.range 8).foldl (fun s m => s.setMbox m (funcMbox (s.mbox m))) s2
  { s3 with
    hq := funcHq s3.hq (funcKeepsLink c)
    lk := { s3.lk with follow := none }
    tw := { s3.tw with pair := {} }
    sec := { s3.sec with nonce := none, chal := none, chalParts := [], chalNext := 0 }
    sels := s3.sels.filter fun p => 256 ≤ p.1 }

def execFuncReset (c : FuncCause) (s : State) : Host.Outcome State Fault Refusal := .next (funcReset s c)

/-! ## SYS and POR resets -/

/-- SEC_RSTCAUSE takes the cause of a SYS reset. -/
def markCause (x : Sec) : SysCause → Sec
  | .pin => { x with causePin := true }
  | .soft => { x with causeSoft := true }
  | .watchdog => { x with causeWdog := true }
  | .dbg => { x with causeDbg := true }

/-- SEC through a SYS reset: SEC_DBG, SEC_REQCTL and SEC_REQBUF reset, the nonce and the challenge expire, the cores are in ROM. -/
def sysSec (x : Sec) (c : SysCause) : Sec :=
  markCause { x with
    bootState := 0, romRunning := false, cores := 0, sram := [], open_ := false, kind := 0, locked := false, fails := 0, nonce := none, nonceRegs := []
    reqEvt := 0, reqResult := 0, busy := false, reqbuf := [], burn := none, sysWaits := none, chal := none, chalParts := []
    chalNext := 0 } c

/-- PWR through a SYS reset: COCNT, excluded sensors, the supply pins and the PD0 selection stay; with SYS_CLK25 running again the device
leaves the internal oscillator (R453). -/
def sysPwr (x : Pwr) : Pwr :=
  { cocnt := x.cocnt, excl := x.excl, aonB := x.aonB, aOk := x.aOk, bOk := x.bOk, aOkT := x.aOkT, selB := !x.aOk && x.bOk
    railsOk := x.railsOk, lnkRail := x.lnkRail, clkLost := x.clkLost, intOsc := x.clkLost, selfRefresh := true }

/-- PACE through a SYS reset: only a POR reset ends the state that 0x0C09 leaves (R417). The snapshot stays for a dump that is still to be
written (R395). -/
def sysPace (x : Pace) : Pace :=
  if x.needPor then { state := .aborted, abort := x.abort, fatal := true, needPor := true, snap := x.snap } else { snap := x.snap }

/-- The links through a SYS reset: frames already sent stay sent; LK_EPOCH stays. -/
def sysLk (x : Lk) : Lk := { ports := mapAll {} x.ports fun _ p => { sent := p.sent }, epoch := x.epoch }

/-- The latches of the HI registers that a SYS reset keeps: GLB_VIOL_ADDR_HI, LK_EPOCH_HI and TIME_HI (Table MAP-4). -/
def keptLatch (k : Nat) : Bool := k % 2 ^ 26 == 0x14 || k % 2 ^ 26 == 0x9000C || k % 2 ^ 26 == 0x10014

/-- The device right after a SYS reset (Tables SEC-1 and MAP-4). -/
def sysState (s : State) (c : SysCause) : State :=
  { pending := s.pending, devTime := s.devTime, timeOff := s.timeOff, pace := sysPace s.pace, hq := { eseq := s.hq.eseq }
    hostOut := s.hostOut, lk := sysLk s.lk, tw := { hblost := s.tw.hblost }, pwr := sysPwr s.pwr
    flt := s.flt, latches := s.latches.filter fun p => keptLatch p.1
    sec := sysSec s.sec c, mc := { mem := s.mc.mem, side := s.mc.side }
    glb := { violAddr := s.glb.violAddr, violSpace := s.glb.violSpace, violReq := s.glb.violReq, violCode := s.glb.violCode
             violCnt := s.glb.violCnt }
    free := s.free }

/-- The bit of SEC_RSTCAUSE for a cause. -/
def causeBit : SysCause → Nat
  | .pin => 2 | .soft => 3 | .watchdog => 4 | .dbg => 5

/-- The reset proper: a running task is announced, with the cause logged (Table SEC-7), an open debug port closes. -/
def sysNow (s : State) (c : SysCause) : State :=
  let s1 := debugClose s
  sysState (if s1.idle then s1 else event s1 0x0C0A { detail := two (2 ^ causeBit c) 0 }) c

/-- A SYS reset; one that falls due during a burn waits (R418). -/
def sysReset (s : State) (c : SysCause) : State :=
  if s.sec.burn.isSome then { s with sec := { s.sec with sysWaits := some c } } else sysNow s c

/-- SYS_RESET: the debug port commands one only while open. -/
def sysCommand (s : State) (c : SysCause) : State := if c = .dbg ∧ s.sec.open_ = false then s else sysReset s c

def execSysReset (c : SysCause) (s : State) : Host.Outcome State Fault Refusal := .next (sysCommand s c)

/-- SEC_RST_WRITE: KEY 0x5359 and LEVEL 0b01. -/
def secRst (s : State) (key : BitVec 16) (level : BitVec 2) : State := if key = 0x5359 ∧ level = 1 then sysReset s .soft else s

def execSecRstWrite (key : BitVec 16) (level : BitVec 2) (s : State) : Host.Outcome State Fault Refusal :=
  .next (rowWrite s 0xC001C fun s => secRst s key level)

def execManagementWatchdogExpiry (s : State) : Host.Outcome State Fault Refusal := .next (sysReset s .watchdog)

/-- BURN_COMPLETE (R427); a SYS reset that waited follows. -/
def burnComplete (s : State) (ok : Bool) (bits : Nat) : State :=
  match s.sec.burn with
  | none => s
  | some b =>
    let s1 := burnEnds s b ok bits
    match s.sec.sysWaits with
    | some c => sysNow s1 c
    | none => s1

def execBurnComplete (ok : Bool) (bits : Nat) (s : State) : Host.Outcome State Fault Refusal := .next (burnComplete s ok bits)

/-- The fuses sensed anew; a burn that a POR reset breaks off has blown some of its bits, how many is a free value (R418, R427). -/
def porFuses (s : State) : Fuses :=
  match s.sec.burn with
  | none => resense s.sec.fuses
  | some b => resense (burnt s.sec.fuses b false (s.drawFree.1.toNat % 512))

/-- PWR after a POR reset: the pins alone; SUP_SEL stays with R410, whatever PORST_N (R450). -/
def porPwr (x : Pwr) (r : RailView) : Pwr :=
  { aonB := x.aonB, aOk := x.aOk, bOk := x.bOk, aOkT := x.aOkT, selB := !x.aOk && x.bOk
    railsOk := r.needed, lnkRail := r.lnk, clkLost := x.clkLost, intOsc := x.clkLost }

/-- The rails as PORST_N rises. -/
def porRails : PorCause → RailView
  | .power r => r
  | .pin r => r

/-- A POR reset by PORST_N alone. -/
def porByPin : PorCause → Bool
  | .power _ => false
  | .pin _ => true

/-- The device right after a POR reset (Table SEC-1): fuses re-sensed; device time runs through a PORST_N reset (R50). -/
def porState (s : State) (c : PorCause) : State :=
  { pending := s.pending, hostOut := s.hostOut, free := s.drawFree.2.free
    devTime := if porByPin c then s.devTime else 0
    timeOff := if porByPin c then s.timeOff else 0
    pwr := porPwr s.pwr (porRails c)
    sec := { fuses := porFuses s, uart := s.sec.uart, causePwr := !porByPin c, causePor := porByPin c } }

def execPorReset (c : PorCause) (s : State) : Host.Outcome State Fault Refusal := .next (porState s c)

/-! ## Boot (R419-R422) -/

/-- BOOT_ROM_START: MP0 runs the ROM, which enables PD2; not where a rail was out of range as PORST_N rose (R450), nor while SYS_CLK25
stands still (R453; log entry 88). -/
def bootRom (s : State) : State :=
  if s.sec.bootState = 0 ∧ s.pwr.railsOk = true ∧ s.pwr.intOsc = false then
    { s with sec := { s.sec with romRunning := true, cores := 1 }, pwr := { s.pwr with domOn := putBit s.pwr.domOn 2 true } }
  else s

def execBootRomStart (s : State) : Host.Outcome State Fault Refusal := .next (bootRom s)

/-- L of a firmware copy. -/
def fwLen (b : List Byte) : Nat := numAt b 4 4

/-- Is the header of a firmware copy well formed (R421)? -/
def fwHeader (b : List Byte) : Bool :=
  numAt b 0 4 == 0x31465654 && fwLen b % 16 == 0 && decide (fwLen b ≤ 2097152) && zeroAt b 20 108 &&
  decide (128 + fwLen b + 256 ≤ b.length)

/-- Is a signature block well formed (R249)? -/
def sigBlock (b : List Byte) : Bool :=
  numAt b 0 4 == 0x31474953 && zeroAt b 5 11 && zeroAt b 113 15 && zeroAt b 224 32

/-- Is a firmware copy valid (R421)? -/
def fwValid (s : State) (b : List Byte) : Bool :=
  let n := 128 + fwLen b
  let sig := slice b n 256
  fwHeader b && sigBlock sig && numAt sig 4 1 == 0xFF && decide (s.sec.fuses.arbFw ≤ numAt b 12 8) &&
  sigPasses (slice sig 16 97) Config.vroot (hashOf (b.take n)) (slice sig 128 48) (slice sig 176 48)

/-- The boot fails with a CAUSE, which the console prints; the ROM halts (R422). -/
def bootFails (s : State) (cause : Nat) (rej : BitVec 2) : State :=
  { s with sec := { s.sec with
    bootState := 0xF, bootCause := BitVec.ofNat 8 cause, bootRej := rej, romRunning := false
    uart := s.sec.uart ++ [BitVec.ofNat 8 cause] } }

/-- Is the magic of the boot directory right (R420)? -/
def dirGood (flash : List Byte) : Bool := numAt flash 0 4 == 0x31425654

/-- The flash offset of a firmware copy: the directory's, or the default where its magic is wrong (R420). -/
def copyOffset (flash : List Byte) (copy1 : Bool) : Nat :=
  if dirGood flash then numAt flash (if copy1 then 8 else 4) 4 else if copy1 then 0x220000 else 0x10000

/-- A firmware copy: at most 128 + 2 MiB + 256 bytes from its offset (R421). -/
def copyOf (flash : List Byte) (copy1 : Bool) : List Byte := slice flash (copyOffset flash copy1) (128 + 2097152 + 256)

/-- The ROM loads a copy into the management SRAM and starts it on all four cores (R419). -/
def startCopy (s : State) (copy1 : Bool) (flash : List Byte) (rej : BitVec 2) : State :=
  let all := copyOf flash copy1
  let b := all.take (128 + fwLen all + 256)
  { s with sec := { s.sec with
    bootState := 1, bootCause := 0, bootCopy := copy1, bootRej := rej, romRunning := false, cores := 15, sram := b
    fwver := BitVec.ofNat 32 (numAt b 8 4), fwsvn := BitVec.ofNat 64 (numAt b 12 8), fwHash := hashOf b
    subVendor := BitVec.ofNat 16 (if dirGood flash then numAt flash 12 2 else 0)
    subId := BitVec.ofNat 16 (if dirGood flash then numAt flash 14 2 else 0) } }

/-- The ROM chooses among the copies: the greater FWSVN of the valid ones, copy 0 when equal (R421). -/
def chooseCopy (s : State) (flash : List Byte) : State :=
  let c0 := copyOf flash false
  let c1 := copyOf flash true
  let v0 := fwValid s c0
  let v1 := fwValid s c1
  let rej : BitVec 2 := BitVec.ofNat 2 (b2n (!v0) + 2 * b2n (!v1))
  if !v0 && !v1 then bootFails s 2 rej
  else startCopy s (v1 && (!v0 || decide (numAt c0 12 8 < numAt c1 12 8))) flash rej

/-- FIRMWARE_VERIFY: the ROM reads the flash by its SFDP tables and verifies both copies. -/
def firmwareVerify (s : State) (f : FlashView) : State :=
  if !s.sec.romRunning || s.sec.bootState != 0 then s
  else if !f.answering then bootFails s 3 0
  else
    match f.sfdp with
    | none => bootFails s 4 0
    | some p =>
      let s1 := { s with sec := { s.sec with flashRead := p } }
      if !f.dirOk then bootFails s1 1 0 else chooseCopy s1 f.bytes

def execFirmwareVerify (f : FlashView) (s : State) : Host.Outcome State Fault Refusal :=
  if (Instr.firmwareVerify f).wf then .next (firmwareVerify s f) else .fault .illFormed

/-- Is a configuration found at training supported (R289)? -/
def trainingOk (t : Training) : Bool := decide (1 ≤ t.pkgsz.toNat) && decide (t.pkgsz.toNat ≤ 4) && decide (1 ≤ t.ranks.toNat) && decide (t.ranks.toNat ≤ 2) && t.chok == 0xFF

/-- The lowest channel that does not work. -/
def lostChannel (chok : BitVec 8) : Nat := ((List.range 8).find? fun c => !bitAt chok.toNat c).getD 0

/-- LPDDR6 fails (R294). -/
def memoryFails (s : State) (chok : BitVec 8) : State :=
  event { s with mc := { s.mc with chok := chok, quiesced := true } } 0x0706 { srcid := lostChannel chok }

/-- FIRMWARE_READY: LPDDR6 is trained, STATE becomes 0x3 (R294, R419). -/
def firmwareReady (s : State) (t : Option Training) : State :=
  if s.sec.bootState ≠ 1 then s
  else
    match t with
    | none => memoryFails s 0
    | some t =>
      if !trainingOk t then memoryFails s t.chok
      else
        let s1 := event { s with
          mc := { s.mc with pkgsz := t.pkgsz, ranks := t.ranks, chok := t.chok, rate := s.pwr.mem, trained := true
                            ready := bits s.pwr.domOn.toNat 3 3 == 7 }
          pwr := { s.pwr with selfRefresh := false, memHeld := false }
          sec := { s.sec with bootState := 3 } } 0x0C01
        if s1.sec.bootRej = 0 then s1 else event s1 0x0C02

def execFirmwareReady (tr : Option Training) (s : State) : Host.Outcome State Fault Refusal := .next (firmwareReady s tr)

/-- CHANNEL_LOSS after training. -/
def channelLoss (s : State) (chok : BitVec 8) : State := if s.mc.trained && chok != 0xFF then memoryFails s chok else s

def execChannelLoss (chok : BitVec 8) (s : State) : Host.Outcome State Fault Refusal := .next (channelLoss s chok)

end Sys2Proof.Machine
end

