-- ==== Sys2Proof/Machine/Commit.lean ====
section
/-! DEFINITION. Commit groups (R8-R10): the checks and the application of each group of shadows (R66, R209, R288, R297, R313, R354,
R406), COMMIT_WRITE and COMMIT_APPLY. -/

namespace Sys2Proof.Machine

/-! ## Pending -/

/-- Is a group pending: its COMMIT register reads 1. -/
def groupPending (s : State) : CommitGroup → Bool
  | .pace => s.pace.pending
  | .nce => s.nce.pending
  | .se => s.se.pending
  | .ring k => (s.engine k).pending
  | .sp k => (s.sport k).pending
  | .tgt t => (s.target t).pending
  | .pwr => s.pwr.pending

/-- Mark a group pending, or not. -/
def setPending (s : State) (g : CommitGroup) (b : Bool) : State :=
  match g with
  | .pace => { s with pace := { s.pace with pending := b } }
  | .nce => { s with nce := { s.nce with pending := b } }
  | .se => { s with se := { s.se with pending := b } }
  | .ring k => s.setEngine k { s.engine k with pending := b }
  | .sp k => s.setSport k { s.sport k with pending := b }
  | .tgt t => s.setTarget t { s.target t with pending := b }
  | .pwr => { s with pwr := { s.pwr with pending := b } }

/-! ## Checks -/

/-- Are a ring's shadows ones that the device takes (R297)? -/
def ringGroupOk (s : State) (e : Engine) : Bool :=
  e.shSzl == 0 || (decide (16 ≤ e.shSzl.toNat) && e.shRbase.toNat % 4096 == 0 && decide (e.shRbase.toNat + 2 ^ e.shSzl.toNat ≤ taskTop s))

/-- Are a view's watermarks ones that the port takes (R313)? -/
def marksOk (v : SpView) : Bool := decide (v.shLwm.toNat < v.shHwm.toNat) && decide (v.shHwm.toNat ≤ 8192)

/-- Are the shadows of PWR ones that it takes (R406)? -/
def capOk (p : Pwr) : Bool :=
  decide (35 ≤ p.shCap.toNat) && decide (p.shCap.toNat ≤ 190) && p.shHyst != 0 && decide (p.shHyst.toNat + 35 < p.shCap.toNat)

/-- The event that refuses a group's shadows, none where they are in order. -/
def groupRefusal (s : State) : CommitGroup → Option (Nat × EvArgs)
  | .pace => if paceOk s.pace.shadow then none else some (0x0D01, {})
  | .nce => none
  | .se => if s.se.shRd.toNat + s.se.shWr.toNat + s.se.shRem.toNat ≤ 64 then none else some (0x0707, {})
  | .ring k => if ringGroupOk s (s.engine k) then none else some (0x0707, { srcid := k })
  | .sp k => if marksOk (s.sport k).v0 && marksOk (s.sport k).v1 then none else some (0x0807, { srcid := k })
  | .tgt t => if (s.target t).shCnt != 0 && (s.target t).shTime != 0 then none else some (0x0F05, {})
  | .pwr => if capOk s.pwr then none else some (0x0B0D, {})

/-! ## Application -/

/-- A view takes its watermarks. -/
def SpView.takeMarks (v : SpView) : SpView := { v with lwm := v.shLwm, hwm := v.shHwm }

/-- Every shadow of a group becomes active. -/
def copyGroup (s : State) : CommitGroup → State
  | .pace => { s with pace := { s.pace with act := s.pace.shadow } }
  | .nce => { s with nce := { s.nce with ffbank := s.nce.shFfbank, ffen := s.nce.shFfen } }
  | .se => { s with se := { s.se with rd := s.se.shRd, wr := s.se.shWr, rem := s.se.shRem } }
  | .ring k =>
    let e := s.engine k
    s.setEngine k { e with rbase := e.shRbase, szl := e.shSzl, full := e.shFull, rwp := 0, rrp := 0 }
  | .sp k =>
    let p := s.sport k
    s.setSport k ({ p with v0 := p.v0.takeMarks, v1 := p.v1.takeMarks }.refresh s.portsLive)
  | .tgt t => s.setTarget t { s.target t with time := (s.target t).shTime, cnt := (s.target t).shCnt }
  | .pwr =>
    let s1 := { s with pwr := { s.pwr with hyst := s.pwr.shHyst, cap := s.pwr.shCap, floor := s.pwr.shFloor } }
    governor s1 s1.pwr.lastWin

/-- The application of a pending group: refused with its event, or all of it copied; COMMIT reads 0. -/
def applyGroup (s : State) (g : CommitGroup) : State :=
  match groupRefusal s g with
  | some (code, a) => event (setPending s g false) code a
  | none => copyGroup (setPending s g false) g

/-- Is a list of engine k in progress? -/
def listRuns (s : State) (k : Nat) : Bool :=
  let e := s.engine k
  !s.idle && ((e.hasRead && tokensLeft e != some 0) || (writeDesc e).isSome)

/-- Is the block of a group idle (R9 and the chapter of each group)? -/
def groupIdle (s : State) : CommitGroup → Bool
  | .se => byDeadline s
  | .ring k => !listRuns s k
  | .tgt t => (s.target t).waiting == 0 || s.idle || s.pace.state == .stopped || s.pace.state == .aborted
  | _ => s.idle

/-- Every commit group (R9). -/
def commitGroups : List CommitGroup :=
  [.pace, .nce, .se] ++ (List.range 16).map (fun k => .ring (Fin.ofNat 16 k)) ++ (List.range 8).map (fun k => .sp (Fin.ofNat 8 k)) ++
  (List.range 68).map (fun t => .tgt (Fin.ofNat 68 t)) ++ [.pwr]

/-- A step boundary: every pending group is applied (R9). -/
def applyBoundary (s : State) : State := commitGroups.foldl (fun s g => if groupPending s g then applyGroup s g else s) s

/-- COMMIT_WRITE of 1: the group is pending, and applied at once where its block is idle. -/
def commitWrite (s : State) (g : CommitGroup) : State :=
  if groupPending s g then s
  else
    let s1 := setPending s g true
    if groupIdle s1 g then applyGroup s1 g else s1

/-- The offset of a group's COMMIT register. -/
def commitOff : CommitGroup → Nat
  | .pace => 0x1003C
  | .nce => 0xD001C
  | .se => 0x6000C
  | .ring k => 0x6011C + 0x40 * k
  | .sp k => 0x80110 + 0x80 * k
  | .tgt t => 0x22004 + 0x10 * t
  | .pwr => 0xB001C

def execCommitWrite (g : CommitGroup) (a : Agent) (s : State) : Host.Outcome State Fault Refusal :=
  .next (rowAccess s a (commitOff g) true fun s => commitWrite s g)

/-- COMMIT_APPLY: once the block is idle. The step boundary, at which a pending group is applied before its block is idle, is the
release of a step, and applies it (applyBoundary). -/
def commitApply (s : State) (g : CommitGroup) : State :=
  if groupPending s g && groupIdle s g then applyGroup s g else s

def execCommitApply (g : CommitGroup) (s : State) : Host.Outcome State Fault Refusal := .next (commitApply s g)

end Sys2Proof.Machine
end

