-- ==== Sys2Proof/Machine/FabWindow.lean ====
section
/-! DEFINITION. The FAB diagnostic window (21, R440-R443, Table MAP-3): bed registers, queue records, saturation counters. -/

namespace Sys2Proof.Machine

/-! ## What an agent has selected -/

/-- The key of an agent's selects for a bed. -/
def selKey (a : Agent) (b : Nat) : Nat := agentNo a * 256 + b

def State.sel (s : State) (a : Agent) (b : Nat) : BedSel := mget {} s.sels (selKey a b)
def State.setSel (s : State) (a : Agent) (b : Nat) (x : BedSel) : State := { s with sels := mset {} s.sels (selKey a b) x }

/-- The tiles of a kind that a bed claims, in tile ID order. -/
def bedTiles (s : State) (b : Nat) (k : Kind) : List Nat :=
  ((s.bedBlocks b).map fun x => x.tile.toNat).filter fun i => !isEdgeId i && tileKind i == k

/-- Is a bed defined in the current context? -/
def bedDefined (s : State) (b : Nat) : Bool := s.bedIds.contains b

/-- The bed's definition. -/
def bedDef (s : State) (b : Nat) : BedDef := (s.curImage.beds.find? fun d => d.bed.toNat == b).getD {}

/-- Tile and queue that an agent's QSEL names. -/
def selQueue (s : State) (a : Agent) (b : Nat) : Option (Nat × Nat) :=
  let i := (s.sel a b).qsel.toNat
  ((bedTiles s b .s)[i / 16]?).map fun t => (t, i % 16)

/-- The Q tile that an agent's TSEL names. -/
def selQ (s : State) (a : Agent) (b : Nat) : Option Nat := (bedTiles s b .q)[(s.sel a b).tsel.toNat]?

/-! ## The queue record (R156 and the registers after it) -/

/-- The pointers of a copy as four words. -/
def ptrWords (p : Ptrs) : List Word := [p.wp.zeroExtend 32, p.rp.zeroExtend 32, p.fp.zeroExtend 32, p.mp.zeroExtend 32]

/-- The ten words of a queue's record; an unused queue reads as all zero. -/
def queueWords (g : GridTile) (q : Nat) : List Word :=
  let d := g.qdesc q
  let x := g.queue q
  if qUsed d then
    [packW [(16, x.avl % 2 ^ 16), (0, x.occ % 2 ^ 16)],
     packW [(31, 1), (30, b2n (qRet d)), (29, b2n x.a.mv), (28, b2n x.froz), (0, x.hwm % 2 ^ 16)]] ++ ptrWords x.a ++ ptrWords x.b
  else List.replicate 10 0

/-- QREC_SAMPLE: a read of word 0 samples the selected queue's whole record for the agent (R442). -/
def qrecSample (s : State) (a : Agent) (b : Nat) : State :=
  let ws := match selQueue s a b with
    | some (t, q) => queueWords (s.tile t) q
    | none => List.replicate 10 0
  { s.setSel a b { s.sel a b with sample := ws } with answer := .word (ws.headD 0) }

/-- QREC_SAMPLE of a bed that is unused in the current context answers 0. -/
def qrecRead (s : State) (a : Agent) (b : Nat) : State := if bedDefined s b then qrecSample s a b else { s with answer := .word 0 }

def execQrecSample (a : Agent) (b : Fin 256) (s : State) : Host.Outcome State Fault Refusal :=
  .next (rowAccess s a (0x100080 + 0x1000 * b) false fun s => qrecRead s a b)

/-! ## Clears (R443) -/

/-- BED_CLR: the counters that the mask names. -/
def clearBed (x : BedState) (m : BitVec 5) : BedState :=
  { x with
    nonfin := if bitAt m.toNat 0 then 0 else x.nonfin
    steer := if bitAt m.toNat 1 then 0 else x.steer
    ovf := if bitAt m.toNat 2 then 0 else x.ovf
    cecc := if bitAt m.toNat 3 then 0 else x.cecc
    adapt := if bitAt m.toNat 4 then 0 else x.adapt }

def bedClr (s : State) (b : Nat) (m : BitVec 5) : State := if bedDefined s b then s.setBed b (clearBed (s.bed b) m) else s

def execBedClr (b : Fin 256) (m : BitVec 5) (s : State) : Host.Outcome State Fault Refusal :=
  .next (rowWrite s (0x100024 + 0x1000 * b) fun s => bedClr s b m)

/-- BED_SATCLR: the selected Q tile's counters and the thresholds of R128 re-armed. -/
def bedSatclr (s : State) (a : Agent) (b : Nat) : State :=
  match bedDefined s b, selQ s a b with
  | true, some t =>
    let g := s.tile t
    s.setTile t { g with q := { g.q with satc := [], fired := [] }, badParity := g.badParity.filter fun p => p.1 != .qcnt }
  | _, _ => s

def execBedSatclr (a : Agent) (b : Fin 256) (s : State) : Host.Outcome State Fault Refusal :=
  .next (rowAccess s a (0x1000C8 + 0x1000 * b) true fun s => bedSatclr s a b)

/-! ## Reads (Table MAP-3) -/

/-- BED_STATE.STATE of a defined bed. -/
def bedStateCode (s : State) (b : Nat) : Nat := if (s.bed b).firing then 2 else 1

/-- The registers of a defined bed but for QREC word 0; none where none is listed. -/
def bedReg (s : State) (a : Agent) (b o : Nat) : Option Word :=
  let x := s.bed b
  let n := bedDef s b
  match o with
  | 0x000 => some (packW [(31, 1), (16, s.curCtx), (0, n.ntile.toNat)])
  | 0x004 => some (packW [(16, bedStateCode s b), (0, (s.leastTile b).getD 0xFFFF)])
  | 0x008 => some (BitVec.ofNat 32 (((s.leastTile b).map s.workCount).getD 0))
  | 0x00C => some (packW [(16, (bedTiles s b .q).length), (0, (bedTiles s b .s).length)])
  | 0x010 => some x.nonfin
  | 0x014 => some x.steer
  | 0x018 => some x.ovf
  | 0x01C => some x.cecc
  | 0x020 => some x.adapt
  | 0x024 => some 0
  | 0x040 => some ((s.sel a b).qsel.zeroExtend 32)
  | 0x044 => some (BitVec.ofNat 32 (((selQueue s a b).map fun p => p.1).getD 0xFFFF))
  | 0x0C0 => some ((s.sel a b).tsel.zeroExtend 32)
  | 0x0C4 => some (BitVec.ofNat 32 ((selQ s a b).getD 0xFFFF))
  | 0x0C8 => some 0
  | _ =>
    if 0x030 ≤ o ∧ o ≤ 0x03C then some (BitVec.ofNat 32 (numAt n.label (o - 0x030) 4))
    else if 0x080 ≤ o ∧ o ≤ 0x0BC then some (lget 0 (s.sel a b).sample ((o - 0x080) / 4))
    else if 0x200 ≤ o ∧ o < 0x400 then
      some (((selQ s a b).map fun t => mget 0 (s.tile t).q.satc ((o - 0x200) / 4)).getD 0)
    else none

/-- A write to a bed's register; none where none is listed. An unused bed discards it. -/
def bedWrite (s : State) (a : Agent) (b o : Nat) (v : Word) : Option State :=
  if (bedReg s a b o).isNone then none
  else if !bedDefined s b then some s
  else if o = 0x024 then some (bedClr s b (v.truncate 5))
  else if o = 0x040 then some (s.setSel a b { s.sel a b with qsel := v.truncate 13 })
  else if o = 0x0C0 then some (s.setSel a b { s.sel a b with tsel := v.truncate 6 })
  else if o = 0x0C8 then some (if bitAt v.toNat 0 then bedSatclr s a b else s)
  else some s

/-- The reading of a saturation counter checks its parity (R115); a mismatch aborts the task with 0x0604. -/
def satcRead (s : State) (a : Agent) (b i : Nat) : State :=
  match selQ s a b with
  | some t => raiseFaults s t 0 (parityFaults (s.tile t) 0x0604 [(.qcnt, i)])
  | none => s

/-- A read of a bed's register, with the word it answers; none where none is listed. -/
def bedRead (s : State) (a : Agent) (b o : Nat) : Option State :=
  match bedReg s a b o with
  | none => none
  | some w =>
    if !bedDefined s b then some { s with answer := .word 0 }
    else if o = 0x080 then some (qrecSample s a b)
    else if 0x200 ≤ o then some { satcRead s a b ((o - 0x200) / 4) with answer := .word w }
    else some { s with answer := .word w }

end Sys2Proof.Machine
end

