-- ==== Sys2Proof/Machine/Front.lean ====
section
/-! DEFINITION. The changeover front (12, R262-R265). -/

namespace Sys2Proof.Machine

/-! ## The front -/

/-- The context that the front brings in. -/
def nextCtx (s : State) : BitVec 2 := BitVec.ofNat 2 (s.secCtx s.cfg.nextSec.toNat)

/-- Are all paths of a grid tile's old context drained (R262)? -/
def gridDrained (g : GridTile) : Bool :=
  let sel := fun f => bits g.route (4 * f) 4
  (!g.ctxCfg.claimed || (g.parked && (List.range 4).all (fun k => (mget [] g.outb k).isEmpty && (mget [] g.pipe k).isEmpty) &&
    g.rest.isEmpty && g.m.drain.toks.isEmpty && g.s.deferred.isEmpty)) &&
  (List.range 8).all (fun x => sel x == 0 || (mget false g.passed x && (mget [] g.latch x).isEmpty)) &&
  (List.range 4).all fun k => sel (8 + k) == 0 || (mget false g.passed (8 + k) && (mget [] g.inb k).isEmpty)

/-- Has an edge tile passed its marked token in every direction it uses? -/
def edgeDrained (g : EdgeTile) : Bool :=
  (g.ctxCfg.quota 0 == 0 || (g.inMarked && g.inSlots.isEmpty)) && (g.ctxCfg.quota 4 == 0 || (g.outMarked && g.outSlots.isEmpty))

/-- May tiles switch: in the section-end step and at its barrier, with no abort and no debug halt (R262, R264, R265)? -/
def frontMoves (s : State) : Bool :=
  s.pace.released && s.pace.rank == .sectionEnd && s.pace.state != .aborted && s.pace.state != .idle && !s.dbgHold

/-- Has a tile an old path (R262): a claimed core, or a destination with a select? A tile with none switches from BARRIER on. -/
def gridOld (g : GridTile) : Bool := g.ctxCfg.claimed || bits g.route 0 48 != 0

/-- Has an edge tile a direction that it uses? -/
def edgeOld (g : EdgeTile) : Bool := g.ctxCfg.quota 0 != 0 || g.ctxCfg.quota 4 != 0

/-- Does PACE stand at the barrier of a front? -/
def atBarrier (s : State) : Bool := s.cfg.front != .none

/-- The words a tile reads as it takes up a context: its routing word, and the initial QS of a Q tile (R43, R121). -/
def entryWords (t : Nat) (g : GridTile) : List Nat :=
  256 :: (if tileKind t = .q then
    (match transportDesc g with
     | some a => (List.range ((qdNch a + 3) / 4)).map fun i => 257 + bits a 11 7 + i
     | none => []) else [])

/-- A grid tile switches (R263). -/
def switchGrid (s : State) (t : Nat) : State :=
  let g := enterGrid false (nextCtx s) (s.tile t)
  takeWords (s.setTile t g) t (entryWords t g)

/-- An edge tile switches; a south one starts its engine's list of the new context (R280, R281). -/
def switchEdge (s : State) (e : Nat) : State :=
  let s1 := s.setEdge e (enterEdge false (nextCtx s) (s.edge e))
  if e / 32 = 2 then
    let k := e % 32 / 2
    let x := (nextCtx s).toNat
    s1.setEngine k (if e % 2 = 0 then startRead s x k (s.engine k) else startWrite s x k (s.engine k))
  else s1

/-- Have all listed edge tiles of a set switched? -/
def edgesSwitched (s : State) (p : Nat → Bool) : Bool := s.edges.all fun x => !p x.1 || x.2.switched

/-- Has the last edge tile of a set switched (R263)? An edge tile that the placement does not list has no old path, and switches
as PACE enters BARRIER. -/
def edgesGone (s : State) (p : Nat → Bool) : Bool :=
  edgesSwitched s p && (atBarrier s || (List.range 128).all fun e => !p e || s.edges.any fun x => x.1 == e)

/-- Is an edge tile one of the NCE's, or of the PP's? -/
def nceEdge (e : Nat) : Bool := decide (e < 32) || (decide (56 ≤ e) && decide (e < 64))
def ppEdge (e : Nat) : Bool := decide (32 ≤ e) && decide (e < 48)

/-- TILE_SWITCH (R262, R263). The NCE and the PP switch once the step's tokens that they took are dealt with. -/
def tileSwitch (s : State) (x : Switcher) : State :=
  if frontMoves s then
    match x with
    | .grid t =>
      let g := s.tile t
      if !g.switched && (gridOld g || atBarrier s) && gridDrained g && (tileKind t != .s || !g.ctxCfg.claimed || g.portsParked) then
        switchGrid s t
      else s
    | .edge e =>
      if !(s.edge e).switched && (edgeOld (s.edge e) || atBarrier s) && edgeDrained (s.edge e) then switchEdge s e else s
    | .nce => if !s.cfg.nceSwitched && edgesGone s nceEdge && s.ppSettled then enterNce s (nextCtx s) else s
    | .pp => if !s.cfg.ppSwitched && edgesGone s ppEdge && s.ppSettled then enterPp s (nextCtx s) else s
  else s

def execTileSwitch (x : Switcher) (s : State) : Host.Outcome State Fault Refusal := .next (tileSwitch s x)

/-- Has everything switched? -/
def allSwitched (s : State) : Bool :=
  s.tiles.all (fun p => p.2.switched) && edgesSwitched s (fun _ => true) && s.cfg.nceSwitched && s.cfg.ppSwitched

/-- Is a burst a write? -/
def Burst.isWrite (b : Burst) : Bool :=
  match b.kind with
  | .write _ => true
  | _ => false

/-- Has every engine written all outward data (R264, R282)? -/
def writesDone (s : State) : Bool :=
  s.se.eng.all fun p => p.2.wbuf.isEmpty && !(p.2.bursts.any Burst.isWrite)

/-- FRONT_COMPLETE (R55, R264): the next section is in force. -/
def frontComplete (s : State) : State :=
  if frontMoves s && atBarrier s && allSwitched s && writesDone s then
    { s with
      cfg := { s.cfg with front := .none, sec := s.cfg.nextSec, swcnt := satInc s.cfg.swcnt }
      pace := { s.pace with
        stepsSinceWarm := 0
        state := if s.pace.rakeAct then s.pace.state else if s.pace.req = 0 then .running else .held } }
  else s

def execFrontComplete (s : State) : Host.Outcome State Fault Refusal := .next (frontComplete s)

/-- Tile IDs of what has not switched, ascending: grid tiles, then edge tiles. -/
def unswitched (s : State) : List Nat :=
  ((s.tiles.filter fun p => !p.2.switched).map fun p => p.1) ++ ((s.edges.filter fun p => !p.2.switched).map fun p => edgeId p.1)

/-- FRONT_LIMIT_EXCEEDED (R265): the snapshot names the lowest unswitched tile. -/
def frontLimit (s : State) : State :=
  if atBarrier s && s.pace.state != .aborted && s.pace.state != .idle && decide (wdogLimit s < s.pace.clock - s.pace.barrierT) then
    let t := (unswitched s).head?.getD 0xFFFF
    let snap := { takeSnapshot s with namedTile := BitVec.ofNat 16 t, namedKind := 2 }
    let s1 := recordEvent s 0x0D0B { detail := two t 0, tile := t }
    abortWith s1 2 0x0D0B snap (fun _ => true) (abortFrameOf s1 0x0D0B)
  else s

def execFrontLimitExceeded (s : State) : Host.Outcome State Fault Refusal := .next (frontLimit s)

end Sys2Proof.Machine
end

