-- ==== Sys2Proof/Machine/Link.lean ====
section
/-! DEFINITION. The Dwesto Links (17): link states and the hello record, sequenced frames, credits, tokens, time, aborts. -/

namespace Sys2Proof.Machine

/-! ## What the image says of a port -/

/-- The blocks of west edge tiles of port p that carry tokens in some context of the loaded placement (R363, R369). -/
def portBlocks (s : State) (p : Nat) : List TileBlock :=
  s.plc.ctxs.flatMap fun c => c.blocks.filter fun b =>
    isEdgeId b.tile.toNat && edgeOfId b.tile.toNat / 8 == 12 + p && (lget 0 b.qport 0 != 0 || lget 0 b.qport 4 != 0)

/-- Does the image use the port for tokens? -/
def imageUses (s : State) (p : Nat) : Bool := s.loaded && !(portBlocks s p).isEmpty

/-- PEERPOS of a port the image uses (Table LNK-5). -/
def portPeerPos (s : State) (p : Nat) : Nat :=
  match portBlocks s p with
  | [] => 0
  | b :: _ => bits b.edesc.toNat 44 16

/-! ## The hello record (R369, Table LNK-4) -/

/-- The stepping code (Table SCP-2). -/
def steppingCode : Config.Stepping → Nat
  | .a0 => 0x10
  | .a1 => 0x11
  | .b0 => 0x20

/-- The record this device sends on port p; without an image bytes 5 to 43 and 52 are 0. -/
def helloRecOf (s : State) (p : Nat) : HelloRec :=
  let base : HelloRec :=
    { stepping := BitVec.ofNat 8 (steppingCode s.glb.stepping), secmap := List.replicate 16 0, epoch := s.lk.epoch
      port := BitVec.ofNat 8 p }
  match s.loaded, s.cfg.image with
  | true, some im =>
    { base with adr := im.adr, pos := s.cfg.pos, fwver := s.sec.fwver, hash := im.hash.truncate 128
                secmap := slice (s.plc.secmap ++ List.replicate 16 0) 0 16, plc := s.cfg.plc }
  | _, _ => base

/-- Does the chain position disagree? -/
def posDiffers (s : State) (p : Nat) (own r : HelloRec) : Bool :=
  if (s.port p).twin then r.pos != own.pos else imageUses s p && r.pos.toNat != portPeerPos s p

/-- The MISM bits of a record received on port p. -/
def helloMism (s : State) (p : Nat) (r : HelloRec) : BitVec 10 :=
  let o := helloRecOf s p
  if r.part ≠ o.part ∨ r.resv ≠ 0 then 0x200
  else BitVec.ofNat 10 (packN [(1, b2n (r.stepping != o.stepping)), (2, b2n (r.fwver != o.fwver)), (3, b2n (r.hash != o.hash)),
    (4, b2n (r.secmap != o.secmap)), (5, b2n (posDiffers s p o r)), (6, b2n (r.adr != o.adr)), (7, b2n (r.epoch != o.epoch)),
    (8, b2n (r.plc != o.plc))])

/-! ## Entering the states of Table LNK-7 -/

/-- A port enters TRAIN: numbering, buffers and credits start anew. -/
def enterTrain (s : State) (p : Nat) : State :=
  let s1 := leaveUp s p
  s1.setPort p { s1.port p with
    state := .train, stateT := s.devTime, txseq := 0, rxe := 0, ack := 0xFFFF, txCount := 0, probeTx := [], replay := [], txq := [], nakSent := false
    replays := 0, cred := [], credRet := [], vcbuf := [], vcout := [] }

/-- A HELLO frame with a probe of this device goes out on port p (R369). -/
def sendHello (s : State) (p : Nat) : State :=
  let t := BitVec.ofNat 64 s.time64
  s.setPort p (sendPlain { s.port p with helloT := s.devTime, probeTx := (s.port p).probeTx ++ [t] } (.hello (helloRecOf s p) t))

/-- A port enters HELLO and sends a HELLO frame. -/
def enterHello (s : State) (p : Nat) : State :=
  let s1 := leaveUp s p
  sendHello (s1.setPort p { s1.port p with state := .hello, stateT := s.devTime }) p

/-- A port enters UP: its credits are set, the frames that waited go out; the twin manager sends ROLE (R365, R370, R381). -/
def enterUp (s : State) (p : Nat) : State :=
  let x := s.port p
  let y := { x with
    state := .up, stateT := s.devTime, ackT := s.devTime, rxT := s.devTime, cred := (List.range 8).map fun v => (v, 1024)
    credRet := [], vcbuf := [], vcout := [] }
  let s1 := event (s.setPort p (drainTxq s.devTime y.txq { y with txq := [] })) 0x0901 { srcid := p, detail := two x.peerPos.toNat 0 }
  if s1.tw.en && s1.tw.port.toNat == p then sendRole s1 else s1

/-- Every port with a link up to HELLO enters HELLO: the own image, placement or epoch has changed (R370, R372, R377). -/
def helloAll (s : State) : State :=
  (List.range 4).foldl (fun s p =>
    if (s.port p).state = .up || (s.port p).state = .refused || (s.port p).state = .hello then enterHello s p else s) s

/-- A port enters FAILED (R363): buffers and credits are discarded. -/
def enterFailed (s : State) (p : Nat) : State :=
  let s1 := leaveUp s p
  let x := s1.port p
  s1.setPort p { x with state := .failed, stateT := s.devTime, replay := [], txq := [], cred := [], credRet := [], vcbuf := []
                        linkdn := satInc x.linkdn }

/-- A link fails (R363), perhaps on a sequence disagreement (R364): the events come in code order (R461). The loss of the twin link is
the loss of the partner (R388). -/
def failLinkOn (s : State) (p : Nat) (seqBad : Bool) : State :=
  let twinLink := s.twinLink p && !s.idle
  let s1 := event (enterFailed s p) 0x0904 { srcid := p }
  let s2 := if !s1.idle && imageUses s1 p then event s1 0x0905 { srcid := p } else s1
  let s3 := if seqBad then event s2 0x0906 { srcid := p } else s2
  if twinLink then partnerLost s3 else s3

/-- A link fails. -/
def failLink (s : State) (p : Nat) : State := failLinkOn s p false

/-! ## Receiving (R360, R362, R364) -/

/-- Does an ACK name a SEQ that the port has sent, or, before the first frame is acknowledged, none? -/
def ackSent (x : LinkPort) (a : BitVec 16) : Bool :=
  let d := (x.txseq - 1 - a).toNat
  decide (d ≤ x.txCount) && decide (d < 2 ^ 15)

/-- Take an ACK: covered frames leave the replay buffer, and in UP the frames that wait for room go out. -/
def takeAck (now : Nat) (x : LinkPort) (a : BitVec 16) : LinkPort :=
  let n := (a - x.ack).toNat
  if 0 < n ∧ n ≤ x.replay.length then
    let y := { x with replay := x.replay.drop n, ack := a, ackT := now, replays := 0 }
    if y.isUp then drainTxq now y.txq { y with txq := [] } else y
  else x

/-- Take a frame's credit return. -/
def takeCredit (x : LinkPort) (h : FrameHdr) : LinkPort :=
  { x with cred := mset 0 x.cred h.cretVc.val (mget 0 x.cred h.cretVc.val + h.cret.toNat) }

/-- A sequence disagreement (R364). -/
def seqDisagrees (s : State) (p : Nat) : State := failLinkOn s p true

/-- A frame of bad CRC. -/
def badCrc (s : State) (p : Nat) : State :=
  s.setPort p (sendPlain { s.port p with crcerr := satInc (s.port p).crcerr } .nak)

/-- What every frame carries: the CRC outcome and the ACK. The second value says whether the frame is good. -/
def rxHeader (s : State) (p : Nat) (h : FrameHdr) : State × Bool :=
  let x := s.port p
  if !x.receives then (s, false)
  else if !h.crcGood then (badCrc s p, false)
  else if !ackSent x h.ack then (seqDisagrees s p, false)
  else (s.setPort p (takeAck s.devTime { x with rxT := s.devTime } h.ack), true)

/-- A frame that is not sequenced. -/
def rxPlain (s : State) (p : Nat) (h : FrameHdr) : State × Bool :=
  let r := rxHeader s p h
  if r.2 then (r.1.setPort p (takeCredit (r.1.port p) h), true) else r

/-- What the receiver does with a sequenced frame of good CRC (Table LNK-3). -/
def rxSeq (s : State) (p : Nat) (h : FrameHdr) : State × Bool :=
  let x := s.port p
  let d := (h.seq - x.rxe).toNat
  if d = 0 then (s.setPort p (takeCredit { x with rxe := x.rxe + 1, nakSent := false } h), true)
  else if d ≤ 63 then
    (if x.nakSent then s else s.setPort p (sendPlain { x with nakSent := true } .nak), false)
  else if 65472 ≤ d then (s.setPort p { x with dup := satInc x.dup }, false)
  else (seqDisagrees s p, false)

/-- A sequenced frame: every port that receives takes its header, only one in UP carries it (R370). The second value says whether it
is accepted. -/
def rxSequenced (s : State) (p : Nat) (h : FrameHdr) : State × Bool :=
  let r := rxHeader s p h
  if r.2 && (r.1.port p).isUp then rxSeq r.1 p h else (r.1, false)

/-- Replay every outstanding frame; the first replay in a step raises 0x0903 (R362). -/
def replay (s : State) (p : Nat) : State :=
  let x := s.port p
  if x.replay.isEmpty then s
  else
    let s1 := s.setPort p { replayAll s.devTime x with replayStep := true }
    if x.replayStep then s1 else event s1 0x0903 { srcid := p }

/-! ## Frames -/

/-- TOKEN_FRAME: the tokens enter the VC buffer, each with its frame's step (R365, R367). -/
def tokenFrame (s : State) (p : Nat) (h : FrameHdr) (vc : Nat) (toks : List Token) : State :=
  let r := rxSequenced s p h
  if r.2 then
    let x := r.1.port p
    let b := mget [] x.vcbuf vc
    r.1.setPort p { x with vcbuf := mset [] x.vcbuf vc (b ++ (toks.take (1024 - b.length)).map fun t => (t, h.step)) }
  else r.1

def execTokenFrame (p : Fin 4) (h : FrameHdr) (vc : Fin 8) (toks : List Token) (s : State) : Host.Outcome State Fault Refusal :=
  if (Instr.tokenFrame p h vc toks).wf then .next (tokenFrame s p h vc toks) else .fault .illFormed

/-- NAK: outstanding frames go out again, where the port carries them (R362, R370). -/
def nakFrame (s : State) (p : Nat) (h : FrameHdr) : State :=
  let r := rxPlain s p h
  if r.2 && (r.1.port p).isUp then replay r.1 p else r.1

def execNak (p : Fin 4) (h : FrameHdr) (s : State) : Host.Outcome State Fault Refusal := .next (nakFrame s p h)

/-- IDLE_FRAME. -/
def idleFrame (s : State) (p : Nat) (h : FrameHdr) : State := (rxPlain s p h).1

def execIdleFrame (p : Fin 4) (h : FrameHdr) (s : State) : Host.Outcome State Fault Refusal := .next (idleFrame s p h)

/-- Compare a hello record: UP or REFUSED (R369, R370). -/
def compareHello (s : State) (p : Nat) (r : HelloRec) : State :=
  let m := helloMism s p r
  let s1 := s.setPort p { s.port p with
    mism := m, peerPos := r.pos, peerStepping := r.stepping, peerAdr := r.adr, peerRec := r }
  if m = 0 then enterUp s1 p
  else event (s1.setPort p { s1.port p with state := .refused, stateT := s.devTime }) 0x0902
    { srcid := p, addr := m.toNat, detail := r.pos.toNat }

/-- A hello record on a port: compared in HELLO; in UP and REFUSED a changed record leads through HELLO (Table LNK-7). -/
def hearHello (s : State) (p : Nat) (r : HelloRec) : State :=
  let x := s.port p
  if x.state = .hello then compareHello s p r
  else if x.peerRec = r then s
  else compareHello (enterHello s p) p r

/-- The probe of a HELLO frame: the echo of an own probe gives RTT; any other is the neighbour's own, and goes back at once in a
HELLO frame. Bytes 56 to 63 serve both, and R369 says of neither frame when it is sent (DESIGN CHOICE, log entry 84). -/
def hearProbe (s : State) (p : Nat) (v : BitVec 64) : State :=
  let x := s.port p
  if x.probeTx.contains v then s.setPort p { x with rtt := BitVec.ofNat 32 (s.time64 - v.toNat), probeTx := x.probeTx.erase v }
  else s.setPort p (sendPlain x (.hello (helloRecOf s p) v))

/-- HELLO: the frame, its probe and its record. -/
def helloFrame (s : State) (p : Nat) (h : FrameHdr) (r : HelloRec) (probe : BitVec 64) : State :=
  let f := rxPlain s p h
  if f.2 then hearHello (hearProbe f.1 p probe) p r else f.1

def execHello (p : Fin 4) (h : FrameHdr) (r : HelloRec) (probe : BitVec 64) (s : State) : Host.Outcome State Fault Refusal :=
  if (Instr.hello p h r probe).wf then .next (helloFrame s p h r probe) else .fault .illFormed

/-- HELLO_SEND: every 1 µs in HELLO and REFUSED (R369). -/
def helloSend (s : State) (p : Nat) : State :=
  let x := s.port p
  if (x.state = .hello || x.state = .refused) && decide (x.helloT + 1000 ≤ s.devTime) then sendHello s p else s

def execHelloSend (p : Fin 4) (s : State) : Host.Outcome State Fault Refusal := .next (helloSend s p)

/-! ## Time (R372, R373) -/

/-- The EPOCH in progress sets device time to t, if it does not set it back (R50, R372). -/
def setEpoch (s : State) (p : Nat) (v : BitVec 64) (t : Nat) : State :=
  let s0 := { s with lk := { s.lk with follow := none } }
  if t < s.devTime + s.timeOff then refuseCmd s0 0x090B { srcid := p }
  else finishCmd (helloAll { s0 with timeOff := t - s.devTime, lk := { s0.lk with epoch := v } }) stDone 0

/-- A SYNC serves the EPOCH that follows its port. -/
def followSync (s : State) (p : Nat) (time : BitVec 64) : State :=
  match s.lk.follow with
  | none => s
  | some (q, v, _) => if q = p then setEpoch s p v (time.toNat + (s.port p).rtt.toNat / 2) else s

/-- A SYNC on the twin link is a heartbeat (R388). -/
def heartbeat (s : State) (p : Nat) (step : BitVec 48) : State :=
  if s.twinLink p then { s with tw := { s.tw with miss := 0, hbT := s.devTime, pstep := step } } else s

/-- The time comparison while both devices run a task (R373). A SYNC frame has no field for the sender's state, which comes as an
operand (DESIGN CHOICE, log entry 84). -/
def checkTime (s : State) (p : Nat) (time : BitVec 64) (peerRuns : Bool) : State :=
  let own : Int := s.time64
  let diff : Int := 2 * (time.toNat : Int) + ((s.port p).rtt.toNat : Int) - 2 * own
  if peerRuns && !s.idle && s.pace.state != .aborted && s.lk.ttol != 0 && decide (2 * s.lk.ttol.toNat < diff.natAbs) then
    event s 0x0908 { srcid := p, detail := two time.toNat s.time64, more := [(s.port p).rtt.toNat] }
  else s

/-- SYNC. -/
def syncFrame (s : State) (p : Nat) (h : FrameHdr) (peer : PeerStep) (time : BitVec 64) : State :=
  let r := rxPlain s p h
  if r.2 then checkTime (heartbeat (followSync r.1 p time) p peer.step) p time peer.runs else r.1

def execSync (p : Fin 4) (h : FrameHdr) (peer : PeerStep) (time : BitVec 64) (s : State) : Host.Outcome State Fault Refusal :=
  .next (syncFrame s p h peer time)

/-- SYNC_SEND: once for each release, and every 1 µs while PACE is IDLE. -/
def syncSend (s : State) (p : Nat) : State :=
  let x := s.port p
  if x.receives && (x.syncDue || (s.idle && decide (x.syncT + 1000 ≤ s.devTime))) then
    s.setPort p (sendPlain { x with syncDue := false, syncT := s.devTime } (.sync s.pace.step (BitVec.ofNat 64 s.time64)))
  else s

def execSyncSend (p : Fin 4) (s : State) : Host.Outcome State Fault Refusal := .next (syncSend s p)

/-! ## Tokens out (R361) -/

/-- The tokens of the next frame of a VC: at most 12, of one step, none after a marker. -/
def frameToks : Nat → List (Token × BitVec 32) → List (Token × BitVec 32)
  | 0, _ => []
  | _, [] => []
  | n + 1, (t, st) :: r =>
    if t.mark != .none then [(t, st)]
    else (t, st) :: frameToks n (match r with
      | (_, st') :: _ => if st' = st then r else []
      | [] => [])

/-- TOKEN_FRAME_SEND. -/
def tokenFrameSend (s : State) (p vc : Nat) : State :=
  let x := s.port p
  let ts := frameToks 12 (mget [] x.vcout vc)
  match ts with
  | [] => s
  | (_, st) :: _ =>
    if x.isUp then
      s.setPort p (sendSeq s.devTime { x with vcout := mset [] x.vcout vc ((mget [] x.vcout vc).drop ts.length) }
        (.token vc st (ts.map fun t => t.1)))
    else s

def execTokenFrameSend (p : Fin 4) (vc : Fin 8) (s : State) : Host.Outcome State Fault Refusal := .next (tokenFrameSend s p vc)

/-! ## Messages and aborts (R347, R374, R382) -/

/-- Word i of a message. -/
def msgWord (ws : List Word) (i : Nat) : Nat := (lget 0 ws i).toNat

/-- Is a DIGEST malformed, or of a definition that the image does not hold? -/
def digestBad (s : State) (ws : List Word) : Bool :=
  let i := bits (msgWord ws 2) 16 16
  let d := checkDef s i
  let len := hdrLen (lget 0 ws 0)
  decide (s.plc.checks.length ≤ i) || len != 2 + (d.flen + 3) / 4 ||
  (let pad := 4 * ((d.flen + 3) / 4) - d.flen
   pad != 0 && bits (msgWord ws len) (8 * (4 - pad)) (8 * pad) != 0)

/-- Is a TWIN message of a subtype that TW takes malformed (R382)? -/
def twinBad (s : State) (ws : List Word) : Bool :=
  let len := hdrLen (lget 0 ws 0)
  let lo := bits (msgWord ws 1) 0 24
  match bits (msgWord ws 1) 24 8 with
  | 1 => len != 1 || decide (1 < lo)
  | 2 => len != 1 || lo != 0
  | 3 => len != 3 || lo != 0
  | 4 => digestBad s ws
  | _ => len != 2 || decide (15 < lo)

/-- Is a message one that TW takes? -/
def isTwinMsg (ws : List Word) : Bool :=
  let h := lget 0 ws 0
  hdrType h == 0x30 && hdrLen h != 0 && decide (1 ≤ bits (msgWord ws 1) 24 8) && decide (bits (msgWord ws 1) 24 8 ≤ 5)

/-- A TWIN message that TW takes: discarded and counted when malformed, else it waits its turn, with the port it came on, until
TW_CFG.PORT names that port (R466). -/
def twinIntake (s : State) (p : Nat) (ws : List Word) : State :=
  if twinBad s ws then event { s with tw := { s.tw with badmsg := satInc s.tw.badmsg } } 0x0A07
  else { s with tw := { s.tw with rxq := s.tw.rxq ++ [(p, ws)] } }

/-- MSG_FRAME. -/
def msgFrame (s : State) (p : Nat) (h : FrameHdr) (ws : List Word) : State :=
  let r := rxSequenced s p h
  if r.2 then
    (if (r.1.port p).twin && isTwinMsg ws then twinIntake r.1 p ws
     else linkMessage r.1 (if r.1.twinLink p then 8 else 9 + p) ws)
  else r.1

def execMsgFrame (p : Fin 4) (h : FrameHdr) (words : List Word) (s : State) : Host.Outcome State Fault Refusal :=
  if (Instr.msgFrame p h words).wf then .next (msgFrame s p h words) else .fault .illFormed

/-- Has this abort acted before, on whichever port it came (R374)? -/
def abortSeen (s : State) (origin : BitVec 16) (step : BitVec 48) : Bool :=
  (List.range 4).any fun p => (s.port p).abortsSeen.contains (origin, step)

/-- An ABORT frame accepted: a running task aborts with 0x0909 and the frame goes on; otherwise it is only logged. -/
def hearAbort (s : State) (p : Nat) (origin cause : BitVec 16) (step : BitVec 48) : State :=
  let a : EvArgs := { srcid := p, addr := origin.toNat, detail := packN [(0, cause.toNat), (16, step.toNat)] }
  let s1 := recordEvent s 0x0909 a
  if s.idle || s.pace.state = .aborted || abortSeen s origin step then s1
  else
    let s2 := s1.setPort p { s1.port p with abortsSeen := (origin, step) :: (s1.port p).abortsSeen }
    abortWith s2 2 0x0909 (takeSnapshot s2) (fun q => q != p) (.abort origin cause step)

/-- ABORT_FRAME. -/
def abortFrame (s : State) (p : Nat) (h : FrameHdr) (origin cause : BitVec 16) (step : BitVec 48) : State :=
  let r := rxSequenced s p h
  if r.2 then hearAbort r.1 p origin cause step else r.1

def execAbortFrame (p : Fin 4) (h : FrameHdr) (origin : BitVec 16) (cause : BitVec 16) (step : BitVec 48) (s : State) :
    Host.Outcome State Fault Refusal := .next (abortFrame s p h origin cause step)

/-! ## Failure and training (R362, R363, R370) -/

/-- REPLAY_TIMEOUT: the ACK has not advanced for 10 µs. -/
def replayTimeout (s : State) (p : Nat) : State :=
  if (s.port p).isUp && decide ((s.port p).ackT + 10000 ≤ s.devTime) then replay s p else s

def execReplayTimeout (p : Fin 4) (s : State) : Host.Outcome State Fault Refusal := .next (replayTimeout s p)

/-- Does a cause of R363 stand? Lane lock and FEC are findings of the physical layer. -/
def failStands (s : State) (p : Nat) : LinkCause → Bool
  | .replayLimit => decide ((if s.lk.nakmax = 0 then 256 else s.lk.nakmax.toNat) ≤ (s.port p).replays)
  | .silence => decide ((s.port p).rxT + 10000 ≤ s.devTime)
  | _ => true

/-- LINK_FAIL. -/
def linkFail (s : State) (p : Nat) (c : LinkCause) : State :=
  if (s.port p).receives && failStands s p c then
    failLink (if c = .fec then s.setPort p { s.port p with fecunc := satAdd (s.port p).fecunc 16 } else s) p
  else s

def execLinkFail (p : Fin 4) (c : LinkCause) (s : State) : Host.Outcome State Fault Refusal := .next (linkFail s p c)

/-- TRAIN_COMPLETE. -/
def trainComplete (s : State) (p : Nat) : State :=
  if (s.port p).state = .train then enterHello (s.setPort p { s.port p with rxT := s.devTime }) p else s

def execTrainComplete (p : Fin 4) (s : State) : Host.Outcome State Fault Refusal := .next (trainComplete s p)

/-- TRAIN_TIMEOUT: not within 100 ms. -/
def trainTimeout (s : State) (p : Nat) : State :=
  if (s.port p).state = .train && decide ((s.port p).stateT + 100000000 < s.devTime) then enterFailed s p else s

def execTrainTimeout (p : Fin 4) (s : State) : Host.Outcome State Fault Refusal := .next (trainTimeout s p)

/-- FAILED_RETRY: after 1 ms. -/
def failedRetry (s : State) (p : Nat) : State :=
  if (s.port p).state = .failed && decide ((s.port p).stateT + 1000000 ≤ s.devTime) then enterTrain s p else s

def execFailedRetry (p : Fin 4) (s : State) : Host.Outcome State Fault Refusal := .next (failedRetry s p)

/-- EN of a port: 0 to 1 enters TRAIN, 0 enters OFF. -/
def setPortEn (s : State) (p : Nat) (en : Bool) : State :=
  let x := s.port p
  if en = x.en then s
  else if en then enterTrain (s.setPort p { x with en := true }) p
  else
    let s1 := leaveUp s p
    s1.setPort p { s1.port p with en := false, state := .off, stateT := s.devTime, replay := [], txq := [], cred := [], credRet := []
                                  vcbuf := [], vcout := [] }

/-- PORT_ENABLE: locked while PACE is not IDLE (Table LNK-8). -/
def portEnable (s : State) (p : Nat) (en : Bool) : State := if s.idle && s.powered (6 + p) then setPortEn s p en else s

def execPortEnable (p : Fin 4) (en : Bool) (s : State) : Host.Outcome State Fault Refusal :=
  .next (rowWrite s (0x90100 + 0x80 * p) fun s => portEnable s p en)

/-- RETRAIN: an enabled port enters TRAIN. -/
def retrain (s : State) (p : Nat) : State := if s.idle && (s.port p).en then enterTrain s p else s

def execRetrain (p : Fin 4) (s : State) : Host.Outcome State Fault Refusal := .next (rowWrite s (0x90100 + 0x80 * p) fun s => retrain s p)

/-- The counters of a port at 0. -/
def clearPort (x : LinkPort) : LinkPort := { x with crcerr := 0, replayCnt := 0, dup := 0, feccorr := 0, fecunc := 0, linkdn := 0 }

/-- LK_CLRSTAT. -/
def lkClrstat (s : State) : State := (List.range 4).foldl (fun s p => s.setPort p (clearPort (s.port p))) s

def execLkClrstat (s : State) : Host.Outcome State Fault Refusal := .next (rowWrite s 0x90000 lkClrstat)

end Sys2Proof.Machine
end

