-- ==== Sys2Proof/Machine/Task.lean ====
section
/-! DEFINITION. The host commands that govern tasks and time (15 R330): NOP, TASK_START with its pair start (R371, R383, R315,
R399), RESUME, RAKE, ABORT and EPOCH. -/

namespace Sys2Proof.Machine

/-! ## NOP -/

/-- NOP_COMMAND: completes at once. -/
def nopCmd (s : State) : State := if curIs s 0x0001 then finishCmd s stDone 0 else s

def execNopCommand (s : State) : Host.Outcome State Fault Refusal := .next (nopCmd s)

/-! ## What the loaded placement asks for -/

/-- Is a path of host stream channel c used, inward or outward (R338, Table IMG-15)? -/
def chanUsed (s : State) (c : Nat) (inw : Bool) : Bool :=
  s.plc.ctxs.any fun x => x.blocks.any fun b =>
    b.tile.toNat == edgeId (48 + c) && bitAt b.edesc.toNat (if inw then 50 else 51)

/-- The result rings that the placement's PPPAR names. -/
def ringsNamed (s : State) : List Nat :=
  s.plc.ctxs.flatMap fun c =>
    match c.pp with
    | none => []
    | some b => namedRings b

/-- Is every ring the task needs enabled? -/
def ringsReady (s : State) : Bool :=
  (ringsNamed s).all (fun n => (s.ring n).en) &&
  (List.range 8).all fun c => (!chanUsed s c true || (s.ring (10 + c)).en) && (!chanUsed s c false || (s.ring (18 + c)).en)

/-- The port views of the placement's view tables, as 2 port + view. -/
def viewsNamed (s : State) : List Nat :=
  s.plc.ctxs.flatMap fun c =>
    match c.nce with
    | none => []
    | some b => (nceViews b).map fun v => 2 * nvPort b v + nvPview b v

/-- Is a port view not set up (R315)? -/
def viewUnset (s : State) (k : Nat) : Bool :=
  !(s.sport (k / 2)).en || (if k % 2 = 0 then (s.sport (k / 2)).v0.pixfmt else (s.sport (k / 2)).v1.pixfmt) == 0

/-- The domains that a placement needs on (R399). -/
def neededDomains (s : State) : List Nat :=
  (if s.plc.ctxs.any fun c => !c.streams.isEmpty then [3, 4, 5] else []) ++
  ((List.range 4).filter fun p => imageUses s p).map (6 + ·) ++
  (if (viewsNamed s).isEmpty then [] else [10]) ++
  (if s.plc.ctxs.any fun c => c.nce.isSome then [11] else []) ++
  (if s.plc.ctxs.any fun c => c.pp.isSome then [12] else []) ++
  ((List.range 16).filter fun b => fabUsed s b).map (14 + ·)

/-- The used link ports that are not in UP, or the twin's port used for tokens (R371). -/
def linkRefusal (s : State) : Option Nat :=
  (List.range 4).find? fun p =>
    (imageUses s p && (!(s.port p).isUp || (s.tw.en && s.tw.port.toNat == p))) ||
    (s.paired && s.tw.port.toNat == p && !(s.port p).isUp)

/-! ## TASK_START -/

/-- Why a TASK_START is refused, in ascending code order: the event and what it says (R315, R371, R383, R399). -/
def startRefusal (s : State) : Option (Nat × EvArgs) :=
  match (viewsNamed s).find? (viewUnset s) with
  | some k => some (0x0809, { srcid := k / 2 + 256 * (k % 2) })
  | none =>
    match linkRefusal s with
    | some p => some (0x090A, { srcid := p })
    | none =>
      if s.tw.state = .wait ∨ s.tw.state = .conflict then some (0x0A02, {})
      else
        match (neededDomains s).find? fun d => !s.powered d with
        | some d => some (0x0B0E, { srcid := d })
        | none => none

/-- PACE at the acceptance of a task from step n: the image's pace parameters are written and committed (R66, R240), hold that
stands counts as one entry (R52). -/
def startPace (s : State) (n : BitVec 48) : Pace :=
  let c := s.plc.pace
  let t : PaceTiming :=
    { period := BitVec.ofNat 24 c.period, pmin := BitVec.ofNat 24 c.pmin, window := BitVec.ofNat 24 c.window
      hallow := BitVec.ofNat 32 c.hallow, laglim := BitVec.ofNat 24 c.laglim }
  let held := s.pace.req != 0
  { s.pace with
    act := t, shadow := t, pending := false, mode := c.mode.truncate 2, wdog := c.wdog, holdlim := BitVec.ofNat 24 c.holdlim
    state := if held then .held else .running, step := n, dupStep := n, released := false, complete := false
    dupComplete := false, stepHold := 0, standT := 0
    holdCount := if held then satInc s.pace.holdCount else s.pace.holdCount
    holdLast := if held then packW [(8, n.toNat % 2 ^ 24), (0, s.pace.req.toNat)] else s.pace.holdLast
    rakeAct := false, rakeDrop := false, rakeLeft := 0, rakeDropCnt := 0, stepsSinceWarm := 0, lagArmed := true, lag := 0
    stopByStep := false, resumed := false, abort := .none }

/-- A sensor view at TASK_START (R314). -/
def startView (v : SpView) : SpView :=
  { v with queue := [], fullish := false, expect := none, first := 0, lastRow := 0, lastLine := [] }

/-- A sensor port at TASK_START: an enabled one empties its queues; a line in BODY is discarded. -/
def startPort (p : SensorPort) : SensorPort :=
  if p.en then { p with v0 := startView p.v0, v1 := startView p.v1, xoff := false, discard := p.state == .body } else p

/-- FFEN from an NCE block (R209). -/
def imageFfen (b : List Byte) : BitVec 16 := BitVec.ofNat 16 (packN ((List.range 16).map fun v => (v, b2n (nvFlat b v))))

/-- A TASK_START is accepted: statistics since TASK_START clear, buffers empty, every core is held in reset and stage 3 is run
again (R49, R116, R157, R271, R280, R314, R340, R393). -/
def acceptTask (s : State) (n : BitVec 48) : State :=
  let nb := ((s.ctxImage (s.secCtx 0)).nce).getD []
  let en := imageFfen nb
  let s1 := { s with
    pace := startPace s n
    cfg := { s.cfg with stage := 2, stageT := s.devTime, goal := .start, swcnt := 0, front := .none }
    tiles := mapAll {} s.tiles fun _ g => holdGrid { g with q := { g.q with satc := [], fired := [] } }
    edges := mapAll {} s.edges fun _ g => holdEdge g
    sp := mapAll {} s.sp fun _ p => startPort p
    nce := { clearNce s.nce with ffen := en, shFfen := en, pending := false }
    pp := { clearPp s.pp with qhwm := 0, nextid := 0, ordDet := 0, ordTxt := 0, ordMeas := 0, dropStep := false }
    se := { s.se with eng := mapAll {} s.se.eng fun _ e => emptyEngine e }
    hq := { s.hq with chans := mapAll {} s.hq.chans fun _ c => { c with buf := [] } }
    lk := { s.lk with ports := mapAll {} s.lk.ports fun _ p => { p with abortsSeen := [] } }
    flt := { s.flt with firstCode := 0, firstSev := 0 }
    tw := { s.tw with cmpcnt := 0, near := 0, maxdiff := 0, own := [], partner := [], firstOwn := [], firstSent := [], pair := {} } }
  if s1.pwr.keep then s1 else changePwr s1 fun p => { p with req := BitVec.ofNat 4 s.plc.pace.vplan.toNat }

/-- The start step of the command under execution. -/
def startStep (s : State) : BitVec 48 := BitVec.ofNat 48 (numAt (curBytes s) 8 6)

/-- The lead that holds its own TASK_START and the shadow's READY sends START (R383). -/
def leadStart (s : State) : State :=
  if s.tw.pair.waiting && s.tw.pair.gotReady && s.tw.lead && s.tw.pair.ts.isNone then
    let ts := s.devTime + s.timeOff + (if s.tw.tslead = 0 then 256 else s.tw.tslead.toNat) * 10000
    twinSend { s with tw := { s.tw with pair := { s.tw.pair with ts := some ts } } } 3 0 [bits ts 0 32, bits ts 32 32]
  else s

/-- A TASK_START on a paired device is read and waits; the shadow sends READY (R383). -/
def beginPair (s : State) : State :=
  let s1 := { s with tw := { s.tw with
    pair := { s.tw.pair with waiting := true, since := s.devTime, ts := none }, firstPeer := [] } }
  if s.tw.lead then leadStart s1 else twinSend s1 2 0 []

/-- TASK_START. -/
def taskStart (s : State) : State :=
  if !curIs s 0x0020 || s.tw.pair.waiting || s.cfg.goal == .start then s
  else if !s.loaded then wrongState s
  else if startStep s ≠ 0 ∧ s.plc.pace.mode ≠ 2 then malformedCmd s
  else if !s.idle || !ringsReady s then wrongState s
  else
    match startRefusal s with
    | some (code, a) => refuseCmd s code a
    | none => if s.paired then beginPair s else acceptTask { s with tw := { s.tw with firstPeer := [] } } (startStep s)

def execTaskStart (s : State) : Host.Outcome State Fault Refusal := .next (taskStart s)

/-- The pair start ends without a task. -/
def refusePair (s : State) : State := refuseCmd { s with tw := { s.tw with pair := {} } } 0x0A02

/-- PAIR_START_ACCEPT: at device time TS (R383). -/
def pairAccept (s : State) : State :=
  match s.tw.pair.waiting, s.tw.pair.ts with
  | true, some ts =>
    if s.devTime + s.timeOff < ts then s
    else if s.idle && (s.paired || s.tw.state == .solo) then acceptTask s (startStep s)
    else refusePair s
  | _, _ => s

def execPairStartAccept (s : State) : Host.Outcome State Fault Refusal := .next (pairAccept s)

/-- PAIR_START_TIMEOUT: READY or START has not come within 100 ms. -/
def pairTimeout (s : State) : State :=
  if s.tw.pair.waiting && s.tw.pair.ts.isNone && decide (s.tw.pair.since + 100000000 < s.devTime) then refusePair s else s

def execPairStartTimeout (s : State) : Host.Outcome State Fault Refusal := .next (pairTimeout s)

/-! ## RESUME, RAKE, ABORT -/

/-- RESUME (R57): out of STOPPED by a stop step. -/
def resume (s : State) : State :=
  if !curIs s 0x0021 then s
  else if s.pace.state = .stopped ∧ s.pace.stopByStep = true ∧ s.pace.rakeAct = false then
    finishCmd { s with pace := { s.pace with state := if s.pace.req = 0 then .running else .held, stopByStep := false
                                             resumed := true } } stDone 0
  else wrongState s

def execResume (s : State) : Host.Outcome State Fault Refusal := .next (resume s)

/-- Raked steps that RK names (R268). -/
def rakeSteps (s : State) (rk : Nat) : Nat :=
  if rk = 0 then max s.plc.pace.latdet (max s.plc.pace.lattxt s.plc.pace.latmeas) + 1 else rk

/-- RAKE (R266-R268). -/
def rake (s : State) : State :=
  if !curIs s 0x0022 then s
  else if s.idle || s.pace.state == .aborted || s.pace.rakeAct then refuseCmd s 0x0D0E
  else
    let b := curBytes s
    finishCmd { s with pace := { s.pace with
      state := .stopped, stopByStep := false, rakeAct := true, rakeDrop := bitAt (numAt b 11 1) 0
      rakeLeft := rakeSteps s (numAt b 8 3) } } stDone 0

def execRake (s : State) : Host.Outcome State Fault Refusal := .next (rake s)

/-- ABORT: event 0x020A aborts the task. -/
def abortCmd (s : State) : State :=
  if !curIs s 0x0023 then s
  else if s.idle || s.pace.state == .aborted then wrongState s
  else finishCmd (event s 0x020A) stDone 0

def execAbort (s : State) : Host.Outcome State Fault Refusal := .next (abortCmd s)

/-! ## EPOCH (R372) -/

/-- EPOCH: at once, or by the next SYNC on port FPORT. -/
def epoch (s : State) : State :=
  if !curIs s 0x0040 || s.lk.follow.isSome then s
  else
    let b := curBytes s
    let v := BitVec.ofNat 64 (numAt b 8 8)
    let p := bits (numAt b 16 4) 1 2
    if bitAt (numAt b 16 4) 0 then
      (if s.idle && ((s.port p).isUp || (s.port p).state == .refused) then
        { s with lk := { s.lk with follow := some (p, v, s.devTime) } }
      else refuseCmd s 0x090B { srcid := p })
    else if s.idle then setEpoch s 0 v v.toNat
    else refuseCmd s 0x090B

def execEpoch (s : State) : Host.Outcome State Fault Refusal := .next (epoch s)

/-- EPOCH_FOLLOW_TIMEOUT: no SYNC within 100 µs. -/
def epochTimeout (s : State) : State :=
  match s.lk.follow with
  | none => s
  | some (p, _, t) =>
    if t + 100000 < s.devTime then refuseCmd { s with lk := { s.lk with follow := none } } 0x090B { srcid := p } else s

def execEpochFollowTimeout (s : State) : Host.Outcome State Fault Refusal := .next (epochTimeout s)

end Sys2Proof.Machine
end

