-- ==== Sys2Proof/Machine/Twin.lean ====
section
/-! DEFINITION. The twin manager's commands (18, R379-R389, R466) and the fault log's (R394). -/

namespace Sys2Proof.Machine

/-! ## TW_CFG (R381, R466, Table TWN-1) -/

/-- EN leads out of OFF, into OFF, or a write leads out of CONFLICT; in WAIT the port is checked at every write (Table TWN-1). -/
def twinMove (s : State) (was : Bool) : State :=
  let up := (s.port s.tw.port.toNat).isUp && (s.port s.tw.port.toNat).twin
  if !s.tw.en then
    { s with tw := { s.tw with state := .off, lead := false, fence := false, miss := 0, takePending := false, pair := {} } }
  else if !was then
    twinCheckPort (let s1 := { s with tw := { s.tw with state := .wait, miss := 0 } }
                   if up then sendRole s1 else s1)
  else if s.tw.state = .conflict then twinCheckPort { s with tw := { s.tw with state := .wait } }
  else if s.paired && !(s.port s.tw.port.toNat).isUp then twinCheckPort { s with tw := { s.tw with state := .wait, miss := 0 } }
  else twinCheckPort s

/-- A write of TW_CFG. -/
def twinCfg (s : State) (v : Word) : State :=
  let n := v.toNat
  twinMove { s with tw := { s.tw with
    en := bitAt n 0, shadow := bitAt n 1, port := BitVec.ofNat 2 (bits n 8 2), hbmiss := BitVec.ofNat 4 (bits n 12 4)
    tslead := BitVec.ofNat 8 (bits n 16 8) } } s.tw.en

/-- TW_ENABLE: TW_CFG is locked while PACE is not IDLE (R379). -/
def twEnable (s : State) (v : Word) : State := if s.idle then twinCfg s v else s

def execTwEnable (v : Word) (s : State) : Host.Outcome State Fault Refusal := .next (rowWrite s 0xA0000 fun s => twEnable s v)

/-! ## The messages that TW takes (R382) -/

/-- The oldest message that came on the port that TW_CFG names, taken off when it is of a subtype. -/
def takeTwin (s : State) (sub : Nat) : Option (List Word × State) :=
  match s.tw.rxq.find? fun m => m.1 == s.tw.port.toNat with
  | none => none
  | some m =>
    if bits (msgWord m.2 1) 24 8 = sub then some (m.2, { s with tw := { s.tw with rxq := s.tw.rxq.erase m } }) else none

/-- A formed pair (R381, R388). -/
def formPair (s : State) : State :=
  event { s with tw := { s.tw with state := .paired, lead := !s.tw.shadow, miss := 0, hbT := s.devTime } } 0x0A09

/-- ROLE: in WAIT the roles are compared. -/
def role (s : State) : State :=
  if !s.tw.en then s
  else
    match takeTwin s 1 with
    | none => s
    | some (ws, s1) =>
      let s2 := twinCheckPort s1
      if s2.tw.state ≠ .wait then s2
      else if bitAt (msgWord ws 1) 0 = s2.tw.shadow then event { s2 with tw := { s2.tw with state := .conflict } } 0x0A01
      else formPair s2

def execRole (s : State) : Host.Outcome State Fault Refusal := .next (role s)

/-- READY: the lead's condition for START. -/
def ready (s : State) : State :=
  match takeTwin s 2 with
  | none => s
  | some (_, s1) =>
    if s1.paired && s1.tw.lead then leadStart { s1 with tw := { s1.tw with pair := { s1.tw.pair with gotReady := true } } } else s1

def execReady (s : State) : Host.Outcome State Fault Refusal := .next (ready s)

/-- START: the shadow takes TS, at least 1 µs ahead. -/
def start (s : State) : State :=
  match takeTwin s 3 with
  | none => s
  | some (ws, s1) =>
    let ts := msgWord ws 2 + 2 ^ 32 * msgWord ws 3
    if s1.paired && !s1.tw.lead && s1.tw.pair.waiting && s1.tw.pair.ts.isNone then
      (if ts < s1.devTime + s1.timeOff + 1000 then refusePair s1
       else { s1 with tw := { s1.tw with pair := { s1.tw.pair with ts := some ts } } })
    else s1

def execStart (s : State) : Host.Outcome State Fault Refusal := .next (start s)

/-- The partner's step from its low 16 bits: the step nearest to the own one (R385). -/
def nearStep (own : BitVec 48) (lo : Nat) : BitVec 48 :=
  own + BitVec.ofInt 48 (signed 16 (lo + 2 ^ 16 - own.toNat % 2 ^ 16))

/-- DIGEST: the partner's check entry (R385-R387). -/
def digest (s : State) : State :=
  match takeTwin s 4 with
  | none => s
  | some (ws, s1) =>
    if s1.comparing then
      let i := bits (msgWord ws 2) 16 16
      let d := checkDef s1 i
      partnerEntry s1 { defn := i, step := nearStep s1.pace.step (bits (msgWord ws 2) 0 16), ordinal := bits (msgWord ws 1) 0 24
                        bytes := ((ws.drop 3).flatMap fun w => natLe 4 w.toNat).take d.flen }
    else s1

def execDigest (s : State) : Host.Outcome State Fault Refusal := .next (digest s)

/-- FIRST: the partner's FIRST row of a port view (R384). -/
def first (s : State) : State :=
  match takeTwin s 5 with
  | none => s
  | some (ws, s1) =>
    if s1.paired then
      let k := bits (msgWord ws 1) 0 4
      compareFirst { s1 with tw := { s1.tw with firstPeer := mset none s1.tw.firstPeer k (some (lget 0 ws 2)) } } k
    else s1

def execFirst (s : State) : Host.Outcome State Fault Refusal := .next (first s)

/-! ## Due entries and heartbeats -/

/-- Does step a exceed step b, modulo 2^48 (R49): is it one of the 2^47 − 1 steps after it? -/
def stepAfter (a b : BitVec 48) : Bool := a != b && decide ((a - b).toNat < 2 ^ 47)

/-- Is an entry due (R387)? -/
def entryDue (s : State) (e : CheckEntry) : Bool :=
  let w := (checkDef s e.defn).window
  let lim := e.step + BitVec.ofNat 48 (if w = 0 then 64 else w)
  stepAfter s.pace.step lim && stepAfter s.tw.pstep lim

/-- CHECK_ENTRY_DUE: an own or partner entry due and unmatched. -/
def checkDue (s : State) : State :=
  if s.comparing && !s.idle && s.pace.state != .aborted then
    match (s.tw.own ++ s.tw.partner).find? (entryDue s) with
    | some e => event s 0x0A08 (unmatchedArgs e 1)
    | none => s
  else s

def execCheckEntryDue (s : State) : Host.Outcome State Fault Refusal := .next (checkDue s)

/-- HEARTBEAT_MISS (R388): PERIOD has passed since the last heartbeat or miss. -/
def heartbeatMiss (s : State) : State :=
  if s.paired && decide (s.tw.hbT + s.pace.act.period.toNat ≤ s.devTime) then
    let n := s.tw.miss + 1
    let s1 := { s with tw := { s.tw with miss := n, hbT := s.tw.hbT + s.pace.act.period.toNat, hblost := satInc s.tw.hblost } }
    if !s.idle && decide ((if s.tw.hbmiss = 0 then 16 else s.tw.hbmiss.toNat) ≤ n) then partnerLost s1 else s1
  else s

def execHeartbeatMiss (s : State) : Host.Outcome State Fault Refusal := .next (heartbeatMiss s)

/-! ## The fault log (R394, Table TWN-6) -/

/-- An event record's 32 bytes (Table HST-6). -/
def eventBytes (r : EventRec) : List Byte :=
  natLe 2 r.code.toNat ++ [r.sev, r.srccls] ++ natLe 2 r.srcid.toNat ++ natLe 6 r.step.toNat ++ natLe 8 r.addr.toNat ++
  natLe 8 r.detail.toNat ++ natLe 4 r.eseq.toNat

/-- A fault-log entry's 64 bytes. -/
def logBytes (e : LogEntry) : List Byte :=
  eventBytes e.ev ++ natLe 2 e.tile.toNat ++ [e.ctx, 0] ++ natLe 2 e.instr.toNat ++ [0, 0] ++ natLe 4 e.count.toNat ++
  natLe 4 e.req.toNat ++ natLe 8 e.addr.toNat ++ natLe 8 e.time.toNat

/-- FLT_IDX_WRITE: an agent's write samples an entry into its FLT_DATA; zeros at or above COUNT. -/
def fltIdx (s : State) (a : Agent) (i : BitVec 9) : State :=
  let ws := match s.flt.log[i.toNat]? with
    | some e => (leWords 4 16 (logBytes e)).map (BitVec.ofNat 32)
    | none => List.replicate 16 0
  { s with flt := { s.flt with idx := mset 0 s.flt.idx (agentNo a) i, data := mset [] s.flt.data (agentNo a) ws } }

def execFltIdxWrite (a : Agent) (i : BitVec 9) (s : State) : Host.Outcome State Fault Refusal :=
  .next (rowAccess s a 0xF0008 true fun s => fltIdx s a i)

/-- FLT_CLEAR: the log is emptied and LOST cleared, but for a dump being written. -/
def fltClear (s : State) : State :=
  if s.flt.dumpState = .writing then s else { s with flt := { s.flt with log := [], lost := 0 } }

def execFltClear (s : State) : Host.Outcome State Fault Refusal := .next (rowWrite s 0xF0000 fltClear)

end Sys2Proof.Machine
end

