-- ==== Sys2Proof/Machine/HostIf.lean ====
section
/-! DEFINITION. The host interface (15): rings and doorbells, command fetch, records written to rings, host streams, BAR2, and the
attestation report (R428). -/

namespace Sys2Proof.Machine

/-! ## Rings (R323, R324, R326) -/

/-- Bytes of an entry of ring n. -/
def entrySize (n : Nat) : Nat := if n = 0 ∨ (2 ≤ n ∧ n ≤ 9) then 64 else 32

/-- Is the host the producer of ring n? -/
def hostProduces (n : Nat) : Bool := n == 0 || (decide (10 ≤ n) && decide (n ≤ 17))

/-- The byte address of entry index i of a ring. -/
def entryAddr (r : Ring) (n : Nat) (i : Word) : BitVec 64 :=
  BitVec.ofNat 64 (r.base.toNat + i.toNat % r.size * entrySize n)

/-- DOORBELL: 1 to the bound moves the index, 0 does nothing, anything else is ignored, counted and reported. -/
def doorbell (s : State) (n : Nat) (v : Word) : State :=
  let r := s.ring n
  let old := if hostProduces n then r.pi else r.ci
  let lim := if hostProduces n then r.size - r.used else r.used
  let d := (v - old).toNat
  let ignored := event (s.setRing n { r with baddb := satInc r.baddb }) 0x0202 { srcid := n, detail := two v.toNat old.toNat }
  if !r.en then ignored
  else if d = 0 then s
  else if d ≤ lim then s.setRing n (if hostProduces n then { r with pi := v } else { r with ci := v })
  else ignored

def execDoorbell (ring : Fin 26) (v : Word) (s : State) : Host.Outcome State Fault Refusal :=
  .next (rowWrite s (0x4010C + 0x20 * ring) fun s => doorbell s ring v)

/-- Is SZL in range for ring n? -/
def szlOk (n : Nat) (szl : BitVec 5) : Bool := decide (4 ≤ szl.toNat) && decide (szl.toNat ≤ (if n = 0 then 12 else 16))

/-- Does the enabled write-back block overlap a ring of n with this size? -/
def wbOverlaps (s : State) (n : Nat) (szl : BitVec 5) : Bool :=
  let b := (s.ring n).base.toNat
  s.hq.wbEn && decide (s.hq.wbAddr.toNat < b + 2 ^ szl.toNat * entrySize n) && decide (b < s.hq.wbAddr.toNat + 64)

/-- An index of the write-back block has changed. -/
def markWb (s : State) (n : Nat) : State := if n ≤ 9 then { s with hq := { s.hq with wbDirty := true } } else s

/-- RING_ENABLE: EN goes from 0 to 1. -/
def ringEnable (s : State) (n : Nat) (szl : BitVec 5) : State :=
  let r := s.ring n
  if r.en then s
  else if szlOk n szl && !wbOverlaps s n szl then
    let s1 := markWb (s.setRing n { r with en := true, szl := szl, pi := 0, ci := 0 }) n
    if 10 ≤ n ∧ n ≤ 17 then s1.setChan (n - 10) { s1.chan (n - 10) with buf := [] } else s1
  else event (s.setRing n { r with szl := szl }) 0x0204 { srcid := n }

def execRingEnable (ring : Fin 26) (szl : BitVec 5) (s : State) : Host.Outcome State Fault Refusal :=
  .next (rowWrite s (0x40100 + 0x20 * ring) fun s => ringEnable s ring szl)

/-- Is a ring locked against disabling (R326)? -/
def ringLocked (s : State) (n : Nat) : Bool :=
  !s.idle && ((decide (2 ≤ n) && decide (n ≤ 9)) || (decide (10 ≤ n) && decide (n ≤ 17) && chanUsed s (n - 10) true) ||
    (decide (18 ≤ n) && chanUsed s (n - 18) false))

/-- RING_DISABLE. -/
def ringDisable (s : State) (n : Nat) : State :=
  if ringLocked s n then s else s.setRing n { s.ring n with en := false }

def execRingDisable (ring : Fin 26) (s : State) : Host.Outcome State Fault Refusal :=
  .next (rowWrite s (0x40100 + 0x20 * ring) fun s => ringDisable s ring)

/-- HQ_CLRSTAT. -/
def hqClrstat (s : State) : State :=
  { s with hq := { s.hq with evlost := 0, rings := mapAll {} s.hq.rings fun _ r => { r with baddb := 0 } } }

def execHqClrstat (s : State) : Host.Outcome State Fault Refusal := .next (rowWrite s 0x40000 hqClrstat)

/-- WINDOW_BASE_WRITE. -/
def windowWrite (s : State) (g : BitVec 6) : State := { s with hq := { s.hq with win := g } }

def execWindowBaseWrite (g : BitVec 6) (s : State) : Host.Outcome State Fault Refusal := .next (rowWrite s 0x40008 fun s => windowWrite s g)

/-! ## Commands (R325, R329-R332) -/

/-- The bytes of a command entry that an opcode uses, as ranges; none for an undefined opcode (Table HST-5). -/
def cmdUsed : Nat → Option (List (Nat × Nat))
  | 0x0001 => some []
  | 0x0010 => some [(8, 4), (16, 16)]
  | 0x0020 => some [(8, 6)]
  | 0x0021 => some []
  | 0x0022 => some [(8, 4)]
  | 0x0023 => some []
  | 0x0030 => some [(8, 1)]
  | 0x0040 => some [(8, 12)]
  | 0x0050 => some [(8, 40)]
  | _ => none

/-- Are the operands of an opcode in their stated ranges, as far as the entry alone tells? -/
def operandsOk (opc : Nat) (b : List Byte) : Bool :=
  match opc with
  | 0x0010 => decide (numAt b 8 1 ≤ 1) && numAt b 16 8 % (if numAt b 8 1 = 0 then 256 else 16) == 0
  | 0x0022 => decide (numAt b 11 1 ≤ 1)
  | 0x0040 => decide (numAt b 16 4 < 8)
  | 0x0050 => numAt b 8 8 % 64 == 0
  | _ => true

/-- Is a command entry malformed (R329, R332)? -/
def cmdMalformed (b : List Byte) : Bool :=
  match cmdUsed (numAt b 0 2) with
  | none => true
  | some rs =>
    decide (1 < numAt b 4 4) || !operandsOk (numAt b 0 2) b ||
    ((List.range 56).any fun i => (lget 0 b (8 + i)) != 0 && !(rs.any fun r => decide (r.1 ≤ 8 + i) && decide (8 + i < r.1 + r.2)))

/-- An entry read: CI advances; a repeated SEQ has its kept completion written again, a malformed entry completes at once, any
other is the command under execution. -/
def takeCommand (s : State) (b : List Byte) : State :=
  let r := s.ring 0
  let i := r.ci
  let s1 := raiseSource (markWb (s.setRing 0 { r with ci := i + 1 }) 0) 0
  let opc := BitVec.ofNat 16 (numAt b 0 2)
  let seq := BitVec.ofNat 16 (numAt b 2 2)
  let cmd : Command := { opc := opc, seq := seq, quiet := bitAt (numAt b 4 4) 0, bytes := b, index := i, t := s.devTime }
  let run := { s1 with hq := { s1.hq with cur := some cmd } }
  match s.hq.kept with
  | some k =>
    if k.seq = seq then completion s1 k.opc k.seq k.status.toNat true k.evt.toNat i
    else if cmdMalformed b then malformedCmd run else run
  | none => if cmdMalformed b then malformedCmd run else run

/-- May the device read the next command entry (R331)? -/
def fetchDue (s : State) : Bool :=
  (s.ring 0).en && (s.ring 0).pi != (s.ring 0).ci && s.hq.cur.isNone && s.hq.cplWait.isNone && s.canRequest

/-- COMMAND_FETCH. -/
def commandFetch (s : State) (r : HostRead) : State :=
  if fetchDue s then
    match r with
    | .ok b => takeCommand s b
    | .failed =>
      let x := s.ring 0
      let a := (entryAddr x 0 x.ci).toNat
      event (s.setRing 0 { x with en := false }) 0x0206 { addr := a, detail := two a 0 }
  else s

def execCommandFetch (r : HostRead) (s : State) : Host.Outcome State Fault Refusal :=
  if (Instr.commandFetch r).wf then .next (commandFetch s r) else .fault .illFormed

/-! ## Records (R328, R336, R337) -/

/-- Write an entry at PI and advance PI. -/
def putEntry (s : State) (n : Nat) (b : List Byte) : State :=
  let r := s.ring n
  markWb { s.setRing n { r with pi := r.pi + 1 } with hostOut := .write (entryAddr r n r.pi) b :: s.hostOut } n

/-- What follows when the event queue has room again: the events lost, then the completion that waited (R331, R336). -/
def afterRoom (s : State) : State :=
  let s1 := if s.hq.lostNow = 0 then s
    else event { s with hq := { s.hq with lostNow := 0 } } 0x0203 { detail := two s.hq.lostNow.toNat 0 }
  match s1.hq.cplWait with
  | some (a, d) =>
    if s1.hq.evq.length < 256 then event { s1 with hq := { s1.hq with cplWait := none } } 0x0201 { addr := a, detail := d } else s1
  | none => s1

/-- EVENT_RECORD_WRITE: the oldest record of the queue goes to the event ring. -/
def eventWrite (s : State) : State :=
  match s.hq.evq with
  | [] => s
  | e :: r =>
    if ringRoom s 1 then
      afterRoom (raiseSource (putEntry { s with hq := { s.hq with evq := r } } 1 (eventBytes e)) 1)
    else s

def execEventRecordWrite (s : State) : Host.Outcome State Fault Refusal := .next (eventWrite s)

/-- RECORD_WRITE: the oldest result record goes to its ring; TW forms its check entries (R228, R337, R385). -/
def recordWrite (s : State) : State :=
  match s.pp.records with
  | [] => s
  | r :: rest =>
    let n := 2 + r.ring
    if ringRoom s n then
      checkRecord (raiseSource (putEntry { s with pp := { s.pp with records := rest } } n r.bytes) n) r
    else s

def execRecordWrite (s : State) : Host.Outcome State Fault Refusal := .next (recordWrite s)

/-! ## Host streams (R338-R340) -/

/-- The token of an inward entry (Table HST-12); a bubble's payload is all zero (R21). -/
def entryToken (b : List Byte) : Token :=
  let t := numAt b 16 1
  let p := if bitAt t 4 then 0 else BitVec.ofNat 128 (numAt b 0 16)
  { payload := p, par := parityOf p, bub := bitAt t 4, bseq := BitVec.ofNat 4 (bits t 0 4) }

/-- The entry of a token. -/
def tokenEntry (t : Token) : List Byte :=
  payBytes t.payload ++ [BitVec.ofNat 8 (t.bseq.toNat + 16 * b2n t.bub)] ++ List.replicate 15 0

/-- May channel c prefetch its next entry? -/
def streamDue (s : State) (c : Nat) : Bool :=
  let r := s.ring (10 + c)
  r.en && chanUsed s c true && !s.idle && s.pace.state != .aborted && s.canRequest && decide ((s.chan c).buf.length < 256) &&
  decide ((s.chan c).buf.length < r.used)

/-- HOST_STREAM_FETCH: the next inward entry enters the channel's buffer; a failed read aborts the task. -/
def streamFetch (s : State) (c : Nat) (r : HostRead) : State :=
  if streamDue s c then
    match r with
    | .ok b => s.setChan c { s.chan c with buf := (s.chan c).buf ++ [entryToken b] }
    | .failed =>
      let x := s.ring (10 + c)
      let a := (entryAddr x (10 + c) (x.ci + BitVec.ofNat 32 (s.chan c).buf.length)).toNat
      event s 0x020B { srcid := 10 + c, addr := a, detail := two a 0 }
  else s

def execHostStreamFetch (c : Fin 8) (r : HostRead) (s : State) : Host.Outcome State Fault Refusal :=
  if (Instr.hostStreamFetch c r).wf then .next (streamFetch s c r) else .fault .illFormed

/-- HOST_STREAM_WRITE: the oldest outward token goes to its ring. -/
def streamWrite (s : State) (c : Nat) : State :=
  match (s.chan c).outq with
  | [] => s
  | t :: r =>
    if ringRoom s (18 + c) then
      raiseSource (putEntry (s.setChan c { s.chan c with outq := r }) (18 + c) (tokenEntry t)) 14
    else s

def execHostStreamWrite (c : Fin 8) (s : State) : Host.Outcome State Fault Refusal := .next (streamWrite s c)

/-! ## BAR2 (R322, R292-R294) -/

/-- The LPDDR6 address of a BAR2 offset. -/
def bar2Addr (s : State) (off : Nat) : Nat := s.hq.win.toNat * 2 ^ 30 + off

/-- The byte enables of the first doubleword of an access, and its length in doublewords. -/
def accessBe (off len : Nat) : Nat := packN ((List.range 4).filterMap fun i => if off % 4 ≤ i ∧ i < off % 4 + len then some (i, 1) else none)
def accessDw (off len : Nat) : Nat := (off % 4 + len + 3) / 4

/-- A BAR2 access violates (Table MAP-2). -/
def bar2Violates (s : State) (code off len rid : Nat) (write : Bool) : State :=
  violate s { code := code, addr := bar2Addr s off, req := rid, space := 2, write := write, be := accessBe off len, ndw := accessDw off len }

/-- Does LPDDR6 answer an access? -/
def bar2Mapped (s : State) (off len : Nat) : Bool := s.mc.ready && decide (bar2Addr s off + len ≤ memSize s)

/-- BAR2_READ: payload bytes; an uncorrectable unit is marked poisoned (R291). -/
def bar2Read (s : State) (off len : Nat) (health : UnitHealth) (rid : Nat) : State :=
  let a := bar2Addr s off
  if !bar2Mapped s off len then { bar2Violates s 0x0102 off len rid false with answer := .abort }
  else
    let bs := memRead s.mc.mem a len
    match health with
    | .good => { s with answer := .bytes bs false }
    | .corrected => { corrected1 s (a / 16 * 16) with answer := .bytes bs false }
    | .uncorrectable =>
      { badRead s (a / 16 * 16) rid with answer := .bytes bs true }

def execBar2Read (off : Nat) (len : Nat) (health : UnitHealth) (rid : BitVec 16) (s : State) : Host.Outcome State Fault Refusal :=
  if (Instr.bar2Read off len health rid).wf then .next (bar2Read s off len health rid.toNat) else .fault .illFormed

/-- Is a write kept out (R237, R292)? -/
def bar2Kept (s : State) (off len : Nat) : Bool := memKept s (bar2Addr s off) len

/-- Store host bytes: every unit touched has BSEQ 0 and BUB 0 (R293). -/
def storeHost (m : Mc) (a : Nat) (bs : List Byte) : Mc :=
  { m with mem := memWrite m.mem a bs, side := m.side.filter fun p => !touches a bs.length (16 * p.1) 16 }

/-- A poisoned write TLP: dropped whole, its address logged (R322, R342). -/
def poisonedWrite (s : State) (addr : Nat) : State := event s 0x0207 { addr := addr, detail := two addr 0 }

/-- BAR2_WRITE. -/
def bar2Write (s : State) (off : Nat) (bs : List Byte) (poisoned : Bool) (rid : Nat) : State :=
  let a := bar2Addr s off
  if poisoned then poisonedWrite s a
  else if !bar2Mapped s off bs.length then bar2Violates s 0x0102 off bs.length rid true
  else if bar2Kept s off bs.length then bar2Violates s 0x0104 off bs.length rid true
  else { s with mc := storeHost s.mc a bs }

def execBar2Write (off : Nat) (bytes : List Byte) (poisoned : Bool) (rid : BitVec 16) (s : State) :
    Host.Outcome State Fault Refusal :=
  if (Instr.bar2Write off bytes poisoned rid).wf then .next (bar2Write s off bytes poisoned rid.toNat) else .fault .illFormed

/-! ## Attestation (R428, Table SEC-6) -/

/-- One byte. -/
def b1 (n : Nat) : List Byte := [BitVec.ofNat 8 n]

def twCode : TwState → Nat
  | .off => 0 | .wait => 1 | .paired => 2 | .conflict => 3 | .solo => 4

/-- PROG and REV of the four slots. -/
def slotBits (f : Fuses) (p : Fuses → Nat → Bool) : Nat := packN ((List.range 4).map fun k => (k, b2n (p f k)))

/-- The hash of the loaded image, 0 without one. -/
def imageHash (s : State) : BitVec 384 :=
  match s.loaded, s.cfg.image with
  | true, some im => im.hash
  | _, _ => 0

/-- The report's bytes 0 to 927. -/
def reportBody (s : State) (nonce : List Byte) : List Byte :=
  let f := s.sec.fuses
  padBytes 928 (b1 0x54 ++ b1 0x56 ++ b1 0x41 ++ b1 0x31 ++ natLe 2 1 ++ natLe 2 1024 ++ b1 (steppingCode s.glb.stepping) ++
    b1 (b2n s.glb.gradeI) ++ natLe 2 0 ++ natLe 4 s.sec.fwver.toNat ++ natLe 8 s.sec.fwsvn.toNat ++ natLe 8 f.arbFw ++
    natLe 8 f.arbImg ++ b1 (slotBits f slotProg + 16 * slotBits f slotRev) ++
    b1 (b2n s.sec.open_ + 16 * s.sec.kind.toNat) ++ b1 s.cfg.state.toNat ++ b1 s.cfg.plc.toNat ++ natLe 2 s.cfg.pos.toNat ++
    b1 (twCode s.tw.state) ++ b1 s.cfg.adr.toNat ++ natLe 48 s.sec.fwHash.toNat ++ natLe 48 (imageHash s).toNat ++
    natLe 48 Config.vroot.toNat ++ ((List.range 4).flatMap fun k => natLe 48 (slotHash f k).toNat) ++ padBytes 32 nonce ++
    natLe 8 s.time64 ++ natLe 6 s.pace.step.toNat ++ natLe 2 0 ++ natLe 16 Config.serial.toNat ++ padBytes 97 (Crypto.publicKey Config.idScalar))

/-- r and s of the report's bytes, signed with IDKEY. -/
def reportSign (body : List Byte) : List Byte :=
  let d := Crypto.sha384 body
  Crypto.sign Config.idScalar (Config.signNonce d) d

/-- ATTEST: the signed report is written to the host buffer. -/
def attest (s : State) : State :=
  if !curIs s 0x0050 then s
  else if s.sec.bootState ≠ 3 then refuseCmd s 0x0C08
  else if !s.canRequest then s
  else
    let b := curBytes s
    let body := reportBody s (slice b 16 32)
    let w : HostReq := .write (BitVec.ofNat 64 (numAt b 8 8)) (body ++ reportSign body)
    finishCmd { s with hostOut := w :: s.hostOut } stDone 0

def execAttest (s : State) : Host.Outcome State Fault Refusal := .next (attest s)

end Sys2Proof.Machine
end

