-- ==== Sys2Proof/Machine/Image.lean ====
section
/-! DEFINITION. The placement image (11, R232-R249): header, directory, chunks, tile blocks, and the load checks of rows 2 to 11
of Table IMG-12 in their order (R250). A failed check gives the event, the row and the image offset. -/

namespace Sys2Proof.Machine

/-- A failed load check: event code, row of Table IMG-12, value of CFG_LDLOC, and what the code's event table says is logged
besides (log entry 77). -/
structure LoadFail where
  code : Nat
  row : Nat
  loc : Nat
  more : List Nat := []
deriving DecidableEq, Repr

/-- The failure where a condition holds. -/
def failIf (p : Bool) (code row loc : Nat) (more : List Nat := []) : Option LoadFail :=
  if p then some { code := code, row := row, loc := loc, more := more } else none

/-- The first failure of a list of checks. -/
def firstFail {α : Type} (xs : List α) (f : α → Option LoadFail) : Option LoadFail := xs.findSome? f

/-! ## Header (Table IMG-1) -/

def imgSize (b : List Byte) : Nat := numAt b 8 8
def imgAdr (b : List Byte) : Nat := numAt b 20 1
def imgNplc (b : List Byte) : Nat := numAt b 21 1
def imgChainlen (b : List Byte) : Nat := numAt b 22 2
def imgFwmin (b : List Byte) : Nat := numAt b 24 4
def imgChk (b : List Byte) : Bool := bitAt (numAt b 28 4) 0
def imgIsvn (b : List Byte) : Nat := numAt b 32 8
def imgDiroff (b : List Byte) : Nat := numAt b 40 4
def imgDircnt (b : List Byte) : Nat := numAt b 44 4

/-- The offset of the signature block. -/
def imgSig (b : List Byte) : Nat := imgSize b - 256

/-- The image hash (R233). -/
def imgHash (b : List Byte) : BitVec 384 := hashOf (b.take (imgSig b))

/-- Row 2: the header is well formed, of the stated length n. -/
def row2 (b : List Byte) (n : Nat) : Option LoadFail :=
  failIf (numAt b 0 4 != 0x3149534A) 0x0301 2 0 <|> failIf (numAt b 4 2 != 1) 0x0301 2 4 <|>
  failIf (numAt b 6 2 != 256) 0x0301 2 6 <|>
  failIf (imgSize b % 16 != 0 || decide (imgSize b < 1024) || decide (2 ^ 29 < imgSize b) || imgSize b != n) 0x0301 2 8 <|>
  failIf (decide (2 ≤ numAt b 28 4)) 0x0301 2 28 <|> failIf (!zeroAt b 48 16) 0x0301 2 48 <|> failIf (!zeroAt b 128 128) 0x0301 2 128

/-- Does a stepping implement an ADR (Table SCP-2)? -/
def adrOk (x : Config.Stepping) (adr : Nat) : Bool := adr == 1 || (adr == 2 && x == .b0)

/-- Row 6: the signature block and the signature (R249, R423, R424). The offset is that of the failing field. -/
def row6 (f : Fuses) (b : List Byte) : Option LoadFail :=
  let o := imgSig b
  let k := numAt b (o + 4) 1
  failIf (numAt b o 4 != 0x31474953) 0x0305 6 o [k] <|>
  failIf (decide (3 < k) || !slotGood f k || slotDamaged f k) 0x0305 6 (o + 4) [k] <|>
  failIf (!zeroAt b (o + 5) 11) 0x0305 6 (o + 5) [k] <|> failIf (!zeroAt b (o + 113) 15) 0x0305 6 (o + 113) [k] <|>
  failIf (!zeroAt b (o + 224) 32) 0x0305 6 (o + 224) [k] <|>
  failIf (numAt b (o + 16) 1 != 4 || hashOf (slice b (o + 16) 97) != slotHash f k) 0x0305 6 (o + 16) [k] <|>
  failIf (!sigPasses (slice b (o + 16) 97) (slotHash f k) (imgHash b) (slice b (o + 128) 48) (slice b (o + 176) 48)) 0x0305 6 (o + 128) [k]

/-- Rows 2 to 7. -/
def headerChecks (s : State) (b : List Byte) (n : Nat) : Option LoadFail :=
  row2 b n <|> failIf (numAt b 16 4 != 0x8820) 0x0302 3 16 <|> failIf (!adrOk s.glb.stepping (imgAdr b)) 0x0303 4 20 [imgAdr b] <|>
  failIf (decide (s.sec.fwver.toNat < imgFwmin b)) 0x0304 5 24 <|> row6 s.sec.fuses b <|>
  failIf (decide (imgIsvn b < s.sec.fuses.arbImg)) 0x0306 7 32

/-! ## Directory (Tables IMG-2 and IMG-3) -/

/-- A directory entry; at is its own offset. -/
structure DirEntry where
  typ : Nat
  plc : Nat
  ctx : Nat
  member : Nat
  off : Nat
  len : Nat
  at_ : Nat
deriving DecidableEq, Repr

def dirEntry (b : List Byte) (i : Nat) : DirEntry :=
  let e := imgDiroff b + 16 * i
  { typ := numAt b e 2, plc := numAt b (e + 2) 1, ctx := numAt b (e + 3) 1, member := numAt b (e + 4) 2
    off := numAt b (e + 8) 4, len := numAt b (e + 12) 4, at_ := e }

/-- The entries, as many as the image has room for: row 8 refuses a count beyond it first. -/
def directory (b : List Byte) : List DirEntry := (List.range (min (imgDircnt b) (b.length / 16))).map (dirEntry b)

/-- The end of the directory. -/
def dirEnd (b : List Byte) : Nat := imgDiroff b + 16 * imgDircnt b

/-- The scope of a chunk type: 0 image, 1 placement and member, 2 placement, member and context. -/
def chunkScope (t : Nat) : Nat := if t = 1 then 0 else if t = 2 ∨ t = 3 ∨ t = 6 ∨ t = 10 then 1 else 2

/-- May several chunks of a type share one scope? -/
def chunkMany (t : Nat) : Bool := t == 5 || t == 6 || t == 7

/-- Is an entry well formed on its own? -/
def entryOk (b : List Byte) (e : DirEntry) : Bool :=
  decide (1 ≤ e.typ) && decide (e.typ ≤ 10) && zeroAt b (e.at_ + 6) 2 && e.off % 16 == 0 && e.len % 16 == 0 &&
  decide (256 ≤ e.off) && decide (e.off + e.len ≤ imgSig b) &&
  (e.len == 0 || decide (dirEnd b ≤ e.off) || decide (e.off + e.len ≤ imgDiroff b)) &&
  decide (e.plc < imgNplc b) && decide (e.member < imgChainlen b) &&
  (match chunkScope e.typ with
   | 0 => e.plc == 0 && e.member == 0 && e.ctx == 0xFF
   | 1 => e.ctx == 0xFF
   | _ => decide (e.ctx ≤ 3))

/-- Do two chunks overlap? -/
def chunksMeet (x y : DirEntry) : Bool := decide (x.off < y.off + y.len) && decide (y.off < x.off + x.len)

/-- Do two entries name one chunk of which there may be only one? -/
def sameChunk (x y : DirEntry) : Bool :=
  x.typ == y.typ && x.plc == y.plc && x.member == y.member && x.ctx == y.ctx && !chunkMany x.typ

/-- The first entry that stands in a relation to an earlier one. -/
def clashes (es : List DirEntry) (p : DirEntry → DirEntry → Bool) : Option LoadFail :=
  firstFail es.zipIdx fun x => failIf ((es.take x.2).any fun y => p x.1 y) 0x0307 8 x.1.at_

/-- The chunks of a type, placement and member. -/
def chunksOf (es : List DirEntry) (typ plc member : Nat) : List DirEntry :=
  es.filter fun e => e.typ == typ && e.plc == plc && e.member == member

/-- The bytes of a chunk. -/
def chunkBytes (b : List Byte) (e : DirEntry) : List Byte := slice b e.off e.len

/-- Are the entries of a list all different? -/
def allDistinct : List Nat → Bool
  | [] => true
  | x :: r => !r.contains x && allDistinct r

/-- The contexts that a section map uses, in section order. -/
def mapCtxs (m : List Byte) : List Nat := (List.range (numAt m 0 1)).map fun k => numAt m (2 + k) 1

/-- Is a section map well formed (R239)? -/
def secmapOk (m : List Byte) : Bool :=
  m.length == 16 && decide (1 ≤ numAt m 0 1) && decide (numAt m 0 1 ≤ 4) && decide (numAt m 1 1 ≤ 1) && zeroAt m 6 10 &&
  (mapCtxs m).all (fun c => decide (c ≤ 3)) && allDistinct (mapCtxs m)

/-- The placement and member pairs, ascending. -/
def dirPairs (b : List Byte) (es : List DirEntry) : List (Nat × Nat) :=
  (List.range (imgNplc b)).flatMap fun p => ((List.range (imgChainlen b)).filter fun m =>
    es.any fun e => e.typ != 1 && e.plc == p && e.member == m).map fun m => (p, m)

/-- The contexts that the section map of a pair names, where it is well formed. -/
def pairCtxs (b : List Byte) (es : List DirEntry) (p m : Nat) : Option (List Nat) :=
  match chunksOf es 2 p m with
  | [] => none
  | e :: _ => if secmapOk (chunkBytes b e) then some (mapCtxs (chunkBytes b e)) else none

/-- The chunks that a pair with any chunk must have (Table IMG-3). -/
def pairMissing (b : List Byte) (es : List DirEntry) (p m : Nat) : Bool :=
  (chunksOf es 2 p m).isEmpty || (chunksOf es 3 p m).isEmpty ||
  (match pairCtxs b es p m with
   | none => false
   | some cs => cs.any fun c =>
       !((chunksOf es 4 p m).any fun e => e.ctx == c) || !((chunksOf es 5 p m).any fun e => e.ctx == c))

/-- Is a chunk of a context that its pair's section map does not name? -/
def ctxSurplus (b : List Byte) (es : List DirEntry) (e : DirEntry) : Bool :=
  chunkScope e.typ == 2 &&
  (match pairCtxs b es e.plc e.member with
   | none => false
   | some cs => !cs.contains e.ctx)

/-- Is a byte inside the header, the directory, a chunk or the signature block? -/
def covered (b : List Byte) (es : List DirEntry) (i : Nat) : Bool :=
  decide (i < 256) || (decide (imgDiroff b ≤ i) && decide (i < dirEnd b)) || decide (imgSig b ≤ i) ||
  es.any fun e => decide (e.off ≤ i) && decide (i < e.off + e.len)

/-- The first non-zero byte outside them. -/
def strayByte (b : List Byte) (es : List DirEntry) : Option LoadFail :=
  firstFail b.zipIdx fun x => failIf (x.1 != 0 && !covered b es x.2) 0x0307 8 x.2

/-- Row 8. -/
def row8 (b : List Byte) : Option LoadFail :=
  let es := directory b
  failIf (imgDircnt b == 0 || decide (65536 < imgDircnt b)) 0x0307 8 44 <|>
  failIf (imgDiroff b % 16 != 0 || decide (imgDiroff b < 256) || decide (imgSig b < dirEnd b)) 0x0307 8 40 <|>
  firstFail es (fun e => failIf (!entryOk b e) 0x0307 8 e.at_) <|>
  clashes es (fun x y => x.len != 0 && y.len != 0 && chunksMeet x y) <|>
  clashes es sameChunk <|>
  failIf (!(es.any fun e => e.typ == 1) || (dirPairs b es).any fun x => pairMissing b es x.1 x.2) 0x0307 8 (imgDiroff b) <|>
  firstFail es (fun e => failIf (ctxSurplus b es e) 0x0307 8 e.at_) <|> strayByte b es

/-! ## Placements (R235, R236, R239) -/

/-- The offset of the placement table. -/
def pltabOff (es : List DirEntry) : Nat :=
  match es.find? fun e => e.typ == 1 with
  | some e => e.off
  | none => 0

def pltabLen (es : List DirEntry) : Nat :=
  match es.find? fun e => e.typ == 1 with
  | some e => e.len
  | none => 0

/-- MISSING of a placement. -/
def plcMissing (b : List Byte) (p : Nat) : Nat := numAt b (pltabOff (directory b) + 16 * p + 4) 2

/-- The placements that this chain position takes part in. -/
def ownPlcs (b : List Byte) (pos : Nat) : List Nat := (List.range (imgNplc b)).filter fun p => plcMissing b p != pos

/-- Is a placement table entry well formed? -/
def pltabEntryOk (b : List Byte) (p : Nat) : Bool :=
  let o := pltabOff (directory b) + 16 * p
  numAt b o 1 == p && zeroAt b (o + 1) 1 && numAt b (o + 2) 2 == imgChainlen b && zeroAt b (o + 6) 10 &&
  (if p = 0 then plcMissing b 0 == 0xFFFF
   else decide (plcMissing b p < imgChainlen b) && (List.range p).all fun q => plcMissing b q != plcMissing b p)

/-- The offset of a chunk of this position, 0 without one. -/
def chunkOff (es : List DirEntry) (typ plc pos : Nat) : Nat :=
  match chunksOf es typ plc pos with
  | [] => 0
  | e :: _ => e.off

/-- The first chunk of a type for a placement and this position. -/
def chunkOf (b : List Byte) (es : List DirEntry) (typ plc pos : Nat) : List Byte :=
  match chunksOf es typ plc pos with
  | [] => []
  | e :: _ => chunkBytes b e

/-- Row 9: the placement and position named (R236), then the placement table and the section maps. -/
def row9 (b : List Byte) (plc pos : Nat) : Option LoadFail :=
  let es := directory b
  let o := pltabOff es
  failIf (decide (imgChainlen b ≤ pos)) 0x030B 9 22 <|> failIf (decide (imgNplc b ≤ plc)) 0x030B 9 21 <|>
  failIf (plcMissing b plc == pos) 0x030B 9 (o + 16 * plc + 4) <|>
  failIf (decide (16 < imgNplc b)) 0x030B 9 21 <|> failIf (pltabLen es != 16 * imgNplc b) 0x030B 9 o <|>
  firstFail (List.range (imgNplc b)) (fun p => failIf (!pltabEntryOk b p) 0x030B 9 (o + 16 * p)) <|>
  firstFail (List.range (imgNplc b)) (fun p =>
    firstFail es (fun e => failIf (e.typ != 1 && e.plc == p && e.member == plcMissing b p) 0x030B 9 e.at_) <|>
    failIf ((List.range (imgChainlen b)).any fun m => m != plcMissing b p && (chunksOf es 2 p m).isEmpty) 0x030B 9 (imgDiroff b)) <|>
  firstFail (ownPlcs b pos) (fun p => failIf (!secmapOk (chunkOf b es 2 p pos)) 0x030B 9 (chunkOff es 2 p pos))

/-! ## Pace parameters (R240, Table IMG-5) -/

def paceChunk (c : List Byte) : PaceChunk :=
  { period := numAt c 0 4, pmin := numAt c 4 4, window := numAt c 8 4, hallow := numAt c 12 4, laglim := numAt c 16 4
    holdlim := numAt c 20 4, mode := BitVec.ofNat 8 (numAt c 24 1), vplan := BitVec.ofNat 8 (numAt c 25 1)
    wdog := BitVec.ofNat 8 (numAt c 26 1), latdet := numAt c 28 4, lattxt := numAt c 32 4, latmeas := numAt c 36 4 }

/-- Row 10 for one PACE chunk at offset o. -/
def paceFail (c : List Byte) (o : Nat) : Option LoadFail :=
  let x := paceChunk c
  failIf (c.length != 64) 0x030A 10 o <|> failIf (decide (2 < x.mode.toNat)) 0x030A 10 (o + 24) <|>
  failIf (decide (15 < x.vplan.toNat)) 0x030A 10 (o + 25) <|> failIf (!zeroAt c 27 1) 0x030A 10 (o + 27) <|>
  failIf (!zeroAt c 40 24) 0x030A 10 (o + 40) <|>
  failIf (decide (x.period < 500) || decide (2 ^ 24 ≤ x.period)) 0x030A 10 o <|>
  failIf (decide (x.pmin < 500) || decide (x.period < x.pmin)) 0x030A 10 (o + 4) <|>
  failIf (x.window == 0 || decide (x.period < x.window)) 0x030A 10 (o + 8) <|>
  failIf (decide (2 ^ 24 ≤ x.laglim)) 0x030A 10 (o + 16) <|> failIf (decide (2 ^ 24 ≤ x.holdlim)) 0x030A 10 (o + 20)

def row10 (b : List Byte) (pos : Nat) : Option LoadFail :=
  let es := directory b
  firstFail (ownPlcs b pos) fun p => paceFail (chunkOf b es 3 p pos) (chunkOff es 3 p pos)

/-! ## Bed tables and tile blocks (R241-R243) -/

/-- A bed table entry with its offset. -/
def bedEntry (b : List Byte) (o : Nat) : BedDef :=
  { bed := BitVec.ofNat 8 (numAt b o 1), flags := BitVec.ofNat 8 (numAt b (o + 1) 1), ntile := BitVec.ofNat 16 (numAt b (o + 2) 2)
    label := slice b (o + 16) 16, wrec := slice b (o + 32) 32 }

/-- The chunk of a type, placement, position and context. -/
def ctxChunks (es : List DirEntry) (typ plc pos ctx : Nat) : List DirEntry :=
  (chunksOf es typ plc pos).filter fun e => e.ctx == ctx

/-- The beds of a context, each with its offset. -/
def bedsAt (b : List Byte) (es : List DirEntry) (plc pos ctx : Nat) : List (Nat × BedDef) :=
  (ctxChunks es 4 plc pos ctx).flatMap fun e => (List.range (e.len / 64)).map fun i => (e.off + 64 * i, bedEntry b (e.off + 64 * i))

def BedDef.hasRecord (d : BedDef) : Bool := bitAt d.flags.toNat 0

/-- n words of 8 bytes. -/
def wordsAt (b : List Byte) (o n : Nat) : List (BitVec 64) := (leWords 8 n (slice b o (8 * n))).map (BitVec.ofNat 64)

/-- A tile block at an offset (Table IMG-7). -/
def blockAt (b : List Byte) (o : Nat) : TileBlock :=
  let ni := numAt b (o + 4) 2
  let nc := numAt b (o + 6) 2
  { tile := BitVec.ofNat 16 (numAt b o 2), kind := BitVec.ofNat 8 (numAt b (o + 2) 1), bed := BitVec.ofNat 8 (numAt b (o + 3) 1)
    claimed := bitAt (numAt b (o + 44) 1) 0, qcore := numAt b (o + 8) 4
    qport := (List.range 8).map fun k => numAt b (o + 12 + 4 * k) 4
    route := BitVec.ofNat 64 (numAt b (o + 48) 8), edesc := BitVec.ofNat 64 (numAt b (o + 56) 8)
    instrs := wordsAt b (o + 64) ni, consts := wordsAt b (o + 64 + 8 * ni) nc, off := o, ninstr := ni, nconst := nc }

/-- Bytes of a block. -/
def blockSize (x : TileBlock) : Nat := 64 + 8 * (x.ninstr + x.nconst)

/-- Parse the blocks of a chunk from o with n bytes left: the blocks, and where the parse fails (R242). -/
def parseBlocks (b : List Byte) : Nat → Nat → Nat → List TileBlock × Option Nat
  | 0, _, _ => ([], none)
  | fuel + 1, o, n =>
    if n < 64 then ([], if n ≤ 8 && zeroAt b o n then none else some o)
    else
      let x := blockAt b o
      if 256 < x.ninstr ∨ 127 < x.nconst ∨ n < blockSize x then ([], some o)
      else
        let (r, f) := parseBlocks b fuel (o + blockSize x) (n - blockSize x)
        (x :: r, f)

/-- The blocks of a context, and the first failure of its chunks. -/
def ctxBlocks (b : List Byte) (es : List DirEntry) (plc pos ctx : Nat) : List TileBlock × Option Nat :=
  (ctxChunks es 5 plc pos ctx).foldl (fun acc e =>
    match acc.2 with
    | some _ => acc
    | none =>
      let (r, f) := parseBlocks b (e.len / 64 + 1) e.off e.len
      (acc.1 ++ r, f)) ([], none)

/-- The blocks of a context in ascending tile ID. -/
def sortBlocks (bs : List TileBlock) : List TileBlock := sortBy (fun x => x.tile.toNat) bs

/-- Are the bits of a tile ID beyond its coordinates 0 (R242)? -/
def tileIdOk (i : Nat) : Bool := if isEdgeId i then bits i 5 8 == 0 else bits i 10 5 == 0

/-- KIND of a tile ID (Tables IMG-7 and TRL-1). -/
def kindOfId (i : Nat) : Nat :=
  if isEdgeId i then 6
  else match tileKind i with
    | .m => 1 | .f => 2 | .s => 3 | .w => 4 | .q => 5

/-- The port of a binding word bound to a queue (Table MEM-2). -/
def portBound (w k : Nat) : Bool := decide (1 ≤ bits w (5 * k) 5) && decide (bits w (5 * k) 5 ≤ 16)

/-- A constant of a block, 0 beyond those it supplies (R242). -/
def TileBlock.const (x : TileBlock) (k : Nat) : Nat := (lget 0 x.consts k).toNat

/-- The quota of a port of a block. -/
def TileBlock.quota (x : TileBlock) (k : Nat) : Nat := lget 0 x.qport k

/-- The quota rules of R45, R145, R242 and R243. -/
def quotasOk (x : TileBlock) : Bool :=
  let i := x.tile.toNat
  if isEdgeId i then
    x.ninstr == 0 && x.nconst == 0 && x.qcore == 0 && [1, 2, 3, 5, 6, 7].all (fun k => x.quota k == 0) &&
    decide (x.quota 0 ≤ 65536) && decide (x.quota 4 ≤ 65536) && (x.claimed || (x.quota 0 == 0 && x.quota 4 == 0))
  else if !x.claimed then x.ninstr == 0 && x.nconst == 0 && x.qcore == 0 && x.qport.all (fun q => q == 0)
  else
    decide (1 ≤ x.qcore) && decide (x.qcore ≤ 65536) &&
    (if tileKind i = .s then
      (List.range 8).all fun k =>
        if portBound (x.const 126) k then decide (1 ≤ x.quota k) && decide (x.quota k ≤ 65536) else x.quota k == 0
     else x.qport.all fun q => q == 0)

/-- Is a block well formed, of beds ids? -/
def blockOk (b : List Byte) (ids : List Nat) (x : TileBlock) : Bool :=
  let i := x.tile.toNat
  tileIdOk i && x.kind.toNat == kindOfId i && decide (numAt b (x.off + 44) 1 ≤ 1) && zeroAt b (x.off + 45) 3 &&
  (isEdgeId i || x.edesc == 0) && (!x.claimed || ids.contains x.bed.toNat) && quotasOk x

/-- Is a bed table entry well formed on its own (R241)? -/
def bedOk (b : List Byte) (x : Nat × BedDef) : Bool :=
  decide (x.2.flags.toNat < 4) && zeroAt b (x.1 + 4) 12 && (x.2.hasRecord || zeroAt b (x.1 + 32) 32)

/-- Row 11 for one context. -/
def row11Ctx (b : List Byte) (es : List DirEntry) (plc pos ctx : Nat) : Option LoadFail :=
  let beds := bedsAt b es plc pos ctx
  let ids := beds.map fun x => x.2.bed.toNat
  let (bs, f) := ctxBlocks b es plc pos ctx
  let sorted := sortBlocks bs
  firstFail (ctxChunks es 4 plc pos ctx) (fun e => failIf (e.len % 64 != 0) 0x0308 11 e.off) <|>
  firstFail beds.zipIdx (fun x => failIf (!bedOk b x.1 || (ids.take x.2).contains x.1.2.bed.toNat) 0x0308 11 x.1.1) <|>
  f.bind (fun o => failIf true 0x0308 11 o) <|>
  firstFail sorted.zipIdx (fun x =>
    failIf (!blockOk b ids x.1 || (sorted.take x.2).any fun y => y.tile == x.1.tile) 0x0308 11 x.1.off) <|>
  firstFail beds (fun x => failIf ((bs.filter fun y => y.claimed && y.bed == x.2.bed).length != x.2.ntile.toNat) 0x0308 11 x.1)

/-! ## Each context of each placement of this position, in the order of R250 -/

/-- The contexts of a placement, ascending. -/
def ctxsOf (b : List Byte) (es : List DirEntry) (plc pos : Nat) : List Nat :=
  sortBy id (mapCtxs (chunkOf b es 2 plc pos))

/-- Run a check over placements, then contexts. -/
def perCtx (b : List Byte) (pos : Nat) (f : Nat → Nat → Option LoadFail) : Option LoadFail :=
  firstFail (ownPlcs b pos) fun p => firstFail (ctxsOf b (directory b) p pos) fun c => f p c

def row11 (b : List Byte) (pos : Nat) : Option LoadFail := perCtx b pos fun p c => row11Ctx b (directory b) p pos c

end Sys2Proof.Machine
end

