-- ==== Sys2Proof/Machine/QTile.lean ====
section
/-! DEFINITION. The Q tile: ROT, KVQ, DSC, DEQ, SCO, QNT, TAG (06, R115-R134). -/

namespace Sys2Proof.Machine

/-! ## Descriptors (R129) -/

structure QDesc where
  a : Nat
  b : Nat
deriving DecidableEq, Repr

def QDesc.qf (d : QDesc) : Nat := bits d.a 58 2
def QDesc.n (d : QDesc) : Nat := 32 * 2 ^ bits d.a 56 2
def QDesc.rote (d : QDesc) : Bool := bitAt d.a 55
def QDesc.norm (d : QDesc) : Nat := bits d.a 53 2
def QDesc.af (d : QDesc) : FloatFmt := fmtOfCode (bits d.a 51 2)
def QDesc.of_ (d : QDesc) : FloatFmt := fmtOfCode (bits d.a 49 2)
def QDesc.nb (d : QDesc) : Nat := bits d.a 42 7 + 1
def QDesc.nch (d : QDesc) : Nat := bits d.a 35 7 + 1
def QDesc.adp (d : QDesc) : Bool := bitAt d.a 34
def QDesc.satth (d : QDesc) : Nat := bits d.a 0 11
/-- Transport format: T8 or I8 rather than K4 or V4. -/
def QDesc.transport (d : QDesc) : Bool := decide (2 ≤ d.qf)
/-- Elements per input token. -/
def QDesc.per (d : QDesc) : Nat := if d.af = .fp32 then 4 else 8

def qDesc (g : GridTile) (w : BitVec 64) : QDesc := { a := g.const (bits (iOpnd w) 0 7), b := g.const (bits (iOpnd w) 0 7 + 1) }

def qConsts (_ : GridTile) (w : BitVec 64) : List Nat := [bits (iOpnd w) 0 7, bits (iOpnd w) 0 7 + 1]

/-! ## The rotation (R117) -/

/-- One stage of butterflies at distance h. -/
def hadamardStage (h : Nat) (xs : List Nat) : List Nat :=
  (List.range xs.length).map fun k =>
    if k / h % 2 = 0 then fadd32 (lget 0 xs k) (lget 0 xs (k + h)) else fsub32 (lget 0 xs (k - h)) (lget 0 xs k)

/-- The transform of n = 32, 64 or 128 FP32 values. -/
def hadamard (n : Nat) (xs : List Nat) : List Nat :=
  ([1, 2, 4, 8, 16, 32, 64].filter fun h => h < n).foldl (fun ys h => hadamardStage h ys) xs

/-- The factor of Table ROT-2. -/
def normFactor (norm n : Nat) : Option Nat :=
  if norm = 1 then some (if n = 32 then 0x3E3504F3 else if n = 64 then 0x3E000000 else 0x3DB504F3)
  else if norm = 2 then some (FloatFmt.fp32.round ({ num := 1, den := n } : Frac))
  else none

/-- The rotation with its normalisation. -/
def rotateBlock (n norm : Nat) (xs : List Nat) : List Nat :=
  match normFactor norm n with
  | some f => (hadamard n xs).map fun x => fmul32 x f
  | none => hadamard n xs

/-! ## The block buffer -/

/-- Write a token's elements into the buffer, widened exactly to FP32. -/
def bufWrite (f : FloatFmt) (per base : Nat) (tok : Token) (buf : AMap Word) : AMap Word :=
  (List.range per).foldl (fun b l =>
    mset 0 b (base + l) (BitVec.ofNat 32 (convert f .fp32 (f.finite (tokElem tok f.width l))))) buf

/-- The block in the buffer. -/
def bufRead (buf : AMap Word) (n : Nat) : List Nat := (List.range n).map fun k => (mget 0 buf k).toNat

/-- Data tokens of a list of values in a format. -/
def valueTokens (f : FloatFmt) (ctx : BitVec 2) (bseq : BitVec 4) (vs : List Nat) : List Token :=
  let per := 128 / f.width
  (List.range ((vs.length + per - 1) / per)).map fun t =>
    mkToken (mkPayload f.width ((vs.drop (per * t)).take per)) .none ctx bseq

/-- n bubbles. -/
def bubbles (n : Nat) (ctx : BitVec 2) (bseq : BitVec 4) : List Token := List.replicate n (mkBubble .none ctx bseq)

/-- Note the markers consumed until a closing firing (R132). -/
def keepMark (g : GridTile) (closing : Bool) (ts : List (Nat × Token)) : GridTile :=
  { g with closeMark := if closing then .none else markMax g.closeMark (maxMark (toksOf ts)) }

/-- Non-finite lanes of a token. -/
def qNonfin (f : FloatFmt) (tok : Token) (n : Nat) : Nat :=
  ((List.range n).filter fun l => f.nonFinite (tokElem tok f.width l)).length

/-! ## Saturation counters (R127, R128) -/

/-- Count a saturation of counter c; the flag says that it went from the threshold or less to more (R128). -/
def countSat (q : QState) (d : QDesc) (c : Nat) : QState × Bool :=
  let old := mget 0 q.satc c
  let v := satInc old
  let th := d.satth * 1024
  let pass := d.satth != 0 && decide (old.toNat ≤ th) && decide (th < v.toNat) && !(mget false q.fired c)
  ({ q with satc := mset 0 q.satc c v
            fired := if pass then mset false q.fired c true else q.fired
            stepsat := if d.adp && d.transport then mset 0 q.stepsat c (min (mget 0 q.stepsat c + 1) 255) else q.stepsat },
   pass)

/-- Count the saturations of a list of counters; the counters whose threshold was passed. -/
def countSats (q : QState) (d : QDesc) : List Nat → QState × List (Nat × Nat)
  | [] => (q, [])
  | c :: r =>
    let (q1, p) := countSat q d c
    let (q2, ws) := countSats q1 d r
    (q2, if p then (0x0602, c) :: ws else ws)

/-! ## ROT -/

/-- Firings of a block, and whether this one closes it (R131). -/
def blockFirings (d : QDesc) : Nat := d.n / d.per
def blockCloses (g : GridTile) (d : QDesc) : Bool := (g.rep + 1) % blockFirings d == 0

/-- The tile after one more token of a block: the entries written carry right parity, and whether all its tokens so far are bubbles
under BUBM = skip is noted. -/
def fillBlock (g : GridTile) (w : BitVec 64) (d : QDesc) (tok : Token) : GridTile :=
  let f := g.rep % blockFirings d
  ({ g with q := { g.q with buf := bufWrite d.af d.per (f * d.per) tok g.q.buf
                            bufBub := (f == 0 || g.q.bufBub) && tok.bub && iBubm w == 0 } }).cleanAll .qbuf
    ((List.range d.per).map fun l => f * d.per + l)

/-- The block that a closing firing reads: a wrong parity of an entry (R115). -/
def blockParityFaults (g : GridTile) (d : QDesc) : List FireFault :=
  parityFaults g 0x0604 ((List.range d.n).map fun k => (StoreId.qbuf, k))

/-- The counters that saturations read: a wrong parity of one (R115). -/
def satFaults (g : GridTile) (cs : List Nat) : List FireFault := parityFaults g 0x0604 (cs.map fun c => (StoreId.qcnt, c))

/-- Tokens of n values in a format. -/
def tokensOf (f : FloatFmt) (n : Nat) : Nat := n * f.width / 128

def rotPlan (s : State) (g : GridTile) (w : BitVec 64) (ts : List (Nat × Token)) : Plan :=
  let d := qDesc g w
  let tok := tokAt ts 0
  let gf := fillBlock g w d tok
  let q := gf.q
  let closes := blockCloses g d
  let ys := rotateBlock d.n d.norm (bufRead q.buf d.n)
  let m := lastMark s.pace.rank g w ts
  let bs := copyBseq ts
  let out := if q.bufBub then bubbles (tokensOf d.of_ d.n) g.cur bs
    else valueTokens d.of_ g.cur bs (ys.map fun y => if d.of_ = .fp32 then y else convert .fp32 d.of_ y)
  { g := keepMark gf closes ts
    faults := if closes then blockParityFaults gf d else []
    out := if closes then [(0, markLast m out)] else []
    nonfin := qNonfin d.af tok d.per
    closes := closes }

/-- Room for the tokens of a firing that may close a block. -/
def rotReady (s : State) (g : GridTile) (w : BitVec 64) : Bool :=
  let d := qDesc g w
  !blockCloses g d || roomFor s.adr .q g (iOut w) (tokensOf d.of_ d.n)

def rotFire (s : State) (t : Nat) : State := fire s t .q 1 (rotReady s) qConsts rotPlan

def execRot (t : Fin 1024) (s : State) : Host.Outcome State Fault Refusal := .next (rotFire s t)

/-! ## KVQ (R118, R119) -/

/-- The scale of a block: the FP16 nearest m / 7 (R118). -/
def kvScale (ys : List Nat) : Nat :=
  FloatFmt.fp16.round ((maxAbs (ys.map FloatFmt.fp32.value)).div (Frac.ofInt 7))

/-- Level and saturation of each element. -/
def kvLevels (ys : List Nat) (sc : Nat) : List (Int × Bool) :=
  ys.map fun y => quantLevel (-8) 7 (FloatFmt.fp32.value y) (FloatFmt.fp16.value sc)

/-- The scale tokens of a vector: a bubble only when every block it covers was all-bubble (R132). -/
def scaleTokens (ctx : BitVec 2) (bt : BitVec 4) (scs : List (BitVec 16 × Bool)) : List Token :=
  (List.range ((scs.length + 7) / 8)).map fun u =>
    let part := (scs.drop (8 * u)).take 8
    if part.all fun x => x.2 then mkBubble .none ctx bt
    else mkToken (mkPayload 16 (part.map fun x => x.1.toNat)) .none ctx bt

/-- The places of the elements that saturated. -/
def satPlaces (ls : List (Int × Bool)) : List Nat := (ls.zipIdx.filter fun x => x.1.2).map fun x => x.2

/-- Level tokens: 32 levels of 4 bits each. -/
def levelTokens (ctx : BitVec 2) (bt : BitVec 4) (ls : List (Int × Bool)) : List Token :=
  (List.range (ls.length / 32)).map fun t =>
    mkToken (mkPayload 4 (((ls.drop (32 * t)).take 32).map fun x => (x.1 % 16).toNat)) .none ctx bt

/-- Does this closing firing end the vector? -/
def vectorEnds (g : GridTile) (d : QDesc) : Bool := blockCloses g d && (g.rep + 1) / blockFirings d % d.nb == 0

def kvqPlan (s : State) (g : GridTile) (w : BitVec 64) (ts : List (Nat × Token)) : Plan :=
  let d := qDesc g w
  let tok := tokAt ts 0
  let gf := fillBlock g w d tok
  let q := gf.q
  let base : Plan := { g := keepMark gf false ts, nonfin := qNonfin d.af tok d.per, closes := false }
  if blockCloses g d then
    let xs := bufRead q.buf d.n
    let ys := if d.rote then rotateBlock d.n d.norm xs else xs
    let sc := kvScale ys
    let ls := kvLevels ys sc
    let m := lastMark s.pace.rank g w ts
    let scs := q.scales ++ [if q.bufBub then (0, true) else (BitVec.ofNat 16 sc, false)]
    let vend := vectorEnds g d
    let (q1, ws) := if q.bufBub then (q, []) else countSats q d (satPlaces ls)
    let q2 := { q1 with scales := if vend then [] else scs, bt := if vend then q1.bt + 1 else q1.bt }
    let lv := if q.bufBub then bubbles (d.n / 32) g.cur q.bt else levelTokens g.cur q.bt ls
    { g := keepMark { gf with q := q2 } true ts
      faults := blockParityFaults gf d ++ (if q.bufBub then [] else satFaults gf (satPlaces ls))
      out := (0, markLast m lv) :: (if vend then [(1, markLast m (scaleTokens g.cur q.bt scs))] else [])
      nonfin := base.nonfin, warns := ws }
  else base

def kvqReady (s : State) (g : GridTile) (w : BitVec 64) : Bool :=
  let d := qDesc g w
  !blockCloses g d || (roomOn s.adr .q g 0 (d.n / 32) && (!vectorEnds g d || roomOn s.adr .q g 1 ((d.nb + 7) / 8)))

def kvqFire (s : State) (t : Nat) : State := fire s t .q 2 (kvqReady s) qConsts kvqPlan

def execKvq (t : Fin 1024) (s : State) : Host.Outcome State Fault Refusal := .next (kvqFire s t)

/-! ## DSC (R124, R125) -/

/-- The scale-skew fault (R124): RT, 16 for empty, and the offending BSEQ. -/
def skewFault (rt : Option (BitVec 4)) (b : BitVec 4) : List FireFault :=
  match rt with
  | some r => if r = b then [] else [{ code := 0x0601, d0 := r.toNat, d1 := b.toNat }]
  | none => [{ code := 0x0601, d0 := 16, d1 := b.toNat }]

/-- Write an entry of DS. -/
def putDs (g : GridTile) (i v : Nat) : GridTile :=
  ({ g with q := { g.q with ds := mset 0 g.q.ds i (BitVec.ofNat 16 v) } }).clean .ds i

def dscPlan (_ : State) (g : GridTile) (w : BitVec 64) (ts : List (Nat × Token)) : Plan :=
  let d := qDesc g w
  let tok := tokAt ts 1
  let n := if d.transport then d.nch else d.nb
  let lanes := (List.range 8).filter fun l => 8 * g.rep + l < n
  let write := !tok.bub || iBubm w == 1
  let g1 := if write then
      lanes.foldl (fun g l => putDs g (8 * g.rep + l) (FloatFmt.fp16.finite (tokElem tok 16 l))) g
    else g
  { g := keepMark { g1 with q := { g1.q with rt := if g.rep = 0 then some tok.bseq else g1.q.rt } } true ts
    faults := if g.rep = 0 then [] else skewFault g.q.rt tok.bseq
    nonfin := (lanes.filter fun l => FloatFmt.fp16.nonFinite (tokElem tok 16 l)).length }

def dscFire (s : State) (t : Nat) : State := fire s t .q 3 (fun _ _ => true) qConsts dscPlan

def execDsc (t : Fin 1024) (s : State) : Host.Outcome State Fault Refusal := .next (dscFire s t)

/-! ## DEQ (R126) -/

/-- Does this DEQ firing close (R131)? -/
def deqCloses (g : GridTile) (d : QDesc) : Bool := d.transport || (g.rep + 1) % (d.n / 32) == 0

/-- The products of a K4 or V4 block with its scale, FP32. -/
def deqLevels (codes : List Byte) (n sc : Nat) : List Nat :=
  (List.range n).map fun k =>
    let c := bits (lget 0 codes (k / 2)).toNat (4 * (k % 2)) 4
    FloatFmt.fp32.round ((Frac.ofInt (signed 4 c)).mul (FloatFmt.fp16.value sc))

/-- The exact product of transport code k of a token with its scale. -/
def deqCode (g : GridTile) (d : QDesc) (tok : Token) (k : Nat) : Frac :=
  let c := tokElem tok 8 k
  let v := if d.qf = 2 then FloatFmt.e4m3.operand c else Frac.ofInt (signed 8 c)
  v.mul (FloatFmt.fp16.value (mget 0 g.q.ds ((16 * g.rep + k) % d.nch)).toNat)

def deqPlan (s : State) (g : GridTile) (w : BitVec 64) (ts : List (Nat × Token)) : Plan :=
  let d := qDesc g w
  let tok := tokAt ts 0
  let m := lastMark s.pace.rank g w ts
  let bs := copyBseq ts
  let closes := deqCloses g d
  let rt : Option (BitVec 4) := if g.rep == iRep w then none else g.q.rt
  if d.transport then
    let bub := tok.bub && iBubm w == 0
    let out := if bub then bubbles (tokensOf d.of_ 16) g.cur bs
      else valueTokens d.of_ g.cur bs ((List.range 16).map fun k => d.of_.round (deqCode g d tok k))
    { g := keepMark { g with q := { g.q with rt := rt } } true ts
      faults := skewFault g.q.rt tok.bseq ++
        parityFaults g 0x0604 ((List.range 16).map fun k => (StoreId.ds, (16 * g.rep + k) % d.nch))
      out := [(0, markLast m out)]
      nonfin := if d.qf = 2 then ((List.range 16).filter fun k => FloatFmt.e4m3.nonFinite (tokElem tok 8 k)).length else 0 }
  else
    let f := g.rep % (d.n / 32)
    let codes := (if f = 0 then [] else g.q.codes) ++ payBytes (if tok.bub then 0 else tok.payload)
    let bub := (f == 0 || g.q.codesBub) && tok.bub && iBubm w == 0
    let b := g.rep / (d.n / 32)
    let xs := deqLevels codes d.n (mget 0 g.q.ds b).toNat
    let ys := if d.rote then rotateBlock d.n d.norm xs else xs
    let out := if bub then bubbles (tokensOf d.of_ d.n) g.cur bs
      else valueTokens d.of_ g.cur bs (ys.map fun y => if d.of_ = .fp32 then y else convert .fp32 d.of_ y)
    { g := keepMark { g with q := { g.q with rt := rt, codes := codes, codesBub := bub } } closes ts
      faults := skewFault g.q.rt tok.bseq ++ (if closes then parityFaults g 0x0604 [(StoreId.ds, b)] else [])
      out := if closes then [(0, markLast m out)] else []
      closes := closes }

def deqReady (s : State) (g : GridTile) (w : BitVec 64) : Bool :=
  let d := qDesc g w
  !deqCloses g d || roomFor s.adr .q g (iOut w) (tokensOf d.of_ (if d.transport then 16 else d.n))

def deqFire (s : State) (t : Nat) : State := fire s t .q 4 (deqReady s) qConsts deqPlan

def execDeq (t : Fin 1024) (s : State) : Host.Outcome State Fault Refusal := .next (deqFire s t)

/-! ## SCO (R120) -/

def scoPlan (s : State) (g : GridTile) (w : BitVec 64) (ts : List (Nat × Token)) : Plan :=
  let d := qDesc g w
  let lanes := (List.range 8).map fun l => if 8 * g.rep + l < d.nch then (mget 0 g.q.qs (8 * g.rep + l)).toNat else 0
  { g := keepMark g true ts
    faults := parityFaults g 0x0604 (((List.range 8).filter fun l => 8 * g.rep + l < d.nch).map fun l => (StoreId.qs, 8 * g.rep + l))
    out := [(1, [mkToken (mkPayload 16 lanes) (lastMark s.pace.rank g w ts) g.cur g.q.bt])] }

def scoFire (s : State) (t : Nat) : State := fire s t .q 5 (fun g w => roomAll s.adr .q g (iOut w)) qConsts scoPlan

def execSco (t : Fin 1024) (s : State) : Host.Outcome State Fault Refusal := .next (scoFire s t)

/-! ## QNT (R120, R122) -/

/-- Code and saturation of one element (R81). -/
def qntCode (d : QDesc) (x sc : Frac) : Nat × Bool :=
  if d.qf = 2 then quantT8 x sc
  else
    let (l, sat) := quantLevel (-128) 127 x sc
    ((l % 256).toNat, sat)

/-- Is an element quiet (R122): |x / QS| at most QMAX / 4? -/
def qntQuiet (d : QDesc) (x sc : Frac) : Bool :=
  (x.abs.mul (Frac.ofInt 4)).le (sc.abs.mul (Frac.ofInt (if d.qf = 2 then 448 else 127)))

/-- Firings of one output token. -/
def qntFirings (d : QDesc) : Nat := 16 / d.per

/-- Does this firing produce? -/
def qntProduces (g : GridTile) (d : QDesc) : Bool := (g.rep + 1) % qntFirings d == 0

def qntPlan (s : State) (g : GridTile) (w : BitVec 64) (ts : List (Nat × Token)) : Plan :=
  let d := qDesc g w
  let tok := tokAt ts 0
  let f := g.rep % qntFirings d
  let chan := fun l => (d.per * g.rep + l) % d.nch
  let xs := (List.range d.per).map fun l => (d.af.operand (tokElem tok d.af.width l), FloatFmt.fp16.value (mget 0 g.q.qs (chan l)).toNat)
  let cs := xs.map fun x => qntCode d x.1 x.2
  let sats := (cs.zipIdx.filter fun c => c.1.2).map fun c => chan c.2
  let (q1, ws) := countSats g.q d sats
  let noisy := if d.adp then (xs.zipIdx.filter fun x => !qntQuiet d x.1.1 x.1.2).foldl (fun m x => mset false m (chan x.2) true) q1.noisy
    else q1.noisy
  let codes := (if f = 0 then [] else g.q.codes) ++ cs.map fun c => BitVec.ofNat 8 c.1
  let bub := (f == 0 || g.q.codesBub) && tok.bub && iBubm w == 0
  let m := lastMark s.pace.rank g w ts
  let out := if bub then mkBubble m g.cur g.q.bt
    else mkToken (mkPayload 8 (codes.map fun b => b.toNat)) m g.cur g.q.bt
  let q2 := { q1 with noisy := noisy, codes := codes, codesBub := bub
                      bt := if bitAt (iOpnd w) 8 && g.rep == iRep w then q1.bt + 1 else q1.bt }
  { g := keepMark { g with q := q2 } true ts
    faults := parityFaults g 0x0604 ((List.range d.per).map fun l => (StoreId.qs, chan l)) ++ satFaults g sats
    out := if qntProduces g d then [(0, [out])] else []
    nonfin := qNonfin d.af tok d.per, warns := ws }

def qntReady (s : State) (g : GridTile) (w : BitVec 64) : Bool := !qntProduces g (qDesc g w) || roomAll s.adr .q g (iOut w)

def qntFire (s : State) (t : Nat) : State := fire s t .q 6 (qntReady s) qConsts qntPlan

def execQnt (t : Fin 1024) (s : State) : Host.Outcome State Fault Refusal := .next (qntFire s t)

/-! ## TAG (R123) -/

def tagPlan (_ : State) (g : GridTile) (w : BitVec 64) (_ : List (Nat × Token)) : Plan :=
  { g := { g with q := { g.q with bt := BitVec.ofNat 4 (bits (iOpnd w) 0 4) } } }

def tagFire (s : State) (t : Nat) : State := fire s t .q 7 (fun _ _ => true) (fun _ _ => []) tagPlan

def execTag (t : Fin 1024) (s : State) : Host.Outcome State Fault Refusal := .next (tagFire s t)

end Sys2Proof.Machine
end

