-- ==== Sys2Proof/Machine/FTile.lean ====
section
/-! DEFINITION. The F tile: FUN, BIN, VEC, WACC, POOL and BIL (08 R175-R178, 09 R180-R189). -/

namespace Sys2Proof.Machine

/-! ## Operands (Table SFW-2) -/

def fSub (w : BitVec 64) : Nat := bits (iOpnd w) 14 4
def fAf (w : BitVec 64) : FloatFmt := fmtOfCode (bits (iOpnd w) 12 2)
def fOf (w : BitVec 64) : FloatFmt := fmtOfCode (bits (iOpnd w) 10 2)
def fC (w : BitVec 64) : Nat := bits (iOpnd w) 0 7

/-- Elements per token of a format. -/
def perTok (f : FloatFmt) : Nat := 128 / f.width

/-- Tokens that a closing firing puts on output port p (Table SFW-4). -/
def fGives (w : BitVec 64) (p : Nat) : Nat :=
  match iOpc w with
  | 1 => if fAf w != .fp32 && fOf w == .fp32 then 2 else 1
  | 3 => if p = 0 then iRep w + 1 else 1
  | 4 => if fOf w = .fp32 then 2 * (fSub w + 1) else fSub w + 1
  | _ => 1

/-- Room on every port of OUT for the tokens of a firing that produces (R29). -/
def fReady (closes : GridTile → BitVec 64 → Bool) (s : State) (g : GridTile) (w : BitVec 64) : Bool :=
  !closes g w || (maskPorts (iOut w)).all fun p => roomOn s.adr .f g p (fGives w p)

/-- The constants of FUN and VEC. -/
def oneConst (_ : GridTile) (w : BitVec 64) : List Nat := if fC w = 127 then [] else [fC w]

/-- Are all tokens of a closing firing bubbles under BUBM = skip (R189)? -/
def fBubble (w : BitVec 64) (all : Bool) : Bool := all && iBubm w == 0

/-- The tokens held with those of this firing. -/
def fHeld (g : GridTile) (t : Token) : List Token := g.f.held ++ [t]

/-- Hold the tokens of a firing that does not close, or let them go. -/
def keepHeld (g : GridTile) (closes : Bool) (ts : List Token) : GridTile :=
  { g with f := { g.f with held := if closes then [] else ts } }

/-! ## The function unit (R183): values before the final rounding -/

/-- A fixed-point interval of scale 2^200 around an exact value. -/
def fxScale : Nat := 2 ^ 200

/-- Square an interval n times. -/
def fxSquares (lo hi : Nat) : Nat → Nat × Nat
  | 0 => (lo, hi)
  | n + 1 => fxSquares (lo * lo / fxScale) (hi * hi / fxScale + 1) n

/-- The partial sums of the series of e^a for a of the interval given, 24 terms and a bound of the rest. -/
def expSeries (alo ahi : Nat) : Nat → Nat → Nat → Nat → Nat × Nat
  | 0, _, _, thi => (0, thi + 1)
  | n + 1, k, tlo, thi =>
    let r := expSeries alo ahi n (k + 1) (tlo * alo / fxScale / k) (thi * ahi / fxScale / k + 1)
    (r.1 + tlo, r.2 + thi)

/-- Bounds of e^u (R183): exact outside [-104, 104], where every format saturates or gives zero. -/
def expBounds (u : Frac) : Frac × Frac :=
  if (Frac.ofInt 104).lt u then (pow2 150, pow2 150)
  else if u.lt (Frac.ofInt (-104)) then ({}, {})
  else
    let a := u.num.natAbs * fxScale / (u.den * 4096)
    let e := expSeries a (a + 1) 24 1 fxScale fxScale
    let q := fxSquares e.1 e.2 12
    if u.num < 0 then ({ num := fxScale, den := q.2 }, { num := fxScale, den := q.1 })
    else ({ num := q.1, den := fxScale }, { num := q.2, den := fxScale })

/-- The integer square root by its bits, the highest first. -/
def isqrt (n : Nat) : Nat → Nat → Nat
  | 0, r => r
  | k + 1, r => if (r + 2 ^ k) * (r + 2 ^ k) ≤ n then isqrt n k (r + 2 ^ k) else isqrt n k r

/-- Bounds of 1 / sqrt u for u above 0. -/
def rsqBounds (u : Frac) : Frac × Frac :=
  let q := isqrt (u.den * 2 ^ 400 / u.num.natAbs) 280 0
  ({ num := q, den := fxScale }, { num := q + 1, den := fxScale })

/-- Bounds of 1 / (1 + e^-u). -/
def sigBounds (u : Frac) : Frac × Frac :=
  let e := expBounds u.neg
  let one := Frac.ofInt 1
  (one.div (one.add e.2), one.div (one.add e.1))

/-- Bounds of tanh u = 2 sig(2u) - 1. -/
def tanhBounds (u : Frac) : Frac × Frac :=
  let b := sigBounds (u.mul (Frac.ofInt 2))
  let f : Frac → Frac := fun x => (x.mul (Frac.ofInt 2)).sub (Frac.ofInt 1)
  (f b.1, f b.2)

/-- Bounds of the GELU function of Table SFW-3. -/
def geluBounds (u : Frac) : Frac × Frac :=
  let x := ({ num := 7978845608, den := 10000000000 } : Frac).mul (u.add (({ num := 44715, den := 1000000 } : Frac).mul (u.mul (u.mul u))))
  let t := tanhBounds x
  let f : Frac → Frac := fun y => ({ num := 1, den := 2 } : Frac).mul (u.mul ((Frac.ofInt 1).add y))
  if u.num < 0 then (f t.2, f t.1) else (f t.1, f t.2)

/-- Widen bounds by a relative error, both ends of one sign. -/
def widenRel (b : Frac × Frac) (e : Frac) : Frac × Frac :=
  (b.1.sub (b.1.abs.mul e), b.2.add (b.2.abs.mul e))

/-- Widen bounds by an absolute error. -/
def widenAbs (b : Frac × Frac) (e : Frac) : Frac × Frac := (b.1.sub e, b.2.add e)

/-- Cut bounds to a range. -/
def cutTo (b : Frac × Frac) (lo hi : Int) : Frac × Frac := (b.1.max (Frac.ofInt lo), b.2.min (Frac.ofInt hi))

/-- What a function may hold before its final rounding (Table SFW-3). -/
def funBounds (sub : Nat) (u : Frac) : Frac × Frac :=
  if sub = 1 then widenRel (expBounds u) (pow2 (-22))
  else if sub = 2 then widenRel ((Frac.ofInt 1).div u, (Frac.ofInt 1).div u) (pow2 (-22))
  else if sub = 3 then widenRel (rsqBounds u) (pow2 (-22))
  else if sub = 4 then cutTo (widenAbs (sigBounds u) (pow2 (-24))) 0 1
  else if sub = 5 then cutTo (widenAbs (tanhBounds u) (pow2 (-23))) (-1) 1
  else if sub = 6 then widenAbs (geluBounds u) ((pow2 (-20)).mul ((Frac.ofInt 1).max u.abs))
  else (u, u)

/-- A free value inside bounds (log entry 3). -/
def freeIn (b : Frac × Frac) (v : Int × Nat) : Frac := (b.1.max { num := v.1, den := v.2 + 1 }).min b.2

/-- A function of an FP32 pattern, rounded once into a format (R183). -/
def funApply (sub : Nat) (of : FloatFmt) (u : Nat) : Nat :=
  let v := FloatFmt.fp32.value u
  let neg := decide (FloatFmt.fp32.signBit ≤ u)
  if sub = 0 then (if of = .fp32 then u else convert .fp32 of u)
  else if sub = 2 ∧ v.isZero then (if neg then of.signBit + of.maxBits else of.maxBits)
  else if sub = 3 ∧ v.isZero then of.maxBits
  else if sub = 3 ∧ v.num < 0 then 0
  else of.round (freeIn (funBounds sub v) (Config.funFree sub (BitVec.ofNat 32 u)))

/-! ## FUN (R182) -/

/-- α and β of a FUN. -/
def funAlpha (g : GridTile) (w : BitVec 64) : Nat := if fC w = 127 then 0x3F800000 else bits (g.const (fC w)) 32 32
def funBeta (g : GridTile) (w : BitVec 64) : Nat := if fC w = 127 then 0 else bits (g.const (fC w)) 0 32

/-- f(α x + β) of one element. -/
def funElem (g : GridTile) (w : BitVec 64) (sub : Nat) (x : Nat) : Nat :=
  let p := fmul32 (funAlpha g w) (convert (fAf w) .fp32 ((fAf w).finite x))
  funApply sub (fOf w) (fadd32 p (funBeta g w))

/-- Does FUN narrow from FP32 to 16 bits? -/
def funNarrows (w : BitVec 64) : Bool := fAf w == .fp32 && fOf w != .fp32

/-- Does this firing close (Table SFW-4)? -/
def funCloses (g : GridTile) (w : BitVec 64) : Bool := !funNarrows w || g.rep % 2 == 1

def funPlan (sub : Nat) (s : State) (g : GridTile) (w : BitVec 64) (ts : List (Nat × Token)) : Plan :=
  let closes := funCloses g w
  let us := if funNarrows w then fHeld g (tokAt ts 0) else [tokAt ts 0]
  let bs := copyBseq ts
  let xs := us.flatMap fun u => (List.range (perTok (fAf w))).map fun l => tokElem u (fAf w).width l
  let ys := xs.map (funElem g w sub)
  let out := if fBubble w (us.all fun u => u.bub) then bubbles (ys.length / perTok (fOf w)) g.cur bs
    else valueTokens (fOf w) g.cur bs ys
  { g := keepMark (if funNarrows w then keepHeld g closes us else g) closes ts
    out := if closes then [(0, markLast (lastMark s.pace.rank g w ts) out)] else []
    nonfin := if (tokAt ts 0).bub then 0 else qNonfin (fAf w) (tokAt ts 0) (perTok (fAf w))
    closes := closes }

/-- FUN with a function. -/
def funFire (s : State) (t sub : Nat) : State :=
  fire s t .f 1 (fun g w => fSub w == sub && fReady funCloses s g w) oneConst (funPlan sub)

def execFunIdn (t : Fin 1024) (s : State) : Host.Outcome State Fault Refusal := .next (funFire s t 0)
def execFunExp (t : Fin 1024) (s : State) : Host.Outcome State Fault Refusal := .next (funFire s t 1)
def execFunRcp (t : Fin 1024) (s : State) : Host.Outcome State Fault Refusal := .next (funFire s t 2)
def execFunRsq (t : Fin 1024) (s : State) : Host.Outcome State Fault Refusal := .next (funFire s t 3)
def execFunSig (t : Fin 1024) (s : State) : Host.Outcome State Fault Refusal := .next (funFire s t 4)
def execFunTanh (t : Fin 1024) (s : State) : Host.Outcome State Fault Refusal := .next (funFire s t 5)
def execFunGelu (t : Fin 1024) (s : State) : Host.Outcome State Fault Refusal := .next (funFire s t 6)

/-! ## BIN (R182) -/

/-- Is operand b the IP1 token? -/
def binToken (w : BitVec 64) : Bool := bitAt (iIn w) 1

def binConsts (_ : GridTile) (w : BitVec 64) : List Nat := if binToken w then [] else [fC w, fC w + 1]

/-- Element k of operand b. -/
def binB (g : GridTile) (w : BitVec 64) (ts : List (Nat × Token)) (k : Nat) : Nat :=
  if binToken w then tokElem (tokAt ts 1) (fAf w).width k
  else if fAf w = .fp32 then (Config.binWide (BitVec.ofNat 64 (g.const (fC w))) (BitVec.ofNat 64 (g.const (fC w + 1))) k).toNat
  else bits (g.const (fC w + k / 4)) (16 * (k % 4)) 16

/-- One of two operands chosen, in the output format: its bits where the format stays (R70). -/
def chosen (af of : FloatFmt) (x : Nat) : Nat := if af = of then x else convert af of x

/-- 1.0 or +0 in a format. -/
def truth (of : FloatFmt) (b : Bool) : Nat := if b then of.round (Frac.ofInt 1) else 0

/-- a op b on finite patterns. -/
def binElem (sub : Nat) (af of : FloatFmt) (a b : Nat) : Nat :=
  let x := af.value a
  let y := af.value b
  if sub = 0 then of.round (x.add y)
  else if sub = 1 then of.round (x.sub y)
  else if sub = 2 then of.round (x.mul y)
  else if sub = 3 then chosen af of (if x.lt y then b else a)
  else if sub = 4 then chosen af of (if y.lt x then b else a)
  else if sub = 5 then truth of (y.lt x)
  else if sub = 6 then truth of (y.le x)
  else truth of (x.eq y)

def binPlan (sub : Nat) (s : State) (g : GridTile) (w : BitVec 64) (ts : List (Nat × Token)) : Plan :=
  let f := fAf w
  let n := perTok f
  let ys := (List.range n).map fun k =>
    binElem sub f (fOf w) (f.finite (tokElem (tokAt ts 0) f.width k)) (f.finite (binB g w ts k))
  let out := if fBubble w ((toksOf ts).all fun u => u.bub) then bubbles 1 g.cur (copyBseq ts)
    else valueTokens (fOf w) g.cur (copyBseq ts) ys
  { g := keepMark g true ts
    out := [(0, markLast (lastMark s.pace.rank g w ts) out)]
    nonfin := ((toksOf ts).map fun u => qNonfin f u n).sum }

/-- BIN with an operator. -/
def binFire (s : State) (t sub : Nat) : State :=
  fire s t .f 2 (fun g w => fSub w == sub && fReady (fun _ _ => true) s g w) binConsts (binPlan sub)

def execBinAdd (t : Fin 1024) (s : State) : Host.Outcome State Fault Refusal := .next (binFire s t 0)
def execBinSub (t : Fin 1024) (s : State) : Host.Outcome State Fault Refusal := .next (binFire s t 1)
def execBinMul (t : Fin 1024) (s : State) : Host.Outcome State Fault Refusal := .next (binFire s t 2)
def execBinMax (t : Fin 1024) (s : State) : Host.Outcome State Fault Refusal := .next (binFire s t 3)
def execBinMin (t : Fin 1024) (s : State) : Host.Outcome State Fault Refusal := .next (binFire s t 4)
def execBinCgt (t : Fin 1024) (s : State) : Host.Outcome State Fault Refusal := .next (binFire s t 5)
def execBinCge (t : Fin 1024) (s : State) : Host.Outcome State Fault Refusal := .next (binFire s t 6)
def execBinCeq (t : Fin 1024) (s : State) : Host.Outcome State Fault Refusal := .next (binFire s t 7)

/-! ## VEC (R184) -/

/-- α, N and ε of a VEC. -/
def vecAlpha (g : GridTile) (w : BitVec 64) : Nat := bits (g.const (fC w)) 32 32
def vecN (g : GridTile) (w : BitVec 64) : Nat := bits (g.const (fC w)) 16 16
def vecEps (g : GridTile) (w : BitVec 64) : Nat := convert .fp16 .fp32 (bits (g.const (fC w)) 0 16)

def fp32Lt (x y : Nat) : Bool := (FloatFmt.fp32.value x).lt (FloatFmt.fp32.value y)

/-- The greatest of some FP32 patterns, the first of equals. -/
def maxOf : Nat → List Nat → Nat
  | m, [] => m
  | m, x :: r => maxOf (if fp32Lt m x then x else m) r

/-- A sum in element order. -/
def sumOf : List Nat → Nat
  | [] => 0
  | x :: r => r.foldl fadd32 x

/-- x / n of FP32 and an integer, rounded to FP32. -/
def divN (x n : Nat) : Nat := FloatFmt.fp32.round ((FloatFmt.fp32.value x).div (Frac.ofInt n))

/-- What a vector operation gives: y and the four statistics lanes. -/
structure VecResult where
  y : List Nat
  stat : List Nat
deriving DecidableEq, Repr

/-- SMAX. -/
def vecSmax (alpha n : Nat) (negmax : Nat) (of : FloatFmt) (xs : List Nat) : VecResult :=
  let live := xs.filter fun x => x != negmax
  let m := match live with
    | [] => (Config.emptyMax n).toNat
    | x :: r => maxOf x r
  let es := xs.map fun x => if x == negmax then 0 else funApply 1 .fp32 (fmul32 alpha (fsub32 x m))
  let sum := sumOf es
  let v := FloatFmt.fp32.value sum
  { y := es.map fun e => if v.isZero then 0 else of.round ((FloatFmt.fp32.value e).div v), stat := [sum, m, 0, 0] }

/-- LNRM. -/
def vecLnrm (eps n : Nat) (of : FloatFmt) (xs : List Nat) : VecResult :=
  let mu := divN (sumOf xs) n
  let ds := xs.map fun x => fsub32 x mu
  let v := divN (sumOf (ds.map fun d => fmul32 d d)) n
  let r := funApply 3 .fp32 (fadd32 v eps)
  { y := ds.map fun d => of.round ((FloatFmt.fp32.value d).mul (FloatFmt.fp32.value r)), stat := [mu, r, 0, 0] }

/-- The least index of the greatest element. -/
def argmax (xs : List Nat) : Nat :=
  match xs with
  | [] => 0
  | x :: r => xs.findIdx fun y => !fp32Lt y (maxOf x r)

/-- ARGMAX: the one-hot vector; the index and the element in AF. -/
def vecArgmax (af of : FloatFmt) (xs : List Nat) : VecResult :=
  let i := argmax xs
  { y := (List.range xs.length).map fun k => truth of (k == i), stat := [i, convert .fp32 af (lget 0 xs i), 0, 0, 0, 0, 0, 0] }

/-- STAT. -/
def vecStat (xs : List Nat) : VecResult :=
  { y := [], stat := [maxOf (lget 0 xs 0) (xs.drop 1), sumOf xs, sumOf (xs.map fun x => fmul32 x x), 0] }

/-- The result of a vector in VB. -/
def vecResult (sub : Nat) (g : GridTile) (w : BitVec 64) (xs : List Nat) : VecResult :=
  if sub = 0 then vecSmax (vecAlpha g w) (vecN g w) (FloatFmt.fp32.signBit + convert (fAf w) .fp32 (fAf w).maxBits) (fOf w) xs
  else if sub = 1 then vecLnrm (vecEps g w) (vecN g w) (fOf w) xs
  else if sub = 2 then vecArgmax (fAf w) (fOf w) xs
  else vecStat xs

/-- Is this the closing firing of an instruction: its last repeat? -/
def lastRep (g : GridTile) (w : BitVec 64) : Bool := g.rep == iRep w

/-- VB with the elements of one token below N written, and their parity right. -/
def vbFill (g : GridTile) (w : BitVec 64) (tok : Token) : GridTile :=
  ((List.range 8).filter fun l => 8 * g.rep + l < vecN g w).foldl (fun x l =>
    ({ x with f := { x.f with vb := mset 0 x.f.vb (8 * g.rep + l) (BitVec.ofNat 32 (convert (fAf w) .fp32 ((fAf w).finite (tokElem tok 16 l)))) } }).clean
      .vb (8 * g.rep + l)) g

/-- The tokens of y: REP + 1 in every OF (R184, Table SFW-4). In FP32 they hold, in the order of Table NUM-5, the first 4 × (REP + 1)
elements, which is all that they have lanes for (DEDUCED, log entry 81). -/
def vecTokens (of : FloatFmt) (rep : Nat) (ctx : BitVec 2) (bs : BitVec 4) (ys : List Nat) : List Token :=
  (valueTokens of ctx bs ys).take (rep + 1)

/-- Pad y to whole tokens with zero bits. -/
def padTo (n : Nat) (ys : List Nat) : List Nat := ys ++ List.replicate (n - ys.length) 0

def vecPlan (sub : Nat) (s : State) (g : GridTile) (w : BitVec 64) (ts : List (Nat × Token)) : Plan :=
  let tok := tokAt ts 0
  let closes := lastRep g w
  let g1 := vbFill g w tok
  let all := (g.rep == 0 || g.f.allBub) && tok.bub
  let n := vecN g w
  let r := vecResult sub g w ((List.range n).map fun k => (mget 0 g1.f.vb k).toNat)
  let m := lastMark s.pace.rank g w ts
  let bs := copyBseq ts
  let bub := fBubble w all
  let y := if bub then bubbles (iRep w + 1) g.cur bs
    else vecTokens (fOf w) (iRep w) g.cur bs (padTo (8 * (iRep w + 1)) r.y)
  let st := if bub then bubbles 1 g.cur bs
    else [mkToken (mkPayload (if sub = 2 then 16 else 32) r.stat) .none g.cur bs]
  { g := keepMark { g1 with f := { g1.f with allBub := all } } closes ts
    faults := if closes then parityFaults g1 0x040C ((List.range n).map fun k => (StoreId.vb, k)) else []
    out := if closes then
        (if bitAt (iOut w) 0 && sub != 3 then [(0, markLast m y)] else []) ++ (if bitAt (iOut w) 1 then [(1, markLast m st)] else [])
      else []
    nonfin := qNonfin (fAf w) tok (min 8 (n - 8 * g.rep))
    closes := closes }

/-- VEC with an operation. -/
def vecFire (s : State) (t sub : Nat) : State :=
  fire s t .f 3 (fun g w => fSub w == sub && fReady lastRep s g w) oneConst (vecPlan sub)

def execVecSmax (t : Fin 1024) (s : State) : Host.Outcome State Fault Refusal := .next (vecFire s t 0)
def execVecLnrm (t : Fin 1024) (s : State) : Host.Outcome State Fault Refusal := .next (vecFire s t 1)
def execVecArgmax (t : Fin 1024) (s : State) : Host.Outcome State Fault Refusal := .next (vecFire s t 2)
def execVecStat (t : Fin 1024) (s : State) : Host.Outcome State Fault Refusal := .next (vecFire s t 3)

/-! ## WACC (R185) -/

/-- One lane of a WACC firing: VB[i] := VB[i] + p v. -/
def waccLane (f : FloatFmt) (p v : Nat) (i : Nat) (g : GridTile) : GridTile :=
  let x := fadd32 (mget 0 g.f.vb i).toNat (FloatFmt.fp32.round ((f.operand p).mul (f.operand v)))
  ({ g with f := { g.f with vb := mset 0 g.f.vb i (BitVec.ofNat 32 x) } }).clean .vb i

/-- VB cleared, with right parity. -/
def vbClear (g : GridTile) : GridTile :=
  { g with f := { g.f with vb := [] }, badParity := g.badParity.filter fun p => p.1 != .vb }

def waccPlan (s : State) (g : GridTile) (w : BitVec 64) (ts : List (Nat × Token)) : Plan :=
  let f := fAf w
  let vt := fSub w + 1
  let j := g.rep % vt
  let g0 := if g.rep = 0 then vbClear g else g
  let p := tokElem (tokAt ts 1) 16 (g.rep / vt % 8)
  let g1 := (List.range 8).foldl (fun x l => waccLane f p (tokElem (tokAt ts 0) 16 l) (8 * j + l) x) g0
  let all := (g.rep == 0 || g.f.allBub) && (toksOf ts).all fun u => u.bub
  let closes := lastRep g w
  let ys := (List.range (8 * vt)).map fun k => convert .fp32 (fOf w) (mget 0 g1.f.vb k).toNat
  let out := if fBubble w all then bubbles (8 * vt / perTok (fOf w)) g.cur (copyBseq ts)
    else valueTokens (fOf w) g.cur (copyBseq ts) ys
  { g := keepMark { g1 with f := { g1.f with allBub := all } } closes ts
    faults := parityFaults g0 0x040C (((List.range 8).map fun l => (StoreId.vb, 8 * j + l)) ++
      if closes then (List.range (8 * vt)).map fun k => (StoreId.vb, k) else []).eraseDups
    out := if closes then [(0, markLast (lastMark s.pace.rank g w ts) out)] else []
    nonfin := qNonfin f (tokAt ts 0) 8 + b2n (!(tokAt ts 1).bub && f.nonFinite p)
    closes := closes }

def waccFire (s : State) (t : Nat) : State := fire s t .f 4 (fReady lastRep s) (fun _ _ => []) waccPlan

def execWacc (t : Fin 1024) (s : State) : Host.Outcome State Fault Refusal := .next (waccFire s t)

/-! ## POOL (R175-R178, R186) -/

/-- The window record of the current context (Table CNV-1). -/
def GridTile.record (g : GridTile) : List Byte := mget [] g.wrec g.cur.toNat

def wKx (r : List Byte) : Nat := numAt r 8 1
def wKy (r : List Byte) : Nat := numAt r 9 1
def wOx (r : List Byte) : Nat := numAt r 18 2
def wOy (r : List Byte) : Nat := numAt r 20 2
def wStrm (r : List Byte) : Bool := bitAt (numAt r 1 1) 2
def wExclude (r : List Byte) : Bool := bitAt (numAt r 1 1) 1
/-- Channel tokens of a position (R161). -/
def wCt (r : List Byte) : Nat := (numAt r 2 2 + 7) / 8

/-- Is tap column u of output column j inside the image? -/
def tapInX (r : List Byte) (j u : Nat) : Bool :=
  let x : Int := (j * numAt r 10 1 + u * numAt r 12 1 : Nat) - (numAt r 14 1 : Int)
  decide (0 ≤ x) && decide (x < numAt r 4 2)

/-- Is tap row v of output row i inside the image? On a streaming axis every row is. -/
def tapInY (r : List Byte) (i v : Nat) : Bool :=
  let y : Int := (i * numAt r 11 1 + v * numAt r 13 1 : Nat) - (numAt r 16 1 : Int)
  wStrm r || (decide (0 ≤ y) && decide (y < numAt r 6 2))

/-- Does tap number k of a window of an output position count (R176)? -/
def tapCounts (r : List Byte) (pos k : Nat) : Bool :=
  !wExclude r || (tapInX r (pos % wOx r) (k % wKx r) && tapInY r (pos / wOx r) (k / wKx r))

/-- The divisor D of average pooling (R178). -/
def poolDivisor (r : List Byte) (pos : Nat) : Nat :=
  if wExclude r then
    ((List.range (wKx r)).filter (tapInX r (pos % wOx r))).length * ((List.range (wKy r)).filter (tapInY r (pos / wOx r))).length
  else wKx r * wKy r

/-- The greatest of some patterns of a format, the first of equals; +0 for none (R177). -/
def poolMaxOf (f : FloatFmt) : List Nat → Nat
  | [] => 0
  | x :: r => r.foldl (fun m y => if (f.value m).lt (f.value y) then y else m) x

/-- One lane of a window: max or average of its counted taps. -/
def poolLane (avg : Bool) (af of : FloatFmt) (d : Nat) (xs : List Nat) : Nat :=
  if avg then
    (if d = 0 then 0
     else of.round ((FloatFmt.fp32.value (sumOf (xs.map (convert af .fp32)))).div (Frac.ofInt d)))
  else chosen af of (poolMaxOf af xs)

/-- Taps of a window, and does this firing close one? -/
def poolTaps (g : GridTile) : Nat := wKx g.record * wKy g.record
def poolCloses (g : GridTile) (_ : BitVec 64) : Bool := (g.rep + 1) % poolTaps g == 0

/-- The position counter after a window (R176): it advances when the channel tokens of the position have gone by. -/
def poolAdvance (g : GridTile) : GridTile :=
  let r := g.record
  let wrap := if wStrm r then wOx r else wOx r * wOy r
  if wCt r ≤ g.f.fill + 1 then
    ({ g with f := { g.f with fill := 0, pos := if wrap ≤ g.f.pos.toNat + 1 then 0 else g.f.pos + 1 } }).clean .fcnt 0
  else { g with f := { g.f with fill := g.f.fill + 1 } }

def poolPlan (avg : Bool) (s : State) (g : GridTile) (w : BitVec 64) (ts : List (Nat × Token)) : Plan :=
  let f := fAf w
  let tok := tokAt ts 0
  let r := g.record
  let us := fHeld g tok
  let closes := poolCloses g w
  let pos := g.f.pos.toNat
  let taps := us.zipIdx.filter fun x => tapCounts r pos x.2
  let ys := (List.range 8).map fun l =>
    poolLane avg f (fOf w) (poolDivisor r pos) (taps.map fun x => f.finite (tokElem x.1 16 l))
  let out := if fBubble w (us.all fun u => u.bub) then bubbles 1 g.cur (copyBseq ts)
    else valueTokens (fOf w) g.cur (copyBseq ts) ys
  let g1 := keepMark (keepHeld g closes us) closes ts
  { g := if closes then poolAdvance g1 else g1
    faults := parityFaults g 0x040C ((StoreId.fcnt, 0) :: (List.range 32).map fun i => (StoreId.wrec, i))
    out := if closes then [(0, markLast (lastMark s.pace.rank g w ts) out)] else []
    nonfin := qNonfin f tok 8
    closes := closes }

/-- POOL with a kind. -/
def poolFire (s : State) (t : Nat) (avg : Bool) : State :=
  fire s t .f 5 (fun g w => fSub w == b2n avg && fReady poolCloses s g w) (fun _ _ => []) (poolPlan avg)

def execPoolMax (t : Fin 1024) (s : State) : Host.Outcome State Fault Refusal := .next (poolFire s t false)
def execPoolAverage (t : Fin 1024) (s : State) : Host.Outcome State Fault Refusal := .next (poolFire s t true)

/-! ## BIL (R187) -/

def bilConsts (g : GridTile) (w : BitVec 64) : List Nat := [fC w + g.f.phase.toNat]

/-- Linear interpolation, exact. -/
def lerp (f a b : Frac) : Frac := (((Frac.ofInt 1).sub f).mul a).add (f.mul b)

def bilCloses (g : GridTile) (_ : BitVec 64) : Bool := g.rep % 4 == 3

def bilPlan (s : State) (g : GridTile) (w : BitVec 64) (ts : List (Nat × Token)) : Plan :=
  let f := fAf w
  let tok := tokAt ts 0
  let us := fHeld g tok
  let closes := bilCloses g w
  let c := g.const (fC w + g.f.phase.toNat)
  let fx := FloatFmt.fp32.value (bits c 32 32)
  let fy := FloatFmt.fp32.value (bits c 0 32)
  let p := fun i l => f.operand (tokElem (lget {} us i) 16 l)
  let ys := (List.range 8).map fun l => (fOf w).round (lerp fy (lerp fx (p 0 l) (p 1 l)) (lerp fx (p 2 l) (p 3 l)))
  let out := if fBubble w (us.all fun u => u.bub) then bubbles 1 g.cur (copyBseq ts)
    else valueTokens (fOf w) g.cur (copyBseq ts) ys
  let g1 := keepMark (keepHeld g closes us) closes ts
  { g := if closes then
        ({ g1 with f := { g1.f with phase := if g1.f.phase.toNat < fSub w then g1.f.phase + 1 else 0 } }).clean .fcnt 1
      else g1
    faults := parityFaults g 0x040C [(StoreId.fcnt, 1)]
    out := if closes then [(0, markLast (lastMark s.pace.rank g w ts) out)] else []
    nonfin := qNonfin f tok 8
    closes := closes }

def bilFire (s : State) (t : Nat) : State := fire s t .f 6 (fReady bilCloses s) bilConsts bilPlan

def execBil (t : Fin 1024) (s : State) : Host.Outcome State Fault Refusal := .next (bilFire s t)

end Sys2Proof.Machine
end

