-- ==== Sys2Proof/Machine/Nce.lean ====
section
/-! DEFINITION. The narrow-channel engine (10, R206-R218, R230): line intake, flat-field correction, first layer, row store,
crops. -/

namespace Sys2Proof.Machine

/-! ## Parity of the NCE's and the PP's stores (R231) -/

/-- The number by which the log names a store of the two blocks (DESIGN CHOICE, log entry 77: Table NPP-7 gives none). -/
def storeNum : BlockStore → Nat
  | .params => 0 | .flatField => 1 | .lineBuffer => 2 | .weights => 3 | .trickle => 4
  | .crop => 5 | .queue => 6 | .accepted => 7 | .decoder => 8 | .records => 9

/-- A parity error in a block that is used: 0 NCE, 1 PP. The block, the store and the entry are logged. -/
def blockParity (s : State) (blk : Nat) (x : BlockStore × Nat) : State :=
  event s 0x0E03 { addr := x.2, detail := two blk (storeNum x.1), more := [x.2] }

/-! ## Flat field (R208, R209) -/

/-- The key of a flat-field entry. -/
def ffKey (bank view col : Nat) : Nat := (bank * 16 + view) * 16384 + col

/-- The corrected pixel, in the view's activation format. -/
def corrected (n : Nce) (f : FloatFmt) (v col p : Nat) : Nat :=
  if bitAt n.ffen.toNat v then
    let w := (mget 0 n.ff (ffKey (b2n (bitAt n.ffbank.toNat v)) v col)).toNat
    f.round ((FloatFmt.fp16.operand (bits w 16 16)).mul ((Frac.ofInt p).sub (FloatFmt.fp16.operand (bits w 0 16))))
  else f.round (Frac.ofInt p)

/-- The activation format of a view. -/
def viewFmt (b : List Byte) (v : Nat) : FloatFmt := actFmt (nvBf16 b v)

/-- The pixels of queue entries. -/
def entryPixels (es : List SpEntry) : List Nat := es.flatMap fun e => (List.range 8).map fun l => bits e.payload.toNat (16 * l) 16

/-- The corrected row. -/
def correctedRow (s : State) (v : Nat) (px : List Nat) : List Nat :=
  px.zipIdx.map fun p => corrected s.nce (viewFmt s.nceBlock v) v p.2 p.1

/-! ## The first layer (R210, R211) -/

/-- The views that form one input of a first-layer group with view v: Cin views of the group, in ascending order. -/
def groupSet (b : List Byte) (v : Nat) : List Nat :=
  let g := nvGroup b v
  let vs := (nceViews b).filter fun u => nvGroup b u == g
  let c := max 1 (flGroup b g).cin
  (vs.drop (vs.idxOf v / c * c)).take c

/-- An FP16 weight of the NCE weight store, as FP32. -/
def nceWeight (s : State) (off co i k : Nat) : Nat :=
  let a := off + Config.weightPlace co i k
  let w := (mget 0 s.nce.weights (a % 65536)).toNat + 256 * (mget 0 s.nce.weights ((a + 1) % 65536)).toNat
  convert .fp16 .fp32 (FloatFmt.fp16.finite w)

/-- The activation of a layer: none, ReLU, ReLU6, SIG. -/
def layerAct (act x : Nat) : Nat :=
  let v := FloatFmt.fp32.value x
  if act = 1 then (if v.num < 0 then 0 else x)
  else if act = 2 then (if v.num < 0 then 0 else if (Frac.ofInt 6).lt v then FloatFmt.fp32.round (Frac.ofInt 6) else x)
  else if act = 3 then funApply 4 .fp32 x
  else x

/-- Sum of products, one rounding each, from a first index on. -/
def mulSum (s : State) (off co k : Nat) : Nat → Nat → List Nat → Nat
  | acc, _, [] => acc
  | acc, i, x :: r => mulSum s off co k (fadd32 acc (fmul32 (nceWeight s off co i k) x)) (i + 1) r

/-- One output element: sum, bias, activation. -/
def layerElem (s : State) (off co act : Nat) (xs : List Nat) : Nat :=
  let k := xs.length
  layerAct act (fadd32 (mulSum s off co k 0 0 xs) (nceWeight s off co k k))

/-- The pixel of a row at column x, padded (Table NPP-3); FP32. -/
def rowPixel (f : FloatFmt) (edge : Bool) (row : List Nat) (x : Int) : Nat :=
  if 0 ≤ x ∧ x < row.length then convert f .fp32 (lget 0 row x.toNat)
  else if edge then convert f .fp32 (lget 0 row (if x < 0 then 0 else row.length - 1))
  else 0

/-- Row number r of a view. A row that the line buffer of seven rows no longer holds, because the schedule took more rows of this
view before another view of the group came, has no stated pixels: they are free (DESIGN CHOICE, log entry 65). -/
def viewRow (s : State) (v r : Nat) : List Nat :=
  let w := mget ({} : NceView) s.nce.views v
  let old := w.rowsIn - r
  if old ≤ w.rows.length then (lget [] w.rows (w.rows.length - old)).map (·.toNat)
  else (List.range (nvWidth s.nceBlock v)).map fun c => (Config.lostPixel v r c).toNat

/-- The inputs of output column j of output row r: ky, then kx, then channel. -/
def windowInputs (s : State) (b : List Byte) (g : FlGroup) (set : List Nat) (r j : Nat) : List Nat :=
  (List.range g.ky).flatMap fun ky => (List.range g.kx).flatMap fun (kx : Nat) => set.map fun v =>
    rowPixel (viewFmt b v) (g.padm == 1) (viewRow s v (r * g.sty + ky)) ((j * g.stx + kx : Int) - g.pxl)

/-- Output columns of a group (R164). -/
def flColumns (b : List Byte) (g : FlGroup) (v : Nat) : Nat := (nvWidth b v + g.pxl + g.pxh - g.kx) / max 1 g.stx + 1

/-- The tokens of one output pixel: Cout channels, eight to a token. -/
def pixelTokens (n : Nat) (es : List Nat) : List Token :=
  (List.range ((n + 7) / 8)).map fun t => mkToken (mkPayload 16 ((es.drop (8 * t)).take 8)) .none 0 0

/-- Tokens appended to a channel. -/
def pushChan (s : State) (c : Nat) (ts : List Token) : State :=
  { s with nce := { s.nce with chan := mset [] s.nce.chan c (mget [] s.nce.chan c ++ ts) } }

/-- Columns of channel i of n. -/
def channelCols (ox n i : Nat) : List Nat := (List.range (ox * (i + 1) / n - ox * i / n)).map fun j => ox * i / n + j

/-- The tokens of an output-row slot on channel i of n: bubbles while no window is complete (R168). -/
def flTokens (s : State) (b : List Byte) (v : Nat) (row : Option Nat) (n i : Nat) : List Token :=
  let g := flGroup b (nvGroup b v)
  let of : FloatFmt := actFmt (g.fmt == 1)
  (channelCols (flColumns b g v) n i).flatMap fun j =>
    match row with
    | none => List.replicate ((g.cout + 7) / 8) (mkBubble .none 0 0)
    | some r =>
      let xs := windowInputs s b g (groupSet b v) r j
      pixelTokens g.cout ((List.range g.cout).map fun co => convert .fp32 of (layerElem s g.woff co g.act xs))

/-- The output-row slot that input row r opens: none, bubbles, or an output row. Output row j leaves with the last row of its
window, row j × STY + KY − 1, as a line buffer of seven rows asks (R206, R211); bubble slots stand before it at the same spacing
(log entry 65). -/
def rowSlot (g : FlGroup) (r : Nat) : Option (Option Nat) :=
  let st := max 1 g.sty
  if (r + 1 + 7 * st - g.ky) % st ≠ 0 then none
  else if r + 1 < g.ky then some none
  else some (some ((r + 1 - g.ky) / st))

/-- The first layer after view v took its row r. -/
def firstLayer (s : State) (b : List Byte) (v r : Nat) : State :=
  let gi := nvGroup b v
  if 4 ≤ gi then s
  else if (groupSet b v).all fun u => decide (r < (mget ({} : NceView) s.nce.views u).rowsIn) then
    match rowSlot (flGroup b gi) r with
    | none => s
    | some row =>
      let cs := chansOf b 1 gi
      cs.zipIdx.foldl (fun s p => pushChan s p.1 (flTokens s b v row cs.length p.2)) s
  else s

/-! ## The row store (R212, R213) -/

/-- The average of each DS × DS block of the rows held: S in FP32 in row order, S / DS² rounded once. -/
def dsRow (f : FloatFmt) (ds : Nat) (rows : List (List Nat)) : List Nat :=
  (List.range ((rows.headD []).length / ds)).map fun c =>
    let xs := rows.flatMap fun r => (r.drop (c * ds)).take ds
    let sum := xs.foldl (fun a x => fadd32 a (convert f .fp32 x)) 0
    f.round ((FloatFmt.fp32.value sum).div (Frac.ofInt (ds * ds : Nat)))

/-- Row tokens of eight elements. -/
def rowTokens (es : List Nat) : List Token :=
  (List.range ((es.length + 7) / 8)).map fun t => mkToken (mkPayload 16 ((es.drop (8 * t)).take 8)) .none 0 0

/-- A row enters the downscaler of its view. -/
def downscale (s : State) (b : List Byte) (v : Nat) (row : List Nat) : State :=
  let ds := nvDs b v
  if ds = 0 then s
  else
    let w := mget ({} : NceView) s.nce.views v
    let rows := w.dsRows ++ [row.map (BitVec.ofNat 32)]
    if rows.length < ds then { s with nce := { s.nce with views := mset {} s.nce.views v { w with dsRows := rows } } }
    else
      let ts := rowTokens (dsRow (viewFmt b v) ds (rows.map fun r => r.map (·.toNat)))
      let t := nvTrickle b v
      { s with nce := { s.nce with views := mset {} s.nce.views v { w with dsRows := [] }
                                   trickle := mset [] s.nce.trickle t (mget [] s.nce.trickle t ++ ts) } }

/-- The view whose rows a trickle buffer holds. -/
def trickleView (b : List Byte) (t : Nat) : Option Nat := (nceViews b).find? fun v => nvDs b v != 0 && nvTrickle b v == t

/-- One trickle buffer's tokens of the step: bubbles through the first P steps, then QRS tokens (R213). -/
def trickleOne (s : State) (b : List Byte) (t : Nat) : State :=
  match trickleView b t with
  | none => s
  | some v =>
    let n := mget 0 s.nce.trickleStep t
    let q := nvQrs b v
    let ts := mget [] s.nce.trickle t
    let out := if n < nvP b v then List.replicate q (mkBubble .none 0 0) else ts.take q
    let s1 := { s with nce := { s.nce with
      trickleStep := mset 0 s.nce.trickleStep t (n + 1)
      trickle := if n < nvP b v then s.nce.trickle else mset [] s.nce.trickle t (ts.drop q) } }
    (chansOf b 2 t).foldl (fun s c => pushChan s c out) s1

/-- Every trickle buffer's tokens of the step. -/
def trickleAll (s : State) (b : List Byte) : State := (List.range 4).foldl (fun s t => trickleOne s b t) s

/-! ## Crop windows (R214, R225) -/

/-- The crop window of the current step. -/
def State.cropWindow (s : State) : Nat := if crCW s.nceBlock = 0 then 0 else s.pace.step.toNat / crCW s.nceBlock

/-- Rows of segment k wholly pushed: one bubble row and the rows trickled. -/
def rowsPushed (s : State) (b : List Byte) (k : Nat) : Nat :=
  let v := sgView b k
  mget 0 s.nce.trickleStep (nvTrickle b v) / max 1 (nvP b v)

/-- The decoder slots of the window that has been cropped. -/
def croppedSlots (n : Nce) : AMap DecSlot :=
  (n.slots.map fun p =>
    match p.2.line with
    | none => (p.1, ({} : DecSlot))
    | some l => (p.1, { used := true, boxid := l.boxid, clipped := p.2.clipped, view := l.view })).filter fun p => p.2 ≠ {}

/-- Slots of the packed lines, in the packer's order. -/
def packedLines (ps : List (CropLine × BitVec 16)) : AMap (Option CropLine) := ps.zipIdx.map fun p => (p.2, some p.1.1)

/-- A new crop window begins: the packed lines become the lines to crop, the lines cropped go on to the decoder. -/
def rollWindow (s : State) : State :=
  let w := s.cropWindow
  if w = s.nce.cropWin then s
  else
    let b := s.nceBlock
    let hist := (croppedSlots s.nce :: s.pp.hist).take (Config.decodeLag + 1)
    let bed := ppPacker s.ppBlock
    let s1 := s.setBed bed { s.bed bed with ovfWin := false }
    { s1 with
      nce := { s.nce with cropWin := w, lines := packedLines s.pp.packed, slots := [], cropNext := [], reqDone := false
                          segRows := (List.range (crNSEG b)).foldl (fun m k => mset 0 m k (rowsPushed s b k)) [] }
      pp := { s.pp with packed := [], winItems := 0, hist := hist, dec := hist.getD Config.decodeLag [], circ := 0 } }

/-! ## NCE_LINE_INTAKE -/

/-- The index of the first entry with wrong parity. -/
def badEntry (es : List SpEntry) : Option Nat :=
  (es.zipIdx.find? fun p => p.1.par != parityOf p.1.payload).map (·.2)

/-- The line leaves its queue; XOFF_N follows (R311). -/
def takeLine (s : State) (b : List Byte) (v n : Nat) : State :=
  let k := nvPort b v
  let p := s.sport k
  let x := p.view (nvPview b v)
  s.setSport k ((p.setView (nvPview b v) { x with queue := x.queue.drop n }).refresh s.portsLive)

/-- A corrected row enters the line buffer of its view, which holds seven (Table NPP-1). -/
def keepRow (s : State) (v : Nat) (row : List Nat) : State :=
  let w := mget ({} : NceView) s.nce.views v
  let rows := (w.rows ++ [row.map (BitVec.ofNat 32)])
  { s with nce := { s.nce with views := mset {} s.nce.views v { w with rows := rows.drop (rows.length - 7), rowsIn := w.rowsIn + 1 } } }

/-- Tokens of a row of a view that its trickle buffer takes. -/
def trickleRow (b : List Byte) (v : Nat) : Nat := nvQrs b v * nvP b v

/-- Has the trickle buffer of a view room for the row that its next line completes: it holds two rows of at most 2,048 tokens
(Table NPP-1)? R213 gives no outcome where an image's schedule brings rows faster than its channels send them; the model takes no
line until there is room (DESIGN CHOICE, log entry 65). -/
def trickleRoom (s : State) (v : Nat) : Bool :=
  let b := s.nceBlock
  let w := mget ({} : NceView) s.nce.views v
  nvDs b v == 0 || decide (w.dsRows.length + 1 < nvDs b v) ||
    decide ((mget [] s.nce.trickle (nvTrickle b v)).length ≤ min 2048 (trickleRow b v))

/-- May the NCE take its line now (R207, R267)? -/
def intakeDue (s : State) : Bool :=
  stepRuns s && s.nceOn && !s.nce.intakeDone && !s.pace.rakeAct && !s.holding && s.lineReady && nceNsched s.nceBlock != 0 &&
  trickleRoom s s.nextView

/-- The scheduled line is taken, corrected, fed to the first layer and the row store. -/
def lineIntake (s : State) : State :=
  if intakeDue s then
    let b := s.nceBlock
    let v := s.nextView
    let n := nvWidth b v / 8
    let es := (s.viewQueue b v).take n
    match s.nce.badParity, badEntry es with
    | e :: _, _ => blockParity s 0 e
    | [], some i => event s 0x080A { srcid := nvPort b v + 256 * nvPview b v, addr := i, detail := two i 0 }
    | [], none =>
      let s0 := rollWindow s
      let row := correctedRow s0 v (entryPixels es)
      let s1 := takeLine s0 b v n
      let s2 := { s1 with nce := { s1.nce with
        intakeDone := true
        sched := (s1.nce.sched + 1) % max 1 (nceNsched b)
        subsVb := if (es.headD {}).vb = 0 && !es.isEmpty then satInc s1.nce.subsVb else s1.nce.subsVb } }
      let r := (mget ({} : NceView) s2.nce.views v).rowsIn
      trickleAll (downscale (firstLayer (keepRow s2 v row) b v r) b v row) b
  else s

/-- NCE_LINE_INTAKE (R207). -/
def execNceLineIntake (s : State) : Host.Outcome State Fault Refusal := .next (lineIntake s)

/-! ## Crop requests (R215, R216) -/

/-- A box edge in row-store coordinates: (ROW_BASE + y − ROW0) / DS + 1. -/
def cropY (s : State) (b : List Byte) (l : CropLine) (y : Word) : Frac :=
  let row0 := ((s.sport (nvPort b l.view)).view (nvPview b l.view)).first
  ((Frac.ofInt (l.rowBase - row0).toInt).add (FloatFmt.fp32.value y.toNat)).div (Frac.ofInt (max 1 (nvDs b l.view) : Nat)) |>.add (Frac.ofInt 1)

def cropX (b : List Byte) (l : CropLine) (x : Word) : Frac :=
  (FloatFmt.fp32.value x.toNat).div (Frac.ofInt (max 1 (nvDs b l.view) : Nat))

/-- Does segment k hold column x? -/
def segHolds (b : List Byte) (k : Nat) (x : Frac) : Bool :=
  (Frac.ofInt (sgSC b k)).le x && x.lt (Frac.ofInt (sgSC b k + 8 * sgRT b k : Nat))

/-- Segments of a view. -/
def viewSegs (b : List Byte) (v : Nat) : List Nat := (List.range (crNSEG b)).filter fun k => sgView b k == v

/-- The segment chosen for a line (R215 step 1). -/
def chooseSeg (b : List Byte) (v : Nat) (x1 x2 : Frac) : Nat :=
  let c := (x1.add x2).div (Frac.ofInt 2)
  match (viewSegs b v).find? fun k => segHolds b k x1 && segHolds b k x2 with
  | some k => k
  | none => ((viewSegs b v).find? fun k => segHolds b k c).getD 0

/-- MROW of a window (R214). -/
def mrow (b : List Byte) (w : Nat) : Nat := crMROW0 b + w * crWADV b

/-- A slot's service in this window (R215). -/
def serveSlot (s : State) (b : List Byte) (line : Option CropLine) : CropSlot :=
  match line with
  | none => {}
  | some l =>
    let x1 := cropX b l l.x1
    let x2 := cropX b l l.x2
    let y1 := cropY s b l l.y1
    let y2 := cropY s b l l.y2
    let k := chooseSeg b l.view x1 x2
    let r0 := clampInt (mrow b s.nce.cropWin) (((mget 0 s.nce.segRows k : Nat) : Int) - crRH b) y1.floor
    let t0 := clampInt 0 ((sgRT b k : Int) - crRWT b) ((x1.sub (Frac.ofInt (sgSC b k))).div (Frac.ofInt 8)).floor
    let c0 : Int := sgSC b k + 8 * t0
    { line := some l, seg := k, r0 := r0, t0 := t0
      clipped := y1.lt (Frac.ofInt r0) || (Frac.ofInt (r0 + crRH b)).lt y2 ||
        x1.lt (Frac.ofInt c0) || (Frac.ofInt (c0 + 8 * crRWT b)).lt x2 }

/-- A signed number as n bits. -/
def ofSigned (n : Nat) (x : Int) : Nat := (x % 2 ^ n).toNat

/-- The read descriptor of one slot and segment (R216). -/
def cropDescriptor (b : List Byte) (k : Nat) (x0 y0 : Int) : List Nat :=
  [packN [(60, 6), (58, 1), (57, 1), (51, sgQueue b k % 16), (20, 1), (4, sgRT b k % 2 ^ 16)],
   packN [(48, ofSigned 16 x0), (32, ofSigned 16 y0)],
   packN [(52, crRWT b), (36, 1)], packN [(52, crRH b), (20, 1)],
   2 ^ 52, 2 ^ 52, 2 ^ 52, 2 ^ 52]

/-- The four request tokens of a slot on a segment. -/
def requestTokens (ws : List Nat) : List Token :=
  (List.range 4).map fun i => mkToken (mkPayload 64 ((ws.drop (2 * i)).take 2)) .none 0 0

/-- The requests of one slot on every segment. -/
def requestSlot (s : State) (b : List Byte) (i : Nat) : State :=
  let c := serveSlot s b (mget none s.nce.lines i)
  let s1 := { s with nce := { s.nce with slots := mset {} s.nce.slots i c } }
  (List.range (crNSEG b)).foldl (fun s k =>
    let on := c.line.isSome && c.seg == k
    let ws := cropDescriptor b k (if on then c.t0 else 0) (if on then c.r0 - mrow b s.nce.cropWin else 0)
    (chansOf b 3 k).foldl (fun s ch => pushChan s ch (requestTokens ws)) s) s1

/-- The requests of a window: every slot, every segment, once. -/
def cropRequest (s : State) : State :=
  if stepRuns s && s.nceOn && crCW s.nceBlock != 0 && !s.pace.rakeAct then
    let s1 := rollWindow s
    if s1.nce.reqDone then s1
    else
      match s1.nce.badParity with
      | e :: _ => blockParity s1 0 e
      | [] =>
        let b := s1.nceBlock
        let s2 := (List.range (crST b)).foldl (fun s i => requestSlot s b i) s1
        { s2 with nce := { s2.nce with reqDone := true } }
  else s

/-- CROP_REQUEST (R216). -/
def execCropRequest (s : State) : Host.Outcome State Fault Refusal := .next (cropRequest s)

/-! ## Crop resampling (R218) -/

/-- An FP32 sample position, cut to [0, top]. -/
def samplePos (a e : Nat) (j n top : Nat) : Nat :=
  let h := FloatFmt.fp32.round { num := 2 * j + 1, den := 2 }
  let d := FloatFmt.fp32.round ((FloatFmt.fp32.value (fmul32 h (fsub32 e a))).div (Frac.ofInt n))
  let u := fsub32 (fadd32 a d) (FloatFmt.fp32.round { num := 1, den := 2 })
  let v := FloatFmt.fp32.value u
  if v.num < 0 then 0 else if (Frac.ofInt top).lt v then FloatFmt.fp32.round (Frac.ofInt top) else u

/-- A pixel of the window read. -/
def cropPixel (f : FloatFmt) (rwt : Nat) (ts : List Token) (r c : Nat) : Frac :=
  f.operand (tokElem (lget {} ts (r * rwt + c / 8)) 16 (c % 8))

/-- One output pixel: the four neighbours, interpolated exactly, rounded once. -/
def cropSample (f : FloatFmt) (rh rwt : Nat) (ts : List Token) (u v : Nat) : Nat :=
  let fu := FloatFmt.fp32.value u
  let fv := FloatFmt.fp32.value v
  let x := fu.floor.toNat
  let y := fv.floor.toNat
  let x1 := min (x + 1) (8 * rwt - 1)
  let y1 := min (y + 1) (rh - 1)
  let fx := fu.sub (Frac.ofInt x)
  let fy := fv.sub (Frac.ofInt y)
  f.round (lerp fy (lerp fx (cropPixel f rwt ts y x) (cropPixel f rwt ts y x1))
                   (lerp fx (cropPixel f rwt ts y1 x) (cropPixel f rwt ts y1 x1)))

/-- The tokens of a crop, row by row. -/
def cropTokens (s : State) (b : List Byte) (c : CropSlot) (l : CropLine) (ts : List Token) : List Token :=
  let f := viewFmt b l.view
  let off : Frac := Frac.ofInt (sgSC b c.seg + 8 * c.t0)
  let xa := FloatFmt.fp32.round ((cropX b l l.x1).sub off)
  let xb := FloatFmt.fp32.round ((cropX b l l.x2).sub off)
  let ya := FloatFmt.fp32.round ((cropY s b l l.y1).sub (Frac.ofInt c.r0))
  let yb := FloatFmt.fp32.round ((cropY s b l l.y2).sub (Frac.ofInt c.r0))
  let us := (List.range (crWC b)).map fun j => samplePos xa xb j (crWC b) (8 * crRWT b - 1)
  (List.range (crHC b)).flatMap fun i =>
    let v := samplePos ya yb i (crHC b) (crRH b - 1)
    rowTokens (us.map fun u => cropSample f (crRH b) (crRWT b) ts u v)

/-- Tokens of one crop. -/
def cropLength (b : List Byte) : Nat := crHC b * crWC b / 8

/-- Crops ready leave in slot order on each slot's inward channel. -/
def flushCrops (s : State) (b : List Byte) : Nat → State
  | 0 => s
  | n + 1 =>
    let i := mget 0 s.nce.cropNext 8
    let c := mget ({} : CropSlot) s.nce.slots i
    if i < crST b && !c.tokens.isEmpty then
      let ch := 32 + Config.slotChannel i (crNSEG b) % max 1 (crNSEG b) % 8
      let s1 := pushChan s ch c.tokens
      flushCrops { s1 with nce := { s1.nce with cropNext := mset 0 s1.nce.cropNext 8 (i + 1)
                                                slots := mset {} s1.nce.slots i { c with tokens := [] } } } b n
    else s

/-- Count a clipped crop; the first in a step raises 0x0E01. -/
def countClip (s : State) : State :=
  let s1 := { s with nce := { s.nce with clipcnt := satInc s.nce.clipcnt, clipStep := true } }
  if s.nce.clipStep then s1 else event s1 0x0E01

/-- The tokens of slot i read over crop channel k: resampled, or discarded (R218). -/
def resampleSlot (s : State) (b : List Byte) (k i : Nat) (ts : List Token) : State :=
  let c := mget ({} : CropSlot) s.nce.slots i
  match c.line with
  | none =>
    if k = 0 then
      { s with nce := { s.nce with slots := mset {} s.nce.slots i { c with tokens := List.replicate (cropLength b) (mkBubble .none 0 0) } } }
    else s
  | some l =>
    if c.seg = k then
      let s1 := { s with nce := { s.nce with cropcnt := satInc s.nce.cropcnt
                                             slots := mset {} s.nce.slots i { c with tokens := cropTokens s b c l ts } } }
      if c.clipped then countClip s1 else s1
    else s

/-- The next slot's tokens of crop channel k. -/
def cropResample (s : State) (k : Nat) : State :=
  let b := s.nceBlock
  let n := crRH b * crRWT b
  let i := mget 0 s.nce.cropNext k
  let ts := mget [] s.nce.rx (32 + k)
  if s.nceOn && s.nce.reqDone && decide (k < crNSEG b) && decide (i < crST b) && n != 0 && decide (n ≤ ts.length) && !s.pace.rakeAct then
    match s.nce.badParity with
    | e :: _ => blockParity s 0 e
    | [] =>
      let s1 := { s with nce := { s.nce with rx := mset [] s.nce.rx (32 + k) (ts.drop n)
                                             cropNext := mset 0 s.nce.cropNext k (i + 1) } }
      flushCrops (resampleSlot s1 b k i (ts.take n)) b (crST b)
  else s

/-- CROP_RESAMPLE (R218). -/
def execCropResample (k : Fin 8) (s : State) : Host.Outcome State Fault Refusal := .next (cropResample s k)

/-! ## Registers with rows of their own (R230) -/

/-- NCE_FFDATA reaches the inactive bank and advances COL. -/
def ffdataAccess (s : State) (wr : Option Word) : State :=
  let n := s.nce
  let v := n.ffView.toNat
  let key := ffKey (b2n (!bitAt n.ffbank.toNat v)) v n.ffCol.toNat
  match wr with
  | none => { s with answer := .word (mget 0 n.ff key), nce := { n with ffCol := n.ffCol + 1 } }
  | some w =>
    let x := packW [(16, FloatFmt.fp16.finite (bits w.toNat 16 16)), (0, FloatFmt.fp16.finite (bits w.toNat 0 16))]
    { s with nce := { n with ff := mset 0 n.ff key x, ffCol := n.ffCol + 1 } }

/-- FFDATA_ACCESS. -/
def execFfdataAccess (a : Agent) (wr : Option Word) (s : State) : Host.Outcome State Fault Refusal :=
  .next (rowAccess s a 0xD0024 wr.isSome fun s => ffdataAccess s wr)

/-- NCE_CLRSTAT. -/
def nceClrstat (s : State) : State := { s with nce := { s.nce with cropcnt := 0, clipcnt := 0 } }

def execNceClrstat (s : State) : Host.Outcome State Fault Refusal := .next (rowWrite s 0xD0000 nceClrstat)

end Sys2Proof.Machine
end

