-- ==== Sys2Proof/Machine/Pci.lean ====
section
/-! DEFINITION. The function's configuration space and BAR4 (15, R318, R321, Tables HST-1 and HST-2), laid out as the PCI Express Base
Specification lays them out, which the spec names and does not restate (PRESUMED, log entry 86). -/

namespace Sys2Proof.Machine

/-! ## Words -/

/-- The bytes of a word that the byte enables name, replaced. -/
def mergeBytes (old new : Word) (be : BitVec 4) : Word :=
  packW ((List.range 4).map fun i => (8 * i, bits (if be.getLsbD i then new else old).toNat (8 * i) 8))

/-- The bits of a base address register that a write sets, and what its other bits read: BAR0 of 64 MiB, BAR2 of 16 GiB and
prefetchable, BAR4 of 64 KiB, all of 64 bits. -/
def barMask : Nat → Word × Word
  | 0 => (0xFC000000, 0x4)
  | 2 => (0, 0xC)
  | 3 => (0xFFFFFFFC, 0)
  | 4 => (0xFFFF0000, 0x4)
  | _ => (0xFFFFFFFF, 0)

/-- What the Command register reads, Bus Master Enable in bit 2. -/
def pciCommand (s : State) : Nat := s.hq.pciCmd.toNat / 8 * 8 + s.hq.pciCmd.toNat % 4 + 4 * b2n s.hq.bme

/-- A doubleword of configuration space (Table HST-1); what the spec states nothing about is free. -/
def configRead (s : State) (o : Nat) : Word :=
  match o with
  | 0x00 => 0x88201F6C
  | 0x04 => packW [(0, pciCommand s), (16, 0x10)]
  | 0x08 => packW [(0, steppingCode s.glb.stepping), (8, 0x120000)]
  | 0x0C => 0
  | 0x2C => packW [(0, s.sec.subVendor.toNat), (16, s.sec.subId.toNat)]
  | 0x3C => 0
  | _ => if 0x10 ≤ o ∧ o < 0x28 then mget 0 s.hq.bars ((o - 0x10) / 4) ||| (barMask ((o - 0x10) / 4)).2 else Config.configWord o

/-- The MSI-X capability's doubleword: 64 vectors, Function Mask, MSI-X Enable. -/
def msixControlRead (s : State) : Word := packW [(0, 0x11), (16, 63), (30, b2n s.ic.fmask), (31, b2n s.ic.msixEn)]

/-- Device Control: Max_Payload_Size and Max_Read_Request_Size. -/
def deviceControlRead (s : State) : Word := packW [(5, s.hq.mps.toNat), (12, s.hq.mrrs.toNat)]

/-- A doubleword of BAR4: the table of 64 entries at 0x0000, the PBA at 0x1000 (Table HST-2). -/
def bar4Read (s : State) (o : Nat) : Word :=
  if o < 0x400 then
    let x := s.target (o / 16)
    match o % 16 with
    | 0 => BitVec.ofNat 32 (bits x.msgAddr.toNat 0 32)
    | 4 => BitVec.ofNat 32 (bits x.msgAddr.toNat 32 32)
    | 8 => x.msgData
    | _ => packW [(0, b2n x.vmask)]
  else if o = 0x1000 ∨ o = 0x1004 then
    packW ((List.range 32).map fun i => (i, b2n (decide (0 < (s.target ((o - 0x1000) * 8 + i)).pba))))
  else 0

/-- The word at an offset of a space other than BAR0. -/
def pciWord (s : State) (sp : RegSpace) (o : Nat) : Word :=
  match sp with
  | .bar0 => 0
  | .bar4 => bar4Read s o
  | .config => configRead s o
  | .msixControl => msixControlRead s
  | .deviceControl => deviceControlRead s

/-- Is a space reached by configuration requests? -/
def isConfig : RegSpace → Bool
  | .bar0 => false
  | .bar4 => false
  | _ => true

/-- Until firmware declares itself ready, configuration requests are answered with Configuration Request Retry Status (R419). -/
def configRetries (s : State) (sp : RegSpace) : Bool := isConfig sp && s.sec.bootState != 3

/-- Does an access to one of these spaces reach the function: it is the host's, and PD2 is on? -/
def pciReaches (s : State) (a : Agent) : Bool := isHost a && s.powered 2

/-! ## Reads and writes -/

/-- A host's read of configuration space or of BAR4. -/
def pciRead (s : State) (x : RegAccess) : State :=
  if !pciReaches s x.agent then { s with answer := .none }
  else if configRetries s x.space then { s with answer := .retry }
  else { s with answer := .word (pciWord s x.space (x.offset / 4 * 4)) }

/-- A write of the Command register. -/
def commandWrite (s : State) (v : Word) : State :=
  let s1 := { s with hq := { s.hq with pciCmd := BitVec.ofNat 16 v.toNat &&& 0x0542 } }
  if bitAt v.toNat 2 then bmeSet s1 else bmeCleared s1

/-- A write of a doubleword of configuration space. -/
def configWrite (s : State) (o : Nat) (v : Word) : State :=
  if o = 0x04 then commandWrite s v
  else if 0x10 ≤ o ∧ o < 0x28 then
    { s with hq := { s.hq with bars := mset 0 s.hq.bars ((o - 0x10) / 4) (v &&& (barMask ((o - 0x10) / 4)).1) } }
  else s

/-- A write of Device Control: a payload size that Table HST-1 does not support is not taken; bit 15 initiates a Function Level
Reset. -/
def deviceControlWrite (s : State) (v : Word) : State :=
  let m : BitVec 3 := BitVec.ofNat 3 (bits v.toNat 5 3)
  let r : BitVec 3 := BitVec.ofNat 3 (bits v.toNat 12 3)
  let s1 := { s with hq := { s.hq with mps := if m ≤ 2 then m else s.hq.mps, mrrs := if r ≤ 5 then r else s.hq.mrrs } }
  if bitAt v.toNat 15 then funcReset s1 .flr else s1

/-- A write of a doubleword of BAR4. -/
def bar4Write (s : State) (o : Nat) (v : Word) : State :=
  if o < 0x400 then
    let k := o / 16
    let x := s.target k
    match o % 16 with
    | 0 => s.setTarget k { x with msgAddr := BitVec.ofNat 64 (x.msgAddr.toNat / 2 ^ 32 * 2 ^ 32 + v.toNat / 4 * 4) }
    | 4 => s.setTarget k { x with msgAddr := BitVec.ofNat 64 (x.msgAddr.toNat % 2 ^ 32 + v.toNat * 2 ^ 32) }
    | 8 => s.setTarget k { x with msgData := v }
    | _ => vectorMask s k (bitAt v.toNat 0)
  else s

/-- A host's write to configuration space or to BAR4. -/
def pciWrite (s : State) (x : RegAccess) : State :=
  let o := x.offset / 4 * 4
  let v := mergeBytes (pciWord s x.space o) x.data x.be
  if !pciReaches s x.agent || x.be == 0 then s
  else if configRetries s x.space then { s with answer := .retry }
  else
    match x.space with
    | .bar0 => s
    | .bar4 => bar4Write s o v
    | .config => configWrite s o v
    | .msixControl => msixControl s (bitAt v.toNat 31) (bitAt v.toNat 30)
    | .deviceControl => deviceControlWrite s v

end Sys2Proof.Machine
end

