-- ==== Sys2Proof/Machine/RegRead.lean ====
section
/-! DEFINITION. What the registers of BAR0 read (R432-R438 and the register tables of every chapter): one function per block of Table
MAP-1, none where an offset of it is unmapped; LO_READ_LATCH. -/

namespace Sys2Proof.Machine

/-! ## Helpers -/

/-- PENDING as a COMMIT register shows it. -/
def commitReg (s : State) (g : CommitGroup) : Option Word := fields [(0, b2n (groupPending s g))]

/-! ## LO registers and the HI values that their reads latch (R67, R437) -/

/-- The HI register that a read of a LO register latches, and the value. -/
def loPair (s : State) (off : Nat) : Option (Nat × Word) :=
  match off with
  | 0x00010 => some (0x00014, packW [(0, bits s.glb.violAddr.toNat 32 4), (16, bits s.glb.violReq.toNat 16 4), (30, s.glb.violSpace.toNat)])
  | 0x10008 => some (0x1000C, hiHalf s.pace.step.toNat)
  | 0x10010 => some (0x10014, hiHalf s.time64)
  | 0x10054 => some (0x10058, hiHalf s.pace.holdNs.toNat)
  | 0x70018 => some (0x7001C, packW [(0, bits s.mc.errAddr.toNat 32 4), (31, b2n s.mc.errUe)])
  | 0x90008 => some (0x9000C, hiHalf s.lk.epoch.toNat)
  | 0xA0008 => some (0xA000C, hiHalf s.tw.take.toNat)
  | 0xC0008 => some (0xC000C, hiHalf s.sec.fwsvn.toNat)
  | _ => none

/-! ## GLB and PACE -/

def glbReg (s : State) (a : Agent) (o : Nat) : Option Word :=
  match o with
  | 0x00 => fields [(16, 0x8820), (8, steppingCode s.glb.stepping), (0, b2n s.glb.gradeI)]
  | 0x04 => fields [(1, 1), (2, b2n (adrOk s.glb.stepping 2))]
  | 0x08 => regOf s.glb.scratch
  | 0x0C => some 0
  | 0x10 => some (loHalf s.glb.violAddr.toNat)
  | 0x14 => some (s.latched a 0x14)
  | 0x18 => fields [(16, s.glb.violCode.toNat), (0, bits s.glb.violReq.toNat 0 16)]
  | 0x1C => regOf s.glb.violCnt
  | _ => none

/-- PACE's registers, HI registers as latched for the agent. -/
def paceReg (s : State) (a : Agent) (o : Nat) : Option Word := paceWord s (fun off => s.latched a off) o

/-! ## IC and mailboxes -/

/-- 32 bits of the sources of word k. -/
def sourceBits (s : State) (k : Nat) (f : Source → Bool) : Option Word :=
  fields ((List.range 32).map fun j => (j, b2n (f (s.source (32 * k + j)))))

/-- Is the agent a management core? -/
def isMp : Agent → Bool
  | .mp _ => true
  | _ => false

def sourceReg (x : Source) (o : Nat) : Option Word :=
  match o with
  | 0x0 => fields [(31, b2n x.line), (8, x.mpen.toNat), (4, x.prio.toNat), (0, x.sense.toNat)]
  | 0x4 => some (loHalf x.vec.toNat)
  | 0x8 => some (hiHalf x.vec.toNat)
  | 0xC => regOf x.cnt
  | _ => none

def targetReg (x : Target) (o : Nat) : Option Word :=
  match o with
  | 0x0 => fields [(16, x.time.toNat), (0, x.cnt.toNat)]
  | 0x4 => fields [(0, b2n x.pending)]
  | 0x8 => fields [(24, x.eoierr.toNat), (16, x.stack.length % 16), (12, b2n (x.waiting != 0)), (8, x.wprio.toNat),
                   (0, (x.stack.headD 0).toNat)]
  | 0xC => some 0
  | _ => none

def icReg (s : State) (a : Agent) (o : Nat) : Option Word :=
  if 0x10 ≤ o ∧ o < 0x20 then sourceBits s ((o - 0x10) / 4) fun x => x.pend
  else if 0x20 ≤ o ∧ o < 0x30 then sourceBits s ((o - 0x20) / 4) fun x => if isMp a then x.maskMp else x.maskHost
  else if 0x30 ≤ o ∧ o < 0x40 then sourceBits s ((o - 0x30) / 4) fun x => x.cnt != 0
  else if o = 0x40 then some 0
  else if o = 0x44 then some (mget 0 s.ic.taken (agentNo a))
  else if 0x1000 ≤ o ∧ o < 0x1800 then sourceReg (s.source ((o - 0x1000) / 16)) (o % 16)
  else if 0x2000 ≤ o ∧ o < 0x2440 then targetReg (s.target ((o - 0x2000) / 16)) (o % 16)
  else if 0x2800 ≤ o ∧ o < 0x2C40 ∧ o % 16 = 0 then
    fields [(16, (s.target ((o - 0x2800) / 16)).shTime.toNat), (0, (s.target ((o - 0x2800) / 16)).shCnt.toNat)]
  else none

/-- Does the head message of the inbound queue fail its parity check? -/
def inboundBad (q : MboxQ) : Bool := (q.words.take (if q.headLeft = 0 then q.headWords else q.headLeft)).any fun w => !w.ok

/-- A mailbox's registers; a management core sees the other direction of each queue pair, and DEST (R348). -/
def mboxReg (s : State) (a : Agent) (o : Nat) : Option Word :=
  let x := s.mbox (o / 0x40)
  let tx := if isMp a then x.outq else x.inq
  let rx := if isMp a then x.inq else x.outq
  if 0x200 ≤ o then none
  else
    match o % 0x40 with
    | 0x00 => some 0
    | 0x04 => some ((rx.words.head?.map fun w => w.w).getD 0)
    | 0x08 => some 0
    | 0x0C => fields [(24, tx.freeWords), (16, rx.words.length), (2, b2n (if isMp a then inboundBad rx else x.perr)),
                      (1, b2n x.refused), (0, b2n (bitAt x.peer.toNat 0))]
    | 0x10 => regOf x.peer
    | 0x14 => fields [(16, x.dropRefused.toNat), (0, x.dropRejected.toNat)]
    | 0x18 => if isMp a then regOf x.dest else none
    | _ => none

/-! ## HQ and CFG -/

def ringReg (r : Ring) (o : Nat) : Option Word :=
  match o with
  | 0x00 => fields [(31, b2n r.en), (0, r.szl.toNat)]
  | 0x04 => some (loHalf r.base.toNat)
  | 0x08 => some (hiHalf r.base.toNat)
  | 0x0C => some 0
  | 0x10 => regOf r.pi
  | 0x14 => regOf r.ci
  | 0x18 => regOf r.baddb
  | _ => none

def hqReg (s : State) (o : Nat) : Option Word :=
  let q := s.hq
  match o with
  | 0x00 => some 0
  | 0x04 => fields [(12, q.lspeed.toNat), (8, q.lwidth.toNat), (2, b2n q.bme), (1, b2n q.cur.isSome), (0, b2n q.linkUp)]
  | 0x08 => regOf q.win
  | 0x0C => fields [(0, bits q.wbAddr.toNat 6 26 * 64), (0, b2n q.wbEn)]
  | 0x10 => some (hiHalf q.wbAddr.toNat)
  | 0x14 =>
    match q.kept with
    | some k => fields [(16, k.seq.toNat), (0, k.opc.toNat)]
    | none => some 0
  | 0x18 =>
    match q.kept with
    | some k => fields [(16, k.evt.toNat), (8, 1), (0, k.status.toNat)]
    | none => some 0
  | 0x1C => regOf q.evlost
  | 0x20 => regOf q.eseq
  | _ => (blockAtOff o 0x100 0x20 26).bind fun p => ringReg (s.ring p.1) p.2

/-- CFG_SECT.FRONT. -/
def frontCode (s : State) : Nat :=
  if s.cfg.front = .none then 0 else if allSwitched s && !writesDone s then 2 else 1

/-- The tiles not yet switched while a front stands. -/
def frontLeft (s : State) : List Nat := if s.cfg.front = .none then [] else unswitched s

def cfgReg (s : State) (o : Nat) : Option Word :=
  let c := s.cfg
  match o with
  | 0x00 => fields [(16, c.plc.toNat), (8, c.adr.toNat), (0, c.state.toNat)]
  | 0x04 => fields [(16, c.errCode.toNat), (8, c.errRow.toNat)]
  | 0x08 => regOf c.loc
  | 0x0C => regOf c.pos
  | 0x10 => fields [(0, bits (imageHash s).toNat 0 32)]
  | 0x14 => fields [(0, bits (imageHash s).toNat 32 32)]
  | 0x18 => fields [(0, bits (imageHash s).toNat 64 32)]
  | 0x1C => fields [(0, bits (imageHash s).toNat 96 32)]
  | 0x20 => fields [(4, c.errStage.toNat), (0, c.stage.toNat)]
  | 0x24 => fields [(16, c.swcnt.toNat), (8, frontCode s), (4, s.curCtx), (0, c.sec.toNat)]
  | 0x28 => fields [(16, (frontLeft s).length), (0, (frontLeft s).headD 0)]
  | 0x2C => fields [(31, b2n s.pace.rakeAct), (30, b2n s.pace.rakeDrop), (0, s.pace.rakeLeft % 2 ^ 24)]
  | 0x30 => regOf s.pace.rakeDropCnt
  | _ => none

/-! ## SE, MC and SP -/

/-- RLEFT of an engine. -/
def readLeft (e : Engine) : Nat :=
  if e.hasRead then (match tokensLeft e with | some n => satN 32 n | none => 2 ^ 32 - 1) else 0

def engineReg (e : Engine) (o : Nat) : Option Word :=
  match o with
  | 0x00 => fields [(16, e.fetch.d % 2 ^ 16), (0, e.wwalk.d % 2 ^ 16)]
  | 0x04 => satReg (readLeft e)
  | 0x08 => fields [(16, writeOcc e % 4096), (0, e.rbuf.length % 4096)]
  | 0x0C => regOf e.drop
  | 0x10 => some (loHalf e.rbase.toNat)
  | 0x14 => some (hiHalf e.rbase.toNat)
  | 0x18 => fields [(8, b2n e.full), (0, e.szl.toNat)]
  | 0x1C => fields [(0, b2n e.pending)]
  | 0x20 => regOf e.rwp
  | 0x24 => regOf e.rrp
  | 0x810 => some (loHalf e.shRbase.toNat)
  | 0x814 => some (hiHalf e.shRbase.toNat)
  | 0x818 => fields [(8, b2n e.shFull), (0, e.shSzl.toNat)]
  | _ => none

/-- Does engine k have a list in the current context? -/
def engineActive (s : State) (k : Nat) : Bool := (s.listOf s.curCtx k false).isSome || (s.listOf s.curCtx k true).isSome

def seReg (s : State) (o : Nat) : Option Word :=
  match o with
  | 0x000 => fields [(8, s.se.warm.toNat), (1, b2n s.se.force)]
  | 0x004 => fields (((List.range 16).map fun k => (16 + k, b2n (engineActive s k))) ++ [(0, b2n (byDeadline s))])
  | 0x008 => fields [(16, s.se.rd.toNat), (8, s.se.wr.toNat), (0, s.se.rem.toNat)]
  | 0x00C => commitReg s .se
  | 0x808 => fields [(16, s.se.shRd.toNat), (8, s.se.shWr.toNat), (0, s.se.shRem.toNat)]
  | _ =>
    match blockAtOff o 0x100 0x40 16 with
    | some (k, r) => engineReg (s.engine k) r
    | none => (blockAtOff o 0x900 0x40 16).bind fun p => engineReg (s.engine p.1) (0x800 + p.2)

def mcReg (s : State) (a : Agent) (o : Nat) : Option Word :=
  let m := s.mc
  match o with
  | 0x00 => fields [(16, m.pkgsz.toNat), (12, m.ranks.toNat), (8, m.rate.toNat)]
  | 0x04 => fields [(16, m.chok.toNat), (1, b2n m.trained), (0, b2n m.ready)]
  | 0x08 => fields [(0, taskTop s / 2 ^ 20)]
  | 0x0C => some 0
  | 0x10 => regOf m.cecnt
  | 0x14 => regOf m.uecnt
  | 0x18 => fields [(0, bits m.errAddr.toNat 4 28 * 16)]
  | 0x1C => some (s.latched a 0x7001C)
  | _ => none

def spStateCode : SpState → Nat
  | .off => 0 | .hunt => 1 | .body => 2

def sportReg (p : SensorPort) (o : Nat) : Option Word :=
  match o with
  | 0x00 => fields [(16, p.rate.toNat), (8, p.ctlv.toNat), (6, b2n p.xod), (5, b2n p.term), (3, p.nl.toNat), (1, p.std.toNat), (0, b2n p.en)]
  | 0x04 => fields [(24, p.gapmax.toNat), (16, b2n p.subst), (8, p.v1.pixfmt.toNat), (0, p.v0.pixfmt.toNat)]
  | 0x08 => fields [(16, p.v0.lwm.toNat), (0, p.v0.hwm.toNat)]
  | 0x0C => fields [(16, p.v1.lwm.toNat), (0, p.v1.hwm.toNat)]
  | 0x10 => fields [(0, b2n p.pending)]
  | 0x14 => fields [(7, b2n p.cfgerr), (6, b2n p.clklost), (5, b2n p.v1.fullish), (4, b2n p.v0.fullish), (0, spStateCode p.state)]
  | 0x18 => fields [(16, p.v1.queue.length), (0, p.v0.queue.length)]
  | 0x1C => regOf p.v0.first
  | 0x20 => regOf p.v1.first
  | 0x24 => regOf p.v0.lastRow
  | 0x28 => regOf p.good
  | 0x2C => regOf p.short
  | 0x30 => regOf p.crc
  | 0x34 => regOf p.hdr
  | 0x38 => regOf p.late
  | 0x3C => regOf p.subs
  | 0x40 => regOf p.ovf
  | 0x44 => regOf p.xoffcnt
  | 0x808 => fields [(16, p.v0.shLwm.toNat), (0, p.v0.shHwm.toNat)]
  | 0x80C => fields [(16, p.v1.shLwm.toNat), (0, p.v1.shHwm.toNat)]
  | _ => none

/-- One bit per sensor port. -/
def portBits (s : State) (lo : Nat) (f : SensorPort → Bool) : List (Nat × Nat) := (List.range 8).map fun k => (lo + k, b2n (f (s.sport k)))

def spReg (s : State) (o : Nat) : Option Word :=
  match o with
  | 0x000 => some 0
  | 0x004 => fields (portBits s 16 (fun p => p.en && !p.clklost) ++ portBits s 8 (fun p => p.state == .body) ++ portBits s 0 fun p => p.xoff)
  | _ =>
    match blockAtOff o 0x100 0x80 8 with
    | some (k, r) => sportReg (s.sport k) r
    | none => (blockAtOff o 0x900 0x80 8).bind fun p => sportReg (s.sport p.1) (0x800 + p.2)

/-! ## LK, TW and FLT -/

def linkCode : LinkState → Nat
  | .off => 0 | .train => 1 | .hello => 2 | .up => 3 | .refused => 4 | .failed => 15

def linkReg (x : LinkPort) (o : Nat) : Option Word :=
  match o with
  | 0x00 => fields [(2, b2n x.twin), (0, b2n x.en)]
  | 0x04 => fields [(16, x.mism.toNat), (0, linkCode x.state)]
  | 0x08 => fields [(16, x.peerPos.toNat), (8, x.peerStepping.toNat), (0, x.peerAdr.toNat)]
  | 0x0C => regOf x.rtt
  | 0x10 => fields [(16, x.txseq.toNat), (0, x.rxe.toNat)]
  | 0x14 => some 0
  | 0x28 => regOf x.crcerr
  | 0x2C => regOf x.replayCnt
  | 0x30 => regOf x.dup
  | 0x34 => regOf x.feccorr
  | 0x38 => regOf x.fecunc
  | 0x3C => regOf x.linkdn
  | _ =>
    if 0x18 ≤ o ∧ o < 0x28 then
      fields [(16, mget 0 x.cred (2 * ((o - 0x18) / 4) + 1) % 2 ^ 16), (0, mget 0 x.cred (2 * ((o - 0x18) / 4)) % 2 ^ 16)]
    else none

/-- One bit per link port. -/
def linkBits (s : State) (lo : Nat) (f : LinkPort → Bool) : List (Nat × Nat) := (List.range 4).map fun p => (lo + p, b2n (f (s.port p)))

def lkReg (s : State) (a : Agent) (o : Nat) : Option Word :=
  match o with
  | 0x00 => fields [(8, s.lk.nakmax.toNat)]
  | 0x04 => fields (linkBits s 8 (fun x => x.isUp) ++ linkBits s 4 (fun x => x.state == .refused) ++ linkBits s 0 fun x => x.state == .failed)
  | 0x08 => some (loHalf s.lk.epoch.toNat)
  | 0x0C => some (s.latched a 0x9000C)
  | 0x10 => regOf s.lk.ttol
  | _ => (blockAtOff o 0x100 0x80 4).bind fun p => if s.powered (6 + p.1) then linkReg (s.port p.1) p.2 else none

def twReg (s : State) (a : Agent) (o : Nat) : Option Word :=
  let t := s.tw
  match o with
  | 0x00 => fields [(16, t.tslead.toNat), (12, t.hbmiss.toNat), (8, t.port.toNat), (1, b2n t.shadow), (0, b2n t.en)]
  | 0x04 => fields [(12, satN 4 t.miss), (8, b2n t.fence), (5, b2n s.comparing), (4, b2n t.lead), (0, twCode t.state)]
  | 0x08 => some (loHalf t.take.toNat)
  | 0x0C => some (s.latched a 0xA000C)
  | 0x10 => regOf t.cmpcnt
  | 0x14 => regOf t.near
  | 0x18 => regOf t.maxdiff
  | 0x1C => fields [(16, t.partner.length), (0, t.own.length)]
  | 0x20 => regOf t.badmsg
  | 0x24 => regOf t.hblost
  | 0x28 => some (loHalf t.pstep.toNat)
  | _ => none

def dumpCode : DumpState → Nat
  | .none => 0 | .writing => 1 | .complete => 2 | .failed => 3

def fltReg (s : State) (a : Agent) (o : Nat) : Option Word :=
  let f := s.flt
  match o with
  | 0x00 => fields [(1, b2n f.dumpall)]
  | 0x04 => fields [(16, f.lost.toNat), (0, f.log.length)]
  | 0x08 => regOf (mget 0 f.idx (agentNo a))
  | 0x10 => fields [(16, f.dumpNum.toNat), (0, dumpCode f.dumpState)]
  | 0x14 => regOf f.dumpLen
  | 0x18 => fields [(16, f.firstSev.toNat), (0, f.firstCode.toNat)]
  | _ => if 0x40 ≤ o ∧ o < 0x80 then some (lget 0 (mget [] f.data (agentNo a)) ((o - 0x40) / 4)) else none

/-! ## PWR and SEC -/

def pwrReg (s : State) (o : Nat) : Option Word :=
  let p := s.pwr
  match o with
  | 0x000 => fields [(1, b2n p.autofab)]
  | 0x004 => fields [(17, b2n p.co), (16, b2n p.thr), (12, p.vtherm.toNat), (8, p.vcap.toNat), (4, p.vack.toNat), (0, p.veff)]
  | 0x008 => fields [(8, b2n p.keep), (0, p.req.toNat)]
  | 0x010 => fields [(8, p.hyst.toNat), (0, p.cap.toNat)]
  | 0x014 => regOf p.floor
  | 0x01C => commitReg s .pwr
  | 0x020 => regOf p.power
  | 0x024 => regOf p.peak
  | 0x030 => fields [(8, p.mem.toNat), (0, p.mgmt.toNat)]
  | 0x040 => fields [(24, tcrit s), (16, p.thys.toNat), (0, p.tthr.toNat)]
  | 0x044 => fields [(16, p.tjSens.toNat), (0, p.tj.toNat)]
  | 0x050 => fields [(31, b2n p.autoret), (16, p.retdly.toNat), (0, p.settle.toNat)]
  | 0x054 => fields [(16, p.cocnt.toNat), (4, b2n p.aonB), (3, b2n p.co), (2, b2n p.selB), (1, b2n p.bOk), (0, b2n p.aOk)]
  | 0x058 => some 0
  | 0x060 => regOf p.domReq
  | 0x064 => regOf p.domOn
  | 0x070 => fields [(16, p.thrcnt.toNat), (0, p.avserr.toNat)]
  | 0x074 => regOf p.vread
  | 0x810 => fields [(8, p.shHyst.toNat), (0, p.shCap.toNat)]
  | 0x814 => regOf p.shFloor
  | _ => (blockAtOff o 0x100 4 48).bind fun x => fields [(31, b2n (p.excl.contains x.1)), (0, (mget 0 p.sens x.1).toNat)]

def secReg (s : State) (a : Agent) (o : Nat) : Option Word :=
  let x := s.sec
  match o with
  | 0x00 => fields [(18, x.bootRej.toNat), (16, b2n x.bootCopy), (8, x.bootCause.toNat), (0, x.bootState.toNat)]
  | 0x04 => regOf x.fwver
  | 0x08 => some (loHalf x.fwsvn.toNat)
  | 0x0C => some (s.latched a 0xC000C)
  | 0x10 => fields [(16, x.fuses.arbImg), (0, x.fuses.arbFw)]
  | 0x14 => fields [(8, slotBits x.fuses slotDamaged), (4, slotBits x.fuses slotRev), (0, slotBits x.fuses slotProg)]
  | 0x18 => fields [(24, x.fails.toNat), (4, x.kind.toNat), (1, b2n x.locked), (0, b2n x.open_)]
  | 0x1C => some 0
  | 0x20 => fields [(5, b2n x.causeDbg), (4, b2n x.causeWdog), (3, b2n x.causeSoft), (2, b2n x.causePin), (1, b2n x.causePor),
                    (0, b2n x.causePwr)]
  | 0x60 => fields [(16, x.reqEvt.toNat), (8, x.reqResult.toNat), (1, b2n x.busy)]
  | _ =>
    if 0x30 ≤ o ∧ o < 0x40 then fields [(0, bits Config.serial.toNat (32 * ((o - 0x30) / 4)) 32)]
    else if 0x40 ≤ o ∧ o < 0x60 then fields [(0, bits (mget 0 x.nonceRegs (agentNo a)).toNat (32 * ((o - 0x40) / 4)) 32)]
    else if 0x200 ≤ o ∧ o < 0x340 then some (mget 0 x.reqbuf ((o - 0x200) / 4))
    else none

/-! ## NCE and PP -/

def nceReg (s : State) (o : Nat) : Option Word :=
  let n := s.nce
  match o with
  | 0x000 => some 0
  | 0x010 => regOf n.ffbank
  | 0x014 => regOf n.ffen
  | 0x01C => commitReg s .nce
  | 0x020 => fields [(16, n.ffView.toNat), (0, n.ffCol.toNat)]
  | 0x024 => some 0
  | 0x030 => regOf n.cropcnt
  | 0x034 => regOf n.clipcnt
  | 0x810 => regOf n.shFfbank
  | 0x814 => regOf n.shFfen
  | _ => none

def ppReg (s : State) (o : Nat) : Option Word :=
  let p := s.pp
  match o with
  | 0x00 => some 0
  | 0x04 => fields [(16, p.qhwm.toNat), (0, p.queue.length % 2 ^ 13)]
  | 0x10 => regOf p.qdrop
  | 0x14 => regOf p.accept
  | 0x18 => regOf p.supp
  | 0x30 => regOf p.nextid
  | _ => none

/-! ## The map (R432, Table MAP-1) -/

/-- What a register below the FAB window reads; none at an unmapped offset. -/
def regValue (s : State) (a : Agent) (off : Nat) : Option Word :=
  let o := off % 0x10000
  match off / 0x10000 with
  | 0x0 => glbReg s a o
  | 0x1 => paceReg s a o
  | 0x2 => icReg s a o
  | 0x3 => mboxReg s a o
  | 0x4 => hqReg s o
  | 0x5 => cfgReg s o
  | 0x6 => seReg s o
  | 0x7 => mcReg s a o
  | 0x8 => spReg s o
  | 0x9 => lkReg s a o
  | 0xA => twReg s a o
  | 0xB => pwrReg s o
  | 0xC => secReg s a o
  | 0xD => nceReg s o
  | 0xE => ppReg s o
  | 0xF => fltReg s a o
  | _ => none

/-- A read of a mapped register, with its side effects (R437); none at an unmapped offset. -/
def readReg (s : State) (a : Agent) (off : Nat) : Option State :=
  if 0x100000 ≤ off then
    (if off < 0x200000 then bedRead s a ((off - 0x100000) / 0x1000) (off % 0x1000) else none)
  else if off = 0xC0040 then some (nonceDraw s a)
  else if off = 0xD0024 then some (ffdataAccess s none)
  else
    match regValue s a off with
    | none => none
    | some w =>
      match loPair s off with
      | some (hi, h) => some { s.latch a hi h with answer := .word w }
      | none => some { s with answer := .word w }

/-! ## Valid accesses (R434, R435) -/

/-- Is an access one aligned doubleword with all byte enables set? -/
def accessValid (x : RegAccess) : Bool := x.offset % 4 == 0 && x.ndw == 1 && x.be == 15

/-- Is an access a zero-length one? -/
def accessEmpty (x : RegAccess) : Bool := x.ndw == 1 && x.be == 0

/-- A violating access (Table MAP-2). -/
def accessViolates (s : State) (x : RegAccess) (code : Nat) (write : Bool) : State :=
  violate s { code := code, addr := x.offset, req := agentReq x.agent, space := agentSpace x.agent, write := write, be := x.be.toNat, ndw := x.ndw }

/-- LO_READ_LATCH: any read of a register; in BAR0 a read of a LO register latches its HI register for the agent. A zero-length read
completes with no data and no effect (R434). -/
def loRead (s : State) (x : RegAccess) : State :=
  if x.space != .bar0 then pciRead s x
  else if !agentReaches s x.agent x.offset then { s with answer := .none }
  else if accessEmpty x then { s with answer := .bytes [] false }
  else if !accessValid x then { accessViolates s x 0x0101 false with answer := abortAnswer x.agent }
  else if !rowOpen s x.offset false then { accessViolates s x 0x0102 false with answer := abortAnswer x.agent }
  else
    match readReg s x.agent x.offset with
    | some s1 => s1
    | none => { accessViolates s x 0x0102 false with answer := abortAnswer x.agent }

def execLoReadLatch (x : RegAccess) (s : State) : Host.Outcome State Fault Refusal :=
  if (Instr.loReadLatch x).wf then .next (loRead s x) else .fault .illFormed

end Sys2Proof.Machine
end

