-- ==== Sys2Proof/Machine/Dump.lean ====
section
/-! DEFINITION. The fault dump (18, R395, Tables TWN-7 and TWN-8). -/

namespace Sys2Proof.Machine

/-! ## Sections -/

/-- The words of a run of registers, 0 where none is mapped. -/
def regBytes (f : Nat → Option Word) (n : Nat) : List Byte := (List.range n).flatMap fun i => natLe 4 ((f (4 * i)).getD 0).toNat

/-- Section 0: the fault log, oldest first. -/
def dumpLog (s : State) : List Byte := s.flt.log.flatMap logBytes

/-- Section 1: PACE. -/
def dumpPace (s : State) : List Byte :=
  let p := s.pace.snap
  padBytes 256 ((p.pace.flatMap fun w => natLe 4 w.toNat) ++ natLe 8 p.busy ++ natLe 8 p.hold ++ natLe 2 p.namedTile.toNat ++ [p.namedQueue, p.namedKind])

/-- A bed of section 2; one that the image does not define shows no count (R12). -/
def dumpBed (s : State) (b : Nat) : List Byte :=
  let x := if s.bedIds.contains b then s.bed b else {}
  let head := match s.pace.snap.beds.find? fun n => n.bed == b with
    | none => List.replicate 8 0
    | some n => b1 1 ++ b1 (if n.parked then 1 else 2) ++ natLe 2 n.ltile.toNat ++ natLe 4 n.lfire
  head ++ natLe 4 x.nonfin.toNat ++ natLe 4 x.steer.toNat ++ natLe 4 x.ovf.toNat ++ natLe 4 x.cecc.toNat ++ natLe 4 x.adapt.toNat ++ natLe 4 0

/-- Section 2: beds 0 to 255. -/
def dumpBeds (s : State) : List Byte := (List.range 256).flatMap (dumpBed s)

/-- The S tiles in tile ID order. -/
def sTiles : List Nat := (List.range 1024).filter fun t => tileKind t == .s

def ptrBytes (p : Ptrs) : List Byte := natLe 3 p.wp.toNat ++ natLe 3 p.rp.toNat ++ natLe 3 p.fp.toNat ++ natLe 3 p.mp.toNat

/-- Queue q of S tile t as the snapshot has it. -/
def snapQueue (s : State) (t q : Nat) : Queue :=
  match s.pace.snap.queues.find? fun x => x.1 == t && x.2.1 == q with
  | some x => x.2.2
  | none => {}

/-- A queue of section 3. -/
def dumpQueue (s : State) (t q : Nat) : List Byte :=
  let d := (s.tile t).qdesc q
  let x := snapQueue s t q
  natLe 2 t ++ b1 q ++ b1 (b2n (qUsed d) + 2 * b2n (qRet d) + 4 * b2n x.a.mv + 8 * b2n x.b.mv + 16 * b2n x.froz) ++ natLe 2 x.occ ++
  natLe 2 x.avl ++ ptrBytes x.a ++ ptrBytes x.b

/-- Section 3: the queues of every S tile. -/
def dumpQueues (s : State) : List Byte := sTiles.flatMap fun t => (List.range 16).flatMap (dumpQueue s t)

/-- An edge tile of section 4. -/
def dumpEdge (s : State) (e : Nat) : List Byte :=
  let n := (s.pace.snap.edges.find? fun x => x.1 == e).getD (e, 0, 0)
  natLe 2 (edgeId e) ++ natLe 2 0 ++ natLe 4 n.2.1 ++ natLe 4 n.2.2 ++ natLe 4 0

/-- Section 4: the edge tiles. -/
def dumpEdges (s : State) : List Byte := (List.range 128).flatMap (dumpEdge s)

/-- Section 5: the registers of the link ports. -/
def dumpLinks (s : State) : List Byte := (List.range 4).flatMap fun p => regBytes (linkReg (s.port p)) 16

/-- Section 6: the PWR registers. -/
def dumpPower (s : State) : List Byte := regBytes (pwrReg s) 256

/-- The sections, in order. -/
def dumpSections (s : State) : List (List Byte) :=
  [dumpLog s, dumpPace s, dumpBeds s, dumpQueues s, dumpEdges s, dumpLinks s, dumpPower s, []]

/-! ## Header and whole -/

/-- Offset and length of each section, the first at off. -/
def sectionTable : Nat → List Nat → List Byte
  | _, [] => []
  | off, n :: r => natLe 4 off ++ natLe 4 n ++ sectionTable (off + n) r

/-- The dump's header (Table TWN-7). -/
def dumpHeader (s : State) (num : BitVec 16) (lens : List Nat) : List Byte :=
  let p := s.pace.snap
  padBytes 256 (b1 0x54 ++ b1 0x56 ++ b1 0x44 ++ b1 0x31 ++ natLe 2 1 ++ natLe 2 256 ++ natLe 4 (256 + lens.sum) ++ natLe 4 num.toNat ++ natLe 8 p.time ++
    natLe 6 p.step ++ natLe 2 s.flt.firstCode.toNat ++ b1 s.flt.firstSev.toNat ++ b1 (steppingCode s.glb.stepping) ++
    b1 (paceCode p.stateBefore) ++ b1 0 ++ natLe 4 s.sec.fwver.toNat ++ (natLe 48 (imageHash s).toNat).take 16 ++
    natLe 2 s.cfg.pos.toNat ++ b1 (twCode s.tw.state) ++ b1 (b2n s.tw.lead) ++ natLe 4 0 ++ sectionTable 256 lens)

/-- PD3 to PD5 go off after a thermal shutdown once the dump is over (R409). -/
def afterDump (s : State) : State := if s.pwr.memOffT.isSome then memoryOff s else s

/-- The dump fails: the fault log remains the record. -/
def dumpFails (s : State) : State := afterDump (event { s with flt := { s.flt with dumpState := .failed } } 0x0F07)

/-- The header's MAGIC is zeroed, so that a reader finds no dump until the last write. -/
def zeroMagic (s : State) : State :=
  { s with mc := storeHost s.mc (dumpBase s) (List.replicate 4 0), flt := { s.flt with dumpStep := 1 } }

/-- The sections are written after the header's place. -/
def writeSections (s : State) : State :=
  let secs := dumpSections s
  { s with mc := storeHost s.mc (dumpBase s + 256) (secs.flatMap id)
           flt := { s.flt with dumpStep := 2, dumpLens := secs.map List.length } }

/-- The header is written, its MAGIC last: the dump is whole. -/
def writeHeader (s : State) : State :=
  let num := satInc s.flt.dumpNum
  afterDump (event { s with
    mc := storeHost s.mc (dumpBase s) (dumpHeader s num s.flt.dumpLens)
    flt := { s.flt with dumpState := .complete, dumpNum := num, dumpStep := 0, dumpLen := BitVec.ofNat 32 (256 + s.flt.dumpLens.sum) } }
    0x0F04)

/-- FAULT_DUMP: the next of the three writes of the dump that is due, in the order of R395; `ok` tells whether it succeeds. -/
def faultDump (s : State) (ok : Bool) : State :=
  if s.flt.dumpState ≠ .writing ∨ s.fwRuns = false then s
  else if !ok || !s.mc.ready then dumpFails s
  else if s.flt.dumpStep = 0 then zeroMagic s
  else if s.flt.dumpStep = 1 then writeSections s
  else writeHeader s

def execFaultDump (ok : Bool) (s : State) : Host.Outcome State Fault Refusal := .next (faultDump s ok)

end Sys2Proof.Machine
end

