-- ==== Sys2Proof/Machine/MTile.lean ====
section
/-! DEFINITION. The M tile: MAC, SEED, DRAIN, LDC, LDS, KCTL (05, R89-R114). -/

namespace Sys2Proof.Machine

/-! ## Descriptors (R92, R93) -/

/-- A layer descriptor: words A and B. -/
structure MDesc where
  a : Nat
  b : Nat
deriving DecidableEq, Repr

def MDesc.wf (d : MDesc) : Nat := bits d.a 57 3
def MDesc.g (d : MDesc) : Nat := 32 * 2 ^ bits d.a 55 2
def MDesc.af (d : MDesc) : FloatFmt := actFmt (bitAt d.a 54)
def MDesc.ofCode (d : MDesc) : Nat := bits d.a 52 2
def MDesc.act (d : MDesc) : Nat := bits d.a 50 2
def MDesc.bias (d : MDesc) : Bool := bitAt d.a 49
def MDesc.msk (d : MDesc) : Bool := bitAt d.a 48
def MDesc.ksel (d : MDesc) : Nat := bits d.a 45 3
def MDesc.nch (d : MDesc) : Nat := bits d.a 38 7 + 1
def MDesc.k (d : MDesc) : Nat := bits d.a 24 14 + 1
def MDesc.cbase (d : MDesc) : Nat := 16 * bits d.a 0 13
def MDesc.sbase (d : MDesc) : Nat := 8 * bits d.b 40 12
def MDesc.bbase (d : MDesc) : Nat := 8 * bits d.b 28 12
def MDesc.cbk (d : MDesc) : Nat := 16 * bits d.b 17 11

/-- Code width (R93). -/
def MDesc.width (d : MDesc) : Nat := if d.wf = 1 then 3 else if d.wf = 3 then 8 else 4

/-- Number of groups and bytes per group and channel (R93). -/
def MDesc.gn (d : MDesc) : Nat := (d.k + d.g - 1) / d.g
def MDesc.gb (d : MDesc) : Nat := d.g * d.width / 8

/-- Tokens of a drain (R100). -/
def MDesc.nt (d : MDesc) : Nat := if d.ofCode = 2 then (d.nch + 3) / 4 else (d.nch + 7) / 8

/-- The descriptor an instruction names. -/
def mDesc (g : GridTile) (w : BitVec 64) : MDesc := { a := g.const (bits (iOpnd w) 0 7), b := g.const (bits (iOpnd w) 0 7 + 1) }

/-- The constants an instruction of the descriptor reads. -/
def mConsts (_ : GridTile) (w : BitVec 64) : List Nat := [bits (iOpnd w) 0 7, bits (iOpnd w) 0 7 + 1]

/-! ## Codes and weights (R75-R78, R93, R94) -/

/-- Byte address and bit of the code of element k, channel c. -/
def codePlace (d : MDesc) (c k : Nat) : Nat × Nat :=
  let o := d.width * (k % d.g)
  (d.cbase + (k / d.g * d.nch + c) * d.gb + o / 8, o % 8)

/-- The code of element k, channel c. -/
def codeAt (m : MState) (d : MDesc) (c k : Nat) : Nat :=
  let (a, b) := codePlace d c k
  bits ((mget 0 m.code a).toNat + 256 * (mget 0 m.code (a + 1)).toNat) b d.width

/-- The value of a code before scaling (Table NUM-3). -/
def codeValue (m : MState) (d : MDesc) (x : Nat) : Frac :=
  if d.wf = 2 then FloatFmt.fp16.value (mget 0 m.scale (d.cbk + x)).toNat
  else Frac.ofInt (signed d.width x)

/-- The scale of group j, channel c (R93). -/
def scaleAt (m : MState) (d : MDesc) (j c : Nat) : Nat := (mget 0 m.scale (d.sbase + j * d.nch + c)).toNat

/-! ## Banks -/

/-- The active bank, and the bank named. -/
def MState.bank (m : MState) (one : Bool) : AMap Word := if one then m.acc1 else m.acc0
def MState.setBank (m : MState) (one : Bool) (b : AMap Word) : MState := if one then { m with acc1 := b } else { m with acc0 := b }
def MState.bub (m : MState) (one : Bool) : Bool := if one then m.bub1 else m.bub0
def MState.setBub (m : MState) (one v : Bool) : MState := if one then { m with bub1 := v } else { m with bub0 := v }

def bankStore (one : Bool) : StoreId := if one then .bank1 else .bank0

/-! ## The reduction (R96) -/

/-- The sum of the eight products of one token for channel c, by the tree of R96. -/
def beatSum (m : MState) (d : MDesc) (tok : Token) (i c : Nat) : Nat :=
  let p : Nat → Frac := fun l =>
    if d.k ≤ 8 * i + l then {}
    else (d.af.operand (tokElem tok 16 l)).mul (codeValue m d (codeAt m d c (8 * i + l)))
  let r : Frac → Frac → Nat := fun x y => FloatFmt.fp32.round (x.add y)
  fadd32 (fadd32 (r (p 0) (p 1)) (r (p 2) (p 3))) (fadd32 (r (p 4) (p 5)) (r (p 6) (p 7)))

/-- One channel of a MAC firing: its group sum and its accumulator. -/
def macChannel (m : MState) (d : MDesc) (tok : Token) (use group : Bool) (i : Nat) (gacc : AMap Word × AMap Word) (c : Nat) :
    AMap Word × AMap Word :=
  let g0 := (mget 0 gacc.1 c).toNat
  let g1 := if use then fadd32 g0 (beatSum m d tok i c) else g0
  if group then
    let pr := FloatFmt.fp32.round ((FloatFmt.fp32.value g1).mul (FloatFmt.fp16.value (scaleAt m d (8 * i / d.g) c)))
    let a1 := fadd32 (mget 0 gacc.2 c).toNat pr
    (mset 0 gacc.1 c 0, mset 0 gacc.2 c (BitVec.ofNat 32 a1))
  else (mset 0 gacc.1 c (BitVec.ofNat 32 g1), gacc.2)

/-- The stores after one MAC firing but for the flip. -/
def macStep (m : MState) (d : MDesc) (tok : Token) (use last clr : Bool) (i : Nat) : MState :=
  let one := m.active
  let start := i == 0
  let g0 : AMap Word := if start then [] else m.gsum
  let a0 : AMap Word := if start && clr then [] else m.bank one
  let group := (8 * i + 8) % d.g == 0 || last
  let (g1, a1) := (List.range d.nch).foldl (macChannel m d tok use group i) (g0, a0)
  let m1 := ({ m with gsum := g1 }).setBank one a1
  m1.setBub one ((if start && clr then true else m.bub one) && !use)

/-! ## Drain (R100-R104) -/

/-- One drained value in the output format (R101). -/
def drainValue (m : MState) (d : MDesc) (bank : AMap Word) (c : Nat) : Nat :=
  let f := fmtOfCode d.ofCode
  let y0 := (mget 0 bank c).toNat
  let y1 := if d.bias then
      FloatFmt.fp32.round ((FloatFmt.fp32.value y0).add (FloatFmt.fp16.value (mget 0 m.scale (d.bbase + c)).toNat)) else y0
  let v := FloatFmt.fp32.value y1
  let y2 := if d.act = 1 then (if v.num ≤ 0 then 0 else y1)
    else if d.act = 2 then (if v.num ≤ 0 then 0 else if (Frac.ofInt 6).lt v then 0x40C00000 else y1)
    else y1
  let y3 := if d.ofCode = 2 then y2 else convert .fp32 f y2
  if d.msk && decide (mget 0 m.kc d.ksel ≤ c) then f.signBit + f.maxBits else y3

/-- The tokens of a drain of the bank named (R101, R103). -/
def drainTokens (m : MState) (d : MDesc) (one : Bool) (ctx : BitVec 2) (bseq : BitVec 4) (mark : Marker) : List Token :=
  let f := fmtOfCode d.ofCode
  let per := if d.ofCode = 2 then 4 else 8
  markLast mark ((List.range d.nt).map fun t =>
    if m.bub one then mkBubble .none ctx bseq
    else mkToken (mkPayload f.width ((List.range per).map fun l =>
      if per * t + l < d.nch then drainValue m d (m.bank one) (per * t + l) else 0)) .none ctx bseq)

/-- The store entries a drain reads. -/
def drainReads (d : MDesc) (one : Bool) : List (StoreId × Nat) :=
  (List.range d.nch).flatMap fun c =>
    (bankStore one, c) :: (if d.bias then [(StoreId.scale, d.bbase + c)] else [])

/-- Flip the banks and start the drain (R100). -/
def flipBank (g : GridTile) (d : MDesc) (ts : List (Nat × Token)) : GridTile :=
  let one := g.m.active
  let toks := drainTokens g.m d one g.cur (copyBseq ts) (maxMark (toksOf ts))
  { g with m := { g.m with active := !one, drain := { toks := toks } } }

/-- Is this firing the flip of its instruction? -/
def isFlip (g : GridTile) (w : BitVec 64) : Bool := bitAt (iOpnd w) 8 && g.rep == iRep w

/-- Room for a firing that may flip (R100). -/
def mReady (g : GridTile) (w : BitVec 64) : Bool := !isFlip g w || g.m.drain.toks.isEmpty

/-! ## MAC -/

/-- The bytes of the code of element k, channel c: two where a code of three bits crosses a byte. -/
def codeBytes (d : MDesc) (c k : Nat) : List Nat :=
  let (a, b) := codePlace d c k
  if b + d.width ≤ 8 then [a] else [a, a + 1]

/-- The store entries a MAC firing reads: each byte of each code, codebook entries, scales, accumulators (R90). -/
def macReads (g : GridTile) (d : MDesc) (use group : Bool) (i : Nat) : List (StoreId × Nat) :=
  (List.range d.nch).flatMap fun c =>
    (if use then (List.range 8).flatMap fun l =>
        if d.k ≤ 8 * i + l then []
        else (codeBytes d c (8 * i + l)).map (fun a => (StoreId.code, a)) ++
          (if d.wf = 2 then [(StoreId.scale, d.cbk + codeAt g.m d c (8 * i + l))] else []) else []) ++
    (if group then [(StoreId.scale, d.sbase + 8 * i / d.g * d.nch + c), (bankStore g.m.active, c)] else [])

/-- Non-finite activations among the lanes of the reduction (R72, R95). -/
def nonfinLanes (f : FloatFmt) (tok : Token) (n : Nat) : Nat :=
  ((List.range n).filter fun l => f.nonFinite (tokElem tok f.width l)).length

def macPlan (_ : State) (g : GridTile) (w : BitVec 64) (ts : List (Nat × Token)) : Plan :=
  let d := mDesc g w
  let i := g.rep
  let tok := tokAt ts 0
  let use := !tok.bub || iBubm w == 1
  let last := i == iRep w
  let flip := isFlip g w
  let group := (8 * i + 8) % d.g == 0 || last
  let clr := bitAt (iOpnd w) 7
  let g0 := if i == 0 && clr then g.cleanAll (bankStore g.m.active) (List.range 128) else g
  let g1 := { g0 with m := macStep g0.m d tok use last clr i }
  { g := if flip then flipBank g1 d ts else g1
    faults := parityFaults g0 0x0409 (macReads g d use group i ++ if flip then drainReads d g.m.active else [])
    nonfin := if use then nonfinLanes d.af tok (min 8 (d.k - 8 * i)) else 0
    flips := flip }

/-- MAC (R96-R99). -/
def macFire (s : State) (t : Nat) : State := fire s t .m 1 mReady mConsts macPlan

def execMac (t : Fin 1024) (s : State) : Host.Outcome State Fault Refusal := .next (macFire s t)

/-! ## SEED (R105) -/

/-- The active bank after a SEED firing. -/
def seedStep (m : MState) (d : MDesc) (tok : Token) (zero : Bool) (i : Nat) : MState :=
  let one := m.active
  let b := (List.range 4).foldl (fun b l =>
    if 4 * i + l < d.nch then mset 0 b (4 * i + l) (BitVec.ofNat 32 (FloatFmt.fp32.finite (tokElem tok 32 l))) else b) (m.bank one)
  (m.setBank one b).setBub one (m.bub one && tok.bub && !zero)

def seedPlan (_ : State) (g : GridTile) (w : BitVec 64) (ts : List (Nat × Token)) : Plan :=
  let d := mDesc g w
  let tok := tokAt ts 2
  let flip := isFlip g w
  let g0 := g.cleanAll (bankStore g.m.active) (((List.range 4).map fun l => 4 * g.rep + l).filter fun c => c < d.nch)
  let g1 := { g0 with m := seedStep g.m d tok (iBubm w == 1) g.rep }
  { g := if flip then flipBank g1 d ts else g1
    faults := parityFaults g0 0x0409 (if flip then drainReads d g.m.active else [])
    nonfin := if tok.bub then 0 else nonfinLanes .fp32 tok (min 4 (d.nch - 4 * g.rep))
    flips := flip }

def seedFire (s : State) (t : Nat) : State := fire s t .m 2 mReady mConsts seedPlan

def execSeed (t : Fin 1024) (s : State) : Host.Outcome State Fault Refusal := .next (seedFire s t)

/-! ## DRAIN (R101, R102, R104): the drain reads its next token from the bank into the core -/

/-- The next token of a drain in progress leaves the drained bank while the core has room for it and hold does not
stand (R102). -/
def drainFire (s : State) (t : Nat) : State :=
  let g := s.tile t
  match g.m.drain.toks with
  | [] => s
  | u :: r =>
    if tileKind t == .m && !g.inReset && !s.holding && roomAll s.adr .m g 1 then
      s.setTile t { g with pipe := mset [] g.pipe 0 (mget [] g.pipe 0 ++ [u]), m := { g.m with drain := { toks := r } } }
    else s

def execDrain (t : Fin 1024) (s : State) : Host.Outcome State Fault Refusal := .next (drainFire s t)

/-! ## LDC and LDS (R106-R109) -/

/-- MODE and ADV of a load instruction. -/
def loadChannel (w : BitVec 64) : Bool := bitAt (iOpnd w) 7
def loadAdv (w : BitVec 64) : Bool := bitAt (iOpnd w) 8

/-- The tag check of a channel-mode firing (R109). -/
def tagFaults (g : GridTile) (w : BitVec 64) (d : MDesc) (tok : Token) : List FireFault :=
  if loadChannel w then
    match mget none g.m.tag d.ksel with
    | none => []
    | some b => if b = tok.bseq then [] else [{ code := 0x0601, d0 := b.toNat, d1 := tok.bseq.toNat }]
  else []

/-- A channel-mode firing beyond the layer's channels (R108). -/
def counterFaults (g : GridTile) (w : BitVec 64) (d : MDesc) (addr : Nat) : List FireFault :=
  if loadChannel w && decide (d.nch ≤ mget 0 g.m.kc d.ksel) then
    [{ code := 0x0408, addr := addr, d0 := d.ksel, d1 := mget 0 g.m.kc d.ksel }] else []

/-- Latch the tag, and advance the counter after the last repeat with ADV (R108, R109). -/
def loadCounter (g : GridTile) (w : BitVec 64) (d : MDesc) (tok : Token) : GridTile :=
  if loadChannel w then
    let tag : Option (BitVec 4) := match mget none g.m.tag d.ksel with
      | none => some tok.bseq
      | some b => some b
    if loadAdv w && g.rep == iRep w then
      { g with m := { g.m with kc := mset 0 g.m.kc d.ksel (min (mget 0 g.m.kc d.ksel + 1) 128)
                               tag := mset none g.m.tag d.ksel none } }
    else { g with m := { g.m with tag := mset none g.m.tag d.ksel tag } }
  else g

/-- First byte an LDC firing writes (R106). -/
def ldcAddr (g : GridTile) (w : BitVec 64) (d : MDesc) : Nat :=
  if loadChannel w then
    let per := d.g / 32
    d.cbase + (g.rep / per * d.nch + mget 0 g.m.kc d.ksel) * (d.g / 2) + 16 * (g.rep % per)
  else d.cbase + 16 * g.rep

def ldcPlan (_ : State) (g : GridTile) (w : BitVec 64) (ts : List (Nat × Token)) : Plan :=
  let d := mDesc g w
  let tok := tokAt ts 1
  let a := ldcAddr g w d
  let write := !tok.bub || iBubm w == 1
  let g1 := if write then
      (List.range 16).foldl (fun g j =>
        ({ g with m := { g.m with code := mset 0 g.m.code (a + j) (BitVec.ofNat 8 (tokElem tok 8 j)) } }).clean .code (a + j)) g
    else g
  { g := loadCounter g1 w d tok, faults := counterFaults g w d a ++ tagFaults g w d tok }

def ldcFire (s : State) (t : Nat) : State := fire s t .m 3 (fun _ _ => true) mConsts ldcPlan

def execLdc (t : Fin 1024) (s : State) : Host.Outcome State Fault Refusal := .next (ldcFire s t)

/-- The scale entry lane l of an LDS firing writes, if any (R107). -/
def ldsEntry (g : GridTile) (w : BitVec 64) (d : MDesc) (l : Nat) : Option Nat :=
  let j := 8 * g.rep + l
  if loadChannel w then (if j < d.gn then some (d.sbase + j * d.nch + mget 0 g.m.kc d.ksel) else none)
  else some (d.sbase + j)

def ldsPlan (_ : State) (g : GridTile) (w : BitVec 64) (ts : List (Nat × Token)) : Plan :=
  let d := mDesc g w
  let tok := tokAt ts 3
  let write := !tok.bub || iBubm w == 1
  let lanes := (List.range 8).filterMap fun l => (ldsEntry g w d l).map fun e => (e, tokElem tok 16 l)
  let g1 := if write then
      lanes.foldl (fun g x =>
        ({ g with m := { g.m with scale := mset 0 g.m.scale x.1 (BitVec.ofNat 16 (FloatFmt.fp16.finite x.2)) } }).clean .scale x.1) g
    else g
  { g := loadCounter g1 w d tok
    faults := counterFaults g w d (d.sbase + 8 * g.rep * d.nch + mget 0 g.m.kc d.ksel) ++ tagFaults g w d tok
    nonfin := if write then (lanes.filter fun x => FloatFmt.fp16.nonFinite x.2).length else 0 }

def ldsFire (s : State) (t : Nat) : State := fire s t .m 4 (fun _ _ => true) mConsts ldsPlan

def execLds (t : Fin 1024) (s : State) : Host.Outcome State Fault Refusal := .next (ldsFire s t)

/-! ## KCTL (R110) -/

def kctlPlan (_ : State) (g : GridTile) (w : BitVec 64) (_ : List (Nat × Token)) : Plan :=
  let c := bits (iOpnd w) 0 3
  { g := { g with m := { g.m with kc := mset 0 g.m.kc c (bits (iOpnd w) 4 8), tag := mset none g.m.tag c none } } }

def kctlFire (s : State) (t : Nat) : State := fire s t .m 5 (fun _ _ => true) (fun _ _ => []) kctlPlan

def execKctl (t : Fin 1024) (s : State) : Host.Outcome State Fault Refusal := .next (kctlFire s t)

end Sys2Proof.Machine
end

