-- ==== Sys2Proof/Machine/WTile.lean ====
section
/-! DEFINITION. The W tile: GATE, BUBG, SWITCH, SELECT, CMP, SETF, LOOP and BR (09, R191-R197). -/

namespace Sys2Proof.Machine

/-! ## Predicates (Table SFW-6) -/

/-- Lane 0 of a token. -/
def lane0 (u : Token) : Nat := tokElem u 16 0

/-- Does predicate p hold? -/
def wPred (g : GridTile) (p : Nat) (u : Token) : Bool :=
  match p with
  | 0 => true
  | 1 => !u.bub
  | 2 => u.bub
  | 3 => !u.bub && lane0 u != 0
  | 4 => u.bub || lane0 u == 0
  | 5 => g.w.fl0
  | 6 => !g.w.fl0
  | 7 => g.w.fl1
  | 8 => !g.w.fl1
  | 9 => g.w.lc0 == 0
  | 10 => g.w.lc0 != 0
  | 11 => g.w.lc1 == 0
  | _ => g.w.lc1 != 0

/-- The flags and counters a predicate reads. -/
def predReads (p : Nat) : List (StoreId × Nat) :=
  if p = 5 ∨ p = 6 then [(.flags, 0)] else if p = 7 ∨ p = 8 then [(.flags, 1)]
  else if p = 9 ∨ p = 10 then [(.fcnt, 0)] else if 11 ≤ p then [(.fcnt, 1)] else []

/-- The predicate of a firing. -/
def wHolds (g : GridTile) (w : BitVec 64) (ts : List (Nat × Token)) : Bool := wPred g (iPred w) (tokAt ts 3)

/-- The marker of the tokens a firing produces (R195). -/
def wMark (s : State) (g : GridTile) (w : BitVec 64) (ts : List (Nat × Token)) : Marker :=
  if iIn w = 0 then (if completing g then s.pace.rank else .none) else maxMark (toksOf ts)

/-- A copy of a token: payload, BUB and BSEQ kept, PAR fresh, CTX the core's (R195). -/
def passTok (g : GridTile) (m : Marker) (u : Token) : Token :=
  if u.bub then mkBubble m g.cur u.bseq else mkToken u.payload m g.cur u.bseq

/-- One token for each port of OUT. -/
def onOuts (w : BitVec 64) (f : Nat → Token) : List (Nat × List Token) := (maskPorts (iOut w)).map fun p => (p, [f p])

/-- Tokens that a firing gives each port of OUT: B of a BUBG (R194), one else. -/
def wGives (w : BitVec 64) : Nat := if iOpc w = 2 then bits (iOpnd w) 0 4 + 1 else 1

def wReady (s : State) (g : GridTile) (w : BitVec 64) : Bool := roomFor s.adr .w g (iOut w) (wGives w)

/-- A W instruction that produces: its predicate's parity, the tokens it gives. -/
def wPlan (g : GridTile) (w : BitVec 64) (out : List (Nat × List Token)) (steer : Bool) : Plan :=
  { g := g, faults := parityFaults g 0x040C (predReads (iPred w)), out := out, steer := steer }

/-- One firing of a W tile. -/
def wFire (s : State) (t opc : Nat) (plan : State → GridTile → BitVec 64 → List (Nat × Token) → Plan) : State :=
  fire s t .w opc (wReady s) (fun _ _ => []) plan

/-! ## GATE, BUBG -/

def gatePlan (s : State) (g : GridTile) (w : BitVec 64) (ts : List (Nat × Token)) : Plan :=
  let u := tokAt ts 0
  let m := wMark s g w ts
  wPlan g w (onOuts w fun _ => if wHolds g w ts then passTok g m u else mkBubble m g.cur u.bseq) false

def execGate (t : Fin 1024) (s : State) : Host.Outcome State Fault Refusal := .next (wFire s t 1 gatePlan)

def bubgPlan (s : State) (g : GridTile) (w : BitVec 64) (ts : List (Nat × Token)) : Plan :=
  let bs := bubbles (bits (iOpnd w) 0 4 + 1) g.cur (copyBseq ts)
  wPlan g w ((maskPorts (iOut w)).map fun p => (p, markLast (wMark s g w ts) bs)) false

def execBubg (t : Fin 1024) (s : State) : Host.Outcome State Fault Refusal := .next (wFire s t 2 bubgPlan)

/-! ## SWITCH, SELECT -/

/-- The port SWITCH passes IP0 to, if any. -/
def switchTo (w : BitVec 64) (u c : Token) : Option Nat :=
  if !u.bub && !c.bub && decide (lane0 c ≤ 3) && bitAt (iOut w) (lane0 c) then some (lane0 c) else none

def switchPlan (s : State) (g : GridTile) (w : BitVec 64) (ts : List (Nat × Token)) : Plan :=
  let u := tokAt ts 0
  let m := wMark s g w ts
  let ok := wHolds g w ts
  let dest := if ok then switchTo w u (tokAt ts 3) else none
  wPlan g w (onOuts w fun p => if dest = some p then passTok g m u else mkBubble m g.cur u.bseq) (ok && !u.bub && dest.isNone)

def execSwitch (t : Fin 1024) (s : State) : Host.Outcome State Fault Refusal := .next (wFire s t 3 switchPlan)

/-- The input SELECT names. -/
def selectFrom (w : BitVec 64) (ts : List (Nat × Token)) : Nat :=
  if bitAt (iIn w) 3 then lane0 (tokAt ts 3) else bits (iOpnd w) 0 2

/-- Is that input one of IP0 to IP2 in IN, and IP3 absent or data? -/
def selectOk (w : BitVec 64) (ts : List (Nat × Token)) : Bool :=
  decide (selectFrom w ts ≤ 2) && bitAt (iIn w) (selectFrom w ts) && (!bitAt (iIn w) 3 || !(tokAt ts 3).bub)

/-- The BSEQ of a bubble that SELECT gives: of the token it stands for where there is one (log entry 20). -/
def selectBseq (w : BitVec 64) (ts : List (Nat × Token)) : BitVec 4 :=
  if selectOk w ts then (tokAt ts (selectFrom w ts)).bseq else copyBseq ts

def selectPlan (s : State) (g : GridTile) (w : BitVec 64) (ts : List (Nat × Token)) : Plan :=
  let m := wMark s g w ts
  let ok := wHolds g w ts
  let good := selectOk w ts
  wPlan g w (onOuts w fun _ => if ok && good then passTok g m (tokAt ts (selectFrom w ts)) else mkBubble m g.cur (selectBseq w ts))
    (ok && !good && ts.any fun x => x.1 != 3 && !x.2.bub)

def execSelect (t : Fin 1024) (s : State) : Host.Outcome State Fault Refusal := .next (wFire s t 4 selectPlan)

/-! ## CMP, SETF -/

/-- The relation of a CMP. -/
def cmpHolds (rel a k : Nat) : Bool :=
  if rel = 0 then a == k else if rel = 1 then a != k else if rel = 2 then decide (k ≤ a) else decide (a < k)

def cmpPlan (s : State) (g : GridTile) (w : BitVec 64) (ts : List (Nat × Token)) : Plan :=
  let u := tokAt ts (((List.range 3).find? fun p => bitAt (iIn w) p).getD 0)
  let m := wMark s g w ts
  let r := cmpHolds (bits (iOpnd w) 16 2) (tokElem u 16 (bits (iOpnd w) 13 3)) (bits (iOpnd w) 0 12)
  let out := if wHolds g w ts && !u.bub then mkToken (mkPayload 16 [b2n r]) m g.cur (copyBseq ts)
    else mkBubble m g.cur (copyBseq ts)
  wPlan g w (onOuts w fun _ => out) false

def execCmp (t : Fin 1024) (s : State) : Host.Outcome State Fault Refusal := .next (wFire s t 5 cmpPlan)

/-- Write a flag. -/
def setFlag (g : GridTile) (one v : Bool) : GridTile :=
  (if one then { g with w := { g.w with fl1 := v } } else { g with w := { g.w with fl0 := v } }).clean .flags (b2n one)

def setfPlan (_ : State) (g : GridTile) (w : BitVec 64) (ts : List (Nat × Token)) : Plan :=
  let u := tokAt ts 3
  let g1 := if wHolds g w ts then setFlag g (bitAt (iOpnd w) 0) (u.bub || lane0 u != 0) else g
  { g := g1, faults := parityFaults g 0x040C (predReads (iPred w)) }

def execSetf (t : Fin 1024) (s : State) : Host.Outcome State Fault Refusal := .next (wFire s t 6 setfPlan)

/-! ## LOOP, BR (R197): no firings, no count -/

/-- A loop counter after LOOP. -/
def loopNext (w : BitVec 64) (c : BitVec 12) : BitVec 12 :=
  if bitAt (iOpnd w) 16 then 0 else BitVec.ofNat 12 ((c.toNat + 1) % (bits (iOpnd w) 0 12 + 1))

def loopPlan (_ : State) (g : GridTile) (w : BitVec 64) (_ : List (Nat × Token)) : Plan :=
  let one := bitAt (iOpnd w) 17
  let g1 := if one then { g with w := { g.w with lc1 := loopNext w g.w.lc1 } }
    else { g with w := { g.w with lc0 := loopNext w g.w.lc0 } }
  { g := g1.clean .fcnt (b2n one), faults := parityFaults g 0x040C [(.fcnt, b2n one)], counts := false
    jump := some (g.pc + 1) }

def execLoop (t : Fin 1024) (s : State) : Host.Outcome State Fault Refusal := .next (wFire s t 7 loopPlan)

def brPlan (_ : State) (g : GridTile) (w : BitVec 64) (_ : List (Nat × Token)) : Plan :=
  { g := g, faults := parityFaults g 0x040C (predReads (iPred w)), counts := false
    jump := some (if wHolds g w [] then BitVec.ofNat 8 (iJmp w) else g.pc + 1) }

def execBr (t : Fin 1024) (s : State) : Host.Outcome State Fault Refusal := .next (wFire s t 8 brPlan)

end Sys2Proof.Machine
end

