-- ==== Sys2Proof/Machine/LoadCheck.lean ====
section
/-! DEFINITION. The load checks of rows 12 and 13 of Table IMG-12: routing and programs (Table TRL-7), the kind checks (Tables
MAC-7, ROT-7, MEM-10, SFW-5, SFW-9), window records (Table CNV-2), rings (R201) and the FP16 values of MEMINIT (R79). -/

namespace Sys2Proof.Machine

/-! ## Routing (Table TRL-7, R33, R468) -/

/-- Field f of a routing word: tracks 0-7, IP0-IP3 8-11. -/
def sel (w f : Nat) : Nat := bits w (4 * f) 4

/-- The routing word of a tile in a context, FMT alone for a tile with no block. -/
def routeIn (bs : List TileBlock) (i : Nat) : Nat :=
  match bs.find? fun x => x.tile.toNat == i with
  | some x => x.route.toNat
  | none => 0x1000000000000000

/-- Input and output ports of a kind (Tables MAC-1, ROT-1, MEM-1, SFW-1, R191). -/
def inPorts : Kind → Nat
  | .m => 4 | .q => 2 | .s => 4 | .f => 2 | .w => 4
def outPorts : Kind → Nat
  | .m => 1 | .q => 2 | .s => 4 | .f => 2 | .w => 4

/-- The fabric side of an edge tile: the side towards its grid neighbour. -/
def fabricSide (e : Nat) : Nat := oppSide (e / 32)

/-- The tile ID across side d of a tile. -/
def acrossId (i d : Nat) : Option Nat :=
  if isEdgeId i then (if d = fabricSide (edgeOfId i) then some (edgeNeighbour (edgeOfId i)) else none)
  else
    match neighbour i d with
    | .grid t => some t
    | .edge e => some (edgeId e)

/-- May a destination field of a tile's routing word hold its value? An edge tile's two paths are its core's ports (R468), so a block
with CLAIMED = 0 selects neither (R243). -/
def selAllowed (x : TileBlock) (f : Nat) : Bool :=
  let i := x.tile.toNat
  let v := sel x.route.toNat f
  if v = 0 then true
  else if isEdgeId i then
    let d := fabricSide (edgeOfId i)
    x.claimed && (if f < 8 then f / 2 == d && v == 9 else f == 8 && (v == 1 + 2 * d || v == 2 + 2 * d))
  else if f < 8 then decide (v ≤ 8) || (x.claimed && decide (v - 9 < outPorts (tileKind i)))
  else x.claimed && decide (v ≤ 8) && decide (f - 8 < inPorts (tileKind i))

/-- Format, loopback and missing-port checks of a routing word. -/
def routeFormat (x : TileBlock) : Bool :=
  let w := x.route.toNat
  bits w 60 4 == 1 && bits w 48 12 == 0 && (List.range 12).all fun f => decide (sel w f < 13) && selAllowed x f

/-- Is outgoing track f driven with nothing at its far end to take it? -/
def orphanTrack (bs : List TileBlock) (x : TileBlock) (f : Nat) : Bool :=
  sel x.route.toNat f != 0 &&
  (match acrossId x.tile.toNat (f / 2) with
   | none => true
   | some j => (List.range 12).all fun k => sel (routeIn bs j) k != 1 + 2 * oppSide (f / 2) + f % 2)

/-- Does field f select an incoming track that its sender leaves idle? -/
def deadSelect (bs : List TileBlock) (x : TileBlock) (f : Nat) : Bool :=
  let v := sel x.route.toNat f
  decide (1 ≤ v) && decide (v ≤ 8) &&
  (match acrossId x.tile.toNat ((v - 1) / 2) with
   | none => true
   | some j => sel (routeIn bs j) (2 * oppSide ((v - 1) / 2) + (v - 1) % 2) == 0)

/-! ## A block as its tile reads it -/

/-- The block's context store contents as context 0 of a tile, so that the tile's own readers apply. -/
def blockTile (x : TileBlock) : GridTile :=
  let is : AMap (BitVec 64) := x.instrs.zipIdx.foldl (fun m p => mset 0 m p.2 p.1) []
  { words := x.consts.zipIdx.foldl (fun m p => mset 0 m (257 + p.2) p.1) is }

/-- Queues bound to hard push ports (0-3) or hard pop ports (4-7). -/
def boundQueues (g : GridTile) (ks : List Nat) : List Nat := ks.filterMap g.binding

/-- Does an S tile claim one port or queue side twice (R141)? -/
def doubleClaim (g : GridTile) (prog : List (BitVec 64)) : Bool :=
  let ins := boundQueues g [0, 1, 2, 3]
  let outs := boundQueues g [4, 5, 6, 7]
  !allDistinct ins || !allDistinct outs ||
  prog.any fun w =>
    (iOpc w == 1 && ins.contains (instrQueue w)) || (iOpc w == 2 && outs.contains (instrQueue w)) ||
    (maskPorts (iIn w)).any (fun p => (g.binding p).isSome) || (maskPorts (iOut w)).any fun p => (g.binding (4 + p)).isSome

/-- The highest opcode that a kind defines. -/
def topOpc : Kind → Nat
  | .m => 5 | .q => 7 | .s => 10 | .f => 6 | .w => 8

/-- A reserved opcode, or a reserved value of a field of Table TRL-9. MRK = 0b11 of an S tile's NOP with empty masks is refused with
the rest: R158 ignores MRK there as the tile runs, Table TRL-7 refuses the reserved value as the image is loaded, and neither
names the other (DESIGN CHOICE, log entry 78). -/
def wordReserved (k : Kind) (w : BitVec 64) : Bool :=
  decide (topOpc k < iOpc w) || iMrk w == 3 || iBubm w == 3 || (if k = .w then decide (12 < iPred w) else iPred w != 0)

/-- Row 12 for one block. R250 orders placements, contexts and tiles; the order of Table TRL-7's rows within one block is the
model's: format, orphan track, dead select, double-claim, opcode (DESIGN CHOICE, log entry 78). -/
def row12Block (bs : List TileBlock) (x : TileBlock) : Option LoadFail :=
  let i := x.tile.toNat
  let grid := !isEdgeId i && x.claimed
  failIf (!routeFormat x) 0x0313 12 x.off <|>
  failIf ((List.range 8).any (orphanTrack bs x)) 0x0311 12 x.off <|>
  failIf ((List.range 12).any (deadSelect bs x)) 0x0312 12 x.off <|>
  failIf (grid && tileKind i == .s && doubleClaim (blockTile x) x.instrs) 0x0310 12 x.off <|>
  failIf (grid && x.instrs.any (wordReserved (tileKind i))) 0x0313 12 x.off

def row12 (b : List Byte) (pos : Nat) : Option LoadFail :=
  perCtx b pos fun p c =>
    let bs := sortBlocks (ctxBlocks b (directory b) p pos c).1
    firstFail bs (row12Block bs)

/-! ## M tiles (Table MAC-7) -/

/-- A rule on every instruction: the code where one breaks it, and the index of the first that does. -/
def anyWord (prog : List (BitVec 64)) (p : BitVec 64 → Bool) (code : Nat) : Option (Nat × Nat) :=
  (prog.zipIdx.find? fun x => p x.1).map fun x => (code, x.2)

/-- The first constant with an infinity or a NaN that an instruction of the program takes (R79, R88). -/
def anyConst (prog : List (BitVec 64)) (f : BitVec 64 → Option Nat) : Option (Nat × Nat) := (prog.findSome? f).map fun i => (0x0314, i)

/-- The instructions that name a descriptor. -/
def mNames (w : BitVec 64) : Bool := decide (1 ≤ iOpc w) && decide (iOpc w ≤ 4)

def mOperandBad (w : BitVec 64) : Bool :=
  match iOpc w with
  | 0 => iOpnd w != 0
  | 1 => bits (iOpnd w) 9 9 != 0
  | 2 => bits (iOpnd w) 9 9 != 0 || bitAt (iOpnd w) 7
  | 5 => bits (iOpnd w) 12 6 != 0 || bitAt (iOpnd w) 3
  | _ => bits (iOpnd w) 9 9 != 0

/-- IN and OUT of Table MAC-6. -/
def mPortsBad (w : BitVec 64) : Bool :=
  let flip := b2n (bitAt (iOpnd w) 8)
  match iOpc w with
  | 0 => decide (1 < iOut w)
  | 1 => iIn w != 1 || iOut w != flip
  | 2 => iIn w != 4 || iOut w != flip
  | 3 => iIn w != 2 || iOut w != 0
  | 4 => iIn w != 8 || iOut w != 0
  | _ => iIn w != 0 || iOut w != 0

def mDescBad (g : GridTile) (w : BitVec 64) : Bool :=
  let d := mDesc g w
  (mNames w && (decide (125 < bits (iOpnd w) 0 7) || bits d.a 60 4 != 2 || decide (3 < d.wf) || bits d.a 55 2 == 3 || d.ofCode == 3 ||
    d.act == 3 || bits d.a 13 11 != 0 || bits d.b 52 12 != 0 || bits d.b 0 17 != 0)) ||
  (iOpc w == 5 && decide (128 < bits (iOpnd w) 4 8))

def mRegionBad (g : GridTile) (w : BitVec 64) : Bool :=
  let d := mDesc g w
  mNames w && (decide (131072 < d.cbase + d.gn * d.nch * d.gb) || decide (32768 < d.sbase + d.gn * d.nch) ||
    (d.bias && decide (32768 < d.bbase + d.nch)) || (d.wf == 2 && decide (32768 < d.cbk + 16)))

def mRepBad (g : GridTile) (w : BitVec 64) : Bool :=
  let d := mDesc g w
  let n := iRep w + 1
  match iOpc w with
  | 1 => n != (d.k + 7) / 8
  | 2 => n != (d.nch + 3) / 4
  | 3 => loadChannel w && n != d.gn * d.g / 32
  | 4 => loadChannel w && n != (d.gn + 7) / 8
  | 5 => n != 1
  | _ => false

def mLinearBad (g : GridTile) (w : BitVec 64) : Bool :=
  let d := mDesc g w
  !loadChannel w && ((iOpc w == 3 && decide (131072 < d.cbase + 16 * (iRep w + 1))) ||
    (iOpc w == 4 && decide (32768 < d.sbase + 8 * (iRep w + 1))))

/-- The M-tile checks in the order of Table MAC-7. -/
def checkM (g : GridTile) (prog : List (BitVec 64)) : Option (Nat × Nat) :=
  anyWord prog mOperandBad 0x0313 <|> anyWord prog mPortsBad 0x0315 <|> anyWord prog (mDescBad g) 0x0315 <|>
  anyWord prog (mRegionBad g) 0x0315 <|>
  anyWord prog (fun w => mNames w && (mDesc g w).wf == 2 && bitAt (mDesc g w).a 54) 0x0315 <|>
  anyWord prog (mRepBad g) 0x0315 <|>
  anyWord prog (fun w => (iOpc w == 3 || iOpc w == 4) && loadChannel w && (mDesc g w).wf != 0) 0x0315 <|>
  anyWord prog (mLinearBad g) 0x0315 <|>
  anyWord prog (fun w => (iOpc w == 1 || iOpc w == 2) && iMrk w == 0 && bitAt (iOpnd w) 8 && decide (1 < (mDesc g w).nt)) 0x0315

/-! ## Q tiles (Table ROT-7) -/

def qNames (w : BitVec 64) : Bool := decide (1 ≤ iOpc w) && decide (iOpc w ≤ 6)

def qOperandBad (w : BitVec 64) : Bool :=
  match iOpc w with
  | 0 => iOpnd w != 0
  | 6 => bits (iOpnd w) 9 9 != 0 || bitAt (iOpnd w) 7
  | 7 => bits (iOpnd w) 4 14 != 0
  | _ => bits (iOpnd w) 7 11 != 0

/-- IN, OUT and REP + 1 of Table ROT-6. -/
def qShapeBad (g : GridTile) (w : BitVec 64) : Bool :=
  let d := qDesc g w
  let n := iRep w + 1
  let ports := fun i o => iIn w != i || iOut w != o
  match iOpc w with
  | 0 => decide (3 < iIn w) || decide (2 < iOut w)
  | 1 => ports 1 1 || n % (d.n / d.per) != 0
  | 2 => ports 1 3 || n % (d.nb * (d.n / d.per)) != 0
  | 3 => ports 2 0 || n != ((if d.transport then d.nch else d.nb) + 7) / 8
  | 4 => ports 1 1 || (!d.transport && n != d.nb * (d.n / 32))
  | 5 => ports 0 2 || n != (d.nch + 7) / 8
  | 6 => ports 1 1 || n % (16 / d.per) != 0
  | _ => ports 0 0 || n != 1

/-- The descriptor fields an instruction does not use, by opcode and format: word A masks as place and width (R129). NORM without
ROTE in a KVQ or DEQ, and UP, QUIET, SMIN and SMAX without ADP in a QNT or SCO, are unused too: `qDescBad`. -/
def qUnused (opc : Nat) (transport : Bool) : List (Nat × Nat) :=
  match opc with
  | 1 => [(58, 2), (55, 1), (42, 7), (35, 7), (34, 1), (26, 8), (18, 8), (11, 7), (0, 11)]
  | 2 => [(49, 2), (35, 7), (34, 1), (26, 8), (18, 8), (11, 7)]
  | 3 =>
    [(56, 2), (55, 1), (53, 2), (51, 2), (49, 2), (if transport then 42 else 35, 7), (34, 1), (26, 8), (18, 8), (11, 7), (0, 11)]
  | 4 =>
    (if transport then [(56, 2), (55, 1), (53, 2), (42, 7)] else [(35, 7)]) ++ [(51, 2), (34, 1), (26, 8), (18, 8), (11, 7), (0, 11)]
  | 5 => [(56, 2), (55, 1), (53, 2), (51, 2), (49, 2), (42, 7), (0, 11)]
  | _ => [(56, 2), (55, 1), (53, 2), (49, 2), (42, 7)]

def qDescBad (g : GridTile) (w : BitVec 64) : Bool :=
  let d := qDesc g w
  qNames w && (decide (125 < bits (iOpnd w) 0 7) || bits d.a 60 4 != 3 || bits d.a 56 2 == 3 || bits d.a 53 2 == 3 ||
    bits d.a 51 2 == 3 || bits d.a 49 2 == 3 || bits d.b 0 32 != 0 ||
    (qUnused (iOpc w) d.transport).any (fun f => bits d.a f.1 f.2 != 0) ||
    ((iOpc w == 2 || iOpc w == 4) && !d.rote && d.norm != 0) ||
    ((iOpc w == 5 || iOpc w == 6) && !d.adp && (bits d.a 26 8 != 0 || bits d.a 18 8 != 0)) ||
    (!((iOpc w == 5 || iOpc w == 6) && d.adp) && bits d.b 32 32 != 0))

def qFormatBad (g : GridTile) (w : BitVec 64) : Bool :=
  let d := qDesc g w
  (iOpc w == 2 && d.transport) || (qNames w && (iOpc w == 5 || iOpc w == 6 || d.adp) && !d.transport)

/-- The initial QS values of a descriptor (R121). -/
def qInitial (g : GridTile) (d : QDesc) : List Nat :=
  (List.range d.nch).map fun c => bits (g.const (bits d.a 11 7 + c / 4)) (16 * (c % 4)) 16

/-- Does the instruction's descriptor bring initial QS values? -/
def qHasQs (g : GridTile) (w : BitVec 64) : Bool := iOpc w == 5 || iOpc w == 6 || (qNames w && (qDesc g w).adp)

def qSmin (d : QDesc) : Nat := bits d.b 48 16
def qSmax (d : QDesc) : Nat := bits d.b 32 16

def qAdaptBad (g : GridTile) (w : BitVec 64) : Bool :=
  let d := qDesc g w
  let v := fun x => FloatFmt.fp16.operand x
  qNames w && d.adp && (bits d.a 26 8 == 0 || bits d.a 18 8 == 0 || (v (qSmin d)).le {} || (v (qSmax d)).lt (v (qSmin d)) ||
    (qInitial g d).any fun x => (v x).lt (v (qSmin d)) || (v (qSmax d)).lt (v x))

def qTableBad (g : GridTile) (w : BitVec 64) : Bool :=
  let d := qDesc g w
  qHasQs g w && decide (126 < bits d.a 11 7 + (d.nch + 3) / 4 - 1)

/-- Tokens that a closing firing puts on one port. -/
def qOutTokens (g : GridTile) (w : BitVec 64) : Nat :=
  let d := qDesc g w
  let per := if d.of_ = .fp32 then 4 else 8
  match iOpc w with
  | 1 => d.n / per
  | 2 => max (d.n / 32) ((d.nb + 7) / 8)
  | 4 => if d.transport then 16 / per else d.n / per
  | _ => 1

/-- The non-zero thresholds of the instructions that count saturations. -/
def qThresholds (g : GridTile) (prog : List (BitVec 64)) : List Nat :=
  (prog.filter fun w => iOpc w == 2 || iOpc w == 6).filterMap fun w =>
    if (qDesc g w).satth = 0 then none else some (qDesc g w).satth

/-- Does an instruction bring a threshold that differs from the first? Every descriptor that counts uses counter 0. -/
def qThreshBad (g : GridTile) (prog : List (BitVec 64)) (w : BitVec 64) : Bool :=
  (qThresholds g [w]).any fun y => (qThresholds g prog).head? != some y

/-- The constant of an instruction's initial QS values, or of SMIN and SMAX, that holds an infinity or a NaN. -/
def qNanAt (g : GridTile) (w : BitVec 64) : Option Nat :=
  let d := qDesc g w
  (if qHasQs g w then
    ((qInitial g d).zipIdx.find? fun x => FloatFmt.fp16.nonFinite x.1).map fun x => bits d.a 11 7 + x.2 / 4 else none) <|>
  (if qNames w && (FloatFmt.fp16.nonFinite (qSmin d) || FloatFmt.fp16.nonFinite (qSmax d)) then some (bits (iOpnd w) 0 7 + 1) else none)

/-- The Q-tile checks in the order of Table ROT-7. -/
def checkQ (g : GridTile) (prog : List (BitVec 64)) : Option (Nat × Nat) :=
  anyWord prog qOperandBad 0x0313 <|> anyWord prog (qShapeBad g) 0x0316 <|> anyWord prog (qDescBad g) 0x0316 <|>
  anyWord prog (qFormatBad g) 0x0316 <|> anyWord prog (qAdaptBad g) 0x0316 <|> anyWord prog (qTableBad g) 0x0316 <|>
  anyWord prog (fun w => iMrk w == 0 && decide (1 < qOutTokens g w)) 0x0316 <|>
  anyWord prog (qThreshBad g prog) 0x0316 <|> anyConst prog (qNanAt g)

/-! ## S tiles (Table MEM-10) -/

def sOperandBad (w : BitVec 64) : Bool :=
  match iOpc w with
  | 0 => iOpnd w != 0
  | 3 => bits (iOpnd w) 12 6 != 0 || bits (iOpnd w) 0 4 != 0
  | 7 => false
  | 8 => false
  | 10 => iOpnd w != 0
  | _ => bits (iOpnd w) 4 14 != 0

def oneBit (m : Nat) : Bool := (maskPorts m).length == 1

/-- IN, OUT and REP + 1 of Table MEM-9; a RUN of the streamed descriptor may have either shape (R155). -/
def sShapeBad (g : GridTile) (w : BitVec 64) : Bool :=
  let n := iRep w + 1
  let taker := oneBit (iIn w) && iOut w == 0
  let giver := iIn w == 0 && oneBit (iOut w)
  match iOpc w with
  | 0 => false
  | 1 => !taker
  | 2 => !giver
  | 3 =>
    if 102 < runDesc w then !(taker || giver)
    else if bitAt (g.const (runDesc w)) 59 then !taker else !giver
  | 9 => !giver || n != 1
  | 10 => !taker || n != 4
  | _ => iIn w != 0 || iOut w != 0 || n != 1

def sWordBad (g : GridTile) (w : BitVec 64) : Bool :=
  (iMrk w != 1 && !(iOpc w == 0 && iIn w == 0 && iOut w == 0)) || sShapeBad g w || (iOpc w == 7 && instrN w == 0)

def bindingBad (w : Nat) : Bool :=
  w != 0 && (bits w 60 4 != 5 || bits w 40 20 != 0 || (List.range 8).any fun k => decide (16 < bits w (5 * k) 5))

/-- Is a slot range inside the region of a used queue of the tile, or do two used regions overlap? -/
def regionsMeet (g : GridTile) (q r : Nat) : Bool :=
  q != r && qUsed (g.qdesc q) && qUsed (g.qdesc r) && decide (qBase (g.qdesc q) < qBase (g.qdesc r) + qSize (g.qdesc r)) &&
  decide (qBase (g.qdesc r) < qBase (g.qdesc q) + qSize (g.qdesc q))

def queueBad (g : GridTile) (q : Nat) : Bool :=
  let d := g.qdesc q
  let lo := if q < 8 then 0 else 16384
  qUsed d && (bits d 60 4 != 4 || decide (14 < bits d 39 4) || bits d 0 39 != 0 || decide (qBase d < lo) ||
    decide (lo + 16384 < qBase d + qSize d) || (List.range 16).any (regionsMeet g q))

/-- Does an instruction name a queue in a way it may not? -/
def queueUseBad (g : GridTile) (w : BitVec 64) : Bool :=
  let d := g.qdesc (instrQueue w)
  ([1, 2, 4, 5, 6, 7, 8, 9].contains (iOpc w) && !qUsed d) || ([4, 5, 6, 8].contains (iOpc w) && qUsed d && !qRet d)

/-- The address generator descriptor of a RUN that names constants. -/
def runAg (g : GridTile) (w : BitVec 64) : Ag := Ag.ofWords ((List.range 8).map fun k => g.const (runDesc w + k))

def namesAg (w : BitVec 64) : Bool := iOpc w == 3 && runDesc w != 127

def agBad (g : GridTile) (w : BitVec 64) : Bool :=
  let x := runAg g w
  namesAg w && (decide (102 < runDesc w) || bits x.a 60 4 != 6 || decide (2 ≤ bits x.a 55 2) || bits x.a 0 4 != 0 ||
    x.lv.any (fun l => lvN l == 0) || (x.rel && (x.wr || !qUsed (g.qdesc x.qn))))

/-- Every position of the nest, as indices of the levels. -/
def agPositions : List Nat → List (List Nat)
  | [] => [[]]
  | l :: r => (agPositions r).flatMap fun is => (List.range (lvN l)).map fun i => i :: is

/-- The offsets that a descriptor reaches, pads left out. -/
def agReach (x : Ag) : List Int := (agPositions x.lv).filterMap (agOffset x)

def listMin : List Int → Option Int
  | [] => none
  | x :: r => some (r.foldl min x)

def listMax : List Int → Option Int
  | [] => none
  | x :: r => some (r.foldl max x)

/-- Is a slot outside the store or inside a used queue's region? -/
def slotBad (g : GridTile) (i : Int) : Bool := decide (i < 0) || decide (32768 ≤ i) || inQueueRegion g i.toNat

def agReachBad (g : GridTile) (w : BitVec 64) : Bool :=
  let x := runAg g w
  let rs := agReach x
  namesAg w &&
  (if x.rel then
    (match listMax rs with
     | some m => decide ((qSize (g.qdesc x.qn) : Int) ≤ m)
     | none => false)
   else ((listMin rs).toList ++ (listMax rs).toList).any fun o => slotBad g (x.base + o))

/-- The constant of the binding word, or of a queue, that breaks a rule. -/
def queueConstBad (g : GridTile) : Option Nat :=
  if bindingBad (g.const 126) || (boundQueues g (List.range 8)).any (fun q => !qUsed (g.qdesc q)) then some 126
  else ((List.range 16).find? (queueBad g)).map (110 + ·)

/-- The S-tile checks in the order of Table MEM-10. -/
def checkS (g : GridTile) (prog : List (BitVec 64)) : Option (Nat × Nat) :=
  anyWord prog sOperandBad 0x0313 <|> (if doubleClaim g prog then some (0x0310, 0) else none) <|> anyWord prog (sWordBad g) 0x0317 <|>
  (queueConstBad g).map (fun i => (0x0317, i)) <|>
  anyWord prog (queueUseBad g) 0x0317 <|> anyWord prog (agBad g) 0x0317 <|> anyWord prog (agReachBad g) 0x0317 <|>
  (if prog.any fun w => iOpc w == 10 then none else anyWord prog (fun w => iOpc w == 3 && runDesc w == 127) 0x0317) <|>
  (if g.anyBound [4, 5, 6, 7] && !g.anyBound [0, 1, 2, 3] && !(prog.any fun w => iIn w != 0) then some (0x0317, 126) else none)

/-! ## F tiles (Table SFW-5) -/

def fWide (f : FloatFmt) : Bool := f == .fp32

def fOperandBad (w : BitVec 64) : Bool :=
  (match iOpc w with
   | 0 => fSub w != 0
   | 1 => decide (6 < fSub w)
   | 2 => decide (7 < fSub w)
   | 3 => decide (3 < fSub w)
   | 5 => decide (1 < fSub w)
   | _ => false) || bits (iOpnd w) 12 2 == 3 || bits (iOpnd w) 10 2 == 3 || bits (iOpnd w) 7 3 != 0

/-- IN, OUT and REP + 1 of Table SFW-4, with the bed's window record. Where that record has KX or KY = 0, no multiple of KX × KY can be
asked for and the spec names no code for the POOL: the check is passed over, so that the record's own check refuses the image
with 0x0318 (DESIGN CHOICE, log entry 78). -/
def fShapeBad (g : GridTile) (r : List Byte) (w : BitVec 64) : Bool :=
  let n := iRep w + 1
  let ports := fun i os => iIn w != i || !os.contains (iOut w)
  match iOpc w with
  | 0 => decide (3 < iIn w) || decide (3 < iOut w)
  | 1 => ports 1 [1] || (fWide (fAf w) && !fWide (fOf w) && n % 2 != 0)
  | 2 => !(iIn w == 1 || iIn w == 3) || iOut w != 1
  | 3 =>
    ports 1 (if fSub w ≤ 1 then [1, 3] else if fSub w = 2 then [1, 2, 3] else [2]) || n != (vecN g w + 7) / 8
  | 4 => ports 3 [1] || n % (fSub w + 1) != 0 || decide (128 < n / (fSub w + 1))
  | 5 => ports 1 [1] || (wKx r * wKy r != 0 && n % (wKx r * wKy r) != 0)
  | _ => ports 1 [1] || n % 4 != 0

def fFormatBad (w : BitVec 64) : Bool :=
  (iOpc w == 2 && fWide (fAf w) != fWide (fOf w)) || (decide (3 ≤ iOpc w) && fWide (fAf w)) ||
  (decide (5 ≤ iOpc w) && fWide (fOf w))

/-- Needs the instruction a constant; may it have one? -/
def fNeeds (w : BitVec 64) : Bool := (iOpc w == 2 && !binToken w) || iOpc w == 3 || iOpc w == 6
def fTakes (w : BitVec 64) : Bool := iOpc w == 1 || fNeeds w

def fConstBad (w : BitVec 64) : Bool :=
  (fNeeds w && fC w == 127) || (!fTakes w && fC w != 127) || (iOpc w == 2 && !binToken w && decide (126 < fC w + 1)) ||
  (iOpc w == 6 && decide (126 < fC w + fSub w))

def fPoolBad (r : List Byte) (hasRec : Bool) (w : BitVec 64) : Bool := iOpc w == 5 && (!hasRec || numAt r 0 1 != fSub w + 2)

/-- The most tokens that a closing firing puts on one port. -/
def fOutTokens (w : BitVec 64) : Nat := ((maskPorts (iOut w)).map (fGives w)).foldl max 1

/-- The constant of an instruction with a floating-point value that is an infinity or a NaN. -/
def fNanAt (g : GridTile) (w : BitVec 64) : Option Nat :=
  let c := fC w
  let halves := fun (i : Nat) => FloatFmt.fp32.nonFinite (bits (g.const i) 32 32) || FloatFmt.fp32.nonFinite (bits (g.const i) 0 32)
  match iOpc w with
  | 1 => if c != 127 && halves c then some c else none
  | 2 =>
    if binToken w then none
    else if fWide (fAf w) then [c, c + 1].find? halves
    else [c, c + 1].find? fun i => (List.range 4).any fun k => (fAf w).nonFinite (bits (g.const i) (16 * k) 16)
  | 3 => if FloatFmt.fp32.nonFinite (bits (g.const c) 32 32) || FloatFmt.fp16.nonFinite (bits (g.const c) 0 16) then some c else none
  | 6 => ((List.range (fSub w + 1)).map (c + ·)).find? halves
  | _ => none

/-- The F-tile checks in the order of Table SFW-5. -/
def checkF (g : GridTile) (r : List Byte) (hasRec : Bool) (prog : List (BitVec 64)) : Option (Nat × Nat) :=
  anyWord prog fOperandBad 0x0313 <|> anyWord prog (fShapeBad g r) 0x0319 <|> anyWord prog fFormatBad 0x0319 <|>
  anyWord prog fConstBad 0x0319 <|>
  anyWord prog (fun w => iOpc w == 3 && (vecN g w == 0 || decide (256 < vecN g w))) 0x0319 <|>
  anyWord prog (fPoolBad r hasRec) 0x0319 <|> anyWord prog (fun w => iMrk w == 0 && decide (1 < fOutTokens w)) 0x0319 <|>
  anyConst prog (fNanAt g)

/-! ## W tiles (Table SFW-9) -/

def wOperandBad (w : BitVec 64) : Bool :=
  iBubm w == 1 || iMrk w == 1 ||
  (match iOpc w with
   | 2 => bits (iOpnd w) 4 14 != 0
   | 4 => bits (iOpnd w) 2 16 != 0
   | 5 => bitAt (iOpnd w) 12
   | 6 => bits (iOpnd w) 1 17 != 0
   | 7 => bits (iOpnd w) 12 4 != 0
   | _ => iOpnd w != 0)

/-- IN and OUT of Table SFW-7. -/
def wPortsBad (w : BitVec 64) : Bool :=
  let i := iIn w
  let o := iOut w
  let low := (maskPorts (i % 8)).length
  match iOpc w with
  | 0 => false
  | 1 => !(i == 1 || i == 9) || o == 0
  | 2 => i == 0 || o == 0
  | 3 => i != 9 || decide ((maskPorts o).length < 2)
  | 4 => !(low == 2 || low == 3) || !oneBit o || (decide (i < 8) && !bitAt i (bits (iOpnd w) 0 2))
  | 5 => low != 1 || o == 0
  | 6 => i != 8 || o != 0
  | _ => i != 0 || o != 0

def wRuleBad (w : BitVec 64) : Bool :=
  let p := iPred w
  (decide (1 ≤ p) && decide (p ≤ 4) && (!bitAt (iIn w) 3 || iOpc w == 8)) || (iOpc w == 7 && p != 0) ||
  ((iOpc w == 7 || iOpc w == 8) && (iRep w != 0 || iSeq w != 0))

/-- The W-tile checks in the order of Table SFW-9. -/
def checkW (prog : List (BitVec 64)) : Option (Nat × Nat) :=
  anyWord prog wOperandBad 0x0313 <|> anyWord prog wPortsBad 0x031A <|> anyWord prog wRuleBad 0x031A <|>
  anyWord prog (fun w => iOpc w == 2 && bits (iOpnd w) 0 4 != 0 && iMrk w != 2) 0x031A

/-! ## Window records (Table CNV-2, R164) -/

/-- The output size of a bounded axis. -/
def outSize (n k s d lo hi : Nat) : Int := Int.fdiv ((n : Int) + lo + hi - d * (k - 1) - 1) s + 1

/-- The checks of Table CNV-2: byte offset and width of a field, and whether it fails. -/
def recordChecks (r : List Byte) : List (Nat × Nat × Bool) :=
  let f := fun o => numAt r o 1
  let strm := wStrm r
  let ox := outSize (numAt r 4 2) (f 8) (f 10) (f 12) (f 14) (f 15)
  let oy := outSize (numAt r 6 2) (f 9) (f 11) (f 13) (f 16) (f 17)
  [(0, 1, f 0 == 0 || decide (3 < f 0)), (1, 1, decide (8 ≤ f 1) || (wExclude r && f 0 == 1)), (22, 10, !zeroAt r 22 10),
   (2, 2, numAt r 2 2 == 0), (4, 2, numAt r 4 2 == 0)] ++
  ([8, 9, 10, 11, 12, 13].map fun o => (o, 1, f o == 0)) ++
  [(6, 2, (numAt r 6 2 != 0) == strm), (16, 1, strm && f 16 != 0), (17, 1, strm && f 17 != 0),
   (18, 2, decide (ox < 1) || (wOx r : Int) != ox),
   (20, 2, if strm then numAt r 20 2 != 0 else decide (oy < 1) || (wOy r : Int) != oy)]

/-- The field of a window record that fails, with its value: none where the record is in order. -/
def recordFault (r : List Byte) : Option (Nat × Nat) :=
  ((recordChecks r).find? fun x => x.2.2).map fun x => (x.1, numAt r x.1 x.2.1)

/-- Row 13 of a bed's window record: the bed, the field and its value are logged (Table CNV-5). -/
def recordCheck (x : Nat × BedDef) : Option LoadFail :=
  if x.2.hasRecord then
    (recordFault x.2.wrec).map fun f => { code := 0x0318, row := 13, loc := x.1, more := [x.2.bed.toNat, f.1, f.2] }
  else none

/-! ## Rings (R201): nodes are tracks (tile ID, 0-7) and cores of claimed grid tiles other than W (tile ID, 8) -/

/-- Does a tile's core carry tokens on, other than a W tile's? -/
def coreNode (bs : List TileBlock) (i : Nat) : Bool :=
  !isEdgeId i && tileKind i != .w && bs.any fun x => x.claimed && x.tile.toNat == i

/-- Where a token goes from a node. -/
def nodeNext (bs : List TileBlock) (n : Nat × Nat) : List (Nat × Nat) :=
  if n.2 = 8 then
    (List.range 8).filterMap fun f => if 9 ≤ sel (routeIn bs n.1) f then some (n.1, f) else none
  else
    match acrossId n.1 (n.2 / 2) with
    | none => []
    | some j => (List.range 12).filterMap fun f =>
        if sel (routeIn bs j) f = 1 + 2 * oppSide (n.2 / 2) + n.2 % 2 then
          (if f < 8 then some (j, f) else if coreNode bs j then some (j, 8) else none)
        else none

/-- The nodes reached from some nodes in at most n rounds. -/
def reachable (bs : List TileBlock) : Nat → List (Nat × Nat) → List (Nat × Nat)
  | 0, ns => ns
  | n + 1, ns => reachable bs n ((ns ++ ns.flatMap (nodeNext bs)).eraseDups)

/-- Does a node lie on a cycle? -/
def onCycle (bs : List TileBlock) (n : Nat × Nat) : Bool := (reachable bs (9 * bs.length) (nodeNext bs n)).contains n

/-- The lowest tile on a cycle that passes no W core. -/
def ringTile (bs : List TileBlock) : Option TileBlock := bs.find? fun x => (List.range 9).any fun f => onCycle bs (x.tile.toNat, f)

/-! ## MEMINIT records (R244) as the chunk holds them -/

/-- A record header with its offset, and whether the record lies in its chunk and is well formed on its own. -/
structure RawRec where
  r : MemRec
  at_ : Nat
  ok : Bool
deriving DecidableEq, Repr

/-- The records of a chunk from o to its end; bytes left over are parsed as a further header. -/
def parseRecs (b : List Byte) : Nat → Nat → Nat → List RawRec
  | 0, _, _ => []
  | fuel + 1, o, stop =>
    if stop ≤ o then []
    else
      let n := numAt b (o + 8) 4
      let body := (n + 15) / 16 * 16
      let r : MemRec := { tile := BitVec.ofNat 16 (numAt b o 2), store := BitVec.ofNat 8 (numAt b (o + 2) 1), off := numAt b (o + 4) 4
                          bytes := slice b (o + 16) n }
      let ok := n != 0 && zeroAt b (o + 3) 1 && zeroAt b (o + 12) 4 && decide (o + 16 + body ≤ stop) && zeroAt b (o + 16 + n) (body - n)
      { r := r, at_ := o, ok := ok } :: (if ok then parseRecs b fuel (o + 16 + body) stop else [])

/-- The records of a placement for this position, in order. -/
def recsOf (b : List Byte) (plc pos : Nat) : List RawRec :=
  (chunksOf (directory b) 6 plc pos).flatMap fun e => parseRecs b (e.len / 16 + 1) e.off (e.off + e.len)

/-- The byte that the records of a store and a target write at an address, 0 where none does. -/
def recByte (rs : List RawRec) (x : RawRec) (a : Nat) : Nat :=
  match rs.find? fun y => y.ok && y.r.store == x.r.store && y.r.tile == x.r.tile && decide (y.r.off ≤ a) && decide (a < y.r.off + y.r.bytes.length) with
  | some y => (lget 0 y.r.bytes (a - y.r.off)).toNat
  | none => 0

/-- Does a record write an FP16 infinity or NaN into a scale register file or an NCE store (R79)? A value of which it writes one byte
has the other from another record, or 0. -/
def recNan (rs : List RawRec) (x : RawRec) : Bool :=
  let t := x.r.tile.toNat
  let lo := x.r.off / 2
  x.ok && (x.r.store == 4 || x.r.store == 5 || (x.r.store == 2 && !isEdgeId t && tileKind t == .m)) &&
  (List.range ((x.r.off + x.r.bytes.length + 1) / 2 - lo)).any fun i =>
    FloatFmt.fp16.nonFinite (recByte rs x (2 * (lo + i)) + 256 * recByte rs x (2 * (lo + i) + 1))

/-! ## Row 13 -/

/-- The window record of a bed in a context. -/
def bedRecord (beds : List (Nat × BedDef)) (bed : BitVec 8) : Option (List Byte) :=
  ((beds.find? fun x => x.2.bed == bed && x.2.hasRecord).map fun x => x.2.wrec)

/-- What the event tables of the kinds say is logged of a failed check, with the index of its instruction or constant. -/
def checkMore (x : TileBlock) (ctx code i : Nat) : List Nat :=
  let t := x.tile.toNat
  match code with
  | 0x0314 => [x.bed.toNat, i]
  | 0x0315 => [t, ctx, i, bits (iOpnd (lget 0 x.instrs i)) 0 7]
  | 0x0316 => [t, ctx, i, bits (iOpnd (lget 0 x.instrs i)) 0 7]
  | 0x0317 => [t, ctx, i]
  | 0x0319 => [t, ctx, i]
  | 0x031A => [t]
  | _ => []

/-- The kind check of a block in a context. -/
def kindCheck (beds : List (Nat × BedDef)) (ctx : Nat) (x : TileBlock) : Option LoadFail :=
  let i := x.tile.toNat
  let g := blockTile x
  let r := bedRecord beds x.bed
  if isEdgeId i || !x.claimed then none
  else
    (match tileKind i with
     | .m => checkM g x.instrs
     | .q => checkQ g x.instrs
     | .s => checkS g x.instrs
     | .f => checkF g (r.getD []) r.isSome x.instrs
     | .w => checkW x.instrs).map fun (c : Nat × Nat) => { code := c.1, row := 13, loc := x.off, more := checkMore x ctx c.1 c.2 }

/-- Row 13 for one context: tiles, window records by ascending bed, rings. -/
def row13Ctx (b : List Byte) (plc pos ctx : Nat) : Option LoadFail :=
  let es := directory b
  let beds := bedsAt b es plc pos ctx
  let bs := sortBlocks (ctxBlocks b es plc pos ctx).1
  firstFail bs (kindCheck beds ctx) <|>
  firstFail (sortBy (fun x => x.2.bed.toNat) beds)
    recordCheck <|>
  (ringTile bs).bind fun x => failIf true 0x031A 13 x.off [x.tile.toNat]

/-- Row 13: each placement's contexts, then its MEMINIT values. -/
def row13 (b : List Byte) (pos : Nat) : Option LoadFail :=
  firstFail (ownPlcs b pos) fun p =>
    firstFail (ctxsOf b (directory b) p pos) (fun c => row13Ctx b p pos c) <|>
    firstFail (recsOf b p pos) (fun x => failIf (recNan (recsOf b p pos) x) 0x0314 13 x.at_)

end Sys2Proof.Machine
end

