-- ==== Sys2Proof/Machine/EdgeCheck.lean ====
section
/-! DEFINITION. The load checks of rows 14 to 17 of Table IMG-12: NCE and PP parameter blocks (Tables NPP-3 and NPP-4, R226), north
and east edge descriptors (R247), MEMINIT records (R244), stream lists and south edges (R298), west edges (R368), check
definitions (R248); and all checks in their order (R250). -/

namespace Sys2Proof.Machine

/-- Does a value lie in a range? -/
def within (v lo hi : Nat) : Bool := decide (lo ≤ v) && decide (v ≤ hi)

/-! ## NCE parameter block (Table IMG-8) -/

/-- The first field of a list of checks that fails. -/
def firstField (l : List (Nat × Bool)) : Option Nat := (l.find? fun x => x.2).map fun x => x.1

/-- The checks of a view's entry: offset of the field, and whether it fails. -/
def nceViewChecks (b : List Byte) (v : Nat) : List (Nat × Bool) :=
  let o := 16 * v
  let f := fun k => numAt b (o + k) 1
  if nvWidth b v = 0 then [(o, !zeroAt b o 16)]
  else
    [(o, nvWidth b v % 8 != 0 || decide (16384 < nvWidth b v) ||
        (decide (f 5 ≤ 3) && (groupSet b v).any fun u => nvWidth b u != nvWidth b v)),
     (o + 2, decide (1 < f 2)), (o + 3, decide (15 < f 3)), (o + 4, !([0, 1, 2, 4, 8].contains (f 4))),
     (o + 5, !(f 5 == 0xFF || decide (f 5 ≤ 3))), (o + 6, decide (1 < f 6)), (o + 7, !(f 7 == 0xFF || decide (f 7 ≤ 3))),
     (o + 12, !zeroAt b (o + 12) 4)]

/-- A channel's role on its kind of channel, its unit and its reserved bytes (Table NPP-2). -/
def nceChannelBad (b : List Byte) (c : Nat) : Bool :=
  let r := chRole b c
  let u := chUnit b c
  !zeroAt b (336 + 4 * c + 2) 2 ||
  (match r with
   | 0 => u != 0
   | 1 => decide (31 < c) || decide (3 < u)
   | 2 => decide (31 < c) || decide (3 < u)
   | 3 => decide (31 < c) || decide (7 < u)
   | 4 => decide (31 < c) || u != 0
   | 5 => decide (c ≤ 31) || decide (7 < u)
   | _ => true)

/-- Views of a first-layer group. -/
def groupViews (b : List Byte) (g : Nat) : Nat := ((nceViews b).filter fun v => nvGroup b v == g).length

/-- Does a view or an FL channel use a group? -/
def groupUsed (b : List Byte) (g : Nat) : Bool := groupViews b g != 0 || !(chansOf b 1 g).isEmpty

/-- Table NPP-3, first layer: a group in use, or not all zero, lies in the limits, and its views are whole sets of Cin views. -/
def nceGroupChecks (b : List Byte) (g : Nat) : List (Nat × Bool) :=
  let x := flGroup b g
  let o := 496 + 16 * g
  if zeroAt b o 16 && !groupUsed b g then []
  else
    [(o, !within x.cin 1 4 || (groupUsed b g && (groupViews b g == 0 || groupViews b g % x.cin != 0))), (o + 1, !within x.cout 1 64),
     (o + 2, !within x.kx 1 7), (o + 3, !within x.ky 1 7), (o + 4, !within x.stx 1 4), (o + 5, !within x.sty 1 4),
     (o + 6, decide (3 < x.pxl)), (o + 7, decide (3 < x.pxh)), (o + 8, decide (1 < x.padm)), (o + 9, decide (2 < x.act)),
     (o + 10, decide (1 < x.fmt)), (o + 11, !zeroAt b (o + 11) 1)]

/-- Table NPP-3, last layer: in use where an LL channel is. -/
def nceLastChecks (b : List Byte) : List (Nat × Bool) :=
  if zeroAt b 560 16 && (List.range 40).all fun c => chRole b c != 4 then []
  else
    [(560, !within (llCin b) 1 256), (562, !within (llCout b) 1 8), (563, decide (3 < llAct b)), (568, !zeroAt b 568 8)]

/-- Table NPP-4. -/
def nceCropChecks (b : List Byte) : List (Nat × Bool) :=
  if zeroAt b 576 32 then []
  else
    [(576, !within (crST b) 1 64), (577, !within (crRH b) 1 64),
     (578, !within (crRWT b) 1 64 || (List.range (crNSEG b)).any fun k => decide (sgRT b k < crRWT b)), (579, !within (crHC b) 1 64),
     (580, crWC b % 8 != 0 || !within (crWC b) 8 512), (582, !within (crNSEG b) 1 8), (583, !zeroAt b 583 1),
     (592, !within (crWADV b) 1 4095), (594, !zeroAt b 594 14)]

def nceSegmentBad (b : List Byte) (k : Nat) : Bool :=
  if k < crNSEG b then
    decide (15 < sgQueue b k) || decide (15 < sgView b k) || isEdgeId (sgReader b k) || !tileIdOk (sgReader b k) ||
    !zeroAt b (608 + 16 * k + 8) 8
  else !zeroAt b (608 + 16 * k) 16

/-- The field of an NCE parameter block that fails, as its byte offset in the block. -/
def nceparField (b : List Byte) : Option Nat :=
  firstField ([(0, b.length != 1024)] ++ (List.range 16).flatMap (nceViewChecks b) ++
    [(256, !within (nceNsched b) 1 64), (258, !zeroAt b 258 14)] ++
    (List.range 64).map (fun i => (272 + i, decide ((if i < nceNsched b then 15 else 0) < numAt b (272 + i) 1))) ++
    (List.range 40).map (fun c => (336 + 4 * c, nceChannelBad b c)) ++ (List.range 4).flatMap (nceGroupChecks b) ++ nceLastChecks b ++
    nceCropChecks b ++ (List.range 8).map (fun k => (608 + 16 * k, nceSegmentBad b k)) ++ [(736, !zeroAt b 736 288)])

/-! ## PP parameter block (Table IMG-9, R219, R222, R226) -/

def ppHeadChecks (b : List Byte) (h : Nat) : List (Nat × Bool) :=
  let o := 32 * h
  let x := ppHead b h
  if x.on then
    [(o, decide (3 < numAt b o 1)), (o + 1, decide (16 < x.first + x.count)), (o + 3, !within x.stride 1 64),
     (o + 12, !within (numAt b (o + 12) 1) 1 16), (o + 13, !zeroAt b (o + 13) 3),
     (o + 16, x.views.any (fun v => decide (15 < v)) || !zeroAt b (o + 16 + x.views.length) (16 - x.views.length))]
  else [(o, !zeroAt b o 32)]

/-- The field of a PP parameter block that fails, as its byte offset in the block. -/
def ppparField (b : List Byte) : Option Nat :=
  firstField ([(0, b.length != 1024)] ++ (List.range 16).flatMap (ppHeadChecks b) ++
    [(800, decide (4095 < ppSW b) || (!(ppHeads b).isEmpty && ppSW b == 0))] ++
    (List.range 3).map (fun k => (804 + k, decide (7 < numAt b (804 + k) 1))) ++
    [(808, decide (64 < ppSlots b)), (809, decide (44 < ppL b)), (811, decide (16 < ppMeas b)), (812, !zeroAt b 812 212)])

/-! ## North and east edge descriptors (R247, Table IMG-15) -/

/-- Does a routing word use the inward path; the outward path (R468)? -/
def routeUsesIn (w : Nat) : Bool := (List.range 8).any fun f => sel w f == 9
def routeUsesOut (w : Nat) : Bool := sel w 8 != 0

/-- The head whose channels hold an east channel. -/
def headOf (b : List Byte) (c : Nat) : Option Nat :=
  (ppHeads b).find? fun h => decide ((ppHead b h).first ≤ c) && decide (c < (ppHead b h).first + (ppHead b h).count)

/-- The role and unit that a context asks of an edge tile: none where the descriptor itself chooses (host streams). -/
def roleAsked (nce pp : Option (List Byte)) (e : Nat) : Option (Nat × Nat) :=
  if 48 ≤ e ∧ e < 56 then none
  else if 32 ≤ e ∧ e < 48 then
    (match pp.bind fun b => headOf b (e - 32) with
     | some h => some (6, h)
     | none => some (0, 0))
  else
    let c := if e < 32 then e else 32 + (e - 56)
    match nce with
    | some b => some (chRole b c, chUnit b c)
    | none => some (0, 0)

/-- Which directions a role uses: inward, outward; INW and OUTW as given for a host stream. -/
def roleDirs (role : Nat) (inw outw : Bool) : Bool × Bool :=
  match role with
  | 0 => (false, false)
  | 1 => (true, false)
  | 2 => (true, false)
  | 3 => (true, false)
  | 4 => (false, true)
  | 5 => (true, true)
  | 6 => (false, true)
  | _ => (inw, outw)

def neEdgeBad (nce pp : Option (List Byte)) (x : TileBlock) : Bool :=
  let e := edgeOfId x.tile.toNat
  let d := x.edesc.toNat
  let role := bits d 56 4
  let unit := bits d 52 4
  let inw := bitAt d 50
  let outw := bitAt d 51
  bits d 60 4 != 8 || decide (7 < role) || bits d 0 50 != 0 || (role == 0 && unit != 0) ||
  (match roleAsked nce pp e with
   | some r => role != r.1 || unit != r.2
   | none => !(role == 0 || role == 7) || unit != 0 || (role == 7 && !inw && !outw)) ||
  roleDirs role inw outw != (inw, outw) ||
  (!inw && (x.quota 0 != 0 || routeUsesIn x.route.toNat)) || (!outw && (x.quota 4 != 0 || routeUsesOut x.route.toNat))

/-- The chunk of a context, where it has one. -/
def ctxChunk (b : List Byte) (typ plc pos ctx : Nat) : Option (List Byte) :=
  match ctxChunks (directory b) typ plc pos ctx with
  | [] => none
  | e :: _ => some (chunkBytes b e)

def ctxChunkOff (b : List Byte) (typ plc pos ctx : Nat) : Nat :=
  match ctxChunks (directory b) typ plc pos ctx with
  | [] => 0
  | e :: _ => e.off

/-- The blocks of a context in ascending tile ID. -/
def blocksIn (b : List Byte) (plc pos ctx : Nat) : List TileBlock := sortBlocks (ctxBlocks b (directory b) plc pos ctx).1

/-- The side of a block's edge tile; none for a grid tile. -/
def edgeSide (x : TileBlock) : Option Nat := if isEdgeId x.tile.toNat then some (edgeOfId x.tile.toNat / 32) else none

/-- The check of a parameter block at an offset: chunk type and field are logged (Table NPP-7). -/
def paramCheck (typ loc : Nat) (f : Option Nat) : Option LoadFail :=
  f.map fun o => { code := 0x031B, row := 14, loc := loc, more := [typ, o] }

/-- A north or east edge tile against the parameter blocks: its descriptor, and for a tile with no block, which carries none, the
role that its channel has (R247). The tile block is logged with the offset of EDESC, or the parameter block with the channel's
field. -/
def neEdgeCheck (nce pp : Option (List Byte)) (bs : List TileBlock) (locN locP e : Nat) : Option LoadFail :=
  match bs.find? fun x => x.tile.toNat == edgeId e with
  | some x => failIf (neEdgeBad nce pp x) 0x031B 14 x.off [edgeId e, 56]
  | none =>
    match roleAsked nce pp e with
    | some (r, u) =>
      if 32 ≤ e ∧ e < 48 then failIf (r != 0) 0x031B 14 locP [9, 32 * u + 1]
      else failIf (r != 0) 0x031B 14 locN [8, 336 + 4 * (if e < 32 then e else 32 + (e - 56))]
    | none => none

def row14 (b : List Byte) (pos : Nat) : Option LoadFail :=
  perCtx b pos fun p c =>
    let nce := ctxChunk b 8 p pos c
    let pp := ctxChunk b 9 p pos c
    let locN := ctxChunkOff b 8 p pos c
    let locP := ctxChunkOff b 9 p pos c
    paramCheck 8 locN (nce.bind nceparField) <|> paramCheck 9 locP (pp.bind ppparField) <|>
    firstFail (List.range 64) (neEdgeCheck nce pp (blocksIn b p pos c) locN locP)

/-! ## MEMINIT records (R244) -/

/-- Bytes of a store. -/
def storeSize (k : Nat) : Nat := if k = 1 then 131072 else if k = 3 then 524288 else 65536

def recOk (x : RawRec) : Bool :=
  let t := x.r.tile.toNat
  let n := x.r.bytes.length
  x.ok && decide (x.r.off + n ≤ storeSize x.r.store.toNat) &&
  (match x.r.store.toNat with
   | 1 => !isEdgeId t && tileIdOk t && tileKind t == .m
   | 2 => !isEdgeId t && tileIdOk t && tileKind t == .m && x.r.off % 2 == 0
   | 3 => !isEdgeId t && tileIdOk t && tileKind t == .s && x.r.off % 16 == 0 && n % 16 == 0
   | 4 => decide (t < 32) && x.r.off % 4 == 0
   | 5 => t == 0
   | _ => false)

def recsMeet (x y : RawRec) : Bool :=
  x.r.store == y.r.store && x.r.tile == y.r.tile && decide (x.r.off < y.r.off + y.r.bytes.length) &&
  decide (y.r.off < x.r.off + x.r.bytes.length)

def row15 (b : List Byte) (pos : Nat) : Option LoadFail :=
  firstFail (ownPlcs b pos) fun p =>
    let rs := recsOf b p pos
    firstFail rs.zipIdx fun x => failIf (!recOk x.1 || (rs.take x.2).any fun y => recsMeet x.1 y) 0x0309 15 x.1.at_

/-! ## Stream lists and south edges (R245, R275, R298) -/

/-- A descriptor at an offset. -/
def streamDescAt (b : List Byte) (o : Nat) : StreamDesc :=
  let f := numAt b (o + 16) 1
  { addr := numAt b o 8, rowtok := numAt b (o + 8) 2, nrow := numAt b (o + 10) 2, pitch := signed 32 (numAt b (o + 12) 4)
    wrap := bitAt f 0, fill := bitAt f 1, fbub := bitAt f 2, cap := bitAt f 3, bf16 := bitAt f 4 }

/-- A list with its offset, and whether its header is well formed and it lies in its chunk. -/
structure RawList where
  l : StreamList
  at_ : Nat
  ok : Bool
deriving DecidableEq, Repr

def parseLists (b : List Byte) : Nat → Nat → Nat → List RawList
  | 0, _, _ => []
  | fuel + 1, o, stop =>
    if stop ≤ o then []
    else
      let n := numAt b (o + 4) 4
      let ok := decide (numAt b o 1 ≤ 15) && decide (numAt b (o + 1) 1 ≤ 1) && [0x00, 0x21, 0x41].contains (numAt b (o + 2) 1) &&
        zeroAt b (o + 3) 1 && within n 1 65536 && zeroAt b (o + 8) 8 && decide (o + 16 + 32 * n ≤ stop)
      let l : StreamList :=
        { engine := numAt b o 1, off := o + 16, write := numAt b (o + 1) 1 == 1, cmp := BitVec.ofNat 8 (numAt b (o + 2) 1)
          descs := if ok then (List.range n).map fun i => streamDescAt b (o + 16 + 32 * i) else [] }
      { l := l, at_ := o, ok := ok } :: (if ok then parseLists b fuel (o + 16 + 32 * n) stop else [])

def listsOf (b : List Byte) (plc pos ctx : Nat) : List RawList :=
  (ctxChunks (directory b) 7 plc pos ctx).flatMap fun e => parseLists b (e.len / 16 + 1) e.off (e.off + e.len)

/-- Does every row of a descriptor lie in the task region? Rows rise or fall evenly, so the first and the last decide. -/
def rowsInRegion (s : State) (rb : Nat) (d : StreamDesc) : Bool :=
  [0, d.nrow - 1].all fun i =>
    decide (0 ≤ (d.addr : Int) + i * d.pitch) && decide ((d.addr : Int) + i * d.pitch + rb ≤ taskTop s)

def streamDescBad (s : State) (b : List Byte) (x : RawList) (i : Nat) : Bool :=
  let o := x.at_ + 16 + 32 * i
  let d := streamDescAt b o
  let rb := d.rowtok * 16 / cmpRatio x.l.cmp
  d.rowtok == 0 || d.nrow == 0 || d.addr % 32 != 0 || d.pitch % 32 != 0 || d.rowtok * 16 % (32 * cmpRatio x.l.cmp) != 0 ||
  decide (32 ≤ numAt b (o + 16) 1) || !zeroAt b (o + 17) 15 || (!d.fill && !d.cap && !rowsInRegion s rb d) ||
  (x.l.write && (d.fill || d.fbub)) || (!x.l.write && d.cap) || (d.fbub && !d.fill) || (d.addr != 0 && (d.fill || d.cap)) ||
  (d.bf16 && x.l.cmp == 0) || (d.wrap && i + 1 != x.l.descs.length)

/-- Quota k of an edge tile in a context, 0 without a block. -/
def edgeQuota (bs : List TileBlock) (e k : Nat) : Nat :=
  match bs.find? fun x => x.tile.toNat == edgeId e with
  | some x => x.quota k
  | none => 0

/-- A list against its engine's edges. -/
def listBad (bs : List TileBlock) (x : RawList) : Bool :=
  let e := 64 + 2 * x.l.engine
  if x.l.write then edgeQuota bs (e + 1) 4 == 0
  else
    edgeQuota bs e 0 == 0 ||
    (match listTotal x.l with
     | some n => n % edgeQuota bs e 0 != 0
     | none => false)

def hasRead (ls : List RawList) (k : Nat) : Bool := ls.any fun x => !x.l.write && x.l.engine == k

def southBad (bs : List TileBlock) (ls : List RawList) (x : TileBlock) : Bool :=
  let e := edgeOfId x.tile.toNat
  let k := (e - 64) / 2
  let d := x.edesc.toNat
  let w := x.route.toNat
  let src := southSrc d
  bits d 60 4 != 7 || bits d 53 7 != 0 || bits d 0 48 != 0 || (!southFollow d && src != 0) ||
  (if e % 2 = 1 then southFollow d || x.quota 0 != 0 || routeUsesIn w
   else
     (southFollow d && (src == k || !hasRead ls src || edgeQuota bs (64 + 2 * src) 0 != x.quota 0 || hasRead ls k)) ||
     (x.quota 0 != 0 && !southFollow d && !hasRead ls k) || x.quota 4 != 0 || routeUsesOut w)

/-- Row 16, R298. -/
def row16South (s : State) (b : List Byte) (pos : Nat) : Option LoadFail :=
  perCtx b pos fun p c =>
    let ls := listsOf b p pos c
    let bs := blocksIn b p pos c
    firstFail ls.zipIdx (fun x =>
      failIf (!x.1.ok || (ls.take x.2).any (fun y => y.l.engine == x.1.l.engine && y.l.write == x.1.l.write)) 0x031C 16 x.1.at_ <|>
      firstFail (List.range x.1.l.descs.length) (fun i => failIf (streamDescBad s b x.1 i) 0x031C 16 x.1.at_) <|>
      failIf (listBad bs x.1) 0x031C 16 x.1.at_) <|>
    firstFail bs fun x => failIf (edgeSide x == some 2 && southBad bs ls x) 0x031C 16 x.off

/-! ## West edges (R368) -/

/-- PEERPOS of a west descriptor. -/
def peerPosOf (x : TileBlock) : Nat := bits x.edesc.toNat 44 16

def carriesTokens (x : TileBlock) : Bool := x.quota 0 != 0 || x.quota 4 != 0

def westBad (b : List Byte) (plc pos : Nat) (bs : List TileBlock) (x : TileBlock) : Bool :=
  let d := x.edesc.toNat
  let p := edgeOfId x.tile.toNat / 8
  bits d 60 4 != 9 || bits d 0 40 != 0 || (bits d 40 4 != 0 && x.quota 0 == 0) ||
  (carriesTokens x &&
    (peerPosOf x == pos || decide (imgChainlen b ≤ peerPosOf x) || peerPosOf x == plcMissing b plc ||
     bs.any fun y => edgeSide y == some 3 && decide (y.tile.toNat < x.tile.toNat) && edgeOfId y.tile.toNat / 8 == p && carriesTokens y &&
       peerPosOf y != peerPosOf x))

def row16West (b : List Byte) (pos : Nat) : Option LoadFail :=
  perCtx b pos fun p c =>
    let bs := blocksIn b p pos c
    firstFail bs fun x => failIf (edgeSide x == some 3 && westBad b p pos bs x) 0x031D 16 x.off

/-! ## Check definitions (R248) -/

def checkDefAt (b : List Byte) (o : Nat) : CheckDef :=
  { rkind := BitVec.ofNat 8 (numAt b o 1), off := numAt b (o + 1) 1, ftype := BitVec.ofNat 8 (numAt b (o + 2) 1)
    flen := numAt b (o + 3) 1, tol := BitVec.ofNat 32 (numAt b (o + 4) 4), window := numAt b (o + 8) 2 }

def checkDefBad (b : List Byte) (o : Nat) : Bool :=
  let d := checkDefAt b o
  let float := d.ftype == 1 || d.ftype == 2
  !within d.rkind.toNat 1 3 || !within d.off 16 63 || decide (3 < d.ftype.toNat) || !within d.flen 1 48 || decide (64 < d.off + d.flen) ||
  d.flen % checkWidth d != 0 || (if float then bitAt d.tol.toNat 31 || FloatFmt.fp32.nonFinite d.tol.toNat else d.tol != 0) ||
  !zeroAt b (o + 10) 6

/-- The offsets of the definitions of a placement. -/
def checkOffs (b : List Byte) (plc pos : Nat) : List Nat :=
  (chunksOf (directory b) 10 plc pos).flatMap fun e => (List.range (e.len / 16)).map fun i => e.off + 16 * i

def row17 (b : List Byte) (pos : Nat) : Option LoadFail :=
  firstFail (ownPlcs b pos) fun p =>
    let cs := chunksOf (directory b) 10 p pos
    failIf (!imgChk b && !cs.isEmpty) 0x030D 17 (chunkOff (directory b) 10 p pos) <|>
    failIf (imgChk b && cs.isEmpty) 0x030D 17 (imgDiroff b) <|>
    firstFail (checkOffs b p pos) fun o => failIf (checkDefBad b o) 0x030D 17 o

/-! ## All checks (R250) -/

/-- Rows 2 to 17 for an image of stated length n, a placement and a chain position. -/
def loadChecks (s : State) (b : List Byte) (n plc pos : Nat) : Option LoadFail :=
  headerChecks s b n <|> row8 b <|> row9 b plc pos <|> row10 b pos <|> row11 b pos <|> row12 b pos <|> row13 b pos <|> row14 b pos <|>
  row15 b pos <|> row16South s b pos <|> row16West b pos <|> row17 b pos

/-! ## The image as loaded -/

/-- One context of a placement. -/
def ctxImageOf (b : List Byte) (plc pos ctx : Nat) : CtxImage :=
  { ctx := BitVec.ofNat 2 ctx, beds := (bedsAt b (directory b) plc pos ctx).map fun x => x.2, blocks := blocksIn b plc pos ctx
    streams := (listsOf b plc pos ctx).map fun x => x.l, nce := ctxChunk b 8 plc pos ctx, pp := ctxChunk b 9 plc pos ctx }

/-- One placement: empty but for MISSING where it leaves this position out. -/
def plcImageOf (b : List Byte) (pos p : Nat) : PlcImage :=
  let es := directory b
  let missing := BitVec.ofNat 16 (plcMissing b p)
  if plcMissing b p = pos then { missing := missing }
  else
    { missing := missing, secmap := chunkOf b es 2 p pos, pace := paceChunk (chunkOf b es 3 p pos)
      ctxs := (ctxsOf b es p pos).map (ctxImageOf b p pos), meminit := (recsOf b p pos).map fun x => x.r
      checks := (checkOffs b p pos).map (checkDefAt b) }

/-- The image of a chain position. -/
def imageOf (b : List Byte) (pos : Nat) (half : Bool) : LoadedImage :=
  { adr := BitVec.ofNat 8 (imgAdr b), chainlen := imgChainlen b, fwmin := BitVec.ofNat 32 (imgFwmin b), chk := imgChk b
    hash := imgHash b, half := half, plcs := (List.range (imgNplc b)).map (plcImageOf b pos) }

end Sys2Proof.Machine
end

