-- ==== Sys2Proof/Machine/Pp.lean ====
section
/-! DEFINITION. The detection post-processor (10, R219-R229, R231; the packer of R200): head tokens to candidates, strip suppression,
text lines, decoder slots, measurements, and the records they give. -/

namespace Sys2Proof.Machine

/-! ## Heads and box decode (R219, R220) -/

/-- The first row of the task of a view (R307). -/
def viewRow0 (s : State) (v : Nat) : Word := ((s.sport (nvPort s.nceBlock v)).view (nvPview s.nceBlock v)).first

/-- ROW_BASE of output row R of a head. -/
def headBase (s : State) (h : Head) (r : Nat) : Word :=
  let n := max 1 h.views.length
  viewRow0 s (lget 0 h.views (r % n)) + BitVec.ofNat 32 (r / n * h.stride) + BitVec.ofInt 32 h.roff

def fromNat32 (n : Nat) : Nat := FloatFmt.fp32.round (Frac.ofInt n)
def half32 : Nat := FloatFmt.fp32.round { num := 1, den := 2 }
def halve32 (x : Nat) : Nat := FloatFmt.fp32.round ((FloatFmt.fp32.value x).div (Frac.ofInt 2))

/-- Low and high edge of a box on one axis: grid place g + 0.5, the two head values a and b, stride s. -/
def boxEdges (ed : Bool) (g a b s : Nat) : Nat × Nat :=
  let c := fadd32 g half32
  if ed then (fmul32 (fsub32 c a) s, fmul32 (fadd32 c b) s)
  else
    let m := fmul32 (fadd32 c a) s
    let w := halve32 (fmul32 s (funApply 1 .fp32 b))
    (fsub32 m w, fadd32 m w)

/-- The class byte of a class index. -/
def classByte (c : Nat) : Nat := if c < 256 then c else (Config.wideClass c).toNat

/-- The candidate of one head token, if it yields one. -/
def decodeToken (s : State) (b : List Byte) (hn : Nat) (h : Head) (r gx : Nat) (u : Token) : Option Candidate :=
  let lane := fun l => FloatFmt.fp16.finite (tokElem u 16 l)
  let f := fun l => convert .fp16 .fp32 (lane l)
  if u.bub || (FloatFmt.fp16.value (lane 4)).lt (FloatFmt.fp16.operand h.ts) then none
  else
    let st := fromNat32 h.stride
    let xs := if h.ed then boxEdges true (fromNat32 gx) (f 0) (f 2) st else boxEdges false (fromNat32 gx) (f 0) (f 2) st
    let ys := if h.ed then boxEdges true 0 (f 1) (f 3) st else boxEdges false 0 (f 1) (f 3) st
    let c := classByte (tokElem u 16 5)
    some { view := lget 0 h.views (r % max 1 h.views.length), group := ppClassGroup b c, cls := c, head := hn
           rowBase := headBase s h r, y1 := BitVec.ofNat 32 ys.1, y2 := BitVec.ofNat 32 ys.2, x1 := BitVec.ofNat 32 xs.1
           x2 := BitVec.ofNat 32 xs.2, score := BitVec.ofNat 16 (lane 4) }

/-- Candidates of the tokens of one channel, from its n-th token on. -/
def decodeChannel (s : State) (b : List Byte) (hn : Nat) (h : Head) (c : Nat) : Nat → List Token → List Candidate
  | _, [] => []
  | n, u :: r =>
    let p := max 1 h.perRow
    (decodeToken s b hn h (n / p) ((c - h.first) * p + n % p) u).toList ++ decodeChannel s b hn h c (n + 1) r

/-- Is an east channel a head's: not the decoder's where there are decoder slots, not a measurement's? -/
def headChannel (b : List Byte) (c : Nat) : Bool := (ppSlots b == 0 || c != Config.decChannel.val) && ppMeas b != c + 1

/-- The channels of a head, in column order. -/
def headChans (b : List Byte) (h : Head) : List Nat :=
  ((List.range 16).filter fun c => decide (h.first ≤ c) && decide (c < h.first + h.count) && headChannel b c)

/-- The candidates of one head's tokens of the step. -/
def decodeHead (s : State) (b : List Byte) (hn : Nat) : List Candidate :=
  let h := ppHead b hn
  (headChans b h).flatMap fun c => decodeChannel s b hn h c (mget 0 s.pp.chanPos c) (mget [] s.pp.rx c)

/-- Rows that a head has completed, every channel counted. -/
def rowsDone (s : State) (b : List Byte) (h : Head) : Nat :=
  let p := max 1 h.perRow
  ((headChans b h).map fun c => (mget 0 s.pp.chanPos c + (mget [] s.pp.rx c).length) / p).min?.getD 0

/-- The fronts after a head's rows from r on: n rows more (R222). -/
def moveFronts (s : State) (h : Head) (r : Nat) : Nat → AMap (Option Word) → AMap (Option Word)
  | 0, m => m
  | n + 1, m => moveFronts s h (r + 1) n (mset none m (lget 0 h.views (r % max 1 h.views.length)) (some (headBase s h r)))

/-- One head's rows move the fronts of its views. -/
def headFronts (s : State) (b : List Byte) (hn : Nat) : State :=
  let h := ppHead b hn
  let old := mget 0 s.pp.headRow hn
  let new := rowsDone s b h
  { s with pp := { s.pp with headRow := mset 0 s.pp.headRow hn new, front := moveFronts s h old (new - old) s.pp.front } }

/-- Head tokens taken: counted and gone. -/
def takeHeads (s : State) (b : List Byte) : State :=
  ((ppHeads b).flatMap fun hn => headChans b (ppHead b hn)).foldl (fun s c =>
    { s with pp := { s.pp with chanPos := mset 0 s.pp.chanPos c (mget 0 s.pp.chanPos c + (mget [] s.pp.rx c).length)
                               rx := mset [] s.pp.rx c [] } }) s

/-! ## The candidate queue (R221) -/

def scoreOf (c : Candidate) : Frac := FloatFmt.fp16.value c.score.toNat

/-- Insert by descending score, after equals. -/
def insertCand (c : Candidate) : List Candidate → List Candidate
  | [] => [c]
  | d :: r => if (scoreOf d).lt (scoreOf c) then c :: d :: r else d :: insertCand c r

/-- Count a drop or an eviction; the first in a step raises 0x0E02. -/
def countQdrop (s : State) : State :=
  let s1 := { s with pp := { s.pp with qdrop := satInc s.pp.qdrop, dropStep := true } }
  if s.pp.dropStep then s1 else event s1 0x0E02

/-- The high-water mark of the queue. -/
def noteOcc (p : Pp) : Pp := { p with qhwm := if p.qhwm.toNat < p.queue.length then BitVec.ofNat 13 p.queue.length else p.qhwm }

/-- A candidate arrives. -/
def addCand (s : State) (c : Candidate) : State :=
  if s.pp.queue.length < 4096 then { s with pp := noteOcc { s.pp with queue := insertCand c s.pp.queue } }
  else
    match s.pp.queue.getLast? with
    | none => s
    | some l =>
      if (scoreOf l).lt (scoreOf c) then countQdrop { s with pp := { s.pp with queue := insertCand c s.pp.queue.dropLast } }
      else countQdrop s

/-! ## Suppression (R222-R224) -/

/-- Rows from one base to another, modulo 2^32, signed. -/
def rowDist (a b : Word) : Int := (a - b).toInt

/-- The front of a view. -/
def frontOf (s : State) (v : Nat) : Word := (mget none s.pp.front v).getD Config.noFront

def ceil32 (y : Word) : Int := -((FloatFmt.fp32.value y.toNat).neg.floor)

/-- Is a candidate ripe? -/
def isRipe (s : State) (sw : Nat) (c : Candidate) : Bool :=
  match mget none s.pp.front c.view with
  | none => false
  | some f => decide (ceil32 c.y2 + sw ≤ rowDist f c.rowBase)

/-- An FP32 edge of box d, moved to the row base of box c. -/
def rebase (c d : Candidate) (y : Word) : Nat := fadd32 y.toNat (FloatFmt.fp32.round (Frac.ofInt (rowDist d.rowBase c.rowBase)))

def fmax32 (a b : Nat) : Nat := if fp32Lt a b then b else a
def fmin32 (a b : Nat) : Nat := if fp32Lt b a then b else a

/-- A length, 0 where negative. -/
def lenOf (lo hi : Nat) : Nat := if fp32Lt hi lo then 0 else fsub32 hi lo

/-- Do two boxes overlap (R223)? -/
def overlaps (t : Nat) (c d : Candidate) : Bool :=
  c.view == d.view && c.group == d.group &&
  (let dy1 := rebase c d d.y1
   let dy2 := rebase c d d.y2
   let i := fmul32 (lenOf (fmax32 c.x1.toNat d.x1.toNat) (fmin32 c.x2.toNat d.x2.toNat))
     (lenOf (fmax32 c.y1.toNat dy1) (fmin32 c.y2.toNat dy2))
   let ac := fmul32 (fsub32 c.x2.toNat c.x1.toNat) (fsub32 c.y2.toNat c.y1.toNat)
   let ad := fmul32 (fsub32 d.x2.toNat d.x1.toNat) (fsub32 dy2 dy1)
   let u := fsub32 (fadd32 ac ad) i
   ((FloatFmt.fp16.operand t).mul (FloatFmt.fp32.value u)).lt (FloatFmt.fp32.value i))

/-- The row, from c's base, at which an accepted box ends. -/
def boxEnd (c d : Candidate) : Frac := (Frac.ofInt (rowDist d.rowBase c.rowBase)).add (FloatFmt.fp32.value d.y2.toNat)

/-- The entry with the lowest ROW_BASE + y2, the earliest of equals. -/
def lowestBox (c : Candidate) : List Candidate → Option Candidate
  | [] => none
  | d :: r =>
    match lowestBox c r with
    | none => some d
    | some e => if (boxEnd c e).lt (boxEnd c d) then some e else some d

/-- An accepted box enters the list of 1,024; when it is full one leaves early (R224). -/
def keepAccepted (s : State) (c : Candidate) : State :=
  if s.pp.accepted.length < 1024 then { s with pp := { s.pp with accepted := s.pp.accepted ++ [c] } }
  else
    match lowestBox c s.pp.accepted with
    | none => s
    | some l =>
      let s1 := { s with pp := { s.pp with accepted := s.pp.accepted.erase l ++ [c], earlyStep := true } }
      if s.pp.earlyStep then s1 else event s1 0x0E04

/-- Is a ripe candidate suppressed: by an accepted box, or by one still in the queue? -/
def suppressed (s : State) (t : Nat) (c : Candidate) : Bool :=
  s.pp.accepted.any (fun d => !(scoreOf d).lt (scoreOf c) && overlaps t c d) ||
  s.pp.queue.any fun d => (scoreOf c).lt (scoreOf d) && overlaps t c d

/-- Decide ripe candidates in queue order: the state, and the accepted boxes in order. -/
def decideAll (t : Nat) : List Candidate → State → State × List Candidate
  | [], s => (s, [])
  | c :: r, s =>
    let s1 := { s with pp := { s.pp with queue := s.pp.queue.erase c } }
    if suppressed s1 t c then decideAll t r { s1 with pp := { s1.pp with supp := satInc s1.pp.supp } }
    else
      let (s2, l) := decideAll t r (keepAccepted { s1 with pp := { s1.pp with accept := satInc s1.pp.accept } } c)
      (s2, c :: l)

/-- Accepted boxes that their view's front has passed leave (R224). -/
def expireAccepted (s : State) (sw : Nat) : State :=
  let keep := fun (c : Candidate) => decide (rowDist (frontOf s c.view) c.rowBase ≤ ceil32 c.y2 + 2 * sw)
  { s with pp := { s.pp with accepted := s.pp.accepted.filter keep } }

/-! ## The records of a step's boxes (R225, R228) -/

/-- BOXIDs and records, box by box: a box whose class is in the text-line set waits for the packer, any other box's detection
record joins those that wait for their ring. -/
def recordBoxes (b : List Byte) : List Candidate → State → State
  | [], s => s
  | c :: r, s =>
    let id := s.pp.nextid
    let s1 := { s with pp := { s.pp with nextid := id + 1 } }
    recordBoxes b r (if ppTextClass b c.cls then { s1 with pp := { s1.pp with held := s1.pp.held ++ [(c, id)] } } else detRecord s1 (c, id) 0)

/-! ## Decoder slots (R202, R226) -/

/-- Order of 16-bit sign-magnitude patterns, of FP16 and BF16 alike. -/
def patLt (a b : BitVec 16) : Bool :=
  let v := fun (x : BitVec 16) => if 2 ^ 15 ≤ x.toNat then -((x.toNat - 2 ^ 15 : Nat) : Int) else (x.toNat : Int)
  decide (v a < v b)

/-- The least of some scores. -/
def leastScore : List (BitVec 16) → Option (BitVec 16)
  | [] => none
  | a :: r =>
    match leastScore r with
    | none => some a
    | some m => if patLt a m then some a else some m

/-- Symbols before the first end symbol, and whether an end symbol came. -/
def untilEnd (e : Nat) : List (BitVec 16 × BitVec 16 × Bool) → List (BitVec 16 × BitVec 16) × Bool
  | [] => ([], false)
  | (y, sc, bub) :: r =>
    if !bub && y.toNat == e then ([], true)
    else
      let (l, f) := untilEnd e r
      (if bub then l else (y, sc) :: l, f)

/-- The text record of a slot. -/
def textBytes (b : List Byte) (d : DecSlot) (step : Nat) : List Byte :=
  let (l, ended) := untilEnd (ppEnd b) d.syms
  let n := if ended then l.length else ppL b
  let least := (leastScore (l.map (·.2))).getD Config.noScore
  recBytes (recHeader 2 d.view (b2n (!ended) + 2 * b2n d.clipped) d.boxid.toNat step)
    (natLe 1 n ++ natLe 1 0 ++ natLe 2 least.toNat ++ (l.map fun p => p.1.truncate 8))

/-- One index token of the decoder: slot n mod R, circulation n / R; the record at the last circulation. -/
def indexToken (b : List Byte) (s : State) (u : Token) : State :=
  let r := max 1 (ppSlots b)
  let n := s.pp.circ
  let i := n % r
  let d := mget ({} : DecSlot) s.pp.dec i
  let s1 := { s with pp := { s.pp with circ := n + 1 } }
  if !d.used || ppL b ≤ n / r then s1
  else
    let d1 := { d with syms := d.syms ++ [(BitVec.ofNat 16 (tokElem u 16 0), BitVec.ofNat 16 (tokElem u 16 1), u.bub)] }
    if n / r + 1 = ppL b then
      let s2 := addRecord s1 2 (textBytes b d1 s.pace.step.toNat) s1.pp.ordTxt
      { s2 with pp := { s2.pp with ordTxt := s2.pp.ordTxt + 1, dec := mset {} s2.pp.dec i {} } }
    else { s1 with pp := { s1.pp with dec := mset {} s1.pp.dec i d1 } }

/-- The decoder's tokens of the step. -/
def decodeSlots (s : State) (b : List Byte) : State :=
  let c := Config.decChannel.val
  let ts := mget [] s.pp.rx c
  if ppSlots b = 0 then s
  else ts.foldl (indexToken b) { s with pp := { s.pp with rx := mset [] s.pp.rx c [] } }

/-! ## Measurements (R211, R227) -/

/-- The last layer over one pixel's tokens: Cout FP32 values, eight in all. -/
def lastLayer (s : State) (b : List Byte) (us : List Token) : List Nat :=
  let f := viewFmt b (lget 0 (nceViews b) 0)
  let xs := (us.flatMap fun u => (List.range 8).map fun l => convert f .fp32 (f.finite (tokElem u 16 l))).take (llCin b)
  let ys := (List.range (min 8 (llCout b))).map fun co => layerElem s (llWoff b) co (llAct b) xs
  ys ++ List.replicate (8 - ys.length) 0

/-- Whole groups of n tokens. -/
def groupsOf (n : Nat) : Nat → List Token → List (List Token)
  | 0, _ => []
  | k + 1, ts => ts.take n :: groupsOf n k (ts.drop n)

/-- A measurement record. -/
def measRecord (s : State) (b : List Byte) (vals : List Nat) : State :=
  let v := (Config.measView b).val
  let id := s.pp.nextid
  let bytes := recBytes (recHeader 3 v 0 id.toNat s.pace.step.toNat)
    (natLe 4 (frontOf s v).toNat ++ vals.flatMap (natLe 4))
  let s1 := addRecord s 3 bytes s.pp.ordMeas
  { s1 with pp := { s1.pp with ordMeas := s1.pp.ordMeas + 1, nextid := id + 1 } }

/-- The measurements of an east channel: two FP32 tokens each. -/
def measChannel (s : State) (b : List Byte) (c : Nat) : State :=
  let ts := mget [] s.pp.rx c
  let k := ts.length / 2
  (groupsOf 2 k ts).foldl (fun s us =>
    if us.all fun u => u.bub then s
    else measRecord s b (us.flatMap fun u => (List.range 4).map fun l => tokElem u 32 l))
    { s with pp := { s.pp with rx := mset [] s.pp.rx c (ts.drop (2 * k)) } }

/-- The measurements of the last-layer unit: one pixel each. -/
def measLast (s : State) (b : List Byte) : State :=
  let nb := s.nceBlock
  let n := max 1 ((llCin nb + 7) / 8)
  ((List.range 32).filter fun c => chRole nb c == 4).foldl (fun s c =>
    let ts := mget [] s.nce.rx c
    let k := ts.length / n
    (groupsOf n k ts).foldl (fun s us => if us.all fun u => u.bub then s else measRecord s b (lastLayer s nb us))
      { s with nce := { s.nce with rx := mset [] s.nce.rx c (ts.drop (n * k)) } }) s

def measure (s : State) (b : List Byte) : State :=
  if ppMeas b = 0 then measLast s b else measChannel s b (ppMeas b - 1)

/-! ## PP_STEP (R222) -/

/-- Have the step's tokens reached the PP (R14): every outward tile of a PP channel, and of the last layer's, has met its quota? -/
def ppTokensIn (s : State) : Bool :=
  (List.range 16).all (fun c => s.edgeOut (32 + c)) &&
  (ppMeas s.ppBlock != 0 || (List.range 32).all fun c => chRole s.nceBlock c != 4 || s.edgeOut c)

/-- May the PP take its step now: once, with all the step's tokens, those of the task's last step also after its end? -/
def ppDue (s : State) : Bool :=
  s.ppOn && !s.pp.stepDone && s.pace.state != .aborted && (s.pace.complete || (s.pace.released && !s.idle)) && ppTokensIn s &&
  !ppBlocked s

/-- Does the step end its crop window: by its number, with no crop windows, or as the task's last? -/
def windowEnds (s : State) : Bool :=
  crCW s.nceBlock = 0 || (s.pace.step.toNat + 1) % crCW s.nceBlock = 0 || s.pace.rank == .taskEnd

/-- One step of the PP: fronts, expiry, decisions, records, the packer at the window's end, insertion. What the front has passed
leaves before the decisions (R224): these use the same front (R222). -/
def ppStep (s : State) : State :=
  if ppDue s then
    match s.pp.badParity with
    | e :: _ => blockParity s 1 e
    | [] =>
      let s0 := rollWindow s
      let b := s0.ppBlock
      let sw := ppSW b
      let cands := (ppHeads b).flatMap (decodeHead s0 b)
      let s1 := expireAccepted (takeHeads ((ppHeads b).foldl (fun s h => headFronts s b h) s0) b) sw
      let (s2, boxes) := decideAll (ppT b) (s1.pp.queue.filter (isRipe s1 sw)) s1
      let s3 := recordBoxes b boxes s2
      let s4 := if windowEnds s3 then closeWindow s3 else s3
      let s5 := measure (decodeSlots s4 b) b
      let s6 := cands.foldl addCand s5
      { s6 with pp := { s6.pp with stepDone := true } }
  else s

/-- PP_STEP. -/
def execPpStep (s : State) : Host.Outcome State Fault Refusal := .next (ppStep s)

/-- PP_CLRSTAT (R231). -/
def ppClrstat (s : State) : State := { s with pp := { s.pp with qdrop := 0, accept := 0, supp := 0, qhwm := 0 } }

def execPpClrstat (s : State) : Host.Outcome State Fault Refusal := .next (rowWrite s 0xE0000 ppClrstat)

end Sys2Proof.Machine
end

