-- ==== Sys2Proof/Machine/Release.lean ====
section
/-! DEFINITION. The completion of a step at the end of its release decision, the release of the next one, and the passing of
device time (03 R47-R50, R52, R53, R55-R57, R61-R63, R65, R66; 12 R258-R260, R268). -/

namespace Sys2Proof.Machine

/-! ## Release: what every tile, edge tile, bed and block does (R47, R258) -/

/-- A core unparks; an unclaimed tile stays in reset. In a section-end step every tile has still to switch (R262). -/
def releaseGrid (front : Bool) (g : GridTile) : GridTile :=
  { g with fired := 0, tokUsed := false, hiMark := .none, passed := [], parked := g.inReset || !g.ctxCfg.claimed
           switched := !front, s := { g.s with portsOff := !g.ctxCfg.claimed, portCnt := [] } }

def releaseEdge (front : Bool) (g : EdgeTile) : EdgeTile :=
  parkEdge { g with inCnt := 0, outCnt := 0, inMarked := false, outMarked := false, hiMark := .none, parked := !g.ctxCfg.claimed
                    switched := !front }

/-- A bed at a release: its report cleared, its first-in-a-step notes gone. -/
def releaseBed (x : BedState) : BedState :=
  { x with nonfinStep := false, steerStep := false, adaptStep := false, reported := false, report := .none, firing := true }

/-- The first-in-a-step notes of the blocks outside the fabric. -/
def releaseBlocks (s : State) : State :=
  { s with
    nce := { s.nce with clipStep := false, intakeDone := false }
    pp := { s.pp with dropStep := false, earlyStep := false, stepDone := false, ordDet := 0, ordTxt := 0, ordMeas := 0 }
    sp := mapAll {} s.sp fun _ p => { p with badStep := false, lateStep := false, ovfStep := false }
    se := { s.se with eng := mapAll {} s.se.eng fun _ e => { e with discStep := false } }
    mc := { s.mc with ceStep := false }
    lk := { s.lk with ports := mapAll {} s.lk.ports fun _ p => { p with replayStep := false, syncDue := true } }
    pwr := { s.pwr with capStep := false } }

/-- Every tile, edge tile and bed of the context takes part in the step released; a step ranked section-end ends in a front, for
which everything has still to switch (R262). -/
def releaseFabric (s : State) (rank : Marker) : State :=
  let front := rank == .sectionEnd
  let s1 := { s with
    tiles := mapAll {} s.tiles fun _ g => releaseGrid front g
    edges := mapAll {} s.edges fun _ g => releaseEdge front g
    cfg := if front then { s.cfg with nextSec := BitVec.ofNat 2 (nextSection s), nceSwitched := false, ppSwitched := false } else s.cfg }
  s1.bedIds.foldl (fun s b => s.setBed b (releaseBed (s.bed b))) (releaseBlocks s1)

/-- The rank of the step about to be released (R259). -/
def rankOf (s : State) : Marker :=
  if s.pace.rakeAct then (if s.pace.rakeLeft ≤ 1 then .taskEnd else .stepEnd)
  else if (readEngines s).any (listEnds s) then
    (if s.cfg.sec.toNat + 1 = s.nsec && !s.loops then .taskEnd else .sectionEnd)
  else .stepEnd

/-! ## Completion of a step (R47, R52, R55, R56, R61) -/

/-- Cut to 32 bits by saturation. -/
def sat32 (n : Nat) : Word := BitVec.ofNat 32 (satN 32 n)

/-- Is the deadline monitor on for the step: not in free-run, not a raked step? -/
def windowOn (s : State) : Bool := s.pace.mode != 1 && !s.pace.raked

/-- The deadline check (R61). -/
def checkDeadline (s : State) (busy hold : Nat) : State :=
  let late := decide (s.pace.act.window.toNat < busy)
  let held := decide (s.pace.act.hallow.toNat < hold)
  if windowOn s && (late || held) then
    event { s with pace := { s.pace with stepMiss := satInc s.pace.stepMiss } } 0x0D02
      { addr := b2n late + 2 * b2n held, detail := two (satN 32 busy) (satN 32 hold) }
  else s

/-- The section-end step is complete: the barrier stands, and the tiles that have no old path may switch (R55, R262). -/
def enterBarrier (s : State) : State :=
  event { s with
    pace := { s.pace with state := if s.pace.rakeAct then s.pace.state else .barrier, barrierT := s.pace.clock }
    cfg := { s.cfg with front := .running } } 0x0D08

/-- The task ends (R56, R268). -/
def endTask (s : State) : State :=
  let s1 := endTaskBlocks (if s.pace.rakeAct then dropBuffers s else s)
  event { s1 with pace := { s1.pace with state := .idle, rakeAct := false, rakeDrop := false, rakeLeft := 0, released := false } } 0x0D07

/-- The lowest bed whose report differs from the rank (R260). -/
def wrongBed (s : State) : Option Nat := s.bedIds.find? fun b => (s.bed b).report != s.pace.rank

/-- The step completes: its busy time and H(n) are those of this instant (R52, R61). -/
def completeStep (s : State) : State :=
  match wrongBed s with
  | some b => event s 0x0D0C { detail := two b 0 }
  | none =>
    let hold := s.pace.stepHold
    let busy := busyNow s
    let s1 := checkDeadline { s with pace := { s.pace with
      complete := true, dupComplete := true, completeT := s.pace.clock, busy := busy, lastBusy := sat32 busy
      maxBusy := if s.pace.maxBusy.toNat < satN 32 busy then sat32 busy else s.pace.maxBusy } } busy hold
    match s.pace.rank with
    | .sectionEnd => enterBarrier s1
    | .taskEnd => endTask s1
    | _ => s1

/-- The 10 ns decision ends: the step completes, unless its busy time has strictly exceeded the watchdog's limit (R61, R63). -/
def endDecision (s : State) : State :=
  let s1 := { s with pace := { s.pace with deciding := false, decLeft := 0 } }
  if wdogLimit s < busyNow s then stallFault s1 else completeStep s1

/-! ## Release of the next step (R48, R49, R57, R62, R65) -/

/-- The lag monitor (R62). -/
def checkLag (s : State) : State :=
  let lim := s.pace.act.laglim.toNat * 1000
  if lim = 0 || s.pace.mode != 0 || s.pace.rakeAct then s
  else if lim < s.pace.lag then
    let s1 := { s with pace := { s.pace with lagMiss := satInc s.pace.lagMiss, lagArmed := false } }
    if s.pace.lagArmed then event s1 0x0D03 else s1
  else if 2 * s.pace.lag ≤ lim then { s with pace := { s.pace with lagArmed := true } }
  else s

/-- The shadow takes over at its next release (R389). -/
def checkTakeover (s : State) : State :=
  if s.tw.takePending then
    let s1 := event { s with tw := { s.tw with takePending := false, lead := true, take := s.pace.step } } 0x0A04
      { addr := s.pace.step.toNat }
    twinSend s1 7 0 [bits s.pace.step.toNat 0 32, bits s.pace.step.toNat 32 16]
  else s

/-- The step tick (R68). -/
def checkTick (s : State) : State :=
  if s.pace.tick != 0 && s.pace.step.toNat % s.pace.tick.toNat == 0 then raiseSource s 16 else s

/-- PACE at the release of step m. -/
def releasePace (p : Pace) (m : BitVec 48) (rank : Marker) : Pace :=
  let sched := if !p.released then p.clock else p.schedT + p.act.period.toNat
  { p with
    step := m, dupStep := m, rank := rank, relT := p.clock, schedT := sched, stepHold := 0, complete := false
    dupComplete := false, deciding := false, decLeft := 0, released := true
    lag := if p.mode = 0 && !p.rakeAct then p.clock - sched else 0
    rakeLeft := p.rakeLeft - 1, stepsSinceWarm := p.stepsSinceWarm + 1, resumed := false, raked := p.rakeAct }

/-- Release step m with a rank (R48, R49, R258). The release is the step boundary at which every pending commit group is applied
(R9). R62 and R66 do not say whether the lag of the very release at which a PACE commit applies is judged by the old or the new
LAGLIM; the model judges it by the old one, before the groups are applied (DESIGN CHOICE, log entry 78). -/
def doRelease (s : State) (m : BitVec 48) (rank : Marker) : State :=
  let s1 := { releaseFabric s rank with pace := releasePace s.pace m rank }
  applyBoundary (checkTick (checkTakeover (checkLag s1)))

/-- Do the two copies of PACE's state agree, and the trees' parity (R65)? -/
def paceAgrees (s : State) : Bool :=
  s.pace.step == s.pace.dupStep && s.pace.complete == s.pace.dupComplete && s.pace.treeParityOk

/-- The release decision for step m: PACE's copies, the read lists, the release. -/
def releaseStep (s : State) (m : BitVec 48) : State :=
  if !paceAgrees s then event s 0x0D09
  else if !s.pace.rakeAct && listFault s != 0 then event s 0x0D0C { detail := two (listFault s) 0 }
  else doRelease s m (rankOf s)

/-- The timing condition of the mode in force (Table PCE-2, R268). The spacing R(n) + PMIN is measured on PACE's clock, which stands
still while DBG holds: R53 names the schedule, and the model freezes the spacing and the 10 ns decision with it (DESIGN CHOICE,
log entry 78). -/
def timeReached (s : State) : Bool :=
  s.pace.rakeAct || !s.pace.released ||
   (match s.pace.mode.toNat with
    | 0 => decide (s.pace.relT + s.pace.act.pmin.toNat ≤ s.pace.clock) &&
           decide (s.pace.schedT + s.pace.act.period.toNat ≤ s.pace.clock)
    | 2 => decide (s.pace.relT + s.pace.act.pmin.toNat ≤ s.pace.clock)
    | _ => true)

/-- The step that PACE releases next: the start step, which it reads until then, or the one after that in force. -/
def nextStep (s : State) : BitVec 48 := if s.pace.released then s.pace.step + 1 else s.pace.step

/-- Does the stop step stand before the next step (R57, R266)? -/
def stopsHere (s : State) : Bool := s.pace.stopEn && s.pace.stopStep == nextStep s && !s.pace.rakeAct && !s.pace.resumed

/-- The stop step is reached (R57). -/
def stopTask (s : State) : State := event { s with pace := { s.pace with state := .stopped, stopByStep := true } } 0x0D0A

/-- Is PACE in a state in which it releases steps: step n is complete and no front stands, or the stop step withheld the start
step, and the PP has done the step's work and written its records, whose step offset is fixed (R14, R48)? -/
def mayRelease (s : State) : Bool :=
  (if s.pace.released then s.pace.complete && s.ppSettled else s.cfg.goal == .none && s.cfg.stage == 3) && !atBarrier s &&
  (s.pace.state == .running || s.pace.state == .held || (s.pace.state == .stopped && s.pace.rakeAct))

/-- STEP_RELEASE (R48): waits until the step is due. The stop step is reached, from RUNNING, as soon as step n is complete and
before step n + 1 is due: R57 gives no instant (DESIGN CHOICE, log entry 40). -/
def stepRelease (s : State) : State :=
  if mayRelease s then
    if stopsHere s then (if s.pace.state = .running then stopTask s else s)
    else if !s.holding && timeReached s then releaseStep s (nextStep s)
    else s
  else s

def execStepRelease (s : State) : Host.Outcome State Fault Refusal := .next (stepRelease s)

/-! ## Device time (R50, R53) -/

/-- d nanoseconds pass, on PACE's timers too. Hold time is counted while a request stands or an abort holds the machine (R52). -/
def tickBy (s : State) (d : Nat) : State :=
  let held := s.holding && !s.idle
  { s with
    devTime := s.devTime + d
    pace := { s.pace with
      clock := s.pace.clock + d
      decLeft := s.pace.decLeft - d
      standT := if s.pace.req != 0 && !s.idle then s.pace.standT + d else s.pace.standT
      holdNs := if held then s.pace.holdNs + BitVec.ofNat 64 d else s.pace.holdNs
      stepHold := if s.pace.req != 0 && stepRuns s then s.pace.stepHold + d else s.pace.stepHold } }

/-- Time passes while DBG holds: PACE's timers stand still (R53), the count of all hold time runs on (R52). -/
def frozenTick (s : State) (d : Nat) : State :=
  { s with
    devTime := s.devTime + d
    pace := { s.pace with holdNs := if s.idle then s.pace.holdNs else s.pace.holdNs + BitVec.ofNat 64 d } }

/-- d nanoseconds pass; a release decision that ends in them ends at its instant. -/
def passTime (s : State) (d : Nat) : State :=
  if s.dbgHold then frozenTick s d
  else if s.pace.deciding && decide (s.pace.decLeft ≤ d) then
    tickBy (endDecision (tickBy s s.pace.decLeft)) (d - s.pace.decLeft)
  else tickBy s d

/-- DEVICE_TIME_INCREMENT: by 1 ns steps while PD13 is powered, else in increments of 40. Idle link ports send their IDLE frames. -/
def timeIncrement (s : State) (n : Nat) : State := sendIdles (passTime s (if s.domain 13 then n else 40 * n))

def execDeviceTimeIncrement (n : Nat) (s : State) : Host.Outcome State Fault Refusal := .next (timeIncrement s n)

end Sys2Proof.Machine
end

