-- ==== Sys2Proof/Machine/Loader.lean ====
section
/-! DEFINITION. The loader (11 R236-R238, R250; 12 R255, R269-R271): IMG_LOAD and PLC_SWITCH, writing contexts and stores, and the
release sequence. -/

namespace Sys2Proof.Machine

/-! ## Contexts as CFG writes them (R33, R242, R255) -/

/-- What a placement holds for a context. -/
def PlcImage.ctx (p : PlcImage) (x : Nat) : CtxImage := (p.ctxs.find? fun c => c.ctx.toNat == x).getD {}

/-- The block of a tile in a context. -/
def PlcImage.block (p : PlcImage) (x id : Nat) : Option TileBlock := (p.ctx x).blocks.find? fun b => b.tile.toNat == id

/-- The routing word of a grid tile with no block (R33). -/
def bareRoute : BitVec 64 := 0x1000000000000000

/-- The context store of a grid tile for context x: instructions, routing word, constants; what a block does not supply is 0. -/
def contextWords (p : PlcImage) (id x : Nat) : AMap (BitVec 64) :=
  match p.block x id with
  | none => [(x * 384 + 256, bareRoute)]
  | some b =>
    (b.instrs.zipIdx.map fun w => (x * 384 + w.2, w.1)) ++ [(x * 384 + 256, b.route)] ++
      b.consts.zipIdx.map fun w => (x * 384 + 257 + w.2, w.1)

/-- The entries of a sparse array without those at its default. -/
def sparse {α : Type} [DecidableEq α] (d : α) (m : AMap α) : AMap α := m.filter fun p => p.2 ≠ d

/-- The context entry of a block. -/
def blockCfg : Option TileBlock → TileCtx
  | none => {}
  | some b => { claimed := b.claimed, bed := b.bed, qcore := b.qcore, qport := b.qport }

/-- The context entries of a tile ID. -/
def ctxEntries (p : PlcImage) (id : Nat) : AMap TileCtx := sparse {} ((List.range 4).map fun x => (x, blockCfg (p.block x id)))

/-- The window record that an F tile holds in a context: its bed's (R163, R241). -/
def tileRecord (p : PlcImage) (id x : Nat) : List Byte :=
  match p.block x id with
  | some b =>
    if b.claimed then (((p.ctx x).beds.find? fun d => d.bed == b.bed && d.hasRecord).map fun d => d.wrec).getD [] else []
  | none => []

def tileRecords (p : PlcImage) (id : Nat) : AMap (List Byte) :=
  if tileKind id = .f then sparse [] ((List.range 4).map fun x => (x, tileRecord p id x)) else []

/-! ## Stores (R90, R138, R209, R244) -/

/-- The bytes that the records of a store write, zero bytes left out. -/
def storeBytes (rs : List MemRec) : AMap Byte :=
  sparse 0 ((sortBy (fun r => r.off) rs).flatMap fun r => r.bytes.zipIdx.map fun b => (r.off + b.2, b.1))

/-- The records for a store of a tile. -/
def recsFor (p : PlcImage) (store id : Nat) : List MemRec := p.meminit.filter fun r => r.store.toNat == store && r.tile.toNat == id

/-- Bytes gathered to little-endian units of k bytes. -/
def gather (k : Nat) : AMap Byte → List (Nat × Nat)
  | [] => []
  | (a, b) :: r =>
    let v := b.toNat * 256 ^ (a % k)
    match gather k r with
    | (i, w) :: q => if i = a / k then (i, w + v) :: q else (a / k, v) :: (i, w) :: q
    | [] => [(a / k, v)]

/-- Entries of n bits from bytes. -/
def entries (n : Nat) (m : AMap Byte) : AMap (BitVec n) := (gather (n / 8) m).map fun x => (x.1, BitVec.ofNat n x.2)

/-- A slot as the loader writes it: PAR for the payload, the other side fields and the check bit 0. -/
def loadedSlot (v : BitVec 128) : Slot := { tok := { payload := v, par := parityOf v }, chk := false }

/-- The store of an S tile. -/
def loadedStore (p : PlcImage) (id : Nat) : AMap Slot := (entries 128 (storeBytes (recsFor p 3 id))).map fun x => (x.1, loadedSlot x.2)

/-- The flat-field entries of every view and bank: the target ID gives bank and view. -/
def loadedFf (p : PlcImage) : AMap Word :=
  (List.range 32).flatMap fun id =>
    (entries 32 (storeBytes (recsFor p 4 id))).map fun x => (ffKey (id / 16) (id % 16) x.1, x.2)

/-! ## Writing a placement -/

/-- A grid tile as CFG writes it, its core held in reset. The saturation counters stay. -/
def loadedTile (p : PlcImage) (old : GridTile) (t : Nat) : GridTile :=
  { words := sparse 0 ((List.range 4).flatMap (contextWords p t)), cfg := ctxEntries p t, wrec := tileRecords p t
    q := { satc := old.q.satc, fired := old.q.fired }
    m := { code := storeBytes (recsFor p 1 t), scale := entries 16 (storeBytes (recsFor p 2 t)) }
    s := { store := loadedStore p t } }

/-- An edge tile as CFG writes it. -/
def loadedEdge (p : PlcImage) (e : Nat) : EdgeTile :=
  let id := edgeId e
  { route := sparse 0 ((List.range 4).map fun x => (x, ((p.block x id).map fun b => b.route).getD 0))
    edesc := sparse 0 ((List.range 4).map fun x => (x, ((p.block x id).map fun b => b.edesc).getD 0))
    cfg := ctxEntries p id }

/-- Every grid tile whose block is on, and every edge tile, as placement p gives them (R238, R255). -/
def loadFabric (s : State) (p : PlcImage) : State :=
  { s with
    tiles := sparse {} ((List.range 1024).map fun t => (t, if s.domain (14 + gridFab t) then loadedTile p (s.tile t) t else {}))
    edges := sparse {} ((List.range 128).map fun e => (e, if s.domain (14 + edgeFab e) then loadedEdge p e else {})) }

/-- The NCE's stores written and bank 0 selected (R209); the NCE, the PP and the engines start empty. -/
def loadUnits (s : State) (p : PlcImage) : State :=
  { s with
    nce := { clearNce s.nce with ff := loadedFf p, weights := storeBytes (recsFor p 5 0), ffbank := 0, shFfbank := 0, badParity := [] }
    pp := { clearPp s.pp with badParity := [] }
    se := { s.se with eng := mapAll {} s.se.eng fun _ e => emptyEngine e } }

/-- Every fabric block is switched on before CFG writes, where AUTOFAB is 1 (R398). -/
def allFabsOn (s : State) : State :=
  if s.pwr.autofab then (List.range 16).foldl (fun s b => if domTarget s (14 + b) && s.domain (14 + b) then s else setDomain s (14 + b) true) s
  else s

/-- CFG writes placement n of an image into a closed fabric, and begins the release sequence (R238, R255, R269). -/
def writePlacement (s : State) (im : LoadedImage) (pos n : Nat) (cmd : Bool) : State :=
  let p := im.plcs.getD n emptyPlc
  let s1 := loadUnits (loadFabric (allFabsOn s) p) p
  { s1 with cfg := { s1.cfg with
      image := some im, state := 2, plc := BitVec.ofNat 8 n, adr := im.adr, pos := BitVec.ofNat 16 pos, half := im.half
      stage := 0, errStage := 0, stageT := s.devTime, goal := .load, loadCmd := cmd, sec := 0, nextSec := 0, front := .none
      nceSwitched := true, ppSwitched := true, pend := none } }

/-- Is the fabric open at some stage, so that CFG must close it first (R269)? -/
def fabricOpen (s : State) : Bool := s.cfg.stage != 0 && s.cfg.stage != 15

/-- CFG closes the fabric, if it is open, before it writes placement n of an image: its stages close in reverse order, each within 50 µs
(R269, R270). CFG_LDSTAT.STATE shows writing meanwhile (DESIGN CHOICE, log entry 83). -/
def beginWrite (s : State) (im : LoadedImage) (pos n : Nat) (cmd : Bool) : State :=
  if fabricOpen s then
    { s with cfg := { s.cfg with state := 2, goal := .load, loadCmd := cmd, stageT := s.devTime, errStage := 0
                                 pend := some { im := im, pos := pos, plc := n } } }
  else writePlacement s im pos n cmd

/-! ## What a placement needs on (R399) -/

/-- The fabric blocks that a placement uses. -/
def PlcImage.usesFab (p : PlcImage) (b : Nat) : Bool :=
  p.ctxs.any fun c => c.blocks.any fun k =>
    let i := k.tile.toNat
    (if isEdgeId i then edgeFab (edgeOfId i) else gridFab i) == b &&
    (k.claimed || (!isEdgeId i && bits k.route.toNat 0 48 != 0) || k.qport.any fun q => q != 0)

/-- The domains that CFG writes into or reads from as it loads placement p. -/
def loadDomains (s : State) (p : PlcImage) : List Nat :=
  [3, 4, 5, 13] ++
  (if p.ctxs.any (fun c => c.nce.isSome) || p.meminit.any (fun r => r.store == 4 || r.store == 5) then [11] else []) ++
  (if p.ctxs.any fun c => c.pp.isSome then [12] else []) ++
  (if s.pwr.autofab then [] else ((List.range 16).filter p.usesFab).map (14 + ·))

/-- A domain that the load needs and that is off. -/
def domainOff (s : State) (p : PlcImage) : Option Nat := (loadDomains s p).find? fun d => !s.powered d

/-! ## IMG_LOAD (R236, R237, R250) -/

/-- A refused image: the event, CFG_LDERR and CFG_LDLOC (R250, R254). -/
def refuseImage (s : State) (f : LoadFail) : State :=
  refuseCmd { s with cfg := { s.cfg with errCode := BitVec.ofNat 16 f.code, errRow := BitVec.ofNat 8 f.row, loc := BitVec.ofNat 32 f.loc } }
    f.code { addr := f.loc, detail := f.row, more := f.more }

def loadFromHost (s : State) : Bool := numAt (curBytes s) 8 1 == 1
def loadPlc (s : State) : Nat := numAt (curBytes s) 9 1
def loadPos (s : State) : Nat := numAt (curBytes s) 10 2
def loadAddr (s : State) : Nat := numAt (curBytes s) 16 8
def loadLen (s : State) : Nat := numAt (curBytes s) 24 8

/-- The half that no loaded image uses: with no image loaded, the one that ADDR names, else half 0. -/
def freeHalf (s : State) : Bool :=
  if s.cfg.state != 0 then !s.cfg.half else !loadFromHost s && loadAddr s == halfBase s true

/-- Is the image checked where it stands, in the free half? -/
def inPlace (s : State) : Bool := !loadFromHost s && loadAddr s == halfBase s (freeHalf s)

/-- Does ADDR lie where an image in LPDDR6 may stand? -/
def loadAddrOk (s : State) : Bool := loadFromHost s || inPlace s || decide (loadAddr s < taskTop s)

/-- The bytes of the image to be read, at most what an image may have. -/
def readLen (s : State) : Nat := min (loadLen s) (2 ^ 29)

/-- The unit of the image in which the memory finds an error: the one at a, else the first. -/
def badUnit (s : State) (a : Nat) : Nat :=
  if loadAddr s ≤ a ∧ a < loadAddr s + readLen s then a / 16 * 16 else loadAddr s / 16 * 16

/-- The bytes of the image: none where a host read brings fewer or fails, or where a unit of LPDDR6 is uncorrectable (R291). -/
def imageBytes (s : State) (r : HostRead) (h : UnitHealth) : Option (List Byte) :=
  if loadFromHost s then
    match r with
    | .failed => none
    | .ok bs => if readLen s ≤ bs.length then some (bs.take (readLen s)) else none
  else if h = .uncorrectable then none
  else some (memRead s.mc.mem (loadAddr s) (readLen s))

/-- What the controller notes of the loader's read (R291). -/
def noteLoaderRead (s : State) (h : UnitHealth) (a : Nat) : State :=
  if loadFromHost s then s
  else
    match h with
    | .good => s
    | .corrected => corrected1 s (badUnit s a)
    | .uncorrectable => badRead s (badUnit s a) 0

/-- The image copied into the free half; stored units have side bits 0. -/
def copyImage (s : State) (b : List Byte) : State :=
  if inPlace s then s
  else
    let a := halfBase s (freeHalf s)
    { s with mc := { s.mc with mem := memWrite s.mc.mem a b
                               side := s.mc.side.filter fun p => !(decide (a ≤ 16 * p.1) && decide (16 * p.1 < a + b.length)) } }

/-- The checks, then the load of an image whose bytes are b. -/
def loadBytes (s : State) (b : List Byte) : State :=
  let s1 := copyImage s b
  match loadChecks s b (loadLen s) (loadPlc s) (loadPos s) with
  | some f => refuseImage s1 f
  | none =>
    let im := imageOf b (loadPos s) (freeHalf s)
    match domainOff s (im.plcs.getD (loadPlc s) emptyPlc) with
    | some d => refuseCmd s1 0x0B0E { srcid := d }
    | none => beginWrite s1 im (loadPos s) (loadPlc s) true

/-- IMG_LOAD: memory ready, operands in range, row 1, then the image is read and rows 2 to 17 are run. A load from host memory waits
while the device may issue no request (R320). The error of a loader read and a host read that fails refuse the image at row 2, whose
check reads the image first (DESIGN CHOICE, log entry 83). -/
def imgLoad (s : State) (r : ImageRead) : State :=
  if !curIs s 0x0010 || (s.cfg.goal == .load && s.cfg.loadCmd) then s
  else if !s.mc.ready then refuseCmd s 0x0708
  else if !loadAddrOk s then malformedCmd s
  else if !s.idle || s.cfg.goal == .load then refuseImage s { code := 0x030C, row := 1, loc := 0 }
  else if loadFromHost s && !s.canRequest then s
  else
    let s1 := noteLoaderRead { s with cfg := { s.cfg with errCode := 0, errRow := 0, loc := 0 } } r.health r.addr
    match imageBytes s r.data r.health with
    | none => refuseImage s1 { code := 0x0301, row := 2, loc := 0 }
    | some b => loadBytes s1 b

def execImgLoad (r : ImageRead) (s : State) : Host.Outcome State Fault Refusal := .next (imgLoad s r)

/-! ## PLC_SWITCH (R238) -/

/-- Is placement n one that the loaded image carries for this device? -/
def plcCarried (s : State) (n : Nat) : Bool :=
  match s.cfg.image with
  | some im => decide (n < im.plcs.length) && (im.plcs.getD n emptyPlc).missing != s.cfg.pos
  | none => false

/-- The switch to placement n, or the event that refuses it; a refusal's ADDR is CFG_LDLOC as it stands (R463; DEDUCED, log entry 30). -/
def switchPlc (s : State) (n : Nat) (cmd : Bool) : Except (Nat × EvArgs) State :=
  match s.cfg.image with
  | none => .error (0x030B, { addr := s.cfg.loc.toNat })
  | some im =>
    if !plcCarried s n then .error (0x030B, { addr := s.cfg.loc.toNat })
    else
      match domainOff s (im.plcs.getD n emptyPlc) with
      | some d => .error (0x0B0E, { srcid := d })
      | none => .ok (beginWrite s im s.cfg.pos.toNat n cmd)

/-- PLC_SWITCH. -/
def plcSwitch (s : State) : State :=
  if !curIs s 0x0030 || (s.cfg.goal == .load && s.cfg.loadCmd) then s
  else if !s.idle || !s.loaded || s.cfg.goal != .none then wrongState s
  else
    match switchPlc s (numAt (curBytes s) 8 1) true with
    | .ok s1 => s1
    | .error (code, a) => refuseCmd s code a

def execPlcSwitch (s : State) : Host.Outcome State Fault Refusal := .next (plcSwitch s)

/-! ## The release sequence (R269-R271) -/

/-- The routing words read as the tiles take up their context. -/
def readEntries (s : State) : State :=
  s.tiles.foldl (fun s p => if p.2.health.isEmpty then s else takeWords s p.1 (entryWords p.1 p.2)) s

/-- Stage 3: cores start at index 0 of section 0's context and stand parked (R269). -/
def openCores (s : State) : State :=
  let x := BitVec.ofNat 2 (s.secCtx 0)
  readEntries (resetTiles { s with cfg := { s.cfg with stage := 3, sec := 0, nextSec := 0, nceCtx := x, ppCtx := x
                                                       nceSwitched := true, ppSwitched := true } } x)

/-- The command that the load or the switch completes ends, if it is one of the host's. -/
def endLoad (s : State) (f : State → State) : State :=
  let s1 := { s with cfg := { s.cfg with goal := .none, loadCmd := false } }
  if s.cfg.goal = .load ∧ s.cfg.loadCmd = false then s1 else f s1

/-- The stage after stage 2, for a load: the image is loaded, every port enters HELLO (R370, R377). -/
def finishLoad (s : State) : State := endLoad (helloAll { s with cfg := { s.cfg with state := 3 } }) fun s => finishCmd s stDone 0

/-- The stage after stage 2, for a task: PACE releases the start step (R49, R271, R467), or reaches the stop step there (R57), which
completes TASK_START too, so that the ring can bring RESUME (R331; DESIGN CHOICE, log entry 40). -/
def finishStart (s : State) : State :=
  let s0 := { s with cfg := { s.cfg with goal := .none } }
  let s1 := if stopsHere s0 then stopTask s0 else releaseStep s0 s.pace.step
  if s1.pace.state = .aborted then finishCmd s1 stRefused s1.flt.firstCode.toNat else finishCmd s1 stDone 0

/-- A stage closes (R269): with stage 3 the cores go into reset; when stage 1 is closed CFG writes the placement that waits. -/
def closeStage (s : State) (p : PendLoad) : State :=
  if s.cfg.stage = 1 then writePlacement s p.im p.pos p.plc s.cfg.loadCmd
  else
    let s1 := { s with cfg := { s.cfg with stage := s.cfg.stage - 1, stageT := s.devTime } }
    if s.cfg.stage = 3 then { s1 with tiles := mapAll {} s1.tiles fun _ g => holdGrid g } else s1

/-- A stage opens. -/
def openStage (s : State) : State :=
  if s.cfg.stage.toNat < 2 then { s with cfg := { s.cfg with stage := s.cfg.stage + 1, stageT := s.devTime } }
  else if s.cfg.stage = 2 then
    (if s.cfg.goal = .load then finishLoad (openCores s) else finishStart (startEngines (openCores s) (s.secCtx 0)))
  else s

/-- RELEASE_STAGE (R269, R271): the stage that CFG has broadcast is acknowledged everywhere, and the next begins: the fabric closes from
stage 3 to stage 1 where a placement waits to be written, and opens from stage 1 to stage 3 otherwise. -/
def releaseStage (s : State) : State :=
  if s.cfg.goal = .none || s.pace.state = .aborted then s
  else
    match s.cfg.pend with
    | some p => closeStage s p
    | none => openStage s

def execReleaseStage (s : State) : Host.Outcome State Fault Refusal := .next (releaseStage s)

/-- The stage that fails leaves no usable image: CFG_REL records it (R270). -/
def failStage (s : State) (n : Nat) : State :=
  { s with cfg := { s.cfg with stage := 0xF, errStage := BitVec.ofNat 4 n, state := 0, adr := 0, image := none, pend := none } }

/-- The stage whose acknowledgements are waited for: the one that opens, or the one that closes. -/
def stageWaiting (s : State) : Nat := if s.cfg.pend.isSome then s.cfg.stage.toNat else s.cfg.stage.toNat + 1

/-- RELEASE_STAGE_TIMEOUT (R270): 50 µs without every acknowledgement. -/
def releaseTimeout (s : State) : State :=
  if s.cfg.goal != .none && s.pace.state != .aborted && decide (50000 < s.devTime - s.cfg.stageT) then
    let n := stageWaiting s
    endLoad (helloAll (event (failStage s n) 0x030E { detail := two n 0 })) fun s => finishCmd s stRefused 0x030E
  else s

def execReleaseStageTimeout (s : State) : Host.Outcome State Fault Refusal := .next (releaseTimeout s)

end Sys2Proof.Machine
end

