-- ==== Sys2Proof/Machine/Firmware.lean ====
section
/-! DEFINITION. Firmware's answers to the messages of Table IRQ-3 (16 R350, R351): PING, VERSION, FAULTLOG, DUMP, PACEHINT (R375),
PLCSW (R377), TWIN HEARTBEAT and TAKEOVER (R382, R389), DBGCHAL (R429). -/

namespace Sys2Proof.Machine

/-! ## Messages and replies -/

/-- The whole head message of an inbound queue, none of its words removed yet. -/
def headMessage (s : State) (m : Nat) : Option (List MboxWord) :=
  let q := (s.mbox m).inq
  if q.words.isEmpty || q.headLeft != 0 then none else some (q.words.take q.headWords)

/-- A reply: STATUS and the words after it. -/
structure Reply where
  status : Nat := 0
  words : List Word := []
deriving DecidableEq, Repr

/-- A reply refused with an event code (STATUS 0x01). -/
def refusedReply (code : Nat) : Reply := { status := 1, words := [BitVec.ofNat 32 code] }

/-- The words of a reply: header with TYPE + 0x80, STATUS, the rest (R345, R351). -/
def replyWords (h : Word) (r : Reply) : List Word :=
  packW [(0, (hdrSeq h).toNat), (16, (hdrType h + 0x80) % 256), (24, min 15 (1 + r.words.length))] ::
    packW [(0, r.status)] :: r.words.take 14

/-- A kept reply with DUP set. -/
def dupReply : List Word → List Word
  | h :: w :: r => h :: (w ||| 0x100#32) :: r
  | ws => ws

/-- Can firmware write n words to the outbound queue: room, and no message partly written? -/
def outReady (s : State) (m n : Nat) : Bool :=
  let q := (s.mbox m).outq
  q.part.isEmpty && q.left == 0 && q.skip == 0 && decide (n ≤ q.freeWords)

/-- Firmware sets DEST and writes a message word by word (R348). -/
def fwWrite (s : State) (m core dest : Nat) (ws : List Word) : State :=
  ws.foldl (fun s w => putWord s m false (1 + core) true w) (s.setMbox m { s.mbox m with dest := BitVec.ofNat 4 dest })

/-- The head inbound message is read out of its queue. -/
def takeMessage (s : State) (m n : Nat) : State := times n (fun s => popIn s m) s

/-- Firmware keeps MSEQ and reply of a message that it executed (R350). -/
def keepReply (s : State) (m : Nat) (h : Word) (ws : List Word) : State :=
  s.setMbox m { s.mbox m with keptMseq := some (hdrSeq h), keptReply := ws }

/-- The sender code of a message. -/
def hdrSender (h : Word) : Nat := bits h.toNat 28 4

/-- The reply to a message of n words is queued; one with STATUS 0x00 is kept. -/
def answerWith (s : State) (m core n : Nat) (h : Word) (r : Reply) : State :=
  let ws := replyWords h r
  let s1 := takeMessage s m n
  fwWrite (if r.status = 0 then keepReply s1 m h ws else s1) m core (hdrSender h) ws

/-- A corrupt message is discarded without a reply (R349). -/
def discardCorrupt (s : State) (m : Nat) (ws : List MboxWord) : State :=
  event (takeMessage s m ws.length) 0x0F03 { srcid := m, detail := two ((ws.findIdx? fun w => !w.ok).getD 0) 0 }

/-- What an executed message asks for, or none while firmware must wait for room for the copies that it forwards. -/
abbrev Act := State → List Word → Option (State × Reply)

/-- An act that never waits. -/
def Act.now (f : State → List Word → State × Reply) : Act := fun s ws => some (f s ws)

/-- Firmware serves the head message of mailbox m when it is one of mine: corrupt ones are discarded, repeats answered with the kept
reply, others acted on. The next message is read only once the reply is queued (R350), so a message waits at the head until its
copies and its reply have room. act is given the words, the header first. -/
def serve (s : State) (m core : Nat) (mine : List Word → Bool) (act : Act) : State :=
  match headMessage s m with
  | none => s
  | some mw =>
    let ws := mw.map fun w => w.w
    let h := ws.headD 0
    if !mine ws || s.sec.bootState != 3 then s
    else if mw.any fun w => !w.ok then discardCorrupt s m mw
    else if (s.mbox m).keptMseq = some (hdrSeq h) then
      (let k := dupReply (s.mbox m).keptReply
       if outReady s m k.length then fwWrite (takeMessage s m ws.length) m core (hdrSender h) k else s)
    else
      match act s ws with
      | none => s
      | some (s1, r) => if outReady s1 m (replyWords h r).length then answerWith s1 m core ws.length h r else s

/-- TYPE of a message, and its subtype in word 1. -/
def msgType (ws : List Word) : Nat := hdrType (ws.headD 0)
def msgSub (ws : List Word) : Nat := bits (msgWord ws 1) 24 8

/-- The checks common to all: sender permitted, LEN as the TYPE has it, reserved bits 0; then the answer (R351). -/
def checkedAct (senders : List Nat) (len : Nat) (formed : List Word → Bool) (act : Act) : Act := fun s ws =>
  if !senders.contains (hdrSender (ws.headD 0)) then some (s, { status := 4 })
  else if hdrLen (ws.headD 0) ≠ len || !formed ws then some (s, { status := 2 })
  else act s ws

/-- The same for an act that never waits. -/
def checked (senders : List Nat) (len : Nat) (formed : List Word → Bool) (act : State → List Word → State × Reply) : Act :=
  checkedAct senders len formed (Act.now act)

def allSenders : List Nat := [0, 8, 9, 10, 11, 12, 15]
def linkSenders : List Nat := [9, 10, 11, 12]

/-! ## PING, VERSION, FAULTLOG, DUMP -/

/-- The TYPEs that Table IRQ-3 defines for requests. -/
def definedTypes : List Nat := [0x01, 0x02, 0x10, 0x11, 0x20, 0x22, 0x30, 0x50]

/-- PING; a message of an undefined TYPE, and so any TYPE of 0x80 or above from a peer, is answered malformed (log entry 45). -/
def ping (s : State) (m core : Nat) : State :=
  serve s m core (fun ws => msgType ws == 1 || !definedTypes.contains (msgType ws)) fun s ws =>
    if msgType ws ≠ 1 then some (s, { status := 2 })
    else checked allSenders 0 (fun _ => true) (fun s _ => (s, { words := [BitVec.ofNat 32 s.time64] })) s ws

def execPing (m : Fin 8) (core : Fin 4) (s : State) : Host.Outcome State Fault Refusal := .next (ping s m core)

/-- VERSION: interface version, security version, stepping code. -/
def version (s : State) (m core : Nat) : State :=
  serve s m core (fun ws => msgType ws == 2) <| checked allSenders 0 (fun _ => true) fun s _ =>
    (s, { words := [s.sec.fwver, s.sec.fwsvn.truncate 32, BitVec.ofNat 32 (steppingCode s.glb.stepping)] })

def execVersion (m : Fin 8) (core : Fin 4) (s : State) : Host.Outcome State Fault Refusal := .next (version s m core)

/-- FAULTLOG: entries from the first one asked for; how a reply holds them the spec does not say (log entry 27). -/
def faultlog (s : State) (m core : Nat) : State :=
  serve s m core (fun ws => msgType ws == 0x10) <| checked [0, 15] 2 (fun _ => true) fun s ws =>
    (s, { words := Config.faultlogReply (((s.flt.log.drop (msgWord ws 1)).take (msgWord ws 2)).flatMap logBytes) })

def execFaultlog (m : Fin 8) (core : Fin 4) (s : State) : Host.Outcome State Fault Refusal := .next (faultlog s m core)

/-- DUMP: the place of the dump region and the length of the dump. -/
def dump (s : State) (m core : Nat) : State :=
  serve s m core (fun ws => msgType ws == 0x11) <| checked [0, 15] 0 (fun _ => true) fun s _ =>
    (s, { words := [Config.dumpOffsetWord (dumpBase s), s.flt.dumpLen] })

def execDump (m : Fin 8) (core : Fin 4) (s : State) : Host.Outcome State Fault Refusal := .next (dump s m core)

/-! ## Forwarding on the links -/

/-- The sender code of port q: the twin link's is 8 (R379). -/
def portCode (s : State) (q : Nat) : Nat := if s.twinLink q then 8 else 9 + q

/-- The mailbox that firmware queues a copy for a code in: the lowest that permits it, else the one that it serves, whose copy the
device then discards by R348. -/
def mboxFor (s : State) (m code : Nat) : Nat := ((List.range 8).find? fun m => bitAt (s.mbox m).peer.toNat code).getD m

/-- A copy of a message on port q, under an MSEQ of firmware's own (log entry 4); none while its mailbox has no room for it. -/
def forwardOn (s : State) (m core q : Nat) (ws : List Word) : Option State :=
  let m1 := mboxFor s m (portCode s q)
  if outReady s m1 ws.length then
    let (v, s1) := s.drawFree
    some (fwWrite s1 m1 core (portCode s q) (packW [(0, v.toNat % 2 ^ 16), (16, msgType ws), (24, hdrLen (ws.headD 0))] :: ws.drop 1))
  else none

/-- One copy on each other port in UP; none while one of them has no room. -/
def forwardAll (s : State) (m core code : Nat) (ws : List Word) : Option State :=
  (List.range 4).foldl (fun o q => o.bind fun s =>
    if (s.port q).isUp && portCode s q != code then forwardOn s m core q ws else some s) (some s)

/-! ## PACEHINT (R375) -/

/-- The lowest step that the standing hints suggest, at most r. -/
def hinted (hs : List (BitVec 16 × Word × BitVec 4)) (r : BitVec 4) : BitVec 4 :=
  hs.foldl (fun v h => if h.2.2 < v then h.2.2 else v) r

/-- A hint, or its withdrawal, from an origin: firmware lowers its voltage step to the lowest that stands. -/
def takeHint (s : State) (origin : BitVec 16) (step : Word) (v : BitVec 4) (withdraw : Bool) : State :=
  let rest := s.lk.hints.filter fun h => h.1 != origin
  let hs := if withdraw then rest else rest ++ [(origin, step, v)]
  let own := s.lk.ownReq.getD s.pwr.req
  let s1 := { s with lk := { s.lk with hints := hs, ownReq := if hs.isEmpty then none else some own } }
  changePwr s1 fun p => { p with req := hinted hs own }

/-- PACEHINT: each hint is taken and forwarded once, told by origin and step. -/
def pacehintAct (m core : Nat) : Act := fun s ws =>
  let origin := BitVec.ofNat 16 (msgWord ws 3)
  let step := BitVec.ofNat 32 (msgWord ws 2)
  if s.lk.hintsSeen.contains (origin, step) then some (s, {})
  else
    let s1 := takeHint { s with lk := { s.lk with hintsSeen := s.lk.hintsSeen ++ [(origin, step)] } } origin step
      (BitVec.ofNat 4 (msgWord ws 1)) (bitAt (msgWord ws 1) 31)
    (forwardAll s1 m core (hdrSender (ws.headD 0)) ws).map fun s2 => (s2, {})

def pacehint (s : State) (m core : Nat) : State :=
  serve s m core (fun ws => msgType ws == 0x20) <|
    checkedAct linkSenders 3 (fun ws => bits (msgWord ws 1) 4 27 == 0 && bits (msgWord ws 3) 16 16 == 0) (pacehintAct m core)

def execPacehint (m : Fin 8) (core : Fin 4) (s : State) : Host.Outcome State Fault Refusal := .next (pacehint s m core)

/-! ## PLCSW (R377) -/

/-- The switch that a PLCSW message began has ended: the message goes on to the other ports that are in UP now, and is answered; a
switch that failed forwards nothing. -/
def plcswEnds (s : State) (m core n : Nat) (ws : List Word) : Option (State × Reply) :=
  let s1 := { s with cfg := { s.cfg with swMbox := none } }
  if s.loaded && s.cfg.plc.toNat == n then (forwardAll s1 m core (hdrSender (ws.headD 0)) ws).map fun s2 => (s2, {})
  else some (s1, refusedReply 0x030E)

/-- The switch begins; an error where the answer comes at once. -/
def plcswBegins (s : State) (m n x : Nat) : Except (State × Reply) State :=
  let refused := fun (code : Nat) (a : EvArgs) => Except.error (event s code a, refusedReply code)
  if s.loaded && s.cfg.plc.toNat == n && s.plc.missing.toNat == x then .error (s, {})
  else if !s.idle || !s.loaded || s.cfg.goal != .none then .error (s, { status := 3 })
  else if !plcCarried s n || (((s.cfg.image.map fun im => (im.plcs.getD n emptyPlc).missing.toNat) != some x)) then
    refused 0x030B { addr := s.cfg.loc.toNat }
  else
    match switchPlc s n false with
    | .ok s1 => .ok { s1 with cfg := { s1.cfg with swMbox := some m } }
    | .error (code, a) => refused code a

/-- The part of PLCSW that takes no answer yet: a switch begins, or the one under way goes on. -/
def plcswGoes (s : State) (m : Nat) (ws : List Word) : Option State :=
  if s.cfg.swMbox = some m then (if s.cfg.goal = .load then some s else none)
  else (plcswBegins s m (bits (msgWord ws 1) 0 8) (bits (msgWord ws 1) 16 16)).toOption

/-- The answer of PLCSW when one is due now. -/
def plcswAct (m core : Nat) : Act := fun s ws =>
  let n := bits (msgWord ws 1) 0 8
  if s.cfg.swMbox = some m then plcswEnds s m core n ws
  else
    match plcswBegins s m n (bits (msgWord ws 1) 16 16) with
    | .error a => some a
    | .ok _ => none

/-- Is the head message of mailbox m a new PLCSW that is well formed and permitted? -/
def plcswNew (s : State) (m : Nat) (mw : List MboxWord) : Bool :=
  let ws := mw.map fun w => w.w
  msgType ws == 0x22 && s.sec.bootState == 3 && (mw.all fun w => w.ok) && (8 :: linkSenders).contains (hdrSender (ws.headD 0)) &&
  hdrLen (ws.headD 0) == 1 && bits (msgWord ws 1) 8 8 == 0 && (s.mbox m).keptMseq != some (hdrSeq (ws.headD 0))

/-- PLCSW: the message stays at the head of its mailbox until the switch it began has ended, and is forwarded and answered then. -/
def plcsw (s : State) (m core : Nat) : State :=
  let goes := (headMessage s m).bind fun mw => if plcswNew s m mw then plcswGoes s m (mw.map fun w => w.w) else none
  match goes with
  | some s1 => s1
  | none =>
    serve s m core (fun ws => msgType ws == 0x22) <|
      checkedAct (8 :: linkSenders) 1 (fun ws => bits (msgWord ws 1) 8 8 == 0) (plcswAct m core)

def execPlcsw (m : Fin 8) (core : Fin 4) (s : State) : Host.Outcome State Fault Refusal := .next (plcsw s m core)

/-! ## TWIN messages for firmware (R382, R389) -/

/-- HEARTBEAT, and a TWIN message of a subtype that is not firmware's. -/
def heartbeatMsg (s : State) (m core : Nat) : State :=
  serve s m core (fun ws => msgType ws == 0x30 && msgSub ws != 7) <|
    checked [8] 1 (fun ws => msgWord ws 1 == 6 * 2 ^ 24) fun s _ => (s, {})

def execHeartbeat (m : Fin 8) (core : Fin 4) (s : State) : Host.Outcome State Fault Refusal := .next (heartbeatMsg s m core)

/-- TAKEOVER: the new lead's notice, with TAKESTEP. -/
def takeover (s : State) (m core : Nat) : State :=
  serve s m core (fun ws => msgType ws == 0x30 && msgSub ws == 7) <|
    checked [8] 3 (fun ws => msgWord ws 1 == 7 * 2 ^ 24) fun s _ => (s, {})

def execTakeover (m : Fin 8) (core : Fin 4) (s : State) : Host.Outcome State Fault Refusal := .next (takeover s m core)

/-! ## DBGCHAL (R429) -/

/-- The words of a challenge: a nonce, a free value, and SERIAL. -/
def challengeWords (v : BitVec 256) : List Word := (leWords 4 12 (natLe 32 v.toNat ++ natLe 16 Config.serial.toNat)).map (BitVec.ofNat 32)

/-- A new challenge; refused with STATUS 0x03 after three failures. -/
def challenge (s : State) : State × Reply :=
  if s.sec.locked then (s, { status := 3 })
  else
    let (v, s1) := s.drawFree
    ({ s1 with sec := { s1.sec with chal := some v, chalParts := [], chalNext := 0 } }, { words := challengeWords v })

/-- DBGCHAL_CHALLENGE, and a DBGCHAL message of an undefined subtype. -/
def dbgChallenge (s : State) (m core : Nat) : State :=
  serve s m core (fun ws => msgType ws == 0x50 && msgSub ws != 2) <|
    checked [0, 15] 1 (fun ws => msgWord ws 1 == 2 ^ 24) fun s _ => challenge s

def execDbgchalChallenge (m : Fin 8) (core : Fin 4) (s : State) : Host.Outcome State Fault Refusal := .next (dbgChallenge s m core)

/-- A part of the response: in order it is kept, the last one is verified; out of order the challenge expires. -/
def responsePart (s : State) (part : Nat) (bytes : List Byte) : State × Reply :=
  match s.sec.chal with
  | none => (s, { status := 3 })
  | some v =>
    if part ≠ s.sec.chalNext then
      ({ s with sec := { s.sec with chal := none, chalParts := [], chalNext := 0 } }, { status := 3 })
    else if part < 3 then ({ s with sec := { s.sec with chalParts := s.sec.chalParts ++ bytes, chalNext := part + 1 } }, {})
    else
      let (s1, ok) := openPort s v (s.sec.chalParts ++ bytes)
      (s1, if ok then {} else refusedReply 0x0C05)

/-- DBGCHAL_RESPONSE. -/
def dbgResponse (s : State) (m core : Nat) : State :=
  serve s m core (fun ws => msgType ws == 0x50 && msgSub ws == 2) <|
    checked [0, 15] 15 (fun ws => bits (msgWord ws 1) 2 22 == 0) fun s ws =>
      responsePart s (bits (msgWord ws 1) 0 2) ((ws.drop 2).flatMap fun w => natLe 4 w.toNat)

def execDbgchalResponse (m : Fin 8) (core : Fin 4) (s : State) : Host.Outcome State Fault Refusal := .next (dbgResponse s m core)

end Sys2Proof.Machine
end

