-- ==== Sys2Proof/Machine/Registers.lean ====
section
/-! DEFINITION. Register writes (R6-R10, R434-R438 and the register tables of every chapter): one function per block, with its locks
(R436); REGISTER_WRITE and the rows of single registers. -/

namespace Sys2Proof.Machine

/-! ## Fields -/

/-- A field of a written word. -/
def fieldOf (n : Nat) (v : Word) (lo : Nat) : BitVec n := BitVec.ofNat n (bits v.toNat lo n)

/-- The low or the high half of a 64-bit value replaced. -/
def putLo (x : BitVec 64) (v : Word) : BitVec 64 := BitVec.ofNat 64 (x.toNat / 2 ^ 32 * 2 ^ 32 + v.toNat)
def putHi (x : BitVec 64) (v : Word) : BitVec 64 := BitVec.ofNat 64 (x.toNat % 2 ^ 32 + v.toNat * 2 ^ 32)

/-- Act when bit i of the word is 1. -/
def onBit (v : Word) (i : Nat) (f : State → State) (s : State) : State := if bitAt v.toNat i then f s else s

/-- A COMMIT register. -/
def writeCommit (s : State) (g : CommitGroup) (v : Word) : State := onBit v 0 (fun s => commitWrite s g) s

/-! ## GLB -/

/-- GLB_CLRVIOL. -/
def glbClrviol (s : State) : State :=
  { s with
    glb := { s.glb with violAddr := 0, violSpace := 0, violReq := 0, violCode := 0, violCnt := 0 }
    latches := s.latches.filter fun p => p.1 % 2 ^ 26 != 0x14 }

def execGlbClrviol (s : State) : Host.Outcome State Fault Refusal := .next (rowWrite s 0x0000C glbClrviol)

def glbWrite (s : State) (o : Nat) (v : Word) : State :=
  match o with
  | 0x08 => { s with glb := { s.glb with scratch := v } }
  | 0x0C => onBit v 0 glbClrviol s
  | _ => s

/-! ## PACE (R66, R67) -/

/-- PACE_CLRSTAT: PACE_MISS, PACE_HOLD_COUNT, PACE_HOLD_NS and PACE_MAX_BUSY. -/
def paceClrstat (s : State) : State :=
  { s with pace := { s.pace with stepMiss := 0, lagMiss := 0, holdCount := 0, holdNs := 0, maxBusy := 0 } }

def execPaceClrstat (s : State) : Host.Outcome State Fault Refusal := .next (rowWrite s 0x10000 paceClrstat)

/-- SWHOLD_WRITE: hold source 6 raised or withdrawn. -/
def swholdWrite (s : State) (req : Bool) : State :=
  let s1 := { s with pace := { s.pace with swhold := req } }
  if req then requestHold s1 6 else withdrawHold s1 6

def execSwholdWrite (req : Bool) (s : State) : Host.Outcome State Fault Refusal := .next (rowWrite s 0x1004C fun s => swholdWrite s req)

/-- Change the shadows of the PACE group. -/
def paceShadow (s : State) (f : PaceTiming → PaceTiming) : State := { s with pace := { s.pace with shadow := f s.pace.shadow } }

/-- PACE_STOP as one value: EN and the stop step. -/
def stopWrite (s : State) (a : Agent) (off : Nat) (en : Bool) (step : BitVec 48) : State :=
  if !s.idle && (en != s.pace.stopEn || step != s.pace.stopStep) then locked s a off
  else { s with pace := { s.pace with stopEn := en, stopStep := step } }

def paceWrite (s : State) (a : Agent) (off : Nat) (v : Word) : State :=
  let p := s.pace
  match off % 0x10000 with
  | 0x000 =>
    if !s.idle && fieldOf 2 v 0 != p.mode then locked s a off
    else onBit v 8 paceClrstat { s with pace := { p with mode := fieldOf 2 v 0 } }
  | 0x020 | 0x820 => paceShadow s fun x => { x with period := fieldOf 24 v 0 }
  | 0x024 | 0x824 => paceShadow s fun x => { x with pmin := fieldOf 24 v 0 }
  | 0x028 | 0x828 => paceShadow s fun x => { x with window := fieldOf 24 v 0 }
  | 0x02C | 0x82C => paceShadow s fun x => { x with hallow := v }
  | 0x030 | 0x830 => paceShadow s fun x => { x with laglim := fieldOf 24 v 0 }
  | 0x03C => writeCommit s .pace v
  | 0x040 => { s with pace := { p with wdog := fieldOf 8 v 0 } }
  | 0x044 => { s with pace := { p with holdlim := fieldOf 24 v 0 } }
  | 0x04C => swholdWrite s (bitAt v.toNat 0)
  | 0x070 => { s with pace := { p with tick := fieldOf 16 v 0 } }
  | 0x074 => stopWrite s a off p.stopEn (BitVec.ofNat 48 (p.stopStep.toNat / 2 ^ 32 * 2 ^ 32 + v.toNat))
  | 0x078 => stopWrite s a off (bitAt v.toNat 31) (BitVec.ofNat 48 (p.stopStep.toNat % 2 ^ 32 + bits v.toNat 0 16 * 2 ^ 32))
  | _ => s

/-! ## IC and mailboxes -/

def sourceWrite (s : State) (k o : Nat) (v : Word) : State :=
  let x := s.source k
  match o with
  | 0x0 => senseChange (s.putSource k { x with mpen := fieldOf 4 v 8, prio := fieldOf 4 v 4 }) k (fieldOf 2 v 0)
  | 0x4 => s.putSource k { x with vec := putLo x.vec v }
  | 0x8 => s.putSource k { x with vec := putHi x.vec v }
  | _ => s

/-- The shadow of COAL. -/
def coalWrite (s : State) (t : Nat) (v : Word) : State :=
  s.setTarget t { s.target t with shTime := fieldOf 16 v 16, shCnt := fieldOf 8 v 0 }

/-- Target t as a Fin, 0 beyond 67. -/
def tgtFin (t : Nat) : Fin 68 := if h : t < 68 then ⟨t, h⟩ else 0

def targetWrite (s : State) (a : Agent) (t o : Nat) (v : Word) : State :=
  match o with
  | 0x0 => coalWrite s t v
  | 0x4 => writeCommit s (.tgt (tgtFin t)) v
  | 0xC => eoi s a t (bitAt v.toNat 0)
  | _ => s

def icWrite (s : State) (a : Agent) (o : Nat) (v : Word) : State :=
  if 0x10 ≤ o ∧ o < 0x20 then pendWrite s ((o - 0x10) / 4) v
  else if 0x20 ≤ o ∧ o < 0x30 then maskWrite s (isMp a) ((o - 0x20) / 4) v
  else if o = 0x40 then takeCounter s a (bits v.toNat 0 7)
  else if 0x1000 ≤ o ∧ o < 0x1800 then sourceWrite s ((o - 0x1000) / 16) (o % 16) v
  else if 0x2000 ≤ o ∧ o < 0x2440 then targetWrite s a ((o - 0x2000) / 16) (o % 16) v
  else if 0x2800 ≤ o ∧ o < 0x2C40 then coalWrite s ((o - 0x2800) / 16) v
  else s

/-- A mailbox register: PEER and DEST only in firmware's local view (R344, R348). -/
def mboxWrite (s : State) (a : Agent) (o : Nat) (v : Word) : State :=
  let m := o / 0x40
  match o % 0x40 with
  | 0x00 => mailboxTx s a m v
  | 0x08 => mailboxPop s a m (bits v.toNat 0 5)
  | 0x10 => if isMp a then peerWrite s m (fieldOf 16 v 0) else s
  | 0x18 => if isMp a then s.setMbox m { s.mbox m with dest := fieldOf 4 v 0 } else s
  | _ => s

/-! ## HQ (R326, R327) -/

/-- A write of a ring's CTRL. -/
def ringCtrl (s : State) (a : Agent) (off n : Nat) (v : Word) : State :=
  let r := s.ring n
  let en := bitAt v.toNat 31
  let szl := fieldOf 5 v 0
  if r.en then (if en || szl != r.szl || ringLocked s n then locked s a off else ringDisable s n)
  else if en then ringEnable s n szl
  else s.setRing n { r with szl := szl }

/-- A write of a ring's BASE: locked while the ring is enabled. -/
def ringBase (s : State) (a : Agent) (off n : Nat) (b : BitVec 64) : State :=
  if (s.ring n).en then locked s a off else s.setRing n { s.ring n with base := b }

def ringWrite (s : State) (a : Agent) (off n o : Nat) (v : Word) : State :=
  match o with
  | 0x00 => ringCtrl s a off n v
  | 0x04 => ringBase s a off n (putLo (s.ring n).base (v &&& 0xFFFFFFC0))
  | 0x08 => ringBase s a off n (putHi (s.ring n).base v)
  | 0x0C => doorbell s n v
  | _ => s

def hqWrite (s : State) (a : Agent) (off : Nat) (v : Word) : State :=
  match off % 0x10000 with
  | 0x00 => onBit v 0 hqClrstat s
  | 0x08 => windowWrite s (fieldOf 6 v 0)
  | 0x0C => { s with hq := { s.hq with wbAddr := putLo s.hq.wbAddr (v &&& 0xFFFFFFC0), wbEn := bitAt v.toNat 0 } }
  | 0x10 => { s with hq := { s.hq with wbAddr := putHi s.hq.wbAddr v } }
  | o =>
    match blockAtOff o 0x100 0x20 26 with
    | some (n, r) => ringWrite s a off n r v
    | none => s

/-! ## SE, MC and SP -/

/-- The offset of engine k's RRP. -/
def rrpOff (k : Nat) : Nat := 0x60124 + 0x40 * k

/-- RRP_WRITE (R297). -/
def rrpWrite (s : State) (a : Agent) (k : Nat) (v : Word) : State :=
  let e := s.engine k
  if rrpOk e v then s.setEngine k { e with rrp := v } else locked s a (rrpOff k)

def execRrpWrite (k : Fin 16) (v : Word) (a : Agent) (s : State) : Host.Outcome State Fault Refusal :=
  .next (rowAccess s a (rrpOff k) true fun s => rrpWrite s a k v)

/-- Engine k as a Fin. -/
def engFin (k : Nat) : Fin 16 := if h : k < 16 then ⟨k, h⟩ else 0

def engineWrite (s : State) (a : Agent) (k o : Nat) (v : Word) : State :=
  let e := s.engine k
  match o with
  | 0x10 | 0x810 => s.setEngine k { e with shRbase := BitVec.ofNat 36 (e.shRbase.toNat / 2 ^ 32 * 2 ^ 32 + v.toNat / 4096 * 4096) }
  | 0x14 | 0x814 => s.setEngine k { e with shRbase := BitVec.ofNat 36 (e.shRbase.toNat % 2 ^ 32 + bits v.toNat 0 4 * 2 ^ 32) }
  | 0x18 | 0x818 => s.setEngine k { e with shFull := bitAt v.toNat 8, shSzl := fieldOf 5 v 0 }
  | 0x1C => writeCommit s (.ring (engFin k)) v
  | 0x24 => rrpWrite s a k v
  | _ => s

/-- The shadow of SE_SPLIT. -/
def splitWrite (s : State) (v : Word) : State :=
  { s with se := { s.se with shRd := fieldOf 6 v 16, shWr := fieldOf 6 v 8, shRem := fieldOf 6 v 0 } }

def seWrite (s : State) (a : Agent) (o : Nat) (v : Word) : State :=
  match o with
  | 0x000 => onBit v 0 seClrstat { s with se := { s.se with warm := fieldOf 8 v 8, force := bitAt v.toNat 1 } }
  | 0x008 | 0x808 => splitWrite s v
  | 0x00C => writeCommit s .se v
  | _ =>
    match blockAtOff o 0x100 0x40 16 with
    | some (k, r) => engineWrite s a k r v
    | none =>
      match blockAtOff o 0x900 0x40 16 with
      | some (k, r) => engineWrite s a k (0x800 + r) v
      | none => s

def mcWrite (s : State) (o : Nat) (v : Word) : State := if o = 0x0C then onBit v 0 mcClrcnt s else s

/-- The value that SP_k_CFG reads. -/
def spCfgNow (s : State) (k : Nat) : Word := (sportReg (s.sport k) 0).getD 0

/-- SP_k_CFG: locked while PACE is not IDLE (R301). -/
def spCfgWrite (s : State) (a : Agent) (off k : Nat) (v : Word) : State :=
  let w := v &&& 0xFFFF0F7F
  if s.idle then spEnable s k w (s.sport k).supOk else if w = spCfgNow s k then s else locked s a off

/-- SP_k_FMT. -/
def spFmtWrite (s : State) (k : Nat) (v : Word) : State :=
  let p := s.sport k
  s.setSport k { p with gapmax := fieldOf 8 v 24, subst := bitAt v.toNat 16, v1 := { p.v1 with pixfmt := fieldOf 8 v 8 }
                        v0 := { p.v0 with pixfmt := fieldOf 8 v 0 } }

/-- A view's watermark shadows. -/
def SpView.marks (x : SpView) (v : Word) : SpView := { x with shLwm := fieldOf 16 v 16, shHwm := fieldOf 16 v 0 }

/-- Port k as a Fin. -/
def spFin (k : Nat) : Fin 8 := if h : k < 8 then ⟨k, h⟩ else 0

def sportWrite (s : State) (a : Agent) (off k o : Nat) (v : Word) : State :=
  let p := s.sport k
  match o with
  | 0x00 => spCfgWrite s a off k v
  | 0x04 => spFmtWrite s k v
  | 0x08 | 0x808 => s.setSport k { p with v0 := p.v0.marks v }
  | 0x0C | 0x80C => s.setSport k { p with v1 := p.v1.marks v }
  | 0x10 => writeCommit s (.sp (spFin k)) v
  | _ => s

def spWrite (s : State) (a : Agent) (off : Nat) (v : Word) : State :=
  let o := off % 0x10000
  if o = 0 then onBit v 0 spClrstat s
  else
    match blockAtOff o 0x100 0x80 8 with
    | some (k, r) => sportWrite s a off k r v
    | none =>
      match blockAtOff o 0x900 0x80 8 with
      | some (k, r) => sportWrite s a off k (0x800 + r) v
      | none => s

/-! ## LK, TW and FLT -/

/-- LK_PORT CFG: locked while PACE is not IDLE. -/
def linkCfg (s : State) (a : Agent) (off p : Nat) (v : Word) : State :=
  let x := s.port p
  let en := bitAt v.toNat 0
  let twin := bitAt v.toNat 2
  if !s.idle && (en != x.en || twin != x.twin || bitAt v.toNat 1) then locked s a off
  else
    let s1 := twinCheckPort (s.setPort p { x with twin := twin })
    onBit v 1 (fun s => retrain s p) (if en = x.en then s1 else portEnable s1 p en)

def lkWrite (s : State) (a : Agent) (off : Nat) (v : Word) : State :=
  match off % 0x10000 with
  | 0x00 => onBit v 0 lkClrstat { s with lk := { s.lk with nakmax := fieldOf 8 v 8 } }
  | 0x10 => { s with lk := { s.lk with ttol := fieldOf 16 v 0 } }
  | o =>
    match blockAtOff o 0x100 0x80 4 with
    | some (p, 0) => linkCfg s a off p v
    | _ => s

/-- TW_CFG: locked while PACE is not IDLE (R379). -/
def twWrite (s : State) (a : Agent) (off : Nat) (v : Word) : State :=
  if off % 0x10000 = 0 then
    let w := v &&& 0x00FFF303
    if s.idle then twEnable s w else if some w = twReg s a 0 then s else locked s a off
  else s

/-- FLT_CTRL: CLEAR is locked while a dump is written. -/
def fltCtrl (s : State) (a : Agent) (off : Nat) (v : Word) : State :=
  if bitAt v.toNat 0 && s.flt.dumpState == .writing then locked s a off
  else onBit v 0 fltClear { s with flt := { s.flt with dumpall := bitAt v.toNat 1 } }

def fltWrite (s : State) (a : Agent) (off : Nat) (v : Word) : State :=
  match off % 0x10000 with
  | 0x00 => fltCtrl s a off v
  | 0x08 => fltIdx s a (fieldOf 9 v 0)
  | _ => s

/-! ## PWR and SEC -/

def pwrWrite (s : State) (o : Nat) (v : Word) : State :=
  let p := s.pwr
  match o with
  | 0x000 => onBit v 0 pwrClrstat { s with pwr := { p with autofab := bitAt v.toNat 1 } }
  | 0x008 => vsetWrite s (bitAt v.toNat 8) (fieldOf 4 v 0)
  | 0x010 | 0x810 => { s with pwr := { p with shHyst := fieldOf 8 v 8, shCap := fieldOf 8 v 0 } }
  | 0x014 | 0x814 => { s with pwr := { p with shFloor := fieldOf 4 v 0 } }
  | 0x01C => writeCommit s .pwr v
  | 0x030 => clockStep s (fieldOf 2 v 8) (fieldOf 2 v 0)
  | 0x040 => { s with pwr := { p with thys := fieldOf 4 v 16, tthr := fieldOf 8 v 0 } }
  | 0x050 => { s with pwr := { p with autoret := bitAt v.toNat 31, retdly := fieldOf 8 v 16, settle := fieldOf 16 v 0 } }
  | 0x058 => onBit v 0 sela s
  | 0x060 => domainRequest s (fieldOf 30 v 0)
  | _ => s

/-- SEC_RSTCAUSE: each 1 clears its bit. -/
def clearCauses (x : Sec) (v : Word) : Sec :=
  { x with
    causePwr := x.causePwr && !bitAt v.toNat 0, causePor := x.causePor && !bitAt v.toNat 1, causePin := x.causePin && !bitAt v.toNat 2
    causeSoft := x.causeSoft && !bitAt v.toNat 3, causeWdog := x.causeWdog && !bitAt v.toNat 4
    causeDbg := x.causeDbg && !bitAt v.toNat 5 }

def secWrite (s : State) (a : Agent) (off : Nat) (v : Word) : State :=
  let o := off % 0x10000
  if 0x200 ≤ o ∧ o < 0x340 then
    (if s.sec.busy then locked s a off else { s with sec := { s.sec with reqbuf := mset 0 s.sec.reqbuf ((o - 0x200) / 4) v } })
  else
    match o with
    | 0x18 => onBit v 8 debugClose s
    | 0x1C => secRst s (fieldOf 16 v 16) (fieldOf 2 v 0)
    | 0x20 => { s with sec := clearCauses s.sec v }
    | 0x60 => if bitAt v.toNat 0 then (if s.sec.busy then locked s a off else runRequest s) else s
    | _ => s

/-! ## NCE and PP -/

def nceWrite (s : State) (o : Nat) (v : Word) : State :=
  match o with
  | 0x000 => onBit v 0 nceClrstat s
  | 0x010 | 0x810 => { s with nce := { s.nce with shFfbank := fieldOf 16 v 0 } }
  | 0x014 | 0x814 => { s with nce := { s.nce with shFfen := fieldOf 16 v 0 } }
  | 0x01C => writeCommit s .nce v
  | 0x020 => { s with nce := { s.nce with ffView := fieldOf 4 v 16, ffCol := fieldOf 14 v 0 } }
  | 0x024 => ffdataAccess s (some v)
  | _ => s

def ppWrite (s : State) (o : Nat) (v : Word) : State := if o = 0 then onBit v 0 ppClrstat s else s

/-! ## REGISTER_WRITE -/

/-- A write to a mapped register below the FAB window; RO registers discard it (R7). -/
def blockWrite (s : State) (a : Agent) (off : Nat) (v : Word) : State :=
  let o := off % 0x10000
  match off / 0x10000 with
  | 0x0 => glbWrite s o v
  | 0x1 => paceWrite s a off v
  | 0x2 => icWrite s a o v
  | 0x3 => mboxWrite s a o v
  | 0x4 => hqWrite s a off v
  | 0x6 => seWrite s a o v
  | 0x7 => mcWrite s o v
  | 0x8 => spWrite s a off v
  | 0x9 => lkWrite s a off v
  | 0xA => twWrite s a off v
  | 0xB => pwrWrite s o v
  | 0xC => secWrite s a off v
  | 0xD => nceWrite s o v
  | 0xE => ppWrite s o v
  | 0xF => fltWrite s a off v
  | _ => s

/-- A write to an offset; none where it is unmapped. -/
def writeReg (s : State) (a : Agent) (off : Nat) (v : Word) : Option State :=
  if 0x100000 ≤ off then
    (if off < 0x200000 then bedWrite s a ((off - 0x100000) / 0x1000) (off % 0x1000) v else none)
  else if (regValue s a off).isNone then none
  else some (blockWrite s a off v)

/-- REGISTER_WRITE: any write to BAR0 or to firmware's local view, answered by R434 to R438, or to BAR4 or configuration space. -/
def registerWrite (s : State) (x : RegAccess) : State :=
  if x.space != .bar0 then pciWrite s x
  else if x.poisoned && isHost x.agent then poisonedWrite s x.offset
  else if !agentReaches s x.agent x.offset || accessEmpty x then s
  else if !accessValid x then accessViolates s x 0x0101 true
  else if !rowOpen s x.offset true then accessViolates s x 0x0102 true
  else
    match writeReg s x.agent x.offset x.data with
    | some s1 => s1
    | none => accessViolates s x 0x0102 true

def execRegisterWrite (x : RegAccess) (s : State) : Host.Outcome State Fault Refusal :=
  if (Instr.registerWrite x).wf then .next (registerWrite s x) else .fault .illFormed

end Sys2Proof.Machine
end

