-- ==== Sys2Proof/Machine/Dispatch.lean ====
section
/-! DEFINITION. One arm per command: a direct call of its meaning. -/

namespace Sys2Proof.Machine

def exec (i : Instr) (s : State) : Host.Outcome State Fault Refusal :=
  match i with
  | .slotTransfer m => Sys2Proof.Machine.execSlotTransfer m s
  | .nop t => Sys2Proof.Machine.execNop t s
  | .mac t => Sys2Proof.Machine.execMac t s
  | .seed t => Sys2Proof.Machine.execSeed t s
  | .drain t => Sys2Proof.Machine.execDrain t s
  | .ldc t => Sys2Proof.Machine.execLdc t s
  | .lds t => Sys2Proof.Machine.execLds t s
  | .kctl t => Sys2Proof.Machine.execKctl t s
  | .rot t => Sys2Proof.Machine.execRot t s
  | .kvq t => Sys2Proof.Machine.execKvq t s
  | .dsc t => Sys2Proof.Machine.execDsc t s
  | .deq t => Sys2Proof.Machine.execDeq t s
  | .sco t => Sys2Proof.Machine.execSco t s
  | .qnt t => Sys2Proof.Machine.execQnt t s
  | .tag t => Sys2Proof.Machine.execTag t s
  | .hardPush t ip => Sys2Proof.Machine.execHardPush t ip s
  | .hardPop t op => Sys2Proof.Machine.execHardPop t op s
  | .bankDeferredAccess t => Sys2Proof.Machine.execBankDeferredAccess t s
  | .push t => Sys2Proof.Machine.execPush t s
  | .pop t => Sys2Proof.Machine.execPop t s
  | .run t => Sys2Proof.Machine.execRun t s
  | .mark t => Sys2Proof.Machine.execMark t s
  | .unmark t => Sys2Proof.Machine.execUnmark t s
  | .rewind t => Sys2Proof.Machine.execRewind t s
  | .skip t => Sys2Proof.Machine.execSkip t s
  | .release t => Sys2Proof.Machine.execRelease t s
  | .qcnt t => Sys2Proof.Machine.execQcnt t s
  | .ldg t => Sys2Proof.Machine.execLdg t s
  | .funIdn t => Sys2Proof.Machine.execFunIdn t s
  | .funExp t => Sys2Proof.Machine.execFunExp t s
  | .funRcp t => Sys2Proof.Machine.execFunRcp t s
  | .funRsq t => Sys2Proof.Machine.execFunRsq t s
  | .funSig t => Sys2Proof.Machine.execFunSig t s
  | .funTanh t => Sys2Proof.Machine.execFunTanh t s
  | .funGelu t => Sys2Proof.Machine.execFunGelu t s
  | .binAdd t => Sys2Proof.Machine.execBinAdd t s
  | .binSub t => Sys2Proof.Machine.execBinSub t s
  | .binMul t => Sys2Proof.Machine.execBinMul t s
  | .binMax t => Sys2Proof.Machine.execBinMax t s
  | .binMin t => Sys2Proof.Machine.execBinMin t s
  | .binCgt t => Sys2Proof.Machine.execBinCgt t s
  | .binCge t => Sys2Proof.Machine.execBinCge t s
  | .binCeq t => Sys2Proof.Machine.execBinCeq t s
  | .vecSmax t => Sys2Proof.Machine.execVecSmax t s
  | .vecLnrm t => Sys2Proof.Machine.execVecLnrm t s
  | .vecArgmax t => Sys2Proof.Machine.execVecArgmax t s
  | .vecStat t => Sys2Proof.Machine.execVecStat t s
  | .wacc t => Sys2Proof.Machine.execWacc t s
  | .poolMax t => Sys2Proof.Machine.execPoolMax t s
  | .poolAverage t => Sys2Proof.Machine.execPoolAverage t s
  | .bil t => Sys2Proof.Machine.execBil t s
  | .gate t => Sys2Proof.Machine.execGate t s
  | .bubg t => Sys2Proof.Machine.execBubg t s
  | .switch t => Sys2Proof.Machine.execSwitch t s
  | .select t => Sys2Proof.Machine.execSelect t s
  | .cmp t => Sys2Proof.Machine.execCmp t s
  | .setf t => Sys2Proof.Machine.execSetf t s
  | .loop t => Sys2Proof.Machine.execLoop t s
  | .br t => Sys2Proof.Machine.execBr t s
  | .bedReport b => Sys2Proof.Machine.execBedReport b s
  | .stepRelease => Sys2Proof.Machine.execStepRelease s
  | .holdEntry src => Sys2Proof.Machine.execHoldEntry src s
  | .holdExit src => Sys2Proof.Machine.execHoldExit src s
  | .holdLimitExceeded => Sys2Proof.Machine.execHoldLimitExceeded s
  | .stallFault => Sys2Proof.Machine.execStallFault s
  | .abortReset => Sys2Proof.Machine.execAbortReset s
  | .abortCleared => Sys2Proof.Machine.execAbortCleared s
  | .deviceTimeIncrement n => Sys2Proof.Machine.execDeviceTimeIncrement n s
  | .tileSwitch x => Sys2Proof.Machine.execTileSwitch x s
  | .frontComplete => Sys2Proof.Machine.execFrontComplete s
  | .frontLimitExceeded => Sys2Proof.Machine.execFrontLimitExceeded s
  | .releaseStage => Sys2Proof.Machine.execReleaseStage s
  | .releaseStageTimeout => Sys2Proof.Machine.execReleaseStageTimeout s
  | .commitWrite g a => Sys2Proof.Machine.execCommitWrite g a s
  | .commitApply g => Sys2Proof.Machine.execCommitApply g s
  | .registerWrite acc => Sys2Proof.Machine.execRegisterWrite acc s
  | .loReadLatch acc => Sys2Proof.Machine.execLoReadLatch acc s
  | .paceClrstat => Sys2Proof.Machine.execPaceClrstat s
  | .swholdWrite req => Sys2Proof.Machine.execSwholdWrite req s
  | .nceLineIntake => Sys2Proof.Machine.execNceLineIntake s
  | .cropRequest => Sys2Proof.Machine.execCropRequest s
  | .cropResample k => Sys2Proof.Machine.execCropResample k s
  | .ffdataAccess a wr => Sys2Proof.Machine.execFfdataAccess a wr s
  | .nceClrstat => Sys2Proof.Machine.execNceClrstat s
  | .ppStep => Sys2Proof.Machine.execPpStep s
  | .recordWrite => Sys2Proof.Machine.execRecordWrite s
  | .ppClrstat => Sys2Proof.Machine.execPpClrstat s
  | .commandFetch r => Sys2Proof.Machine.execCommandFetch r s
  | .nopCommand => Sys2Proof.Machine.execNopCommand s
  | .imgLoad r => Sys2Proof.Machine.execImgLoad r s
  | .taskStart => Sys2Proof.Machine.execTaskStart s
  | .resume => Sys2Proof.Machine.execResume s
  | .rake => Sys2Proof.Machine.execRake s
  | .abort => Sys2Proof.Machine.execAbort s
  | .plcSwitch => Sys2Proof.Machine.execPlcSwitch s
  | .epoch => Sys2Proof.Machine.execEpoch s
  | .epochFollowTimeout => Sys2Proof.Machine.execEpochFollowTimeout s
  | .attest => Sys2Proof.Machine.execAttest s
  | .doorbell ring v => Sys2Proof.Machine.execDoorbell ring v s
  | .ringEnable ring szl => Sys2Proof.Machine.execRingEnable ring szl s
  | .ringDisable ring => Sys2Proof.Machine.execRingDisable ring s
  | .hqClrstat => Sys2Proof.Machine.execHqClrstat s
  | .windowBaseWrite g => Sys2Proof.Machine.execWindowBaseWrite g s
  | .writeBack => Sys2Proof.Machine.execWriteBack s
  | .eventRecordWrite => Sys2Proof.Machine.execEventRecordWrite s
  | .hostStreamFetch c r => Sys2Proof.Machine.execHostStreamFetch c r s
  | .hostStreamWrite c => Sys2Proof.Machine.execHostStreamWrite c s
  | .bar2Read off len health rid => Sys2Proof.Machine.execBar2Read off len health rid s
  | .bar2Write off bytes poisoned rid => Sys2Proof.Machine.execBar2Write off bytes poisoned rid s
  | .funcReset c => Sys2Proof.Machine.execFuncReset c s
  | .linkDown => Sys2Proof.Machine.execLinkDown s
  | .busMasterEnableCleared => Sys2Proof.Machine.execBusMasterEnableCleared s
  | .sourceLineChange k level => Sys2Proof.Machine.execSourceLineChange k level s
  | .interruptSend t => Sys2Proof.Machine.execInterruptSend t s
  | .pendWrite k v => Sys2Proof.Machine.execPendWrite k v s
  | .maskWrite mpSide k v => Sys2Proof.Machine.execMaskWrite mpSide k v s
  | .senseChange k sense => Sys2Proof.Machine.execSenseChange k sense s
  | .take a k => Sys2Proof.Machine.execTake a k s
  | .eoi a t v => Sys2Proof.Machine.execEoi a t v s
  | .mailboxTxWrite a m w => Sys2Proof.Machine.execMailboxTxWrite a m w s
  | .mailboxPop a m n => Sys2Proof.Machine.execMailboxPop a m n s
  | .peerWrite m v => Sys2Proof.Machine.execPeerWrite m v s
  | .messageForward m => Sys2Proof.Machine.execMessageForward m s
  | .ping m core => Sys2Proof.Machine.execPing m core s
  | .version m core => Sys2Proof.Machine.execVersion m core s
  | .faultlog m core => Sys2Proof.Machine.execFaultlog m core s
  | .dump m core => Sys2Proof.Machine.execDump m core s
  | .pacehint m core => Sys2Proof.Machine.execPacehint m core s
  | .plcsw m core => Sys2Proof.Machine.execPlcsw m core s
  | .heartbeat m core => Sys2Proof.Machine.execHeartbeat m core s
  | .takeover m core => Sys2Proof.Machine.execTakeover m core s
  | .dbgchalChallenge m core => Sys2Proof.Machine.execDbgchalChallenge m core s
  | .dbgchalResponse m core => Sys2Proof.Machine.execDbgchalResponse m core s
  | .tokenFrameSend p vc => Sys2Proof.Machine.execTokenFrameSend p vc s
  | .tokenFrame p h vc toks => Sys2Proof.Machine.execTokenFrame p h vc toks s
  | .nak p h => Sys2Proof.Machine.execNak p h s
  | .idleFrame p h => Sys2Proof.Machine.execIdleFrame p h s
  | .hello p h r probe => Sys2Proof.Machine.execHello p h r probe s
  | .helloSend p => Sys2Proof.Machine.execHelloSend p s
  | .sync p h peer time => Sys2Proof.Machine.execSync p h peer time s
  | .syncSend p => Sys2Proof.Machine.execSyncSend p s
  | .msgFrame p h words => Sys2Proof.Machine.execMsgFrame p h words s
  | .abortFrame p h origin cause step => Sys2Proof.Machine.execAbortFrame p h origin cause step s
  | .replayTimeout p => Sys2Proof.Machine.execReplayTimeout p s
  | .linkFail p c => Sys2Proof.Machine.execLinkFail p c s
  | .trainComplete p => Sys2Proof.Machine.execTrainComplete p s
  | .trainTimeout p => Sys2Proof.Machine.execTrainTimeout p s
  | .failedRetry p => Sys2Proof.Machine.execFailedRetry p s
  | .portEnable p en => Sys2Proof.Machine.execPortEnable p en s
  | .retrain p => Sys2Proof.Machine.execRetrain p s
  | .lkClrstat => Sys2Proof.Machine.execLkClrstat s
  | .twEnable v => Sys2Proof.Machine.execTwEnable v s
  | .role => Sys2Proof.Machine.execRole s
  | .ready => Sys2Proof.Machine.execReady s
  | .start => Sys2Proof.Machine.execStart s
  | .pairStartAccept => Sys2Proof.Machine.execPairStartAccept s
  | .pairStartTimeout => Sys2Proof.Machine.execPairStartTimeout s
  | .digest => Sys2Proof.Machine.execDigest s
  | .first => Sys2Proof.Machine.execFirst s
  | .checkEntryDue => Sys2Proof.Machine.execCheckEntryDue s
  | .heartbeatMiss => Sys2Proof.Machine.execHeartbeatMiss s
  | .faultDump ok => Sys2Proof.Machine.execFaultDump ok s
  | .fltIdxWrite a ix => Sys2Proof.Machine.execFltIdxWrite a ix s
  | .fltClear => Sys2Proof.Machine.execFltClear s
  | .capGovernor p => Sys2Proof.Machine.execCapGovernor p s
  | .thermalSensorRead ix deg quarters => Sys2Proof.Machine.execThermalSensorRead ix deg quarters s
  | .thermalLimitStep => Sys2Proof.Machine.execThermalLimitStep s
  | .voltageWrite => Sys2Proof.Machine.execVoltageWrite s
  | .voltageWriteAck ok => Sys2Proof.Machine.execVoltageWriteAck ok s
  | .avsRetry => Sys2Proof.Machine.execAvsRetry s
  | .vfabReadback mv => Sys2Proof.Machine.execVfabReadback mv s
  | .vsetWrite keep req => Sys2Proof.Machine.execVsetWrite keep req s
  | .clockStepChange mem mgmt => Sys2Proof.Machine.execClockStepChange mem mgmt s
  | .rateChange => Sys2Proof.Machine.execRateChange s
  | .domainRequest v => Sys2Proof.Machine.execDomainRequest v s
  | .domainSwitchComplete d => Sys2Proof.Machine.execDomainSwitchComplete d s
  | .autofabSwitchOff => Sys2Proof.Machine.execAutofabSwitchOff s
  | .pwrClrstat => Sys2Proof.Machine.execPwrClrstat s
  | .supplyOkChange pathB level => Sys2Proof.Machine.execSupplyOkChange pathB level s
  | .changeoverSettle => Sys2Proof.Machine.execChangeoverSettle s
  | .autoReturn => Sys2Proof.Machine.execAutoReturn s
  | .sela => Sys2Proof.Machine.execSela s
  | .aonSwitch toB => Sys2Proof.Machine.execAonSwitch toB s
  | .bankSupplyOutOfBand k => Sys2Proof.Machine.execBankSupplyOutOfBand k s
  | .railOutOfRange r reading => Sys2Proof.Machine.execRailOutOfRange r reading s
  | .sysClk25Loss => Sys2Proof.Machine.execSysClk25Loss s
  | .porReset c => Sys2Proof.Machine.execPorReset c s
  | .sysReset c => Sys2Proof.Machine.execSysReset c s
  | .secRstWrite key level => Sys2Proof.Machine.execSecRstWrite key level s
  | .managementWatchdogExpiry => Sys2Proof.Machine.execManagementWatchdogExpiry s
  | .bootRomStart => Sys2Proof.Machine.execBootRomStart s
  | .firmwareVerify f => Sys2Proof.Machine.execFirmwareVerify f s
  | .firmwareReady tr => Sys2Proof.Machine.execFirmwareReady tr s
  | .channelLoss chok => Sys2Proof.Machine.execChannelLoss chok s
  | .nonceDraw a => Sys2Proof.Machine.execNonceDraw a s
  | .prog => Sys2Proof.Machine.execProg s
  | .revoke => Sys2Proof.Machine.execRevoke s
  | .advImg => Sys2Proof.Machine.execAdvImg s
  | .advFw => Sys2Proof.Machine.execAdvFw s
  | .burnComplete ok bits => Sys2Proof.Machine.execBurnComplete ok bits s
  | .fuseSelfCheck flips => Sys2Proof.Machine.execFuseSelfCheck flips s
  | .debugClose => Sys2Proof.Machine.execDebugClose s
  | .debugHalt halt => Sys2Proof.Machine.execDebugHalt halt s
  | .glbClrviol => Sys2Proof.Machine.execGlbClrviol s
  | .qrecSample a b => Sys2Proof.Machine.execQrecSample a b s
  | .bedClr b m => Sys2Proof.Machine.execBedClr b m s
  | .bedSatclr a b => Sys2Proof.Machine.execBedSatclr a b s
  | .lineSync k => Sys2Proof.Machine.execLineSync k s
  | .lineComplete k lanes => Sys2Proof.Machine.execLineComplete k lanes s
  | .clockLost k => Sys2Proof.Machine.execClockLost k s
  | .spEnable k cfg supplyOk => Sys2Proof.Machine.execSpEnable k cfg supplyOk s
  | .spClrstat => Sys2Proof.Machine.execSpClrstat s
  | .burstIssue remote => Sys2Proof.Machine.execBurstIssue remote s
  | .burstComplete k health addr => Sys2Proof.Machine.execBurstComplete k health addr s
  | .engineTokenReceive k => Sys2Proof.Machine.execEngineTokenReceive k s
  | .rrpWrite k v a => Sys2Proof.Machine.execRrpWrite k v a s
  | .seClrstat => Sys2Proof.Machine.execSeClrstat s
  | .mcClrcnt => Sys2Proof.Machine.execMcClrcnt s
  | .readTemperature1 => Sys2Proof.Machine.execReadTemperature1 s
  | .readPout => Sys2Proof.Machine.execReadPout s
  | .statusByte => Sys2Proof.Machine.execStatusByte s
  | .sensorClockReturn k => Sys2Proof.Machine.execSensorClockReturn k s
  | .pcieLinkUp => Sys2Proof.Machine.execPcieLinkUp s
  | .busMasterEnableSet => Sys2Proof.Machine.execBusMasterEnableSet s
  | .msixVectorUnmask v => Sys2Proof.Machine.execMsixVectorUnmask v s
  | .memoryDomainsOffLimit => Sys2Proof.Machine.execMemoryDomainsOffLimit s

end Sys2Proof.Machine
end

