-- ==== Sys2Proof/Certificates/Slice0/Obligations.lean ====
section
/-! DEFINITION. The statements about the block, one def Obligations.<Name> : Prop each, and the predicates they share. -/

namespace Sys2Proof.Claims

open Sys2Proof Sys2Proof.Machine

/-! ## What statements about a core's firing share (02) -/

/-- The tokens on which the core of tile t fires. -/
def firing (s : State) (t : Fin 1024) : List (Nat × Token) := heads (s.tile t) (s.tile t).instr

/-- The core of tile t can fire its current instruction (R29), which has this opcode; no word it reads is damaged (R43), no store
entry has wrong parity, and its tokens pass the checks of R20, R23, MRK and BUBM. -/
structure Stands (s : State) (t : Fin 1024) (k : Kind) (opc : Nat) : Prop where
  canFire : canFire s t k opc = true
  words : ∀ i, mget 0 (s.tile t).health i = 0
  parity : (s.tile t).badParity = []
  checks : fabricFaults (s.tile t) (s.tile t).instr (firing s t) = []

/-- The firing meets R46: its tokens carry markers exactly when it completes the quota. -/
def quotaMet (s : State) (t : Fin 1024) : Prop := quotaFaults (s.tile t) (firing s t) = []

/-- Where the firing completes the quota, it closes, or no output drives a route (R103, R132, R189). -/
def closesOk (s : State) (t : Fin 1024) (closes : Bool) : Prop :=
  completing (s.tile t) = true → opDrives (s.tile t) 0 = true ∨ opDrives (s.tile t) 1 = true → closes = true

/-- The index, the repeat and the halt after a firing (Table TRL-9). -/
def seqNext (pc : BitVec 8) (rep : Nat) (w : BitVec 64) (m : Marker) : BitVec 8 × Nat × Bool :=
  if iSeq w = 2 ∧ m ≠ .none then (BitVec.ofNat 8 (iJmp w), 0, false)
  else if rep < iRep w then (pc, rep + 1, false)
  else if iSeq w = 1 then (BitVec.ofNat 8 (iJmp w), 0, false)
  else if iSeq w = 3 then (pc, 0, true)
  else (pc + 1, 0, false)

/-- The tokens of one port among those of a firing. -/
def onPort (out : List (Nat × List Token)) (p : Nat) : List Token := (out.filter fun x => x.1 == p).flatMap fun x => x.2

/-- One firing of tile t's core, from s to s': one token taken from each port of IN (R39); the tokens that it gives follow those of the
pipeline, which holds the core's depth, and those beyond it wait in the firing (R34); the count and park of R45, the next index; and
nothing but the tile, bed counters, interrupt sources and events changed. -/
structure Fired (s s' : State) (t : Fin 1024) (out : List (Nat × List Token)) : Prop where
  consumed : ∀ p < 4, mget [] (s'.tile t).inb p =
    if bitAt (iIn (s.tile t).instr) p then (mget [] (s.tile t).inb p).drop 1 else mget [] (s.tile t).inb p
  produced : ∀ p < 4, mget [] (s'.tile t).pipe p ++ mget [] (s'.tile t).rest p = mget [] (s.tile t).pipe p ++ onPort out p
  depth : ∀ p < 4, (mget [] (s'.tile t).pipe p).length ≤ coreDepth s.adr (tileKind t)
  counted : (s'.tile t).fired = (s.tile t).fired + 1
  parks : (s'.tile t).parked = completing (s.tile t)
  next : ((s'.tile t).pc, (s'.tile t).rep, (s'.tile t).halted) =
    seqNext (s.tile t).pc (s.tile t).rep (s.tile t).instr (maxMark (toksOf (firing s t)))
  others : ∀ u, u ≠ t.val → s'.tile u = s.tile u
  frame : s' = { s with tiles := s'.tiles, beds := s'.beds, ic := s'.ic, hq := s'.hq }

/-- The marker of the last token of a closing firing on a Q or F tile (R132, R189). -/
def endMark (s : State) (t : Fin 1024) : Marker := lastMark s.pace.rank (s.tile t) (s.tile t).instr (firing s t)

/-- The BSEQ a firing copies (R24). -/
def bseqOf (s : State) (t : Fin 1024) : BitVec 4 := copyBseq (firing s t)

/-- One drained value (R101): the bias, the activation function, the output format, the mask. -/
def drained (m : MState) (d : MDesc) (y0 : Word) (c : Nat) : Nat :=
  let y1 := if d.bias then FloatFmt.fp32.round ((FloatFmt.fp32.value y0.toNat).add (FloatFmt.fp16.value (mget 0 m.scale (d.bbase + c)).toNat))
    else y0.toNat
  let v := FloatFmt.fp32.value y1
  let y2 := match d.act with
    | 1 => if 0 < v.num then y1 else 0
    | 2 => if v.num ≤ 0 then 0 else if (Frac.ofInt 6).lt v then 0x40C00000 else y1
    | _ => y1
  if d.msk = true ∧ mget 0 m.kc d.ksel ≤ c then (fmtOfCode d.ofCode).signBit + (fmtOfCode d.ofCode).maxBits
  else if d.ofCode = 2 then y2 else convert .fp32 (fmtOfCode d.ofCode) y2

/-- The tokens of a drain (R100, R101, R103): eight channels in each, four in FP32; zero bits beyond the last channel; bubbles where the
bank holds bubbles alone; the marker on the last. -/
def drainGives (m : MState) (d : MDesc) (bank : Nat → Word) (bub : Bool) (ctx : BitVec 2) (bseq : BitVec 4) (mark : Marker) : List Token :=
  let per := if d.ofCode = 2 then 4 else 8
  markLast mark ((List.range ((d.nch + per - 1) / per)).map fun n =>
    if bub then mkBubble .none ctx bseq
    else mkToken (mkPayload (if d.ofCode = 2 then 32 else 16) ((List.range per).map fun l =>
      if per * n + l < d.nch then drained m d (bank (per * n + l)) (per * n + l) else 0)) .none ctx bseq)

/-- The block of an edge tile loses the head u of what it offers (R280, R339, R365). -/
def givesHead (s s' : State) (e : Fin 128) (u : Token) : Prop :=
  let k := e.val % 32
  match e.val / 32 with
  | 0 => mget [] s.nce.chan k = u :: mget [] s'.nce.chan k
  | 1 => if k < 24 then (s.chan (k - 16)).buf = u :: (s'.chan (k - 16)).buf ∧ (s'.ring (10 + (k - 16))).ci = (s.ring (10 + (k - 16))).ci + 1
         else mget [] s.nce.chan (32 + (k - 24)) = u :: mget [] s'.nce.chan (32 + (k - 24))
  | 2 => let j := feeder s (k / 2)
         (s'.engine j).delivered = (s.engine j).delivered + (if k / 2 = j then 1 else 0) ∧
         (if ∀ i ∈ recipients s j, i = k / 2 ∨ i ∈ (s.engine j).captured then
            (s.engine j).rbuf = u :: (s'.engine j).rbuf ∧ (s'.engine j).captured = []
          else (s'.engine j).rbuf = (s.engine j).rbuf ∧ (s'.engine j).captured = k / 2 :: (s.engine j).captured)
  | _ => (∃ st, mget [] (s.port (k / 8)).vcbuf (k % 8) = (u, st) :: mget [] (s'.port (k / 8)).vcbuf (k % 8)) ∧
         mget 0 (s'.port (k / 8)).credRet (k % 8) = mget 0 (s.port (k / 8)).credRet (k % 8) + 1

/-- The block of an edge tile, other than a stream engine, takes a token (R339, R365, R367). -/
def takesToken (s s' : State) (e : Fin 128) (u : Token) : Prop :=
  let k := e.val % 32
  match e.val / 32 with
  | 0 => mget [] s'.nce.rx k = mget [] s.nce.rx k ++ [u]
  | 1 => if k < 16 then mget [] s'.pp.rx k = mget [] s.pp.rx k ++ [u]
         else if k < 24 then (s'.chan (k - 16)).outq = (s.chan (k - 16)).outq ++ [u]
         else mget [] s'.nce.rx (32 + (k - 24)) = mget [] s.nce.rx (32 + (k - 24)) ++ [u]
  | 2 => False
  | _ => mget [] (s'.port (k / 8)).vcout (k % 8) = mget [] (s.port (k / 8)).vcout (k % 8) ++ [(u, s.pace.step.truncate 32)] ∧
         mget 0 (s'.port (k / 8)).cred (k % 8) = mget 0 (s.port (k / 8)).cred (k % 8) - 1

/-- The commands that fire a core, with the tile. -/
def coreOf : Instr → Option (Fin 1024)
  | .nop t | .mac t | .seed t | .drain t | .ldc t | .lds t | .kctl t | .rot t | .kvq t | .dsc t | .deq t | .sco t | .qnt t | .tag t
  | .push t | .pop t | .run t | .mark t | .unmark t | .rewind t | .skip t | .release t | .qcnt t | .ldg t | .funIdn t | .funExp t
  | .funRcp t | .funRsq t | .funSig t | .funTanh t | .funGelu t | .binAdd t | .binSub t | .binMul t | .binMax t | .binMin t | .binCgt t
  | .binCge t | .binCeq t | .vecSmax t | .vecLnrm t | .vecArgmax t | .vecStat t | .wacc t | .poolMax t | .poolAverage t | .bil t
  | .gate t | .bubg t | .switch t | .select t | .cmp t | .setf t | .loop t | .br t => some t
  | _ => none

end Sys2Proof.Claims

open Sys2Proof Sys2Proof.Machine Sys2Proof.Claims

/-! ## The block -/

/-- Step takes the command at the front of the queue and runs exec on the state with the queue's rest; an empty queue idles
(log entry 7). -/
def Obligations.StepRunsFront : Prop :=
  ∀ s : State, (∀ c r, s.pending = c :: r → step s = exec c { s with pending := r }) ∧ (s.pending = [] → step s = .next s)

/-- Every step keeps LPDDR6 in its canonical form. -/
def Obligations.StepKeepsMemory : Prop :=
  ∀ s t : State, memoryWf s.mc.mem = true → step s = .next t → memoryWf t.mc.mem = true

namespace Sys2Proof.Claims

/-- Registers whose Reset column gives more than zeros, with that value: PACE_PERIOD, PMIN, WINDOW, WDOG and HOLDLIM (03), IC_MASK0
and IC_MASK3, COAL of vector 0 (16), SE_CTRL, SE_STATUS and SE_SPLIT (13), FMT and WM0 of sensor port 0 (14), LK_CTRL and LK_TTOL (17),
TW_CFG (18), PWR_CTRL, STATUS, VSET, CAP, CLK, SUPCFG, DOMREQ and DOMSTAT (19). -/
def resetWords : List (Nat × Word) :=
  [(0x10020, 0x7D0), (0x10024, 0x7D0), (0x10028, 0x7D0), (0x10040, 0x10), (0x10044, 0x186A0), (0x20020, 0xFFFFFFFF),
   (0x2002C, 0xFFFFFFFF), (0x22000, 0x10001), (0x60000, 0x1000), (0x60004, 1), (0x60008, 0x201808), (0x80104, 0x4000000),
   (0x80108, 0x8001800), (0x90000, 0x800), (0x90010, 1000), (0xA0000, 0xA4000), (0xB0000, 2), (0xB0004, 0xFFAA), (0xB0008, 0xA),
   (0xB0010, 0x5A0), (0xB0030, 0x303), (0xB0050, 0x80640028), (0xB0060, 0x3FFFFC3F), (0xB0064, 0x3FFFFC3F)]

end Sys2Proof.Claims

/-- R335, R444, Tables SEC-1 and MAP-4: after power-on and after every POR reset the registers of resetWords read as their Reset columns say; LPDDR6 lists nothing in its canonical form, PACE is IDLE, no image is loaded, no ring is enabled, every
link port is OFF, ESEQ is 0 and no command waits (that memory which nothing has written lists nothing is the model's, log entry 5). -/
def Obligations.ResetState : Prop :=
  let asReset := fun s : State => (∀ x ∈ resetWords, ∀ a, regValue s a x.1 = some x.2) ∧ memoryWf s.mc.mem = true ∧
    s.pace.state = .idle ∧ s.cfg.image = none ∧ (∀ n, (s.ring n).en = false) ∧ (∀ p, (s.port p).state = .off) ∧ s.hq.eseq = 0 ∧
    s.sec.bootState = 0
  asReset State.reset ∧ State.reset.pending = [] ∧ ∀ s c, ∃ s', exec (.porReset c) s = .next s' ∧ asReset s'

/-- The fuse array changes by the end of a burn alone, or by the POR reset that breaks one off (R418, R427); its shadow copy, beside that,
by a POR reset, which senses it anew, and by the upsets that a self-check finds (R425). -/
def Obligations.OnlyBurnsChangeFuses : Prop :=
  ∀ (c : Instr) (s t : State), (∀ ok n, c ≠ .burnComplete ok n) → exec c s = .next t →
    ((∀ p, c ≠ .porReset p) ∨ s.sec.burn = none →
      t.sec.fuses.bank0 = s.sec.fuses.bank0 ∧ t.sec.fuses.bank1 = s.sec.fuses.bank1) ∧
    ((∀ p, c ≠ .porReset p) → (∀ l, c ≠ .fuseSelfCheck l) → t.sec.fuses = s.sec.fuses)

/-! ## The fabric (02) -/

/-- R30: while the machine is held no core fires, no hard port acts, and no edge tile moves a token between its block and its paths. -/
def Obligations.HeldFabricStands : Prop :=
  ∀ s : State, s.holding = true →
    (∀ c t, coreOf c = some t → exec c s = .next s) ∧
    (∀ t k, exec (.hardPush t k) s = .next s ∧ exec (.hardPop t k) s = .next s) ∧
    (∀ e, exec (.slotTransfer (.inward e)) s = .next s ∧ exec (.slotTransfer (.outward e)) s = .next s)

/-- R27, R28: each destination of a slot captures its head token, unchanged, when it has room; the slot empties once every destination has,
and only then. The oldest token of a core's pipeline enters its output buffer when that is empty, and the next token of its firing the
pipeline (R34). An inward edge path takes a token of its block while the quota and the path have room, with the step's rank on the last
(R258), a token of a link unless its frame names another step (R367), a bubble in a rake-out (R267); an outward path gives its block a
token whose parity is right, a link only with credit (R365), and discards it there in a rake-out with DROPLK. -/
def Obligations.SlotTransfers : Prop :=
  (∀ (s : State) (p : Place) (d : Dest) (u : Token) (r : List Token),
    s.cfg.stage ≠ 0 → s.cfg.stage ≠ 15 → slotToks s p = u :: r → d ∈ destsOf s p → d ∉ slotAcked s p → destRoom s d = true →
    ∃ s', exec (.slotTransfer (.capture p d)) s = .next s' ∧
      ((∀ x ∈ destsOf s p, x = d ∨ x ∈ slotAcked s p) → slotToks s' p = r ∧ slotAcked s' p = []) ∧
      ((∃ x ∈ destsOf s p, x ≠ d ∧ x ∉ slotAcked s p) → slotToks s' p = u :: r ∧ slotAcked s' p = d :: slotAcked s p) ∧
      (match d with
       | .ip t k => mget [] (s'.tile t).inb k = mget [] (s.tile t).inb k ++ [u]
       | .latch t x => mget [] (s'.tile t).latch x = [u]
       | .edgeOut e => (s'.edge e).outSlots = (s.edge e).outSlots ++ [u]) ∧
      s' = { s with tiles := s'.tiles, edges := s'.edges }) ∧
  (∀ (s : State) (t : Fin 1024) (k : Fin 4) (u : Token) (r : List Token),
    s.cfg.stage ≠ 0 → s.cfg.stage ≠ 15 → mget [] (s.tile t).pipe k = u :: r → mget [] (s.tile t).outb k = [] →
    ∃ s', exec (.slotTransfer (.emit t k)) s = .next s' ∧ mget [] (s'.tile t).outb k = [u] ∧
      mget [] (s'.tile t).pipe k = r ++ (mget [] (s.tile t).rest k).take 1 ∧ mget [] (s'.tile t).rest k = (mget [] (s.tile t).rest k).drop 1 ∧
      (∀ i, i ≠ t.val → s'.tile i = s.tile i) ∧ s' = { s with tiles := s'.tiles }) ∧
  (∀ (s : State) (e : Fin 128), s.cfg.stage ≠ 0 → s.cfg.stage ≠ 15 → s.holding = false →
    let g := s.edge e
    g.ctxCfg.claimed = true → g.parked = false → g.inCnt < g.ctxCfg.quota 0 → g.inSlots.length < 2 →
    let last := g.inCnt + 1 = g.ctxCfg.quota 0
    let moved := fun (s' : State) (v : Token) => (s'.edge e).inSlots = g.inSlots ++ [v] ∧ (s'.edge e).inCnt = g.inCnt + 1 ∧
      (s'.edge e).lastBseq = v.bseq ∧ (s'.edge e).parked = decide (last ∧ g.ctxCfg.quota 4 ≤ g.outCnt) ∧
      (∀ i, i ≠ e.val → s'.edge i = s.edge i) ∧ s'.tiles = s.tiles ∧ s'.pace = s.pace
    (s.pace.rakeAct = true → ∃ s', exec (.slotTransfer (.inward e)) s = .next s' ∧ s' = { s with edges := s'.edges } ∧
      moved s' (mkBubble (if last then s.pace.rank else .none) g.cur g.lastBseq)) ∧
    (s.pace.rakeAct = false → ∀ u, inwardHead s e = some u →
      (westSkew s e = none → ∃ s', exec (.slotTransfer (.inward e)) s = .next s' ∧ givesHead s s' e u ∧
        moved s' (if e.val / 32 = 3 then { u with mark := if last then s.pace.rank else u.mark }
          else { u with ctx := g.cur, mark := if last then s.pace.rank else .none })) ∧
      (∀ st, westSkew s e = some st → s.pace.state ≠ .aborted → ∃ s', exec (.slotTransfer (.inward e)) s = .next s' ∧
        s'.pace.state = .aborted ∧ (s.flt.firstCode = 0 → s'.flt.firstCode = 0x0907) ∧ s'.edges = s.edges ∧ s'.tiles = s.tiles))) ∧
  (∀ (s : State) (e : Fin 128) (u : Token) (r : List Token), s.cfg.stage ≠ 0 → s.cfg.stage ≠ 15 → s.holding = false →
    let g := s.edge e
    g.ctxCfg.claimed = true → g.parked = false → g.outCnt < g.ctxCfg.quota 4 → g.outSlots = u :: r →
    let moved := fun (s' : State) => (s'.edge e).outSlots = r ∧ (s'.edge e).outCnt = g.outCnt + 1 ∧
      (s'.edge e).hiMark = markMax g.hiMark u.mark ∧
      (s'.edge e).parked = decide (g.ctxCfg.quota 0 ≤ g.inCnt ∧ g.outCnt + 1 = g.ctxCfg.quota 4) ∧
      (∀ i, i ≠ e.val → s'.edge i = s.edge i) ∧ s'.tiles = s.tiles
    (outwardRoom s e = true → tokParOk u = true → ∃ s', exec (.slotTransfer (.outward e)) s = .next s' ∧ takesToken s s' e u ∧ moved s' ∧
      s'.pace = s.pace) ∧
    (outwardRoom s e = true → tokParOk u = false → s.pace.state ≠ .aborted → ∃ s', exec (.slotTransfer (.outward e)) s = .next s' ∧
      s'.pace.state = .aborted ∧ (s.flt.firstCode = 0 → s'.flt.firstCode = 0x0401) ∧ s'.edges = s.edges) ∧
    (e.val / 32 = 3 → mget 0 (s.port (e.val % 32 / 8)).cred (e.val % 8) = 0 →
      (s.pace.rakeAct = true → s.pace.rakeDrop = true → tokParOk u = true → ∃ s', exec (.slotTransfer (.outward e)) s = .next s' ∧ moved s' ∧
        s'.pace = { s.pace with rakeDropCnt := satInc s.pace.rakeDropCnt } ∧ s'.lk = s.lk) ∧
      (s.pace.rakeAct = false ∨ s.pace.rakeDrop = false → exec (.slotTransfer (.outward e)) s = .next s)))

/-- R40: a NOP on a tile other than an S tile takes one token from each port of IN and puts one bubble on each port of OUT, with the
marker of R40. -/
def Obligations.NopGivesBubbles : Prop :=
  ∀ (s : State) (t : Fin 1024), Stands s t (tileKind t) 0 → tileKind t ≠ .s → nopRoom s (tileKind t) (s.tile t) (s.tile t).instr = true →
    quotaMet s t → (tileKind t = .m → closesOk s t false) →
    ∃ s', exec (.nop t) s = .next s' ∧
      Fired s s' t ((maskPorts (iOut (s.tile t).instr)).map fun p =>
        (p, [mkBubble (if completing (s.tile t) then (if iIn (s.tile t).instr = 0 then s.pace.rank else maxMark (toksOf (firing s t)))
             else if iMrk (s.tile t).instr = 1 then .none else maxMark (toksOf (firing s t))) (s.tile t).cur (bseqOf s t)]))

/-! ## M tiles (05) -/

/-- R96: a MAC firing adds the tree sum of its eight products to each channel's group sum, and at the end of a group the scaled group
sum to the accumulator; the last repeat with FLIP changes the active bank and starts the drain of R100 to R103, a bubble drain where the
bank has seen bubbles alone. -/
def Obligations.MacFiring : Prop :=
  ∀ (s : State) (t : Fin 1024), Stands s t .m 1 → quotaMet s t → mReady (s.tile t) (s.tile t).instr = true →
    closesOk s t (isFlip (s.tile t) (s.tile t).instr) →
    let g := s.tile t
    let w := g.instr
    let d := mDesc g w
    let tok := tokAt (firing s t) 0
    let use := !tok.bub || iBubm w == 1
    let ends := (8 * g.rep + 8) % d.g = 0 ∨ g.rep = iRep w
    ∃ s', exec (.mac t) s = .next s' ∧ Fired s s' t [] ∧
      (∀ c < d.nch,
        let g0 := if g.rep = 0 then 0 else (mget 0 g.m.gsum c).toNat
        let a0 := if g.rep = 0 ∧ bitAt (iOpnd w) 7 = true then 0 else mget 0 (g.m.bank g.m.active) c
        let g1 := if use then fadd32 g0 (beatSum g.m d tok g.rep c) else g0
        (ends → mget 0 (s'.tile t).m.gsum c = 0 ∧
          mget 0 ((s'.tile t).m.bank g.m.active) c = BitVec.ofNat 32 (fadd32 a0.toNat
            (FloatFmt.fp32.round ((FloatFmt.fp32.value g1).mul (FloatFmt.fp16.value (scaleAt g.m d (8 * g.rep / d.g) c)))))) ∧
        (¬ ends → mget 0 (s'.tile t).m.gsum c = BitVec.ofNat 32 g1 ∧ mget 0 ((s'.tile t).m.bank g.m.active) c = a0)) ∧
      (s'.tile t).m.active = (g.m.active ^^ isFlip g w) ∧
      (s'.tile t).m.bank (!g.m.active) = g.m.bank (!g.m.active) ∧
      (s'.tile t).m.bub g.m.active = ((if g.rep = 0 ∧ bitAt (iOpnd w) 7 = true then true else g.m.bub g.m.active) && !use) ∧
      (s'.tile t).m.drain.toks = (if isFlip g w then
        drainGives g.m d (fun c => mget 0 ((s'.tile t).m.bank g.m.active) c) ((s'.tile t).m.bub g.m.active) g.cur (bseqOf s t)
          (maxMark (toksOf (firing s t))) else g.m.drain.toks) ∧
      (s'.tile t).m.code = g.m.code ∧ (s'.tile t).m.scale = g.m.scale ∧ (s'.tile t).m.kc = g.m.kc ∧ (s'.tile t).m.tag = g.m.tag

/-- R102, R105: firing i of a SEED writes its four lanes into channels 4i to 4i + 3 of the active bank, and no other channel; data, or a bubble
taken as zero, clears the bank's bubble-only mark; its last repeat with FLIP starts the bank's drain. The next token of a drain enters the
core's pipeline while it has room and the machine is not held. -/
def Obligations.SeedAndDrain : Prop :=
  (∀ (s : State) (t : Fin 1024), Stands s t .m 2 → quotaMet s t → mReady (s.tile t) (s.tile t).instr = true →
    closesOk s t (isFlip (s.tile t) (s.tile t).instr) →
    let g := s.tile t
    let d := mDesc g g.instr
    ∃ s', exec (.seed t) s = .next s' ∧ Fired s s' t [] ∧
      (∀ c, mget 0 ((s'.tile t).m.bank g.m.active) c =
        if c < d.nch ∧ 4 * g.rep ≤ c ∧ c < 4 * g.rep + 4 then
          BitVec.ofNat 32 (FloatFmt.fp32.finite (tokElem (tokAt (firing s t) 2) 32 (c - 4 * g.rep)))
        else mget 0 (g.m.bank g.m.active) c) ∧
      (s'.tile t).m.active = (g.m.active ^^ isFlip g g.instr) ∧
      (s'.tile t).m.bub g.m.active = (g.m.bub g.m.active && (tokAt (firing s t) 2).bub && iBubm g.instr != 1) ∧
      (s'.tile t).m.drain.toks = (if isFlip g g.instr then
        drainGives g.m d (fun c => mget 0 ((s'.tile t).m.bank g.m.active) c) ((s'.tile t).m.bub g.m.active) g.cur (bseqOf s t)
          (maxMark (toksOf (firing s t))) else g.m.drain.toks) ∧
      (s'.tile t).m.bank (!g.m.active) = g.m.bank (!g.m.active) ∧ (s'.tile t).m.code = g.m.code ∧ (s'.tile t).m.scale = g.m.scale) ∧
  (∀ (s : State) (t : Fin 1024) (u : Token) (r : List Token), tileKind t = .m → (s.tile t).inReset = false → s.holding = false →
    roomAll s.adr .m (s.tile t) 1 = true → (s.tile t).m.drain.toks = u :: r →
    ∃ s', exec (.drain t) s = .next s' ∧ (s'.tile t).m.drain.toks = r ∧
      mget [] (s'.tile t).pipe 0 = mget [] (s.tile t).pipe 0 ++ [u] ∧
      (s'.tile t).m = { (s.tile t).m with drain := (s'.tile t).m.drain } ∧
      (∀ i, i ≠ t.val → s'.tile i = s.tile i) ∧ s' = { s with tiles := s'.tiles })

/-- R106, R107: a linear LDC writes its 16 bytes from CBASE + 16 i and no other byte, one in channel mode from its group's and channel's place;
a linear LDS its 8 entries from SBASE + 8 i and no other entry, one in channel mode the entry of each of its groups; a bubble under
BUBM = skip writes nothing (R108). In channel mode an empty tag takes the token's BSEQ, and the last repeat with ADV advances the counter,
up to 128, and empties its tag (R108, R109); a linear firing touches neither. -/
def Obligations.LinearLoads : Prop :=
  ∀ (s : State) (t : Fin 1024), quotaMet s t → closesOk s t false →
    let g := s.tile t
    let w := g.instr
    let d := mDesc g w
    let kc := mget 0 g.m.kc d.ksel
    let bound := fun (u : Token) => loadChannel w = true → kc < d.nch ∧ ∀ r, mget none g.m.tag d.ksel = some r → r = u.bseq
    let ends := loadAdv w = true ∧ g.rep = iRep w
    let counted := fun (u : Token) (m : MState) =>
      (∀ k, mget 0 m.kc k = if loadChannel w = true ∧ ends ∧ k = d.ksel then min (kc + 1) 128 else mget 0 g.m.kc k) ∧
      (∀ k, mget none m.tag k = if loadChannel w = true ∧ k = d.ksel then (if ends then none else some u.bseq) else mget none g.m.tag k)
    (Stands s t .m 3 →
      let u := tokAt (firing s t) 1
      let a0 := if loadChannel w then d.cbase + (g.rep / (d.g / 32) * d.nch + kc) * (d.g / 2) + 16 * (g.rep % (d.g / 32))
        else d.cbase + 16 * g.rep
      bound u →
      ∃ s', exec (.ldc t) s = .next s' ∧ Fired s s' t [] ∧
        (∀ a, mget 0 (s'.tile t).m.code a =
          if (u.bub = false ∨ iBubm w = 1) ∧ a0 ≤ a ∧ a < a0 + 16 then BitVec.ofNat 8 (tokElem u 8 (a - a0)) else mget 0 g.m.code a) ∧
        counted u (s'.tile t).m ∧
        (s'.tile t).m = { g.m with code := (s'.tile t).m.code, kc := (s'.tile t).m.kc, tag := (s'.tile t).m.tag }) ∧
    (Stands s t .m 4 →
      let u := tokAt (firing s t) 3
      let lane := fun l => BitVec.ofNat 16 (FloatFmt.fp16.finite (tokElem u 16 l))
      bound u →
      ∃ s', exec (.lds t) s = .next s' ∧ Fired s s' t [] ∧ counted u (s'.tile t).m ∧
        (loadChannel w = false → ∀ a, mget 0 (s'.tile t).m.scale a =
          if (u.bub = false ∨ iBubm w = 1) ∧ d.sbase + 8 * g.rep ≤ a ∧ a < d.sbase + 8 * g.rep + 8 then lane (a - (d.sbase + 8 * g.rep))
          else mget 0 g.m.scale a) ∧
        (loadChannel w = true →
          (∀ l < 8, 8 * g.rep + l < d.gn → (u.bub = false ∨ iBubm w = 1) →
            mget 0 (s'.tile t).m.scale (d.sbase + (8 * g.rep + l) * d.nch + kc) = lane l) ∧
          (∀ a, (u.bub = true ∧ iBubm w ≠ 1) ∨ (∀ l < 8, 8 * g.rep + l < d.gn → a ≠ d.sbase + (8 * g.rep + l) * d.nch + kc) →
            mget 0 (s'.tile t).m.scale a = mget 0 g.m.scale a)) ∧
        (s'.tile t).m = { g.m with scale := (s'.tile t).m.scale, kc := (s'.tile t).m.kc, tag := (s'.tile t).m.tag })

/-- R110: KCTL consumes and produces nothing; it sets KC[CNT] to VAL and empties that counter's tag register. No image holds one whose REP is
not 0, or that names a port: the load checks refuse it. -/
def Obligations.KctlSetsCounter : Prop :=
  (∀ (s : State) (t : Fin 1024), Stands s t .m 5 → iIn (s.tile t).instr = 0 → quotaMet s t → closesOk s t false →
    let g := s.tile t
    let n := bits (iOpnd g.instr) 0 3
    ∃ s', exec (.kctl t) s = .next s' ∧ Fired s s' t [] ∧
      (∀ k, mget 0 (s'.tile t).m.kc k = if k = n then bits (iOpnd g.instr) 4 8 else mget 0 g.m.kc k) ∧
      (∀ k, mget none (s'.tile t).m.tag k = if k = n then none else mget none g.m.tag k) ∧
      (s'.tile t).m = { g.m with kc := (s'.tile t).m.kc, tag := (s'.tile t).m.tag }) ∧
  ∀ (g : GridTile) (prog : List (BitVec 64)) (w : BitVec 64), w ∈ prog → iOpc w = 5 → iRep w ≠ 0 ∨ iIn w ≠ 0 ∨ iOut w ≠ 0 →
    checkM g prog ≠ none

/-! ## Q tiles (06) -/

/-- R117, R131, R132: a ROT firing widens its token's elements into the block buffer; the one that closes a block gives the rotated,
normalised block in the output format, its last token marked; a block of bubbles gives bubbles. -/
def Obligations.RotFiring : Prop :=
  ∀ (s : State) (t : Fin 1024), Stands s t .q 1 → quotaMet s t → rotReady s (s.tile t) (s.tile t).instr = true →
    closesOk s t (blockCloses (s.tile t) (qDesc (s.tile t) (s.tile t).instr)) →
    let g := s.tile t
    let d := qDesc g g.instr
    let q := (fillBlock g g.instr d (tokAt (firing s t) 0)).q
    ∃ s', exec (.rot t) s = .next s' ∧
      Fired s s' t (if blockCloses g d then
        [(0, markLast (endMark s t) (if q.bufBub then bubbles (d.n * d.of_.width / 128) g.cur (bseqOf s t)
          else valueTokens d.of_ g.cur (bseqOf s t)
            ((rotateBlock d.n d.norm (bufRead q.buf d.n)).map fun y => if d.of_ = .fp32 then y else convert .fp32 d.of_ y)))] else []) ∧
      (∀ k, mget 0 (s'.tile t).q.buf k =
        if g.rep % blockFirings d * d.per ≤ k ∧ k < (g.rep % blockFirings d + 1) * d.per then
          BitVec.ofNat 32 (convert d.af .fp32 (d.af.finite (tokElem (tokAt (firing s t) 0) d.af.width (k - g.rep % blockFirings d * d.per))))
        else mget 0 g.q.buf k)

/-- R118, R119: the KVQ firing that closes a block gives the block's levels under the scale m / 7 of the (rotated) block, tagged BT; the
one that ends a vector also gives the vector's scales and advances BT. -/
def Obligations.KvqFiring : Prop :=
  ∀ (s : State) (t : Fin 1024), Stands s t .q 2 → quotaMet s t → kvqReady s (s.tile t) (s.tile t).instr = true →
    closesOk s t (blockCloses (s.tile t) (qDesc (s.tile t) (s.tile t).instr)) →
    let g := s.tile t
    let d := qDesc g g.instr
    let q := (fillBlock g g.instr d (tokAt (firing s t) 0)).q
    let xs := bufRead q.buf d.n
    let ys := if d.rote then rotateBlock d.n d.norm xs else xs
    let sc := FloatFmt.fp16.round ((maxAbs (ys.map FloatFmt.fp32.value)).div (Frac.ofInt 7))
    let lv := ys.map fun y => quantLevel (-8) 7 (FloatFmt.fp32.value y) (FloatFmt.fp16.value sc)
    let scs := q.scales ++ [if q.bufBub then ((0 : BitVec 16), true) else (BitVec.ofNat 16 sc, false)]
    ∃ s', exec (.kvq t) s = .next s' ∧
      Fired s s' t (if blockCloses g d then
        (0, markLast (endMark s t) (if q.bufBub then bubbles (d.n / 32) g.cur g.q.bt else levelTokens g.cur g.q.bt lv)) ::
          (if vectorEnds g d then [(1, markLast (endMark s t) (scaleTokens g.cur g.q.bt scs))] else []) else []) ∧
      (s'.tile t).q.bt = (if vectorEnds g d then g.q.bt + 1 else g.q.bt) ∧
      (s'.tile t).q.scales = (if blockCloses g d then (if vectorEnds g d then [] else scs) else g.q.scales) ∧
      (s'.tile t).q.ds = g.q.ds ∧ (s'.tile t).q.rt = g.q.rt

/-- R124 to R126: DSC writes its token's lanes, replaced by R72 where not finite, into the scales from 8 i up to the descriptor's count and its
first firing latches BSEQ in RT; a DEQ of a transport format gives the product of each code with its channel's scale, rounded once; a DEQ of
K4 or V4 gathers a block's codes, and the firing that closes the block gives their products with DS[b], rotated with ROTE = 1, rounded once;
its last repeat empties RT. -/
def Obligations.ScalesAndDeq : Prop :=
  (∀ (s : State) (t : Fin 1024), Stands s t .q 3 → quotaMet s t →
    let g := s.tile t
    let d := qDesc g g.instr
    let u := tokAt (firing s t) 1
    (g.rep = 0 ∨ g.q.rt = some u.bseq) →
    ∃ s', exec (.dsc t) s = .next s' ∧ Fired s s' t [] ∧
      (∀ i, mget 0 (s'.tile t).q.ds i =
        if (u.bub = false ∨ iBubm g.instr = 1) ∧ 8 * g.rep ≤ i ∧ i < 8 * g.rep + 8 ∧ i < (if d.transport then d.nch else d.nb) then
          BitVec.ofNat 16 (FloatFmt.fp16.finite (tokElem u 16 (i - 8 * g.rep)))
        else mget 0 g.q.ds i) ∧
      (s'.tile t).q.rt = some u.bseq ∧ (s'.tile t).q.bt = g.q.bt) ∧
  (∀ (s : State) (t : Fin 1024), Stands s t .q 4 → quotaMet s t → deqReady s (s.tile t) (s.tile t).instr = true →
    let g := s.tile t
    let d := qDesc g g.instr
    let u := tokAt (firing s t) 0
    closesOk s t (deqCloses g d) → g.q.rt = some u.bseq →
    (d.transport = false →
      let f := g.rep % (d.n / 32)
      let b := g.rep / (d.n / 32)
      let codes := (if f = 0 then [] else g.q.codes) ++ payBytes (if u.bub then 0 else u.payload)
      let bub := (f = 0 ∨ g.q.codesBub = true) ∧ u.bub = true ∧ iBubm g.instr = 0
      let xs := (List.range d.n).map fun k => FloatFmt.fp32.round
        ((Frac.ofInt (signed 4 (bits (lget 0 codes (k / 2)).toNat (4 * (k % 2)) 4))).mul (FloatFmt.fp16.value (mget 0 g.q.ds b).toNat))
      ∃ s', exec (.deq t) s = .next s' ∧ (s'.tile t).q.codes = codes ∧
        Fired s s' t (if (g.rep + 1) % (d.n / 32) = 0 then [(0, markLast (endMark s t)
          (if bub then bubbles (d.n * d.of_.width / 128) g.cur (bseqOf s t)
           else valueTokens d.of_ g.cur (bseqOf s t)
             ((if d.rote then rotateBlock d.n d.norm xs else xs).map fun y => if d.of_ = .fp32 then y else convert .fp32 d.of_ y)))] else []) ∧
        (s'.tile t).q.rt = (if g.rep = iRep g.instr then none else g.q.rt) ∧ (s'.tile t).q.ds = g.q.ds) ∧
    (d.transport = true → ∃ s', exec (.deq t) s = .next s' ∧
      Fired s s' t [(0, markLast (endMark s t) (if u.bub = true ∧ iBubm g.instr = 0 then bubbles (16 * d.of_.width / 128) g.cur (bseqOf s t)
        else valueTokens d.of_ g.cur (bseqOf s t) ((List.range 16).map fun k => d.of_.round
          ((if d.qf = 2 then FloatFmt.e4m3.operand (tokElem u 8 k) else Frac.ofInt (signed 8 (tokElem u 8 k))).mul
            (FloatFmt.fp16.value (mget 0 g.q.ds ((16 * g.rep + k) % d.nch)).toNat)))))] ∧
      (s'.tile t).q.rt = (if g.rep = iRep g.instr then none else g.q.rt) ∧ (s'.tile t).q.ds = g.q.ds))

/-- R120: SCO gives scales QS[8i] to QS[8i + 7] of the descriptor's channels, tagged BT; QNT gives each element's code under its
channel's scale, and its last repeat with ADV advances BT; R123: TAG sets BT. -/
def Obligations.QuantOut : Prop :=
  ∀ (s : State) (t : Fin 1024), quotaMet s t →
    let g := s.tile t
    let d := qDesc g g.instr
    (Stands s t .q 5 → roomAll s.adr .q g (iOut g.instr) = true →
      ∃ s', exec (.sco t) s = .next s' ∧
        Fired s s' t [(1, [mkToken (mkPayload 16 ((List.range 8).map fun l =>
          if 8 * g.rep + l < d.nch then (mget 0 g.q.qs (8 * g.rep + l)).toNat else 0)) (endMark s t) g.cur g.q.bt])]) ∧
    (Stands s t .q 6 → qntReady s g g.instr = true →
      let u := tokAt (firing s t) 0
      let code := fun l => (qntCode d (d.af.operand (tokElem u d.af.width l))
        (FloatFmt.fp16.value (mget 0 g.q.qs ((d.per * g.rep + l) % d.nch)).toNat)).1
      let codes := (if g.rep % qntFirings d = 0 then [] else g.q.codes) ++ (List.range d.per).map fun l => BitVec.ofNat 8 (code l)
      let bub := (g.rep % qntFirings d == 0 || g.q.codesBub) && u.bub && iBubm g.instr == 0
      ∃ s', exec (.qnt t) s = .next s' ∧
        Fired s s' t (if qntProduces g d then [(0, [if bub then mkBubble (endMark s t) g.cur g.q.bt
          else mkToken (mkPayload 8 (codes.map fun b => b.toNat)) (endMark s t) g.cur g.q.bt])] else []) ∧
        (s'.tile t).q.codes = codes ∧
        (s'.tile t).q.bt = (if bitAt (iOpnd g.instr) 8 = true ∧ g.rep = iRep g.instr then g.q.bt + 1 else g.q.bt)) ∧
    (Stands s t .q 7 →
      ∃ s', exec (.tag t) s = .next s' ∧ Fired s s' t [] ∧ (s'.tile t).q.bt = BitVec.ofNat 4 (bits (iOpnd g.instr) 0 4))

/-! ## S tiles (07) -/

namespace Sys2Proof.Claims

/-- The state in which a core operation of tile t on some queues acts: a new beat first where the tile's beat has passed (log entry 13). -/
def atBeat (s : State) (t : Fin 1024) (rank : Nat) (qs : List Nat) : GridTile := (inBeat s t rank qs).tile t

/-- The tile's queues stand whole: no used queue is frozen, both copies of every queue's pointers agree (R150), and no slot access is
left from the last beat. -/
structure QueuesWhole (g : GridTile) : Prop where
  copies : ∀ q, ptrDiff (g.queue q) = none
  thawed : ∀ q, (g.queue q).froz = false
  served : g.s.deferred = []

/-- Does the bank of a slot still serve an access in the beat of g (R139)? -/
def bankFree (g : GridTile) (i : Nat) : Prop := mget 0 g.s.bankUse (slotBank i) < 2

/-- The accesses left over by a beat that the next one serves, in their order: the first two of each bank (R139). -/
def served (l : List (Nat × SlotAccess)) : List (Nat × SlotAccess) :=
  (l.zipIdx.filter fun x => decide (((l.take x.2).filter fun y => slotBank (accessSlot y.2) == slotBank (accessSlot x.1.2)).length < 2)).map (·.1)

/-- Those it leaves over again. -/
def leftOver (l : List (Nat × SlotAccess)) : List (Nat × SlotAccess) :=
  (l.zipIdx.filter fun x => decide (2 ≤ ((l.take x.2).filter fun y => slotBank (accessSlot y.2) == slotBank (accessSlot x.1.2)).length)).map (·.1)

/-- Slot i of a tile after the writes of some accesses: the last written token, with its check bit. -/
def seenAt (g : GridTile) (l : List (Nat × SlotAccess)) (i : Nat) : Slot :=
  match (l.filterMap fun x => match x.2 with | .write j u => if j = i then some u else none | .read _ _ _ => none).getLast? with
  | some u => { tok := u, chk := sideParity u }
  | none => slotAt g i

/-- The tokens that the reads of some accesses put on port p, in order, each with the slot as the accesses before it leave it. -/
def readTokens (g : GridTile) (l : List (Nat × SlotAccess)) (p : Nat) : List Token :=
  l.zipIdx.filterMap fun x => match x.1.2 with
    | .read i k m => if k = p then some { (seenAt g (l.take x.2) i).tok with ctx := g.cur, mark := m } else none
    | .write _ _ => none
/-- A core firing of S tile t takes place: R29, R146 and the checks of every firing hold. -/
structure StandsS (s : State) (t : Fin 1024) (opc : Nat) : Prop where
  stands : Stands s t .s opc
  quota : quotaMet s t
  whole : QueuesWhole (s.tile t)

end Sys2Proof.Claims

/-- R143, R144, R147: PUSH stores its token at WP and advances WP; POP reads the token at RP into the output with the core's CTX and marker and
advances RP, in FIFO mode FP with it; the queue's other pointers, and every other queue, stay. Where the bank has served two accesses in the
beat, the slot's write or read is left over to the next (R139). -/
def Obligations.PushPop : Prop :=
  (∀ (s : State) (t : Fin 1024), StandsS s t 1 → 2 ≤ s.cfg.stage.toNat →
    let w := (s.tile t).instr
    let q := instrQueue w
    let x := (s.tile t).queue q
    let g := atBeat s t 5 [q]
    let i := qSlot ((s.tile t).qdesc q) x.a.wp
    let u := storedTok w (tokAt (firing s t) (onePort (iIn w)))
    0 < x.free ((s.tile t).qdesc q) →
    ∃ s', exec (.push t) s = .next s' ∧ Fired s s' t [] ∧
      ((s'.tile t).queue q).a = { x.a with wp := x.a.wp + 1 } ∧ ((s'.tile t).queue q).b = { x.b with wp := x.b.wp + 1 } ∧
      (∀ r, r ≠ q → (s'.tile t).queue r = (s.tile t).queue r) ∧
      (bankFree g i → slotAt (s'.tile t) i = { tok := u, chk := sideParity u } ∧ (s'.tile t).s.deferred = []) ∧
      (¬ bankFree g i → slotAt (s'.tile t) i = slotAt (s.tile t) i ∧ (s'.tile t).s.deferred = [(5, .write i u)]) ∧
      (∀ j, j ≠ i → slotAt (s'.tile t) j = slotAt (s.tile t) j)) ∧
  (∀ (s : State) (t : Fin 1024), StandsS s t 2 →
    let w := (s.tile t).instr
    let q := instrQueue w
    let d := (s.tile t).qdesc q
    let x := (s.tile t).queue q
    let i := qSlot d x.a.rp
    let m := coreMark s (s.tile t) (firing s t)
    let gives := fun (out : List (Nat × List Token)) (left : List (Nat × SlotAccess)) => ∃ s', exec (.pop t) s = .next s' ∧ Fired s s' t out ∧
      ((s'.tile t).queue q).a = { x.a with rp := x.a.rp + 1, fp := if qRet d then x.a.fp else x.a.rp + 1 } ∧
      (∀ r, r ≠ q → (s'.tile t).queue r = (s.tile t).queue r) ∧ (s'.tile t).s.store = (s.tile t).s.store ∧ (s'.tile t).s.deferred = left
    0 < x.avl → sRoom s (s.tile t) w = true →
    (bankFree (atBeat s t 5 [q]) i → slotOk (slotAt (s.tile t) i) = true →
      gives [(onePort (iOut w), [{ (slotAt (s.tile t) i).tok with ctx := (s.tile t).cur, mark := m }])] []) ∧
    (¬ bankFree (atBeat s t 5 [q]) i → gives [] [(5, .read i (onePort (iOut w)) m)]))

/-- R147, R153, R155, R156: MARK, UNMARK, REWIND, SKIP and RELEASE move the pointers of their queue as the table says and touch no other queue; a RUN read
inside its extent gives the token of its slot, outside it a zero token, a RUN write stores its token there or discards it, and the nest
advances, the descriptor being of the constants or the streamed one; QCNT gives the queue's counts; LDG stages two
descriptor words a firing and its fourth makes the streamed descriptor. -/
def Obligations.QueueControl : Prop :=
  (∀ (s : State) (t : Fin 1024), quotaMet s t → QueuesWhole (s.tile t) →
    let w := (s.tile t).instr
    let q := instrQueue w
    let x := (s.tile t).queue q
    let d := (s.tile t).qdesc q
    let moves := fun (c : Instr) (f : Ptrs → Ptrs) => ∃ s', exec c s = .next s' ∧ Fired s s' t [] ∧
      ((s'.tile t).queue q).a = f x.a ∧ ((s'.tile t).queue q).b = f x.b ∧
      (∀ r, r ≠ q → (s'.tile t).queue r = (s.tile t).queue r) ∧ (s'.tile t).s.store = (s.tile t).s.store
    (Stands s t .s 4 → moves (.mark t) fun p => { p with mp := p.rp, mv := true }) ∧
    (Stands s t .s 5 → moves (.unmark t) fun p => { p with mv := false }) ∧
    (Stands s t .s 6 → x.a.mv = true → moves (.rewind t) fun p => { p with rp := p.mp }) ∧
    (Stands s t .s 7 → instrN w ≤ x.avl → moves (.skip t) fun p =>
      { p with rp := p.rp + BitVec.ofNat 24 (instrN w), fp := if qRet d then p.fp else p.rp + BitVec.ofNat 24 (instrN w) }) ∧
    (Stands s t .s 8 → instrN w = 0 → moves (.release t) fun p => { p with fp := if p.mv then p.mp else p.rp }) ∧
    (Stands s t .s 8 → instrN w ≠ 0 → instrN w ≤ dist (releaseLimit x.a) x.a.fp →
      moves (.release t) fun p => { p with fp := p.fp + BitVec.ofNat 24 (instrN w) })) ∧
  (∀ (s : State) (t : Fin 1024), quotaMet s t → QueuesWhole (s.tile t) →
    let g := s.tile t
    let w := g.instr
    (Stands s t .s 3 → runReady s g w = true → ∀ l, agWords g w = some l → agRefused w (Ag.ofWords l) = false →
      let x := Ag.ofWords l
      let idx := runIdx g w
      let m := coreMark s g (firing s t)
      let free := bankFree (atBeat s t 5 (runQueues g w))
      let u := storedTok w (tokAt (firing s t) (onePort (iIn w)))
      let gives := fun (out : List (Nat × List Token)) (left : List (Nat × SlotAccess)) (st : Nat → Slot) => ∃ s', exec (.run t) s = .next s' ∧
        Fired s s' t out ∧ (s'.tile t).s.idx = agNext idx x.lv ∧ (s'.tile t).s.lastDesc = some (runDesc w) ∧
        (s'.tile t).s.queues = g.s.queues ∧ (s'.tile t).s.deferred = left ∧ ∀ j, slotAt (s'.tile t) j = st j
      (agOffset x idx = none → gives (if x.wr then [] else [(onePort (iOut w), [mkToken 0 m g.cur 0])]) [] (slotAt g)) ∧
      (∀ off i, agOffset x idx = some off → agSlot g x off = .ok i →
        (x.wr = false → free i → slotOk (slotAt g i) = true →
          gives [(onePort (iOut w), [{ (slotAt g i).tok with ctx := g.cur, mark := m }])] [] (slotAt g)) ∧
        (x.wr = false → ¬ free i → gives [] [(5, .read i (onePort (iOut w)) m)] (slotAt g)) ∧
        (x.wr = true → free i → gives [] [] fun j => if j = i then { tok := u, chk := sideParity u } else slotAt g j) ∧
        (x.wr = true → ¬ free i → gives [] [(5, .write i u)] (slotAt g)))) ∧
    (Stands s t .s 9 → sRoom s g w = true →
      let x := g.queue (instrQueue w)
      ∃ s', exec (.qcnt t) s = .next s' ∧ Fired s s' t [(onePort (iOut w), [mkToken (mkPayload 16
        [dist x.a.wp x.a.fp, dist x.a.wp x.a.rp, qSize (g.qdesc (instrQueue w)) - dist x.a.wp x.a.fp, b2n x.a.mv,
         if x.a.mv then dist x.a.rp x.a.mp else 0, 0, 0, 0]) (coreMark s g (firing s t)) g.cur 0])]) ∧
    (Stands s t .s 10 →
      let u := tokAt (firing s t) (onePort (iIn w))
      let st := (if g.rep = 0 then [] else g.s.staging) ++ [BitVec.ofNat 64 (tokElem u 64 0), BitVec.ofNat 64 (tokElem u 64 1)]
      ∃ s', exec (.ldg t) s = .next s' ∧ Fired s s' t [] ∧
        (g.rep = 3 → (s'.tile t).s.streamed = some st ∧ (s'.tile t).s.ldgFresh = true ∧ (s'.tile t).s.staging = []) ∧
        (g.rep ≠ 3 → (s'.tile t).s.staging = st ∧ (s'.tile t).s.streamed = g.s.streamed)))

/-- R108, R109, R124, R137, R147, R154, R155: a channel-mode load beyond its channels or with another tag, a scale skew, a store read that fails
its check, a RUN beyond its bounds or with a streamed descriptor that is absent or malformed, a REWIND without a mark and a RELEASE beyond
its limit abort the task; what the instruction would have written stays. -/
def Obligations.FabricFaults : Prop :=
  (∀ (s : State) (t : Fin 1024), loadChannel (s.tile t).instr = true → (∀ i, mget 0 (s.tile t).health i = 0) →
    let g := s.tile t
    let d := mDesc g g.instr
    let b := tokAt (firing s t) (if iOpc g.instr = 3 then 1 else 3)
    (d.nch ≤ mget 0 g.m.kc d.ksel ∨ ∃ r, mget none g.m.tag d.ksel = some r ∧ r ≠ b.bseq) →
    (canFire s t .m 3 = true → ∃ s', exec (.ldc t) s = .next s' ∧ s'.pace.state = .aborted ∧ s'.tiles = s.tiles) ∧
    (canFire s t .m 4 = true → ∃ s', exec (.lds t) s = .next s' ∧ s'.pace.state = .aborted ∧ s'.tiles = s.tiles)) ∧
  (∀ (s : State) (t : Fin 1024), (∀ i, mget 0 (s.tile t).health i = 0) →
    let g := s.tile t
    (canFire s t .q 3 = true → g.rep ≠ 0 → g.q.rt ≠ some (tokAt (firing s t) 1).bseq →
      ∃ s', exec (.dsc t) s = .next s' ∧ s'.pace.state = .aborted ∧ s'.tiles = s.tiles) ∧
    (canFire s t .q 4 = true → deqReady s g g.instr = true → g.q.rt ≠ some (tokAt (firing s t) 0).bseq →
      ∃ s', exec (.deq t) s = .next s' ∧ s'.pace.state = .aborted ∧ s'.tiles = s.tiles)) ∧
  (∀ (s : State) (t : Fin 1024), StandsS s t 2 →
    let w := (s.tile t).instr
    let q := instrQueue w
    let i := qSlot ((s.tile t).qdesc q) ((s.tile t).queue q).a.rp
    0 < ((s.tile t).queue q).avl → sRoom s (s.tile t) w = true → slotOk (slotAt (s.tile t) i) = false →
    bankFree (atBeat s t 5 [q]) i →
    ∃ s', exec (.pop t) s = .next s' ∧ s'.pace.state = .aborted ∧ (s'.tile t).s.queues = (s.tile t).s.queues ∧
      (s'.tile t).pipe = (s.tile t).pipe ∧ (s'.tile t).fired = (s.tile t).fired) ∧
  (∀ (s : State) (t : Fin 1024), quotaMet s t → QueuesWhole (s.tile t) →
    let w := (s.tile t).instr
    let x := (s.tile t).queue (instrQueue w)
    (Stands s t .s 3 → runReady s (s.tile t) w = true →
      (agWords (s.tile t) w = none ∨ ∃ l, agWords (s.tile t) w = some l ∧ (agRefused w (Ag.ofWords l) = true ∨
        ∃ off o, agOffset (Ag.ofWords l) (runIdx (s.tile t) w) = some off ∧ agSlot (s.tile t) (Ag.ofWords l) off = .error o)) →
      ∃ s', exec (.run t) s = .next s' ∧ s'.pace.state = .aborted ∧ (s'.tile t).s.queues = (s.tile t).s.queues ∧
        (s'.tile t).s.store = (s.tile t).s.store ∧ (s'.tile t).s.idx = (s.tile t).s.idx ∧ (s'.tile t).pipe = (s.tile t).pipe) ∧
    (Stands s t .s 6 → x.a.mv = false →
      ∃ s', exec (.rewind t) s = .next s' ∧ s'.pace.state = .aborted ∧ (s'.tile t).s.queues = (s.tile t).s.queues) ∧
    (Stands s t .s 8 → dist (releaseLimit x.a) x.a.fp < instrN w →
      ∃ s', exec (.release t) s = .next s' ∧ s'.pace.state = .aborted ∧ (s'.tile t).s.queues = (s.tile t).s.queues))

/-- R139, R140, R144, R145, R148: a hard push moves the head of its input port into the bound queue and counts it; a hard pop moves the token at
RP to its output port and counts it; an access beyond two of its bank in the beat is left over. A new beat begins for an operation whose
place in the order of R139 has passed, or that reads a queue pushed in this one; a push to which the core's control operation of the beat
gave room takes place in that beat. The accesses left over, any number of them, come first in the next beat in their order, two for each
bank, a read seeing the writes before it; the rest wait on. -/
def Obligations.HardPortsAndBanks : Prop :=
  (∀ (s : State) (t : Fin 1024) (k : Fin 4) (q : Nat), QueuesWhole (s.tile t) →
    let g := s.tile t
    let x := g.queue q
    let d := g.qdesc q
    (∀ u r, g.binding k = some q → mget [] g.inb k = u :: r → portLive s t k = true → 2 ≤ s.cfg.stage.toNat → 0 < x.free d →
      pushFaults g k u = [] →
      let now := pushFreed g q
      let b := if now then g else atBeat s t (k.val + 1) []
      let i := qSlot d x.a.wp
      ∃ s', exec (.hardPush t k) s = .next s' ∧ mget [] (s'.tile t).inb k = r ∧
        mget 0 (s'.tile t).s.portCnt k = mget 0 g.s.portCnt k + 1 ∧
        ((s'.tile t).queue q).a = { x.a with wp := x.a.wp + 1 } ∧ ((s'.tile t).queue q).b = { x.b with wp := x.b.wp + 1 } ∧
        (∀ p, p ≠ q → (s'.tile t).queue p = g.queue p) ∧ (s'.tile t).s.beatRank = (if now then 5 else k.val + 1) ∧
        (bankFree b i → slotAt (s'.tile t) i = { tok := u, chk := sideParity u } ∧ (s'.tile t).s.deferred = [] ∧
          mget 0 (s'.tile t).s.bankUse (slotBank i) = mget 0 b.s.bankUse (slotBank i) + 1) ∧
        (¬ bankFree b i → slotAt (s'.tile t) i = slotAt g i ∧ (s'.tile t).s.deferred = [(k.val + 1, .write i u)]) ∧
        (∀ j, j ≠ i → slotAt (s'.tile t) j = slotAt g j) ∧
        (∀ i, i ≠ t.val → s'.tile i = s.tile i) ∧ s' = { s with tiles := s'.tiles }) ∧
    (g.binding (4 + k) = some q → portLive s t (4 + k) = true → 0 < x.avl → (mget [] g.pipe k).length < 3 →
      let ends := mget 0 g.s.portCnt (4 + k) + 1 == g.ctxCfg.quota (4 + k)
      let i := qSlot d x.a.rp
      let m : Marker := if ends then endMarker s.pace.rank g else .none
      let b := atBeat s t (k.val + 6) [q]
      (ends = true → popMayEnd g = true) → (bankFree b i → slotOk (slotAt g i) = true) →
      ∃ s', exec (.hardPop t k) s = .next s' ∧
        (bankFree b i → (s'.tile t).s.deferred = [] ∧ mget 0 (s'.tile t).s.bankUse (slotBank i) = mget 0 b.s.bankUse (slotBank i) + 1 ∧
          mget [] (s'.tile t).pipe k = mget [] g.pipe k ++ [{ (slotAt g i).tok with ctx := g.cur, mark := m }]) ∧
        (¬ bankFree b i → mget [] (s'.tile t).pipe k = mget [] g.pipe k ∧ (s'.tile t).s.deferred = [(k.val + 6, .read i k m)]) ∧
        mget 0 (s'.tile t).s.portCnt (4 + k) = mget 0 g.s.portCnt (4 + k) + 1 ∧ (s'.tile t).s.beatRank = k.val + 6 ∧
        ((s'.tile t).queue q).a = { x.a with rp := x.a.rp + 1, fp := if qRet d then x.a.fp else x.a.rp + 1 } ∧
        (s'.tile t).s.store = g.s.store ∧ (∀ p, p ≠ q → (s'.tile t).queue p = g.queue p) ∧
        (∀ i, i ≠ t.val → s'.tile i = s.tile i) ∧ s' = { s with tiles := s'.tiles })) ∧
  (∀ (s : State) (t : Fin 1024) (rank : Nat) (qs : List Nat), (s.tile t).s.deferred = [] →
    let g := s.tile t
    (rank ≤ g.s.beatRank ∨ (∃ q ∈ qs, q ∈ g.s.pushedNow) →
      atBeat s t rank qs = { g with s := { g.s with bankUse := [], pushedNow := [], freed := [], beatRank := 0 } }) ∧
    (g.s.beatRank < rank → (∀ q ∈ qs, q ∉ g.s.pushedNow) → atBeat s t rank qs = g)) ∧
  (∀ (s : State) (t : Fin 1024), tileKind t = .s → (s.tile t).s.deferred ≠ [] →
    let g := s.tile t
    let done := served g.s.deferred
    (∀ j who i k m, done[j]? = some (who, .read i k m) → slotOk (seenAt g (done.take j) i) = true) →
    ∃ s', exec (.bankDeferredAccess t) s = .next s' ∧ (s'.tile t).s.deferred = leftOver g.s.deferred ∧
      (∀ i, slotAt (s'.tile t) i = seenAt g done i) ∧
      (∀ p, mget [] (s'.tile t).pipe p = mget [] g.pipe p ++ readTokens g done p) ∧
      (∀ b, mget 0 (s'.tile t).s.bankUse b = (done.filter fun x => slotBank (accessSlot x.2) == b).length) ∧
      (s'.tile t).s.queues = g.s.queues ∧ (s'.tile t).s.beatRank = 0 ∧
      (∀ i, i ≠ t.val → s'.tile i = s.tile i) ∧ s' = { s with tiles := s'.tiles })

/-! ## F tiles (09, 08) -/

namespace Sys2Proof.Claims

/-- The commands of FUN with their functions (Table SFW-3). -/
def funOf (t : Fin 1024) : Instr → Option Nat
  | .funIdn u => if u = t then some 0 else none
  | .funExp u => if u = t then some 1 else none
  | .funRcp u => if u = t then some 2 else none
  | .funRsq u => if u = t then some 3 else none
  | .funSig u => if u = t then some 4 else none
  | .funTanh u => if u = t then some 5 else none
  | .funGelu u => if u = t then some 6 else none
  | _ => none

/-- The commands of BIN with what each gives of two operand patterns of AF, in OF (R182). -/
def binOf (t : Fin 1024) : Instr → Option (Nat × (FloatFmt → FloatFmt → Nat → Nat → Nat))
  | .binAdd u => if u = t then some (0, fun f o a b => o.round ((f.value a).add (f.value b))) else none
  | .binSub u => if u = t then some (1, fun f o a b => o.round ((f.value a).sub (f.value b))) else none
  | .binMul u => if u = t then some (2, fun f o a b => o.round ((f.value a).mul (f.value b))) else none
  | .binMax u => if u = t then some (3, fun f o a b => chosen f o (if (f.value a).lt (f.value b) then b else a)) else none
  | .binMin u => if u = t then some (4, fun f o a b => chosen f o (if (f.value b).lt (f.value a) then b else a)) else none
  | .binCgt u => if u = t then some (5, fun f o a b => if (f.value b).lt (f.value a) then o.round (Frac.ofInt 1) else 0) else none
  | .binCge u => if u = t then some (6, fun f o a b => if (f.value b).le (f.value a) then o.round (Frac.ofInt 1) else 0) else none
  | .binCeq u => if u = t then some (7, fun f o a b => if (f.value a).eq (f.value b) then o.round (Frac.ofInt 1) else 0) else none
  | _ => none

/-- The commands of VEC with their operations. -/
def vecOf (t : Fin 1024) : Instr → Option Nat
  | .vecSmax u => if u = t then some 0 else none
  | .vecLnrm u => if u = t then some 1 else none
  | .vecArgmax u => if u = t then some 2 else none
  | .vecStat u => if u = t then some 3 else none
  | _ => none

/-- What the closing firing of a VEC gives for the vector xs, in FP32 patterns (R184): the elements of y in OF and the statistics. SMAX leaves
elements of the negative largest finite value of AF out; of equal elements ARGMAX names the first; of a vector with every element left
out R184 names no maximum. -/
def vecGives (n : Nat) (g : GridTile) (w : BitVec 64) (xs ys stat : List Nat) : Prop :=
  let of := fOf w
  match n with
  | 0 =>
    let neg := FloatFmt.fp32.signBit + convert (fAf w) .fp32 (fAf w).maxBits
    ∃ m, ((∃ x ∈ xs, x ≠ neg) → m ∈ xs ∧ m ≠ neg ∧ ∀ x ∈ xs, x ≠ neg → fp32Lt m x = false) ∧
      let es := xs.map fun x => if x = neg then 0 else funApply 1 .fp32 (fmul32 (bits (g.const (fC w)) 32 32) (fsub32 x m))
      let total := sumOf es
      ys = es.map (fun e => if (FloatFmt.fp32.value total).isZero then 0
        else of.round ((FloatFmt.fp32.value e).div (FloatFmt.fp32.value total))) ∧ stat = [total, m, 0, 0]
  | 1 =>
    let mu := divN (sumOf xs) (vecN g w)
    let ds := xs.map fun x => fsub32 x mu
    let v := divN (sumOf (ds.map fun d => fmul32 d d)) (vecN g w)
    let r := funApply 3 .fp32 (fadd32 v (convert .fp16 .fp32 (bits (g.const (fC w)) 0 16)))
    ys = ds.map (fun d => of.round ((FloatFmt.fp32.value d).mul (FloatFmt.fp32.value r))) ∧ stat = [mu, r, 0, 0]
  | 2 =>
    ∃ i < xs.length, (∀ x ∈ xs, fp32Lt (lget 0 xs i) x = false) ∧ (∀ k < i, ∃ x ∈ xs, fp32Lt (lget 0 xs k) x = true) ∧
      ys = (List.range xs.length).map (fun k => if k = i then of.round (Frac.ofInt 1) else 0) ∧
      stat = [i, convert .fp32 (fAf w) (lget 0 xs i), 0, 0, 0, 0, 0, 0]
  | _ =>
    ys = [] ∧ ∃ m ∈ xs, (∀ x ∈ xs, fp32Lt m x = false) ∧ stat = [m, sumOf xs, sumOf (xs.map fun x => fmul32 x x), 0]

/-- The elements of a token of AF. -/
def elemsOf (w : BitVec 64) (u : Token) : List Nat := (List.range (perTok (fAf w))).map fun l => tokElem u (fAf w).width l

end Sys2Proof.Claims

/-- R182, R183: a FUN firing that closes gives f(alpha x + beta) of each element of the tokens it covers, rounded once into OF, an FP32 input with a
16-bit output covering two tokens; a BIN firing gives a op b of each pair of elements, b from IP1 or from the constants. -/
def Obligations.FunBinFirings : Prop :=
  (∀ (s : State) (t : Fin 1024) (c : Instr) (f : Nat), funOf t c = some f → Stands s t .f 1 → quotaMet s t →
    let g := s.tile t
    let w := g.instr
    fSub w = f → fReady funCloses s g w = true → closesOk s t (funCloses g w) →
    let us := if funNarrows w then g.f.held ++ [tokAt (firing s t) 0] else [tokAt (firing s t) 0]
    let ys := (us.flatMap (elemsOf w)).map fun x => funApply f (fOf w)
      (fadd32 (fmul32 (funAlpha g w) (convert (fAf w) .fp32 ((fAf w).finite x))) (funBeta g w))
    ∃ s', exec c s = .next s' ∧
      Fired s s' t (if funCloses g w then [(0, markLast (endMark s t)
        (if (us.all fun u => u.bub) && iBubm w == 0 then bubbles (ys.length / perTok (fOf w)) g.cur (bseqOf s t)
         else valueTokens (fOf w) g.cur (bseqOf s t) ys))] else []) ∧
      (s'.tile t).f.vb = g.f.vb ∧ (s'.tile t).f.pos = g.f.pos ∧ (s'.tile t).f.phase = g.f.phase) ∧
  (∀ (s : State) (t : Fin 1024) (c : Instr) (n : Nat) (op : FloatFmt → FloatFmt → Nat → Nat → Nat), binOf t c = some (n, op) →
    Stands s t .f 2 → quotaMet s t →
    let g := s.tile t
    let w := g.instr
    fSub w = n → roomAll s.adr .f g (iOut w) = true →
    let ys := (List.range (perTok (fAf w))).map fun k => op (fAf w) (fOf w)
      ((fAf w).finite (tokElem (tokAt (firing s t) 0) (fAf w).width k)) ((fAf w).finite (binB g w (firing s t) k))
    ∃ s', exec c s = .next s' ∧
      Fired s s' t [(0, markLast (endMark s t)
        (if ((toksOf (firing s t)).all fun u => u.bub) && iBubm w == 0 then bubbles 1 g.cur (bseqOf s t)
         else valueTokens (fOf w) g.cur (bseqOf s t) ys))] ∧
      (s'.tile t).f = g.f)

/-- R184, R185: a VEC firing writes its elements below N into VB, its last repeat giving the operation's vector on OP0, in REP + 1 tokens of OF
(in FP32 its first 4 (REP + 1) elements, log entry 81), and its statistics on OP1, where they are named in OUT; a WACC firing adds p v to its
eight elements of VB, which its first repeat clears, and the last gives VB. -/
def Obligations.VecWaccFirings : Prop :=
  (∀ (s : State) (t : Fin 1024) (c : Instr) (n : Nat), vecOf t c = some n → Stands s t .f 3 → quotaMet s t →
    let g := s.tile t
    let w := g.instr
    let u := tokAt (firing s t) 0
    fSub w = n → 1 ≤ vecN g w → fReady lastRep s g w = true → closesOk s t (lastRep g w) →
    let vb := fun k => if 8 * g.rep ≤ k ∧ k < 8 * g.rep + 8 ∧ k < vecN g w then
        BitVec.ofNat 32 (convert (fAf w) .fp32 ((fAf w).finite (tokElem u 16 (k - 8 * g.rep)))) else mget 0 g.f.vb k
    let bub := (g.rep == 0 || g.f.allBub) && u.bub && iBubm w == 0
    ∃ s' ys stat, exec c s = .next s' ∧ vecGives n g w ((List.range (vecN g w)).map fun k => (vb k).toNat) ys stat ∧
      Fired s s' t (if lastRep g w then
        (if bitAt (iOut w) 0 && n != 3 then [(0, markLast (endMark s t) (if bub then bubbles (iRep w + 1) g.cur (bseqOf s t)
          else (valueTokens (fOf w) g.cur (bseqOf s t)
            ((List.range (8 * (iRep w + 1))).map fun k => lget 0 ys k)).take (iRep w + 1)))] else []) ++
        (if bitAt (iOut w) 1 then [(1, markLast (endMark s t) (if bub then bubbles 1 g.cur (bseqOf s t)
          else [mkToken (mkPayload (if n = 2 then 16 else 32) stat) .none g.cur (bseqOf s t)]))] else []) else []) ∧
      (∀ k, mget 0 (s'.tile t).f.vb k = vb k)) ∧
  (∀ (s : State) (t : Fin 1024), Stands s t .f 4 → quotaMet s t →
    let g := s.tile t
    let w := g.instr
    let j := g.rep % (fSub w + 1)
    let p := (fAf w).operand (tokElem (tokAt (firing s t) 1) 16 (g.rep / (fSub w + 1) % 8))
    fReady lastRep s g w = true → closesOk s t (lastRep g w) →
    let old := fun k => if g.rep = 0 then (0 : Word) else mget 0 g.f.vb k
    let vb := fun k => if 8 * j ≤ k ∧ k < 8 * j + 8 then
        BitVec.ofNat 32 (fadd32 (old k).toNat (FloatFmt.fp32.round (p.mul ((fAf w).operand (tokElem (tokAt (firing s t) 0) 16 (k - 8 * j))))))
      else old k
    ∃ s', exec (.wacc t) s = .next s' ∧ (∀ k, mget 0 (s'.tile t).f.vb k = vb k) ∧
      Fired s s' t (if lastRep g w then [(0, markLast (endMark s t)
        (if (g.rep == 0 || g.f.allBub) && (toksOf (firing s t)).all (fun u => u.bub) && iBubm w == 0 then
           bubbles (8 * (fSub w + 1) / perTok (fOf w)) g.cur (bseqOf s t)
         else valueTokens (fOf w) g.cur (bseqOf s t)
           ((List.range (8 * (fSub w + 1))).map fun k => convert .fp32 (fOf w) (vb k).toNat)))] else []))

/-- R175 to R178, R187: the POOL firing that closes a window gives the greatest or the average of its counted taps, lane by lane; the BIL
firing that closes four taps gives their bilinear interpolation, and the phase goes on to the next of the table. -/
def Obligations.PoolBilFiring : Prop :=
  ∀ (s : State) (t : Fin 1024), quotaMet s t →
    let g := s.tile t
    let w := g.instr
    let us := g.f.held ++ [tokAt (firing s t) 0]
    let pool := fun (c : Instr) (avg : Bool) => Stands s t .f 5 → fSub w = b2n avg → fReady poolCloses s g w = true →
      closesOk s t (poolCloses g w) →
      let taps := us.zipIdx.filter fun x => tapCounts g.record g.f.pos.toNat x.2
      let lane := fun l => taps.map fun x => (fAf w).finite (tokElem x.1 16 l)
      let y := fun l => if avg then
          (if poolDivisor g.record g.f.pos.toNat = 0 then 0 else (fOf w).round ((FloatFmt.fp32.value (sumOf ((lane l).map (convert (fAf w) .fp32)))).div
            (Frac.ofInt (poolDivisor g.record g.f.pos.toNat))))
        else chosen (fAf w) (fOf w) (poolMaxOf (fAf w) (lane l))
      ∃ s', exec c s = .next s' ∧
        Fired s s' t (if poolCloses g w then [(0, markLast (endMark s t)
          (if (us.all fun u => u.bub) && iBubm w == 0 then bubbles 1 g.cur (bseqOf s t)
           else valueTokens (fOf w) g.cur (bseqOf s t) ((List.range 8).map y)))] else []) ∧
        (s'.tile t).f.held = (if poolCloses g w then [] else us)
    pool (.poolMax t) false ∧ pool (.poolAverage t) true ∧
    (Stands s t .f 6 → fReady bilCloses s g w = true → closesOk s t (bilCloses g w) →
      let c := g.const (fC w + g.f.phase.toNat)
      let fx := FloatFmt.fp32.value (bits c 32 32)
      let fy := FloatFmt.fp32.value (bits c 0 32)
      let p := fun i l => (fAf w).operand (tokElem (lget {} us i) 16 l)
      ∃ s', exec (.bil t) s = .next s' ∧
        Fired s s' t (if bilCloses g w then [(0, markLast (endMark s t)
          (if (us.all fun u => u.bub) && iBubm w == 0 then bubbles 1 g.cur (bseqOf s t)
           else valueTokens (fOf w) g.cur (bseqOf s t) ((List.range 8).map fun l =>
             (fOf w).round (lerp fy (lerp fx (p 0 l) (p 1 l)) (lerp fx (p 2 l) (p 3 l))))))] else []) ∧
        (s'.tile t).f.phase = (if bilCloses g w then (if g.f.phase.toNat < fSub w then g.f.phase + 1 else 0) else g.f.phase))

/-! ## W tiles (09) -/

/-- R192 to R197: GATE, BUBG, SWITCH, SELECT, CMP and SETF: one token, or the bubbles of BUBG, on every port of OUT, whatever the data and the
predicate; LOOP counts its loop counter modulo its limit or clears it and goes on; BR goes to JMP where its predicate holds; neither
consumes, produces or counts a firing. -/
def Obligations.SteeringFirings : Prop :=
  (∀ (s : State) (t : Fin 1024), quotaMet s t →
    let g := s.tile t
    let w := g.instr
    let ts := firing s t
    let m := wMark s g w ts
    let ok := wPred g (iPred w) (tokAt ts 3)
    let u := tokAt ts 0
    let gives := fun (c : Instr) (f : Nat → List Token) => ∃ s', exec c s = .next s' ∧
      Fired s s' t ((maskPorts (iOut w)).map fun p => (p, f p)) ∧ (s'.tile t).w = g.w
    wReady s g w = true →
    (Stands s t .w 1 → gives (.gate t) fun _ => [if ok then passTok g m u else mkBubble m g.cur u.bseq]) ∧
    (Stands s t .w 2 → gives (.bubg t) fun _ => markLast m (bubbles (bits (iOpnd w) 0 4 + 1) g.cur (bseqOf s t))) ∧
    (Stands s t .w 3 → gives (.switch t) fun p =>
      [if ok = true ∧ u.bub = false ∧ (tokAt ts 3).bub = false ∧ lane0 (tokAt ts 3) = p then passTok g m u else mkBubble m g.cur u.bseq]) ∧
    (Stands s t .w 4 → gives (.select t) fun _ =>
      [if ok = true ∧ selectOk w ts = true then passTok g m (tokAt ts (selectFrom w ts)) else mkBubble m g.cur (selectBseq w ts)]) ∧
    (Stands s t .w 5 → gives (.cmp t) fun _ =>
      let a := tokAt ts (((List.range 3).find? fun p => bitAt (iIn w) p).getD 0)
      [if ok = true ∧ a.bub = false then mkToken (mkPayload 16
        [b2n (cmpHolds (bits (iOpnd w) 16 2) (tokElem a 16 (bits (iOpnd w) 13 3)) (bits (iOpnd w) 0 12))]) m g.cur (bseqOf s t)
       else mkBubble m g.cur (bseqOf s t)]) ∧
    (Stands s t .w 6 → ∃ s', exec (.setf t) s = .next s' ∧ Fired s s' t [] ∧
      let v := (tokAt ts 3).bub || lane0 (tokAt ts 3) != 0
      (s'.tile t).w.fl0 = (if ok && !bitAt (iOpnd w) 0 then v else g.w.fl0) ∧
      (s'.tile t).w.fl1 = (if ok && bitAt (iOpnd w) 0 then v else g.w.fl1) ∧
      (s'.tile t).w.lc0 = g.w.lc0 ∧ (s'.tile t).w.lc1 = g.w.lc1)) ∧
  (∀ (s : State) (t : Fin 1024),
    let g := s.tile t
    let w := g.instr
    let one := bitAt (iOpnd w) 17
    let c := fun v : BitVec 12 => if bitAt (iOpnd w) 16 then 0 else BitVec.ofNat 12 ((v.toNat + 1) % (bits (iOpnd w) 0 12 + 1))
    let goes := fun (c : Instr) (x : WState) (pc : BitVec 8) => ∃ s', exec c s = .next s' ∧
      s'.tile t = { g with w := x, pc := pc, rep := 0, pipe := (s'.tile t).pipe, rest := (s'.tile t).rest } ∧
      (∀ p, mget [] (s'.tile t).pipe p ++ mget [] (s'.tile t).rest p = mget [] g.pipe p) ∧
      (∀ i, i ≠ t.val → s'.tile i = s.tile i) ∧ s' = { s with tiles := s'.tiles }
    iIn w = 0 → iOut w = 0 →
    (Stands s t .w 7 → goes (.loop t)
      { g.w with lc0 := if one then g.w.lc0 else c g.w.lc0, lc1 := if one then c g.w.lc1 else g.w.lc1 } (g.pc + 1)) ∧
    (Stands s t .w 8 → goes (.br t) g.w (if wPred g (iPred w) (tokAt [] 3) then BitVec.ofNat 8 (iJmp w) else g.pc + 1)))

/-! ## PACE (03) -/

namespace Sys2Proof.Claims

/-- A write to a register at this offset is answered: its domain is on and the boot has not failed (R422, R433). -/
def opens (s : State) (off : Nat) : Prop := rowOpen s off true = true

/-- An agent issues accesses, and its read or write of a register at this offset is answered (R419, R422, R429, R433). -/
def reaches (s : State) (a : Agent) (off : Nat) (write : Bool) : Prop := agentReaches s a off = true ∧ rowOpen s off write = true

/-- Each port that carries frames sends one more IDLE frame, and no other port anything (R360; log entry 84). -/
def sendsIdle (s s' : State) : Prop :=
  ∀ p < 4, if (s.port p).receives = true then ∃ f, f.body = .idle ∧ f.seq = 0 ∧ (s'.port p).sent = f :: (s.port p).sent ∧
      (s'.port p).txseq = (s.port p).txseq ∧ (s'.port p).replay = (s.port p).replay
    else s'.port p = s.port p

/-- d nanoseconds on PACE's timers (R50, R52, R54): hold time counts while hold stands and PACE is not IDLE, H(n) while a request stands and
the step runs. -/
def timed (s : State) (d : Nat) : Pace :=
  { s.pace with
    clock := s.pace.clock + d
    decLeft := s.pace.decLeft - d
    standT := if s.pace.req ≠ 0 ∧ s.pace.state ≠ .idle then s.pace.standT + d else s.pace.standT
    holdNs := if s.pace.state ≠ .idle ∧ (s.pace.req ≠ 0 ∨ s.pace.state = .aborted) then s.pace.holdNs + BitVec.ofNat 64 d else s.pace.holdNs
    stepHold := if s.pace.req ≠ 0 ∧ stepRuns s = true then s.pace.stepHold + d else s.pace.stepHold }

/-- The nanoseconds of n increments of device time (R50). -/
def nsOf (s : State) (n : Nat) : Nat := if s.domain 13 then n else 40 * n

end Sys2Proof.Claims

/-- R50 to R53, R61: a hold source whose condition stands enters its request: an entry counts in PACE_HOLD_COUNT and starts the standing time, a
join does not; in IDLE the request is noted alone; the last request withdrawn lets a held task run on; SWHOLD is source 6. Device time
advances by n ns, by 40 n while PD13 is off; PACE's clock advances with it, and hold time is counted while hold stands; under a debug hold
PACE's timers stand still and the count of all hold time runs on. -/
def Obligations.HoldsAndTime : Prop :=
  (∀ (s : State) (k : Fin 7),
    let joined := fun (p : Pace) (i : Nat) =>
      let req := p.req ||| BitVec.ofNat 7 (2 ^ i)
      let entry := p.req = 0 ∧ p.state ≠ .aborted
      if p.state = .idle then { p with req := req, standT := 0 }
      else { p with
        req := req
        standT := if entry then 0 else p.standT
        holdCount := if entry then satInc p.holdCount else p.holdCount
        holdLast := packW [(8, p.step.toNat % 2 ^ 24), (0, req.toNat)]
        state := if p.state = .running then .held else p.state }
    let left := fun (p : Pace) (i : Nat) =>
      let req := p.req &&& ~~~ BitVec.ofNat 7 (2 ^ i)
      { p with req := req, standT := if req = 0 then 0 else p.standT
               state := if req = 0 ∧ p.state = .held then .running else p.state }
    (holdStands s k = true → bitAt s.pace.req.toNat k = false → exec (.holdEntry k) s = .next { s with pace := joined s.pace k }) ∧
    (holdStands s k = false → bitAt s.pace.req.toNat k = true → exec (.holdExit k) s = .next { s with pace := left s.pace k }) ∧
    (opens s 0x1004C → bitAt s.pace.req.toNat 6 = false →
      exec (.swholdWrite true) s = .next { s with pace := joined { s.pace with swhold := true } 6 }) ∧
    (opens s 0x1004C → bitAt s.pace.req.toNat 6 = true → exec (.swholdWrite true) s = .next { s with pace := { s.pace with swhold := true } }) ∧
    (opens s 0x1004C → exec (.swholdWrite false) s = .next { s with pace := left { s.pace with swhold := false } 6 }) ∧
    (opens s 0x10000 → exec .paceClrstat s = .next { s with pace := { s.pace with
      stepMiss := 0, lagMiss := 0, holdCount := 0, holdNs := 0, maxBusy := 0 } })) ∧
  (∀ (s : State) (n : Nat),
    let d := nsOf s n
    (s.dbgHold = true → ∃ s', exec (.deviceTimeIncrement n) s = .next s' ∧ sendsIdle s s' ∧
      s' = { s with devTime := s.devTime + d, lk := s'.lk, pace := { s.pace with
        holdNs := if s.pace.state = .idle then s.pace.holdNs else s.pace.holdNs + BitVec.ofNat 64 d } }) ∧
    (s.dbgHold = false → s.pace.deciding = false ∨ d < s.pace.decLeft → ∃ s', exec (.deviceTimeIncrement n) s = .next s' ∧ sendsIdle s s' ∧
      s' = { s with devTime := s.devTime + d, lk := s'.lk, pace := timed s d }))

/-- R47, R52, R58, R61, R63, R260: a bed whose tiles have all parked reports the highest marker they consumed, or the rank; with the last
report the 10 ns decision begins. At its end the step completes where every report equals the rank, its busy time, hold excluded, in
PACE_LASTBUSY: a section-end step brings PACE to BARRIER and the front to run, a task-end step to IDLE; a report that differs aborts the task
with 0x0D0C, a busy time beyond the watchdog's limit with 0x0D05. -/
def Obligations.BedsReport : Prop :=
  (∀ (s : State) (b : Fin 256), stepRuns s = true → b.val ∈ s.bedIds → (s.bed b).reported = false → bedParked s b = true →
    let last := ∀ k ∈ s.bedIds, k ≠ b.val → (s.bed k).reported = true
    ∃ s', exec (.bedReport b) s = .next s' ∧ s'.bed b = { s.bed b with reported := true, report := bedMark s b, firing := false } ∧
      (∀ k, k ≠ b.val → s'.bed k = s.bed k) ∧
      (¬ last → s' = { s with beds := s'.beds }) ∧
      (last → s' = { s with beds := s'.beds, pace := { s.pace with deciding := true, decLeft := 10 } })) ∧
  (∀ (s : State) (n : Nat), stepRuns s = true → s.pace.deciding = true → s.pace.decLeft ≤ nsOf s n → s.dbgHold = false →
    let hold := s.pace.stepHold + (if s.pace.req = 0 then 0 else s.pace.decLeft)
    let busy := s.pace.clock + s.pace.decLeft - s.pace.relT - hold
    let comes := fun (q : State → Prop) => ∃ s', exec (.deviceTimeIncrement n) s = .next s' ∧ q s' ∧ s'.devTime = s.devTime + nsOf s n ∧
      s'.pace.clock = s.pace.clock + nsOf s n ∧ s'.pace.deciding = false ∧ s'.tiles = s.tiles ∧ s'.mc = s.mc
    (wdogLimit s < busy → comes fun s' => s'.pace.state = .aborted ∧ s'.pace.complete = false ∧
      (s.flt.firstCode = 0 → s'.flt.firstCode = 0x0D05)) ∧
    (busy ≤ wdogLimit s → (∃ k ∈ s.bedIds, (s.bed k).report ≠ s.pace.rank) → comes fun s' => s'.pace.state = .aborted ∧
      s'.pace.complete = false ∧ (s.flt.firstCode = 0 → s'.flt.firstCode = 0x0D0C)) ∧
    (busy ≤ wdogLimit s → (∀ k ∈ s.bedIds, (s.bed k).report = s.pace.rank) → comes fun s' =>
      s'.pace.complete = true ∧ s'.pace.completeT = s.pace.clock + s.pace.decLeft ∧
      s'.pace.busy = busy ∧ s'.pace.lastBusy = BitVec.ofNat 32 (min busy (2 ^ 32 - 1)) ∧
      s'.pace.maxBusy.toNat = max s.pace.maxBusy.toNat (min busy (2 ^ 32 - 1)) ∧
      s'.pace.stepMiss = (if s.pace.mode ≠ 1 ∧ s.pace.raked = false ∧
        (s.pace.act.window.toNat < busy ∨ s.pace.act.hallow.toNat < hold) then satInc s.pace.stepMiss else s.pace.stepMiss) ∧
      (s.pace.rank ≠ .sectionEnd → s.pace.rank ≠ .taskEnd → s'.pace.state = s.pace.state ∧ s'.cfg = s.cfg) ∧
      (s.pace.rank = .sectionEnd → s'.pace.state = (if s.pace.rakeAct then s.pace.state else .barrier) ∧ s'.cfg.front = .running) ∧
      (s.pace.rank = .taskEnd → s'.pace.state = .idle ∧ s'.pace.rakeAct = false ∧ s'.pace.released = false)))

/-- R9, R14, R48, R49, R57, R65: when the step is due, no hold stands and the stop step does not, PACE releases the next step: its number, its
times, every claimed tile that is not in reset unparked with no firing counted, and every pending commit group applied; before the stop step a
running PACE enters STOPPED; no step is released before the PP has written the records of the last one; where PACE's two copies, or
the trees' parity, disagree, the device stops with the device-fatal 0x0D09. -/
def Obligations.StepReleases : Prop :=
  (∀ s : State, mayRelease s = true →
    (stopsHere s = true → s.pace.state = .running → ∃ s', exec .stepRelease s = .next s' ∧ s'.pace.state = .stopped ∧
      s'.pace.stopByStep = true ∧ s'.pace.step = s.pace.step ∧ s'.tiles = s.tiles) ∧
    (stopsHere s = true → s.pace.state ≠ .running → exec .stepRelease s = .next s) ∧
    (stopsHere s = false → s.holding = true ∨ timeReached s = false → exec .stepRelease s = .next s) ∧
    (stopsHere s = false → s.holding = false → timeReached s = true → paceAgrees s = true → (s.pace.rakeAct = true ∨ listFault s = 0) →
      let m := if s.pace.released then s.pace.step + 1 else s.pace.step
      ∃ s', exec .stepRelease s = .next s' ∧ s'.pace.step = m ∧ s'.pace.dupStep = m ∧ s'.pace.released = true ∧
        s'.pace.relT = s.pace.clock ∧ s'.pace.complete = false ∧ s'.pace.rank = rankOf s ∧ s'.pace.stepHold = 0 ∧
        s'.pace.schedT = (if s.pace.released then s.pace.schedT + s.pace.act.period.toNat else s.pace.clock) ∧
        (∀ t, (s'.tile t).fired = 0 ∧ ((s.tile t).inReset = false → (s.tile t).ctxCfg.claimed = true → (s'.tile t).parked = false)) ∧
        (∀ g, groupPending s' g = false) ∧ s'.mc.mem = s.mc.mem ∧ s'.sec = s.sec)) ∧
  (∀ s : State, s.pace.released = true → s.ppSettled = false → exec .stepRelease s = .next s) ∧
  (∀ s : State, mayRelease s = true → stopsHere s = false → s.holding = false → timeReached s = true → paceAgrees s = false →
    ∃ s', exec .stepRelease s = .next s' ∧ s'.pace.state = .aborted ∧ s'.pace.fatal = true ∧ s'.pace.step = s.pace.step ∧
      s'.tiles = s.tiles)

/-- R52, R54, R58, R63, R265: a hold beyond its limit, a step beyond the watchdog's limit and a front beyond it abort the task: hold is
asserted, an entry of its own where no request stood; the snapshot names the queue, the bed or the tile that the rules name; the fabric
stands as it was, and a front as it had come. -/
def Obligations.LimitsAbort : Prop :=
  ∀ s : State, s.pace.state ≠ .aborted →
    let aborts := fun (c : Instr) (code : Nat) (q : Snapshot → Prop) => ∃ s', exec c s = .next s' ∧ s'.pace.state = .aborted ∧
      s'.pace.abort = .announced ∧ q s'.pace.snap ∧ (s.flt.firstCode = 0 → s'.flt.firstCode = BitVec.ofNat 16 code) ∧
      s'.pace.holdCount = (if s.pace.req = 0 then satInc s.pace.holdCount else s.pace.holdCount) ∧ s'.pace.deciding = false ∧
      s'.cfg = s.cfg ∧ s'.tiles = s.tiles ∧ s'.edges = s.edges ∧ s'.mc = s.mc
    (s.pace.req ≠ 0 → s.pace.state ≠ .idle → s.pace.holdlim ≠ 0 → s.pace.holdlim.toNat * 1000 < s.pace.standT →
      aborts .holdLimitExceeded 0x0D06 fun x => x.step = s.pace.step.toNat) ∧
    (stepRuns s = true → wdogLimit s < busyNow s → aborts .stallFault 0x0D05 fun x => x.step = s.pace.step.toNat ∧
      (match namedQueue s with
       | some (t, q) => x.namedTile = BitVec.ofNat 16 t ∧ x.namedQueue = BitVec.ofNat 8 q
       | none => x.namedTile = BitVec.ofNat 16 ((namedTile s).getD 0xFFFF))) ∧
    (s.cfg.front ≠ .none → s.pace.state ≠ .idle → wdogLimit s < s.pace.clock - s.pace.barrierT →
      aborts .frontLimitExceeded 0x0D0B fun x => x.namedTile = BitVec.ofNat 16 ((unswitched s).head?.getD 0xFFFF))

/-- R58, R271: the reset phase empties every slot and holds every core in reset; the clear phase, after a task-abort alone and once no dump
is due, brings PACE to IDLE. -/
def Obligations.AbortPhases : Prop :=
  ∀ s : State, s.pace.state = .aborted →
    (s.pace.abort = .announced → ∃ s', exec .abortReset s = .next s' ∧ s'.pace.abort = .resetDone ∧ s'.pace.state = .aborted ∧
      (∀ t, (s'.tile t).inb = [] ∧ (s'.tile t).pipe = [] ∧ (s'.tile t).rest = [] ∧ (s'.tile t).outb = [] ∧ (s'.tile t).latch = [] ∧ (s'.tile t).inReset = true) ∧
      (∀ e, (s'.edge e).inSlots = [] ∧ (s'.edge e).outSlots = []) ∧ s'.mc = s.mc ∧ s'.sec = s.sec) ∧
    (s.pace.abort = .resetDone → s.pace.fatal = false → s.pace.needPor = false → s.flt.dumpState ≠ .writing →
      exec .abortCleared s = .next { s with pace := { s.pace with state := .idle, abort := .none, released := false, complete := false } }) ∧
    (s.pace.fatal = true → exec .abortCleared s = .next s)

/-! ## The front, the release sequence and loads (11, 12) -/

/-- R257, R262, R263, R264: in a section-end step, and at its barrier, a tile whose old context has drained takes up the next one; a tile with no
old path does so from BARRIER on. It stands at index 0 with its core parked, every slot empty; what R257 lets survive is kept (the stores, an
M tile's channel counters and tags, a Q tile's saturation counters, the queues that meet KEEP), and all else of its kind is as at reset. The
NCE and the PP follow the last of their edge tiles; with another parameter block they are cleared, but for the flat-field tables and the
records that wait. With everything switched and every write done the next section is in force. -/
def Obligations.FrontSwitches : Prop :=
  ∀ s : State, frontMoves s = true →
    (∀ t : Fin 1024, (s.tile t).switched = false → gridOld (s.tile t) = true ∨ s.cfg.front ≠ .none → gridDrained (s.tile t) = true →
      (tileKind t = .s → (s.tile t).ctxCfg.claimed = true → (s.tile t).portsParked = true) → (∀ i, mget 0 (s.tile t).health i = 0) →
      let g := s.tile t
      ∃ s', exec (.tileSwitch (.grid t)) s = .next s' ∧
        let h := s'.tile t
        h.cur = nextCtx s ∧ h.pc = 0 ∧ h.rep = 0 ∧ h.halted = false ∧ h.switched = true ∧ h.parked = true ∧
        h.inReset = !(mget {} g.cfg (nextCtx s).toNat).claimed ∧
        h.inb = [] ∧ h.pipe = [] ∧ h.rest = [] ∧ h.outb = [] ∧ h.latch = [] ∧ h.acked = [] ∧
        h.words = g.words ∧ h.cfg = g.cfg ∧ h.wrec = g.wrec ∧ h.fired = g.fired ∧ h.hiMark = g.hiMark ∧
        h.m = { code := g.m.code, scale := g.m.scale, kc := g.m.kc, tag := g.m.tag } ∧
        h.q = { buf := g.q.buf, qs := h.q.qs, satc := g.q.satc, fired := g.q.fired } ∧
        h.s = { store := g.s.store, queues := h.s.queues, portCnt := g.s.portCnt } ∧
        (∀ q, h.queue q = if queueKept g (nextCtx s).toNat q then g.queue q else { froz := (g.queue q).froz }) ∧
        h.f = {} ∧ h.w = {} ∧ (∀ u, u ≠ t.val → s'.tile u = s.tile u) ∧ s' = { s with tiles := s'.tiles }) ∧
    (∀ e : Fin 128, (s.edge e).switched = false → edgeOld (s.edge e) = true ∨ s.cfg.front ≠ .none → edgeDrained (s.edge e) = true →
      ∃ s', exec (.tileSwitch (.edge e)) s = .next s' ∧ (s'.edge e).cur = nextCtx s ∧ (s'.edge e).switched = true ∧
        (s'.edge e).inSlots = [] ∧ (s'.edge e).outSlots = [] ∧ (s'.edge e).parked = true ∧
        (e.val / 32 = 2 → e.val % 2 = 0 →
          let l := s.listOf (nextCtx s).toNat (e.val % 32 / 2) false
          (s'.engine (e.val % 32 / 2)).hasRead = l.isSome ∧ (s'.engine (e.val % 32 / 2)).rlist = l.getD {} ∧
          (s'.engine (e.val % 32 / 2)).delivered = 0) ∧
        (e.val / 32 = 2 → e.val % 2 = 1 →
          let l := s.listOf (nextCtx s).toNat (e.val % 32 / 2) true
          (s'.engine (e.val % 32 / 2)).hasWrite = l.isSome ∧ (s'.engine (e.val % 32 / 2)).wlist = l.getD {}) ∧
        (e.val / 32 ≠ 2 → s'.se = s.se) ∧ (∀ u, u ≠ e.val → s'.edge u = s.edge u) ∧ s' = { s with edges := s'.edges, se := s'.se }) ∧
    (s.cfg.nceSwitched = false → edgesGone s nceEdge = true → s.ppSettled = true →
      let same := (s.ctxImage s.cfg.nceCtx.toNat).nce = (s.ctxImage (nextCtx s).toNat).nce
      ∃ s', exec (.tileSwitch .nce) s = .next s' ∧ s' = { s with nce := s'.nce, cfg := { s.cfg with nceCtx := nextCtx s, nceSwitched := true } } ∧
        (same → s'.nce = s.nce) ∧
        (¬ same → s'.nce.views = [] ∧ s'.nce.lines = [] ∧ s'.nce.chan = [] ∧ s'.nce.rx = [] ∧ s'.nce.trickle = [] ∧ s'.nce.slots = [] ∧
          s'.nce.cropNext = [] ∧ s'.nce.ff = s.nce.ff ∧ s'.nce.weights = s.nce.weights ∧ s'.nce.ffbank = s.nce.ffbank)) ∧
    (s.cfg.ppSwitched = false → edgesGone s ppEdge = true → s.ppSettled = true →
      let same := (s.ctxImage s.cfg.ppCtx.toNat).pp = (s.ctxImage (nextCtx s).toNat).pp
      ∃ s', exec (.tileSwitch .pp) s = .next s' ∧ s'.cfg = { s.cfg with ppCtx := nextCtx s, ppSwitched := true } ∧ s'.tiles = s.tiles ∧
        s'.nce = s.nce ∧ (same → s'.pp = s.pp) ∧
        (¬ same → s'.pp.queue = [] ∧ s'.pp.accepted = [] ∧ s'.pp.dec = [] ∧ s'.pp.rx = [] ∧ s'.pp.held = [] ∧
          (s.pp.held = [] → s'.pp.records = s.pp.records))) ∧
    (s.cfg.front ≠ .none → allSwitched s = true → writesDone s = true →
      ∃ s', exec .frontComplete s = .next s' ∧ s'.cfg.front = .none ∧ s'.cfg.sec = s.cfg.nextSec ∧
        s'.cfg.swcnt = satInc s.cfg.swcnt ∧ s'.pace.stepsSinceWarm = 0 ∧
        s'.pace.state = (if s.pace.rakeAct then s.pace.state else if s.pace.req = 0 then .running else .held) ∧
        s' = { s with cfg := s'.cfg, pace := s'.pace })

namespace Sys2Proof.Claims

/-- No two records write one byte. -/
def apart (rs : List MemRec) : Prop := rs.Pairwise fun r q => r.off + r.bytes.length ≤ q.off ∨ q.off + q.bytes.length ≤ r.off

/-- The byte that the records give address a of their store, 0 where none writes it (R244). -/
def byteIn (rs : List MemRec) (a : Nat) : Byte :=
  ((rs.find? fun r => decide (r.off ≤ a) && decide (a < r.off + r.bytes.length)).map fun r => r.bytes.getD (a - r.off) 0).getD 0

/-- The little-endian number in n such bytes from address a. -/
def numIn (rs : List MemRec) (a n : Nat) : Nat := numAt ((List.range n).map fun i => byteIn rs (a + i)) 0 n

/-- A grid tile as CFG writes it for placement p (R33, R163, R238, R244, R255): in each context its instructions, its routing word (with no
block the one of R33), its constants, its claim, bed and quotas, its bed's window record; its code store, scale store or slots from
MEMINIT; all else as at reset, but for a Q tile's saturation counters. -/
def tileWritten (p : PlcImage) (t : Fin 1024) (old g : GridTile) : Prop :=
  (∀ x < 4, let b := p.block x t.val
    (∀ c, b = some c → c.instrs.length ≤ 256 ∧ c.consts.length ≤ 127) →
    (∀ i < 256, mget 0 g.words (x * 384 + i) = ((b.map fun c => c.instrs).getD []).getD i 0) ∧
    mget 0 g.words (x * 384 + 256) = (b.map fun c => c.route).getD 0x1000000000000000 ∧
    (∀ i < 127, mget 0 g.words (x * 384 + 257 + i) = ((b.map fun c => c.consts).getD []).getD i 0) ∧
    mget {} g.cfg x = (b.map fun c => { claimed := c.claimed, bed := c.bed, qcore := c.qcore, qport := c.qport : TileCtx }).getD {} ∧
    (tileKind t = .f → ∀ c d, b = some c → c.claimed = true → (p.ctx x).beds = [d] → d.bed = c.bed → d.hasRecord = true →
      mget [] g.wrec x = d.wrec)) ∧
  (apart (recsFor p 1 t) → ∀ a, mget 0 g.m.code a = byteIn (recsFor p 1 t) a) ∧
  (apart (recsFor p 2 t) → ∀ a, mget 0 g.m.scale a = BitVec.ofNat 16 (numIn (recsFor p 2 t) (2 * a) 2)) ∧
  (apart (recsFor p 3 t) → ∀ i, let v := BitVec.ofNat 128 (numIn (recsFor p 3 t) (16 * i) 16)
    mget {} g.s.store i = { tok := { payload := v, par := parityOf v }, chk := false }) ∧
  g = { words := g.words, cfg := g.cfg, wrec := g.wrec, q := { satc := old.q.satc, fired := old.q.fired },
        m := { code := g.m.code, scale := g.m.scale }, s := { store := g.s.store } }

/-- Placement n of an image as CFG writes it into a closed fabric (R209, R238, R255, R269): every tile of a fabric block that is on, the edge
tiles' routing words, descriptors and claims, the NCE's weights and both banks of flat-field entries, bank 0 selected; the release sequence
begins. -/
def written (s s' : State) (im : LoadedImage) (pos n : Nat) : Prop :=
  let p := im.plcs.getD n emptyPlc
  s'.cfg.image = some im ∧ s'.cfg.plc = BitVec.ofNat 8 n ∧ s'.cfg.pos = BitVec.ofNat 16 pos ∧ s'.cfg.adr = im.adr ∧
  s'.cfg.half = im.half ∧ s'.cfg.state = 2 ∧ s'.cfg.stage = 0 ∧ s'.cfg.goal = .load ∧ s'.cfg.front = .none ∧ s'.cfg.sec = 0 ∧
  s'.cfg.pend = none ∧
  (∀ t : Fin 1024, s'.domain (14 + gridFab t) = true → tileWritten p t (s.tile t) (s'.tile t)) ∧
  (∀ t : Fin 1024, s'.domain (14 + gridFab t) = false → s'.tile t = {}) ∧
  (∀ e : Fin 128, s'.domain (14 + edgeFab e) = true →
    (∀ x < 4, let b := p.block x (edgeId e)
      mget 0 (s'.edge e).route x = (b.map fun c => c.route).getD 0 ∧ mget 0 (s'.edge e).edesc x = (b.map fun c => c.edesc).getD 0 ∧
      mget {} (s'.edge e).cfg x = (b.map fun c => { claimed := c.claimed, bed := c.bed, qcore := c.qcore, qport := c.qport : TileCtx }).getD {}) ∧
    s'.edge e = { route := (s'.edge e).route, edesc := (s'.edge e).edesc, cfg := (s'.edge e).cfg }) ∧
  (apart (recsFor p 5 0) → ∀ a, mget 0 s'.nce.weights a = byteIn (recsFor p 5 0) a) ∧
  ((∀ id < 32, apart (recsFor p 4 id) ∧ ∀ r ∈ recsFor p 4 id, r.off + r.bytes.length ≤ 65536) → ∀ bank < 2, ∀ v < 16, ∀ i < 16384,
    mget 0 s'.nce.ff (ffKey bank v i) = BitVec.ofNat 32 (numIn (recsFor p 4 (16 * bank + v)) (4 * i) 4)) ∧
  s'.nce.ffbank = 0

end Sys2Proof.Claims

/-- R269, R270, R271: each stage of the release sequence opens after the one before; after stage 2 a load is complete; where a placement waits
to be written the stages of an open fabric close from stage 3, with the cores in reset, to stage 1, and then the placement is written; a
stage not acknowledged within 50 us closes the fabric for good with the device-fatal 0x030E. -/
def Obligations.ReleaseStages : Prop :=
  ∀ s : State, s.cfg.goal ≠ .none → s.pace.state ≠ .aborted →
    (s.cfg.pend = none → s.cfg.stage.toNat < 2 → exec .releaseStage s =
      .next { s with cfg := { s.cfg with stage := s.cfg.stage + 1, stageT := s.devTime } }) ∧
    (s.cfg.pend = none → s.cfg.stage = 2 → s.cfg.goal = .load → (∀ p ∈ s.tiles, p.2.health = []) →
      ∃ s', exec .releaseStage s = .next s' ∧ s'.cfg.stage = 3 ∧ s'.cfg.goal = .none ∧ s'.cfg.state = 3 ∧ s'.cfg.sec = 0 ∧
        (∀ t, (s'.tile t).pc = 0 ∧ (s'.tile t).inb = [] ∧ (s'.tile t).parked = true) ∧ s'.mc = s.mc) ∧
    (∀ p, s.cfg.pend = some p →
      (s.cfg.stage = 3 → ∃ s', exec .releaseStage s = .next s' ∧ (∀ t, (s'.tile t).inReset = true ∧ (s'.tile t).inb = []) ∧
        s' = { s with tiles := s'.tiles, cfg := { s.cfg with stage := 2, stageT := s.devTime } }) ∧
      (s.cfg.stage = 2 → exec .releaseStage s = .next { s with cfg := { s.cfg with stage := 1, stageT := s.devTime } }) ∧
      (s.cfg.stage = 1 → ∃ s', exec .releaseStage s = .next s' ∧ written s s' p.im p.pos p.plc ∧ s'.cfg.loadCmd = s.cfg.loadCmd)) ∧
    (50000 < s.devTime - s.cfg.stageT →
      ∃ s', exec .releaseStageTimeout s = .next s' ∧ s'.cfg.stage = 0xF ∧ s'.cfg.state = 0 ∧ s'.cfg.image = none ∧ s'.cfg.pend = none ∧
        s'.cfg.errStage = BitVec.ofNat 4 (s.cfg.stage.toNat + if s.cfg.pend.isSome then 0 else 1) ∧
        s'.pace.state = .aborted ∧ s'.pace.fatal = true ∧ s'.cfg.goal = .none)

namespace Sys2Proof.Claims

/-- The active values of a commit group, as a list of words. -/
def activeOf (s : State) : CommitGroup → List Nat
  | .pace => [s.pace.act.period.toNat, s.pace.act.pmin.toNat, s.pace.act.window.toNat, s.pace.act.hallow.toNat, s.pace.act.laglim.toNat]
  | .nce => [s.nce.ffbank.toNat, s.nce.ffen.toNat]
  | .se => [s.se.rd.toNat, s.se.wr.toNat, s.se.rem.toNat]
  | .ring k => [(s.engine k).rbase.toNat, (s.engine k).szl.toNat, b2n (s.engine k).full]
  | .sp k => [(s.sport k).v0.lwm.toNat, (s.sport k).v0.hwm.toNat, (s.sport k).v1.lwm.toNat, (s.sport k).v1.hwm.toNat]
  | .tgt t => [(s.target t).time.toNat, (s.target t).cnt.toNat]
  | .pwr => [s.pwr.hyst.toNat, s.pwr.cap.toNat, s.pwr.floor.toNat]

/-- Its shadows. -/
def shadowOf (s : State) : CommitGroup → List Nat
  | .pace => [s.pace.shadow.period.toNat, s.pace.shadow.pmin.toNat, s.pace.shadow.window.toNat, s.pace.shadow.hallow.toNat,
      s.pace.shadow.laglim.toNat]
  | .nce => [s.nce.shFfbank.toNat, s.nce.shFfen.toNat]
  | .se => [s.se.shRd.toNat, s.se.shWr.toNat, s.se.shRem.toNat]
  | .ring k => [(s.engine k).shRbase.toNat, (s.engine k).shSzl.toNat, b2n (s.engine k).shFull]
  | .sp k => [(s.sport k).v0.shLwm.toNat, (s.sport k).v0.shHwm.toNat, (s.sport k).v1.shLwm.toNat, (s.sport k).v1.shHwm.toNat]
  | .tgt t => [(s.target t).shTime.toNat, (s.target t).shCnt.toNat]
  | .pwr => [s.pwr.shHyst.toNat, s.pwr.shCap.toNat, s.pwr.shFloor.toNat]

end Sys2Proof.Claims

/-- R9: a commit makes every shadow of its group active at once where the block is idle, and is pending until then or until a step is released
(StepReleases); a group whose values its rules refuse keeps its active values, and COMMIT reads 0. -/
def Obligations.CommitGroups : Prop :=
  ∀ (s : State) (g : CommitGroup) (a : Agent),
    (reaches s a (commitOff g) true → groupPending s g = false → groupIdle s g = false →
      ∃ s', exec (.commitWrite g a) s = .next s' ∧ groupPending s' g = true ∧ activeOf s' g = activeOf s g) ∧
    (∀ c, (c = .commitWrite g a ∧ reaches s a (commitOff g) true ∧ groupPending s g = false ∧ groupIdle s g = true) ∨
        (c = .commitApply g ∧ groupPending s g = true ∧ groupIdle s g = true) →
      ∃ s', exec c s = .next s' ∧ groupPending s' g = false ∧ shadowOf s' g = shadowOf s g ∧
        activeOf s' g = (if groupRefusal s g = none then shadowOf s g else activeOf s g) ∧ s'.mc = s.mc)

/-! ## Host commands (15) -/

namespace Sys2Proof.Claims

/-- A completion record of the command at ring index i is queued, or waits for a place in the full event queue (R331, R333). -/
def completed (s' : State) (opc seq : BitVec 16) (status : Nat) (dup : Bool) (evt : Nat) (i : Word) : Prop :=
  let d := packN [(0, opc.toNat), (16, seq.toNat), (32, status), (40, b2n dup), (48, evt)]
  (∃ x ∈ s'.hq.evq, x.code = 0x0201 ∧ x.addr = BitVec.ofNat 64 i.toNat ∧ x.detail = BitVec.ofNat 64 d) ∨
    s'.hq.cplWait = some (i.toNat, d)

/-- The command under execution ends with a status and an event code: its outcome is kept, and its completion written but for a QUIET one that
is done (R329, R331, R333). -/
def finished (s s' : State) (status evt : Nat) : Prop :=
  ∃ c, s.hq.cur = some c ∧ s'.hq.cur = none ∧
    s'.hq.kept = some { opc := c.opc, seq := c.seq, status := BitVec.ofNat 8 status, evt := BitVec.ofNat 16 evt } ∧
    ((c.quiet = true ∧ status = 0) ∨ completed s' c.opc c.seq status false evt c.index)

/-- Nothing but the host interface and the interrupt controller changed. -/
def onlyHost (s s' : State) : Prop := s' = { s with hq := s'.hq, ic := s'.ic }

end Sys2Proof.Claims

/-- R325, R331, R332: a command entry read advances CI; a SEQ equal to the kept one writes the kept completion again, with DUP: one
record joins the event queue, or waits where that is full; a malformed entry completes with status 2, any other entry is the command under
execution; a failed read disables the command ring. -/
def Obligations.CommandFetched : Prop :=
  ∀ (s : State) (b : List Byte), fetchDue s = true →
    (b.length = 64 → ∃ s', exec (.commandFetch (.ok b)) s = .next s' ∧ onlyHost s s' ∧ (s'.ring 0).ci = (s.ring 0).ci + 1 ∧
      (∀ k, s.hq.kept = some k → k.seq = BitVec.ofNat 16 (numAt b 2 2) → s'.hq.cur = none ∧ s'.hq.kept = s.hq.kept ∧
        completed s' k.opc k.seq k.status.toNat true k.evt.toNat (s.ring 0).ci ∧
        (s.hq.evq.length < 256 → s'.hq.cplWait = s.hq.cplWait ∧ ∃ x, s'.hq.evq = s.hq.evq ++ [x]) ∧
        (256 ≤ s.hq.evq.length → s'.hq.evq = s.hq.evq)) ∧
      ((∀ k, s.hq.kept = some k → k.seq ≠ BitVec.ofNat 16 (numAt b 2 2)) →
        (cmdMalformed b = true → s'.hq.cur = none ∧ completed s' (BitVec.ofNat 16 (numAt b 0 2)) (BitVec.ofNat 16 (numAt b 2 2)) 2 false 0
          (s.ring 0).ci ∧ ∃ k, s'.hq.kept = some k ∧ k.seq = BitVec.ofNat 16 (numAt b 2 2) ∧ k.status = 2) ∧
        (cmdMalformed b = false → s'.hq.kept = s.hq.kept ∧ ∃ c, s'.hq.cur = some c ∧ c.opc = BitVec.ofNat 16 (numAt b 0 2) ∧
          c.seq = BitVec.ofNat 16 (numAt b 2 2) ∧ c.bytes = b))) ∧
    (∃ s', exec (.commandFetch .failed) s = .next s' ∧ onlyHost s s' ∧ (s'.ring 0).en = false ∧ (s'.ring 0).ci = (s.ring 0).ci)

/-- R57, R266, R268, R330: NOP completes at once; RESUME leaves STOPPED, held if a hold stands; RAKE starts the rake-out of RK steps, of the latency
rule's number for RK = 0; ABORT aborts the task; out of those states each is refused as Table HST-5 has it, and PACE stays. -/
def Obligations.TaskCommands : Prop :=
  (∀ s : State,
    (curIs s 0x0001 = true → ∃ s', exec .nopCommand s = .next s' ∧ finished s s' 0 0 ∧ onlyHost s s') ∧
    (curIs s 0x0021 = true → s.pace.state = .stopped → s.pace.stopByStep = true → s.pace.rakeAct = false →
      ∃ s', exec .resume s = .next s' ∧ finished s s' 0 0 ∧ s'.pace = { s.pace with
        state := if s.pace.req = 0 then .running else .held, stopByStep := false, resumed := true } ∧ s'.tiles = s.tiles) ∧
    (curIs s 0x0022 = true → s.pace.state ≠ .idle → s.pace.state ≠ .aborted → s.pace.rakeAct = false →
      let rk := numAt (curBytes s) 8 3
      ∃ s', exec .rake s = .next s' ∧ finished s s' 0 0 ∧ s'.pace = { s.pace with
        state := .stopped, stopByStep := false, rakeAct := true, rakeDrop := bitAt (numAt (curBytes s) 11 1) 0
        rakeLeft := if rk = 0 then max s.plc.pace.latdet (max s.plc.pace.lattxt s.plc.pace.latmeas) + 1 else rk } ∧ s'.tiles = s.tiles) ∧
    (curIs s 0x0023 = true → s.pace.state ≠ .idle → s.pace.state ≠ .aborted →
      ∃ s', exec .abort s = .next s' ∧ finished s s' 0 0 ∧ s'.pace.state = .aborted ∧ s'.pace.abort = .announced ∧ s'.tiles = s.tiles)) ∧
  (∀ s : State,
    (curIs s 0x0021 = true → s.pace.state ≠ .stopped ∨ s.pace.stopByStep = false →
      ∃ s', exec .resume s = .next s' ∧ finished s s' 3 0 ∧ s'.pace = s.pace) ∧
    (curIs s 0x0022 = true → s.pace.state = .idle ∨ s.pace.state = .aborted ∨ s.pace.rakeAct = true →
      ∃ s', exec .rake s = .next s' ∧ finished s s' 1 0x0D0E ∧ s'.pace = s.pace) ∧
    (curIs s 0x0023 = true → s.pace.state = .idle ∨ s.pace.state = .aborted →
      ∃ s', exec .abort s = .next s' ∧ finished s s' 3 0 ∧ s'.pace = s.pace))

/-- R49, R57, R271, R315, R371, R383, R399: a TASK_START on an idle, loaded, unpaired device with its rings enabled is accepted at its step, or refused with
the event of the first rule it breaks; accepted, every core is held in reset and stage 3 runs again; with that stage open PACE releases the start step and the
command is done, or the stop step withholds it. A paired one waits for its partner: at TS it is accepted; without READY or START for 100 ms
it is refused with 0x0A02. -/
def Obligations.TaskStarts : Prop :=
  (∀ s : State, curIs s 0x0020 = true → s.tw.pair.waiting = false → s.cfg.goal = .none → s.loaded = true → s.pace.state = .idle →
    ringsReady s = true →
    let n := startStep s
    (n = 0 ∨ s.plc.pace.mode = 2) →
    (∀ code a, startRefusal s = some (code, a) → evSev code < 2 → ∃ s', exec .taskStart s = .next s' ∧ finished s s' 1 code ∧
      s'.pace = s.pace ∧ s'.tiles = s.tiles) ∧
    (startRefusal s = none → s.tw.state ≠ .paired → ∃ s', exec .taskStart s = .next s' ∧ s'.pace.step = n ∧
      s'.pace.state = (if s.pace.req = 0 then .running else .held) ∧ s'.pace.released = false ∧
      s'.pace.act.period = BitVec.ofNat 24 s.plc.pace.period ∧ s'.cfg.stage = 2 ∧ s'.cfg.goal = .start ∧
      (∀ t, (s'.tile t).inReset = true ∧ (s'.tile t).inb = [] ∧ (s'.tile t).q.satc = []) ∧ s'.flt.firstCode = 0 ∧ s'.mc = s.mc)) ∧
  (∀ s : State,
    (∀ ts, s.tw.pair.waiting = true → s.tw.pair.ts = some ts → ts ≤ s.devTime + s.timeOff → s.pace.state = .idle →
      s.tw.state = .paired ∨ s.tw.state = .solo →
      ∃ s', exec .pairStartAccept s = .next s' ∧ s'.pace.step = startStep s ∧ s'.cfg.goal = .start ∧ s'.cfg.stage = 2 ∧
        s'.tw.pair.waiting = false) ∧
    (s.tw.pair.waiting = true → s.tw.pair.ts = none → s.tw.pair.since + 100000000 < s.devTime → s.hq.cur.isSome = true →
      ∃ s', exec .pairStartTimeout s = .next s' ∧ finished s s' 1 0x0A02 ∧ s'.tw.pair.waiting = false ∧ s'.pace = s.pace) ∧
    (s.cfg.goal = .start → s.cfg.pend = none → s.cfg.stage = 2 → s.hq.cur.isSome = true → s.pace.released = false → s.pace.rakeAct = false →
      s.pace.resumed = false → (s.pace.state = .running ∨ s.pace.state = .held) → (∀ p ∈ s.tiles, p.2.health = []) →
      (s.pace.stopEn = true → s.pace.stopStep = s.pace.step →
        ∃ s', exec .releaseStage s = .next s' ∧ finished s s' 0 0 ∧ s'.cfg.stage = 3 ∧ s'.cfg.goal = .none ∧ s'.pace.state = .stopped ∧
          s'.pace.step = s.pace.step ∧ s'.pace.released = false) ∧
      (s.pace.stopEn = false → paceAgrees s = true → (∀ j < 16, s.listOf (s.secCtx 0) j false = none) →
        ∃ s', exec .releaseStage s = .next s' ∧ finished s s' 0 0 ∧ s'.cfg.stage = 3 ∧ s'.cfg.goal = .none ∧ s'.pace.state = s.pace.state ∧
          s'.pace.step = s.pace.step ∧ s'.pace.released = true ∧ s'.pace.relT = s.pace.clock ∧ s'.pace.rank = .stepEnd ∧
          (∀ t, (s'.tile t).inReset = !(s'.tile t).ctxCfg.claimed ∧ (s'.tile t).parked = (s'.tile t).inReset ∧ (s'.tile t).pc = 0))))

/-- R236 to R238, R250, R269, R291, R320: an IMG_LOAD out of LPDDR6, or out of host memory while requests may go out, whose image fails a check is
refused with the check's event, row and location, no tile written; one that passes with its domains on is copied into the free half, and its
placement is written, after the stages of an open fabric have closed. An image that cannot be read whole, an uncorrectable unit counted
among them, is refused with 0x0301; a load out of host memory waits while no request may go out. -/
def Obligations.ImageLoads : Prop :=
  ∀ (s : State) (r : ImageRead), curIs s 0x0010 = true → s.cfg.goal = .none → s.mc.ready = true →
    loadAddrOk s = true → s.pace.state = .idle →
    let s0 := noteLoaderRead { s with cfg := { s.cfg with errCode := 0, errRow := 0, loc := 0 } } r.health r.addr
    (loadFromHost s = true → s.canRequest = false → exec (.imgLoad r) s = .next s) ∧
    (loadFromHost s = false ∨ s.canRequest = true →
      (imageBytes s0 r.data r.health = none → ∃ s', exec (.imgLoad r) s = .next s' ∧ finished s s' 1 0x0301 ∧ s'.tiles = s.tiles ∧
        s'.mc.mem = s.mc.mem ∧ s'.cfg.errCode = 0x0301 ∧ s'.cfg.errRow = 2 ∧
        (loadFromHost s = false → s'.mc.uecnt = satInc s.mc.uecnt ∧ s'.mc.errUe = true ∧ s'.mc.errAddr = BitVec.ofNat 36 (badUnit s r.addr))) ∧
      (∀ b, imageBytes s0 r.data r.health = some b →
        let bad := loadChecks s0 b (loadLen s0) (loadPlc s0) (loadPos s0)
        let im := imageOf b (loadPos s0) (freeHalf s0)
        let p := im.plcs.getD (loadPlc s0) emptyPlc
        ∃ s', exec (.imgLoad r) s = .next s' ∧
          (s'.mc.mem = if inPlace s0 then s.mc.mem else memWrite s.mc.mem (halfBase s0 (freeHalf s0)) b) ∧
          (∀ f, bad = some f → evSev f.code < 2 → finished s s' 1 f.code ∧ s'.tiles = s.tiles ∧ s'.edges = s.edges ∧
            s'.cfg.errCode = BitVec.ofNat 16 f.code ∧ s'.cfg.errRow = BitVec.ofNat 8 f.row ∧ s'.cfg.loc = BitVec.ofNat 32 f.loc ∧
            s'.cfg.state = s.cfg.state) ∧
          (∀ d, bad = none → domainOff s0 p = some d → finished s s' 1 0x0B0E ∧ s'.tiles = s.tiles) ∧
          (bad = none → domainOff s0 p = none →
            (s.cfg.stage = 0 ∨ s.cfg.stage = 15 → written s s' im (loadPos s0) (loadPlc s0)) ∧
            (s.cfg.stage ≠ 0 → s.cfg.stage ≠ 15 → s'.cfg.pend = some { im := im, pos := loadPos s0, plc := loadPlc s0 } ∧
              s'.cfg.state = 2 ∧ s'.cfg.stage = s.cfg.stage ∧ s'.cfg.goal = .load ∧ s'.tiles = s.tiles ∧ s'.edges = s.edges))))

/-- R238, R372, R428: PLC_SWITCH to a placement that the loaded image carries, with its domains on, writes it, after the stages of an open fabric have
closed, else it is refused; EPOCH sets device time to VALUE at once, with FOLLOW it waits for a SYNC of its port and ends with 0x090B after 100 us; ATTEST with
firmware running writes the report of 928 bytes and its signature to the host buffer. -/
def Obligations.PlacementEpochAttest : Prop :=
  (∀ (s : State) (im : LoadedImage), curIs s 0x0030 = true → s.cfg.goal = .none → s.loaded = true → s.pace.state = .idle →
    s.cfg.image = some im →
    let n := numAt (curBytes s) 8 1
    (plcCarried s n = true → domainOff s (im.plcs.getD n emptyPlc) = none →
      ∃ s', exec .plcSwitch s = .next s' ∧ s'.mc = s.mc ∧ s'.sec = s.sec ∧
        (s.cfg.stage = 0 ∨ s.cfg.stage = 15 → written s s' im s.cfg.pos.toNat n) ∧
        (s.cfg.stage ≠ 0 → s.cfg.stage ≠ 15 → s' = { s with cfg := { s.cfg with
          state := 2, goal := .load, loadCmd := true, stageT := s.devTime, errStage := 0
          pend := some { im := im, pos := s.cfg.pos.toNat, plc := n } } })) ∧
    (plcCarried s n = false → ∃ s', exec .plcSwitch s = .next s' ∧ finished s s' 1 0x030B ∧ s'.cfg = s.cfg ∧ s'.tiles = s.tiles)) ∧
  (∀ s : State,
    (curIs s 0x0040 = true → s.lk.follow = none → s.pace.state = .idle →
      let v := numAt (curBytes s) 8 8
      (bitAt (numAt (curBytes s) 16 4) 0 = false → s.devTime + s.timeOff ≤ v →
        ∃ s', exec .epoch s = .next s' ∧ finished s s' 0 0 ∧ s'.time64 = v % 2 ^ 64 ∧ s'.devTime = s.devTime ∧ s'.tiles = s.tiles) ∧
      (bitAt (numAt (curBytes s) 16 4) 0 = true → (s.port (bits (numAt (curBytes s) 16 4) 1 2)).isUp = true →
        exec .epoch s = .next { s with lk := { s.lk with
          follow := some (bits (numAt (curBytes s) 16 4) 1 2, BitVec.ofNat 64 v, s.devTime) } })) ∧
    (∀ p v t, s.lk.follow = some (p, v, t) → s.hq.cur.isSome = true → t + 100000 < s.devTime →
      ∃ s', exec .epochFollowTimeout s = .next s' ∧ finished s s' 1 0x090B ∧ s'.lk.follow = none ∧ s'.timeOff = s.timeOff)) ∧
  (∀ s : State, curIs s 0x0050 = true →
    (s.sec.bootState = 3 → s.canRequest = true →
      let body := reportBody s (slice (curBytes s) 16 32)
      ∃ s', exec .attest s = .next s' ∧ finished s s' 0 0 ∧ body.length = 928 ∧
        s'.hostOut = .write (BitVec.ofNat 64 (numAt (curBytes s) 8 8)) (body ++ reportSign body) :: s.hostOut ∧
        s'.sec = s.sec) ∧
    (s.sec.bootState = 3 → s.canRequest = false → exec .attest s = .next s) ∧
    (s.sec.bootState ≠ 3 → ∃ s', exec .attest s = .next s' ∧ finished s s' 1 0x0C08 ∧ s'.hostOut = s.hostOut))

/-! ## Rings, host streams, BAR2 (15) -/

/-- R324, R326, R327: a doorbell of 1 to the bound moves its index, of 0 does nothing, any other is ignored and counted; RING_ENABLE with a
size in range clears the indices, another size leaves the ring as it was; RING_DISABLE clears EN unless the ring is locked; HQ_CLRSTAT clears
the counters. While PD2 is off or the boot has failed each is a violation instead (Registers). -/
def Obligations.RingRegisters : Prop :=
  ∀ (s : State) (n : Fin 26) (v : Word) (z : BitVec 5) (g : BitVec 6), opens s 0x40000 →
    let r := s.ring n
    let old := if hostProduces n then r.pi else r.ci
    let lim := if hostProduces n then r.size - r.used else r.used
    (r.en = true → v = old → exec (.doorbell n v) s = .next s) ∧
    (r.en = true → v ≠ old → (v - old).toNat ≤ lim →
      exec (.doorbell n v) s = .next (s.setRing n (if hostProduces n then { r with pi := v } else { r with ci := v }))) ∧
    (r.en = false ∨ lim < (v - old).toNat → ∃ s', exec (.doorbell n v) s = .next s' ∧ (s'.ring n).baddb = satInc r.baddb ∧
      (s'.ring n).pi = r.pi ∧ (s'.ring n).ci = r.ci ∧ onlyHost s s') ∧
    (r.en = false → szlOk n z = true → wbOverlaps s n z = false → ∃ s', exec (.ringEnable n z) s = .next s' ∧
      (s'.ring n).en = true ∧ (s'.ring n).szl = z ∧ (s'.ring n).pi = 0 ∧ (s'.ring n).ci = 0 ∧ s' = { s with hq := s'.hq }) ∧
    (r.en = false → szlOk n z = false ∨ wbOverlaps s n z = true → ∃ s', exec (.ringEnable n z) s = .next s' ∧ (s'.ring n).en = false ∧
      onlyHost s s') ∧
    (r.en = true → exec (.ringEnable n z) s = .next s) ∧
    (ringLocked s n = false → exec (.ringDisable n) s = .next (s.setRing n { r with en := false })) ∧
    (ringLocked s n = true → exec (.ringDisable n) s = .next s) ∧
    (∃ s', exec .hqClrstat s = .next s' ∧ s'.hq.evlost = 0 ∧ (∀ k, (s'.ring k).baddb = 0 ∧ (s'.ring k).pi = (s.ring k).pi) ∧
      s' = { s with hq := s'.hq }) ∧
    exec (.windowBaseWrite g) s = .next { s with hq := { s.hq with win := g } }

/-- R327, R328, R336 to R340: the write-back block, the oldest event record, result record and outward token go to host memory at PI, which
advances; an inward entry becomes a token of its channel's buffer. -/
def Obligations.RecordsToHost : Prop :=
  ∀ (s : State) (c : Fin 8),
    (s.hq.wbEn = true → s.hq.wbDirty = true → s.canRequest = true → exec .writeBack s =
      .next { s with hostOut := .write s.hq.wbAddr (wbBlock s) :: s.hostOut, hq := { s.hq with wbDirty := false } }) ∧
    (∀ e r, s.hq.evq = e :: r → ringRoom s 1 = true → s.hq.lostNow = 0 → s.hq.cplWait = none →
      ∃ s', exec .eventRecordWrite s = .next s' ∧ s'.hq.evq = r ∧ (s'.ring 1).pi = (s.ring 1).pi + 1 ∧
        s'.hostOut = .write (entryAddr (s.ring 1) 1 (s.ring 1).pi) (eventBytes e) :: s.hostOut) ∧
    (∀ r l, s.pp.records = r :: l → ringRoom s (2 + r.ring) = true →
      ∃ s', exec .recordWrite s = .next s' ∧ s'.pp.records = l ∧
        (s'.ring (2 + r.ring)).pi = (s.ring (2 + r.ring)).pi + 1 ∧ (s'.ring (2 + r.ring)).ci = (s.ring (2 + r.ring)).ci ∧
        (.write (entryAddr (s.ring (2 + r.ring)) (2 + r.ring) (s.ring (2 + r.ring)).pi) r.bytes) ∈ s'.hostOut) ∧
    (∀ t l, (s.chan c).outq = t :: l → ringRoom s (18 + c) = true →
      ∃ s', exec (.hostStreamWrite c) s = .next s' ∧ (s'.chan c).outq = l ∧ (s'.ring (18 + c)).pi = (s.ring (18 + c)).pi + 1 ∧
        s'.hostOut = .write (entryAddr (s.ring (18 + c)) (18 + c) (s.ring (18 + c)).pi) (tokenEntry t) :: s.hostOut) ∧
    (∀ b, streamDue s c = true → b.length = 32 → exec (.hostStreamFetch c (.ok b)) s =
      .next (s.setChan c { s.chan c with buf := (s.chan c).buf ++ [entryToken b] })) ∧
    (streamDue s c = true → ∃ s', exec (.hostStreamFetch c .failed) s = .next s' ∧ s'.pace.state = .aborted)

/-- R292, R293, R322: a BAR2 write stores its bytes at BASE x 2^30 + offset and nowhere else, unless they are poisoned, beyond memory, or in
the loaded image or the dump region, when nothing is stored; a read gives the bytes there. -/
def Obligations.Bar2Access : Prop :=
  ∀ (s : State) (off : Nat) (bs : List Byte) (len : Nat) (rid : BitVec 16),
    let a := s.hq.win.toNat * 2 ^ 30 + off
    off + bs.length ≤ 2 ^ 34 → 1 ≤ bs.length → bs.length ≤ 4096 → off + len ≤ 2 ^ 34 → 1 ≤ len → len ≤ 4096 →
    (s.mc.ready = true → a + bs.length ≤ memSize s → bar2Kept s off bs.length = false →
      ∃ s', exec (.bar2Write off bs false rid) s = .next s' ∧ s' = { s with mc := s'.mc } ∧
        (∀ x, x < a ∨ a + bs.length ≤ x → memGet s'.mc.mem x = memGet s.mc.mem x) ∧
        (∀ i, (h : i < bs.length) → memGet s'.mc.mem (a + i) = bs[i]) ∧
        (∀ u, a < 16 * u + 16 → 16 * u < a + bs.length → mget 0 s'.mc.side u = 0)) ∧
    (∀ p, p = true ∨ s.mc.ready = false ∨ memSize s < a + bs.length ∨ bar2Kept s off bs.length = true →
      ∃ s', exec (.bar2Write off bs p rid) s = .next s' ∧ s'.mc = s.mc) ∧
    (s.mc.ready = true → a + len ≤ memSize s → exec (.bar2Read off len .good rid) s =
      .next { s with answer := .bytes (memRead s.mc.mem a len) false }) ∧
    (s.mc.ready = false ∨ memSize s < a + len → ∃ s', exec (.bar2Read off len .good rid) s = .next s' ∧ s'.answer = .abort ∧ s'.mc = s.mc)

/-! ## Interrupts and mailboxes (16) -/

/-- R352, R353, R355: writes of PEND, MASK and SENSE, and TAKE, source by source; a change of a line that is an event under the sense mode sets
pending and counts, as the error that AER reports does at source 12 (R341; log entry 86); an effective host bit that rises arms one enabled
target, the next after the last used. -/
def Obligations.InterruptSources : Prop :=
  (∀ (s : State) (k : Fin 4) (v : Word) (n : Fin 128) (a : Agent) (z : BitVec 2),
    opens s 0x20000 →
    (∃ s', exec (.pendWrite k v) s = .next s' ∧ s' = { s with ic := s'.ic } ∧ ∀ i < 128, (s'.source i).pend =
      if i / 32 = k.val then bitAt v.toNat (i % 32) || ((s.source i).sense == 0 && (s.source i).line) else (s.source i).pend) ∧
    (∀ mp, mp = false ∨ s.sec.cores ≠ 0 → ∃ s', exec (.maskWrite mp k v) s = .next s' ∧ s' = { s with ic := s'.ic } ∧ ∀ i < 128,
      (s'.source i).maskHost = (if i / 32 = k.val ∧ mp = false then bitAt v.toNat (i % 32) else (s.source i).maskHost) ∧
      (s'.source i).maskMp = (if i / 32 = k.val ∧ mp = true then bitAt v.toNat (i % 32) else (s.source i).maskMp) ∧
      (s'.source i).pend = (s.source i).pend) ∧
    (∃ s', exec (.senseChange n z) s = .next s' ∧ s' = { s with ic := s'.ic } ∧ (s'.source n).sense = z ∧
      (s'.source n).pend = ((s.source n).pend || ((s.source n).sense != 0 && z == 0 && (s.source n).line))) ∧
    (agentReaches s a 0x20040 = true → ∃ s', exec (.take a n) s = .next s' ∧ s' = { s with ic := s'.ic } ∧ (s'.source n).cnt = 0 ∧
      mget 0 s'.ic.taken (agentNo a) = packW [(8, n.val), (0, (s.source n).cnt.toNat)])) ∧
  (∀ (s : State) (k : Fin 128) (level : Bool), levelSource k = true → lineLevel s k = level → (s.source k).line ≠ level →
    let x := s.source k
    let ev := senseEvent x.sense level
    ∃ s', exec (.sourceLineChange k level) s = .next s' ∧ s' = { s with ic := s'.ic } ∧ (s'.source k).line = level ∧
      (s'.source k).pend = (x.pend || ev) ∧ (s'.source k).cnt = (if ev then satInc x.cnt else x.cnt) ∧
      (x.pend = false → ev = true → x.maskHost = false → x.maskMp = true →
        ∀ t, nextTarget 64 x.lastHost (fun v => bitAt x.vec.toNat v) = some t →
          (s'.target t).waiting = (s.target t).waiting + 1 ∧ (s'.source k).lastHost = t ∧ ∀ u, u ≠ t → s'.target u = s.target u)) ∧
  (∀ s : State, ∃ s', exec (.sourceLineChange 12 true) s = .next s' ∧ s' = { s with ic := s'.ic } ∧ (s'.source 12).pend = true ∧
    (s'.source 12).cnt = satInc (s.source 12).cnt)

/-- R321, R354, R357: a target whose set is full or old enough sends: the set's priority goes on its stack and the set empties; a host vector
that nothing holds back issues its MSI-X message, its entry's data at its entry's address, after a write-back that is due (R328), and one
held back waits in the PBA; EOI pops the stack, and counts an error on an empty one; unmasking a vector or the function issues what the PBA
held. -/
def Obligations.InterruptTargets : Prop :=
  ∀ (s : State) (t : Fin 68) (a : Agent),
    let x := s.target t
    let holdsBack := s.ic.msixEn = false ∨ s.ic.fmask = true ∨ x.vmask = true
    (sendDue s x = true → ∃ s', exec (.interruptSend t) s = .next s' ∧ (s'.target t).stack = x.wprio :: x.stack ∧
      (s'.target t).waiting = 0 ∧
      (t.val < 64 → ¬ holdsBack → s.canRequest = true → s.hq.msixOut = [] →
        s'.hostOut = .msix t.val x.msgAddr x.msgData ::
          (if s.hq.wbEn = true ∧ s.hq.wbDirty = true then [.write s.hq.wbAddr (wbBlock s)] else []) ++ s.hostOut) ∧
      (t.val < 64 → ¬ holdsBack → s.canRequest = false ∨ s.hq.msixOut ≠ [] → s'.hq.msixOut = s.hq.msixOut ++ [t.val] ∧
        s'.hostOut = s.hostOut) ∧
      (t.val < 64 → holdsBack → (s'.target t).pba = x.pba + 1 ∧ s'.hostOut = s.hostOut) ∧
      (64 ≤ t.val → (s'.target t).mpLine = true ∧ s'.hostOut = s.hostOut)) ∧
    (sendDue s x = false → exec (.interruptSend t) s = .next s) ∧
    (reaches s a (0x2200C + 0x10 * t) true →
      (t.val < 64 ∨ isHost a = false →
        (∀ p r, x.stack = p :: r → ∃ s', exec (.eoi a t true) s = .next s' ∧
          s'.target t = { x with stack := r, mpLine := x.mpLine && !r.isEmpty } ∧ s' = { s with ic := s'.ic }) ∧
        (x.stack = [] → ∃ s', exec (.eoi a t true) s = .next s' ∧ (s'.target t).eoierr = satInc x.eoierr ∧ onlyHost s s')) ∧
      (64 ≤ t.val → isHost a = true → ∃ s', exec (.eoi a t true) s = .next s' ∧ (s'.target t).stack = x.stack ∧
        s'.glb.violCode = 0x0103)) ∧
    (∀ v : Fin 64, s.ic.msixEn = true → s.ic.fmask = false → ∃ s', exec (.msixVectorUnmask (some v)) s = .next s' ∧
      (s'.target v).vmask = false ∧ (s'.target v).pba = 0 ∧
      (s.canRequest = true → s.hq.msixOut = [] → s'.hostOut.length ≥ s.hostOut.length + (s.target v).pba)) ∧
    (s.ic.msixEn = true → ∃ s', exec (.msixVectorUnmask none) s = .next s' ∧ s'.ic.fmask = false ∧
      ∀ v < 64, (s'.target v).vmask = (s.target v).vmask ∧ (s'.target v).pba = if (s.target v).vmask then (s.target v).pba else 0)

namespace Sys2Proof.Claims

/-- A word as a queue holds it: parity right. -/
def held (w : Word) : MboxWord := { w := w }

/-- A message queue between messages: no part written, none to skip. -/
def between (q : MboxQ) : Prop := q.part = [] ∧ q.left = 0 ∧ q.skip = 0

end Sys2Proof.Claims

/-- R344, R346 to R349: a message from the host or the debug port towards firmware, or from a management core outwards, is queued under the
sender's code, whole or not at all: its words are seen by the reader once the last is in. A host write where PEER does not name the host alone
is a locked write, one from a debug port that PEER does not permit is rejected; a pop removes words from the head; PEER takes the masks that the
device allows and no other; the head outbound message for a link goes over the port that its DEST names, in UP, and leaves the queue. -/
def Obligations.MailboxMessages : Prop :=
  (∀ (s : State) (m : Fin 8) (w : Word) (a : Agent) (n : BitVec 5) (v : BitVec 16),
    let x := s.mbox m
    let only := fun (s' : State) => (∀ i, i ≠ m.val → s'.mbox i = s.mbox i) ∧ s' = { s with mbx := s'.mbx }
    (reaches s a (0x30000 + 0x40 * m) true → ∀ bit code, (∃ rid, a = .host rid ∧ bit = 0 ∧ code = 0) ∨ (a = .dbg ∧ bit = 15 ∧ code = 15) →
      (bitAt x.peer.toNat bit = true →
        (between x.inq → hdrLen w = 0 → x.inq.words.length < 16 →
          ∃ s', exec (.mailboxTxWrite a m w) s = .next s' ∧ (s'.mbox m).inq.words = x.inq.words ++ [held (stampSender w code)] ∧ only s') ∧
        (between x.inq → 0 < hdrLen w → x.inq.words.length + hdrLen w < 16 →
          ∃ s', exec (.mailboxTxWrite a m w) s = .next s' ∧ (s'.mbox m).inq.part = [held (stampSender w code)] ∧
            (s'.mbox m).inq.left = hdrLen w ∧ (s'.mbox m).inq.words = x.inq.words ∧ only s') ∧
        (between x.inq → 16 < x.inq.words.length + hdrLen w + 1 →
          ∃ s', exec (.mailboxTxWrite a m w) s = .next s' ∧ (s'.mbox m).inq.words = x.inq.words ∧ (s'.mbox m).refused = true ∧
            (s'.mbox m).inq.skip = hdrLen w ∧ (s'.mbox m).dropRefused = satInc x.dropRefused) ∧
        (x.inq.skip = 0 → 0 < x.inq.left → ∃ s', exec (.mailboxTxWrite a m w) s = .next s' ∧ only s' ∧
          (s'.mbox m).inq.left = x.inq.left - 1 ∧
          (x.inq.left = 1 → (s'.mbox m).inq.words = x.inq.words ++ x.inq.part ++ [held w] ∧ (s'.mbox m).inq.part = []) ∧
          (1 < x.inq.left → (s'.mbox m).inq.words = x.inq.words ∧ (s'.mbox m).inq.part = x.inq.part ++ [held w])) ∧
        (0 < x.inq.skip → ∃ s', exec (.mailboxTxWrite a m w) s = .next s' ∧ only s' ∧ (s'.mbox m).inq.words = x.inq.words ∧
          (s'.mbox m).inq.skip = x.inq.skip - 1)) ∧
      (bit = 0 → bitAt x.peer.toNat 0 = false → ∃ s', exec (.mailboxTxWrite a m w) s = .next s' ∧ s'.mbx = s.mbx ∧
        s'.glb.violCode = 0x0103 ∧ s'.glb.violAddr = BitVec.ofNat 36 (0x30000 + 0x40 * m)) ∧
      (bit = 15 → bitAt x.peer.toNat 15 = false → between x.inq → ∃ s', exec (.mailboxTxWrite a m w) s = .next s' ∧
        (s'.mbox m).inq.words = x.inq.words ∧ (s'.mbox m).dropRejected = satInc x.dropRejected ∧ (s'.mbox m).inq.skip = hdrLen w)) ∧
    (∀ c, reaches s (.mp c) (0x30000 + 0x40 * m) true → between x.outq → hdrLen w = 0 → x.outq.words.length < 16 →
      destOk s m x.dest.toNat = true → ∃ s', exec (.mailboxTxWrite (.mp c) m w) s = .next s' ∧
        (s'.mbox m).outq.words = x.outq.words ++ [held (stampSender w (1 + c))] ∧ (s'.mbox m).outDests = x.outDests ++ [x.dest] ∧
        (s'.mbox m).inq = x.inq) ∧
    (∀ c, reaches s (.mp c) (0x30008 + 0x40 * m) true → ∃ s', exec (.mailboxPop (.mp c) m n) s = .next s' ∧
      (s'.mbox m).inq.words = x.inq.words.drop n.toNat ∧ (s'.mbox m).outq = x.outq ∧ only s') ∧
    (reaches s a (0x30008 + 0x40 * m) true → (∀ c, a ≠ .mp c) → ∃ s', exec (.mailboxPop a m n) s = .next s' ∧
      (s'.mbox m).outq.words = x.outq.words.drop n.toNat ∧ (s'.mbox m).inq = x.inq) ∧
    (opens s (0x30010 + 0x40 * m) → s.sec.cores ≠ 0 → exec (.peerWrite m v) s =
      .next (if (v.getLsbD 0 = false ∨ v = 1) ∧ v &&& 0x60FE = 0 then s.setMbox m { x with peer := v } else s))) ∧
  (∀ (s : State) (m : Fin 8) (d : BitVec 4) (ds : List (BitVec 4)) (p : Nat),
    let x := s.mbox m
    let n := x.outq.headWords
    x.outDests = d :: ds → portOfCode s d.toNat = some p → x.outq.headLeft = n → 0 < n → n ≤ x.outq.words.length →
    (s.port p).isUp = true → x.perr = false → (s.port p).replay.length < 64 → (s.port p).txq = [] →
    ∃ s', exec (.messageForward m) s = .next s' ∧ (s'.mbox m).outq.words = x.outq.words.drop n ∧ (s'.mbox m).outDests = ds ∧
      (s'.port p).txseq = (s.port p).txseq + 1 ∧
      ∃ f, (s'.port p).sent = f :: (s.port p).sent ∧ f.body = .msg ((x.outq.words.take n).map fun w => w.w) ∧ f.seq = (s.port p).txseq)

namespace Sys2Proof.Claims

/-- A message stands whole at the head of mailbox m's inbound queue, of good parity, its MSEQ not the kept one, firmware running and able
to answer its sender with k words; the head of the outbound queue, if any, has been checked as it came there. -/
structure Served (s : State) (m : Fin 8) (ws : List Word) (k : Nat) : Prop where
  boot : s.sec.bootState = 3
  words : headMessage s m = some (ws.map held)
  whole : ws.length = 1 + hdrLen (ws.headD 0)
  fresh : (s.mbox m).keptMseq ≠ some (hdrSeq (ws.headD 0))
  room : outReady s m k = true
  dest : destOk s m (hdrSender (ws.headD 0)) = true
  headSeen : (s.mbox m).outq.words = [] ∨ (s.mbox m).outq.headLeft ≠ 0

/-- The message left its queue and the reply r, stamped with the core's code, stands at the end of the outbound queue; a reply with STATUS 0
is kept. -/
def replied (s s' : State) (m : Fin 8) (core : Fin 4) (ws : List Word) (r : Reply) : Prop :=
  (s'.mbox m).inq.words = (s.mbox m).inq.words.drop ws.length ∧
  (s'.mbox m).outq.words = (s.mbox m).outq.words ++
    (stampSender ((replyWords (ws.headD 0) r).headD 0) (1 + core.val) :: (replyWords (ws.headD 0) r).drop 1).map held ∧
  (s'.mbox m).outDests = (s.mbox m).outDests ++ [BitVec.ofNat 4 (hdrSender (ws.headD 0))] ∧
  (s'.mbox m).keptMseq = (if r.status = 0 then some (hdrSeq (ws.headD 0)) else (s.mbox m).keptMseq) ∧
  (s'.mbox m).keptReply = (if r.status = 0 then replyWords (ws.headD 0) r else (s.mbox m).keptReply)

/-- Nothing but mailbox m changed. -/
def onlyMbox (s s' : State) (m : Fin 8) : Prop := s' = { s with mbx := s'.mbx } ∧ ∀ i, i ≠ m.val → s'.mbox i = s.mbox i

/-- The commands that serve a message: whether they serve this one, the senders that Table IRQ-3 permits and the LEN that it gives. -/
def messages (m : Fin 8) (core : Fin 4) (ws : List Word) : List (Instr × Bool × List Nat × Nat) :=
  let t := hdrType (ws.headD 0)
  let sub := bits (msgWord ws 1) 24 8
  [(.ping m core, t == 1, [0, 8, 9, 10, 11, 12, 15], 0), (.version m core, t == 2, [0, 8, 9, 10, 11, 12, 15], 0),
   (.faultlog m core, t == 0x10, [0, 15], 2), (.dump m core, t == 0x11, [0, 15], 0), (.pacehint m core, t == 0x20, [9, 10, 11, 12], 3),
   (.plcsw m core, t == 0x22, [8, 9, 10, 11, 12], 1), (.heartbeat m core, t == 0x30 && sub != 7, [8], 1),
   (.takeover m core, t == 0x30 && sub == 7, [8], 3), (.dbgchalChallenge m core, t == 0x50 && sub != 2, [0, 15], 1),
   (.dbgchalResponse m core, t == 0x50 && sub == 2, [0, 15], 15)]

end Sys2Proof.Claims

/-- R350, R351: each message of Table IRQ-3 from a sender that it does not permit is answered STATUS 4, one of another LEN STATUS 2, and one of
a TYPE that the table does not define (0x80 and above among them) STATUS 2; PING, VERSION, FAULTLOG, DUMP, HEARTBEAT and TAKEOVER are answered
as the table has them (how a FAULTLOG reply lays its entries out is a free value); a repeat of the kept MSEQ is answered with the kept reply
and DUP; nothing but the mailbox changes. -/
def Obligations.FirmwareAnswers : Prop :=
  ∀ (s : State) (m : Fin 8) (core : Fin 4) (ws : List Word),
    let h := ws.headD 0
    let answers := fun (c : Instr) (r : Reply) => Served s m ws (replyWords h r).length →
      ∃ s', exec c s = .next s' ∧ replied s s' m core ws r ∧ onlyMbox s s' m
    (∀ x ∈ messages m core ws, x.2.1 = true → (hdrSender h ∉ x.2.2.1 → answers x.1 { status := 4 }) ∧
      (hdrSender h ∈ x.2.2.1 → hdrLen h ≠ x.2.2.2 → answers x.1 { status := 2 })) ∧
    ((∀ x ∈ messages m core ws, x.2.1 = false) → answers (.ping m core) { status := 2 }) ∧
    (∀ x ∈ messages m core ws, x.2.1 = true → hdrSender h ∈ x.2.2.1 → hdrLen h = x.2.2.2 →
      (x.1 = .ping m core → answers x.1 { words := [BitVec.ofNat 32 s.time64] }) ∧
      (x.1 = .version m core → answers x.1
        { words := [s.sec.fwver, s.sec.fwsvn.truncate 32, BitVec.ofNat 32 (steppingCode s.glb.stepping)] }) ∧
      (x.1 = .faultlog m core → answers x.1
        { words := Config.faultlogReply (((s.flt.log.drop (msgWord ws 1)).take (msgWord ws 2)).flatMap logBytes) }) ∧
      (x.1 = .dump m core → answers x.1 { words := [Config.dumpOffsetWord (dumpBase s), s.flt.dumpLen] }) ∧
      (x.1 = .heartbeat m core → (msgWord ws 1 = 6 * 2 ^ 24 → answers x.1 {}) ∧ (msgWord ws 1 ≠ 6 * 2 ^ 24 → answers x.1 { status := 2 })) ∧
      (x.1 = .takeover m core → (msgWord ws 1 = 7 * 2 ^ 24 → answers x.1 {}) ∧ (msgWord ws 1 ≠ 7 * 2 ^ 24 → answers x.1 { status := 2 }))) ∧
    (∀ x ∈ messages m core ws, x.2.1 = true → s.sec.bootState = 3 → headMessage s m = some (ws.map held) → ws.length = 1 + hdrLen h →
      (s.mbox m).keptMseq = some (hdrSeq h) → (∀ k w r, (s.mbox m).keptReply = k :: w :: r → hdrLen k = 1 + r.length →
        outReady s m (2 + r.length) = true → destOk s m (hdrSender h) = true →
        ((s.mbox m).outq.words = [] ∨ (s.mbox m).outq.headLeft ≠ 0) →
        ∃ s', exec x.1 s = .next s' ∧ (s'.mbox m).inq.words = (s.mbox m).inq.words.drop ws.length ∧
          (s'.mbox m).outq.words = (s.mbox m).outq.words ++ (stampSender k (1 + core.val) :: (w ||| 0x100#32) :: r).map held ∧
          (s'.mbox m).keptReply = (s.mbox m).keptReply ∧ onlyMbox s s' m))

/-- R350, R375, R377, R429: a PACEHINT from a link lowers the voltage step to the lowest that stands and goes on to each other port in UP, and
waits while a copy has no room; a PLCSW for the placement in force is answered at once, for another it begins the switch, stays at the head
until that ends, and is answered then; a DBGCHAL challenge draws a nonce, its response parts are kept in order, and the verified whole opens
the debug port. -/
def Obligations.FirmwareActs : Prop :=
  ∀ (s : State) (m : Fin 8) (core : Fin 4) (ws : List Word),
    let h := ws.headD 0
    (let origin := BitVec.ofNat 16 (msgWord ws 3)
     let step := BitVec.ofNat 32 (msgWord ws 2)
     hdrType h = 0x20 → hdrSender h ∈ linkSenders → hdrLen h = 3 → bits (msgWord ws 1) 4 27 = 0 → bits (msgWord ws 3) 16 16 = 0 →
     Served s m ws 2 → (origin, step) ∉ s.lk.hintsSeen → bitAt (msgWord ws 1) 31 = false →
     let taken := fun s' : State => replied s s' m core ws {} ∧ s'.lk.hintsSeen = s.lk.hintsSeen ++ [(origin, step)] ∧
       s'.pwr.req = hinted ((s.lk.hints.filter fun x => x.1 != origin) ++ [(origin, step, BitVec.ofNat 4 (msgWord ws 1))])
         (s.lk.ownReq.getD s.pwr.req)
     ((∀ q < 4, (s.port q).isUp = true → portCode s q = hdrSender h) → ∃ s', exec (.pacehint m core) s = .next s' ∧ taken s' ∧
       (∀ i, i ≠ m.val → s'.mbox i = s.mbox i)) ∧
     (∀ q < 4, (s.port q).isUp = true → portCode s q ≠ hdrSender h →
       (∀ p < 4, p ≠ q → (s.port p).isUp = true → portCode s p = hdrSender h) →
       let i := mboxFor s m (portCode s q)
       (i ≠ m.val → outReady s i 4 = true → destOk s i (portCode s q) = true →
         ((s.mbox i).outq.words = [] ∨ (s.mbox i).outq.headLeft ≠ 0) →
         ∃ s' z, exec (.pacehint m core) s = .next s' ∧ taken s' ∧
           (s'.mbox i).outDests = (s.mbox i).outDests ++ [BitVec.ofNat 4 (portCode s q)] ∧
           (s'.mbox i).outq.words = (s.mbox i).outq.words ++ (z :: ws.drop 1).map held ∧ hdrType z = 0x20 ∧ hdrLen z = 3 ∧
           hdrSender z = 1 + core.val) ∧
       (outReady s i 4 = false → exec (.pacehint m core) s = .next s))) ∧
    (let n := bits (msgWord ws 1) 0 8
     let x := bits (msgWord ws 1) 16 16
     hdrType h = 0x22 → hdrSender h ∈ 8 :: linkSenders → hdrLen h = 1 → bits (msgWord ws 1) 8 8 = 0 →
     (s.cfg.swMbox = none → s.loaded = true → Served s m ws 2 →
       (s.cfg.plc.toNat = n → s.plc.missing.toNat = x →
         ∃ s', exec (.plcsw m core) s = .next s' ∧ replied s s' m core ws {} ∧ onlyMbox s s' m) ∧
       (∀ im, s.cfg.image = some im → s.cfg.plc.toNat ≠ n → s.pace.state = .idle → s.cfg.goal = .none → plcCarried s n = true →
         (im.plcs.getD n emptyPlc).missing.toNat = x → domainOff s (im.plcs.getD n emptyPlc) = none →
         ∃ s', exec (.plcsw m core) s = .next s' ∧ s'.cfg.goal = .load ∧ s'.cfg.state = 2 ∧ s'.cfg.loadCmd = false ∧
           s'.cfg.swMbox = some m.val ∧ s'.mbx = s.mbx ∧
           (s.cfg.stage = 0 ∨ s.cfg.stage = 15 → written s s' im s.cfg.pos.toNat n) ∧
           (s.cfg.stage ≠ 0 → s.cfg.stage ≠ 15 → s'.cfg.pend = some { im := im, pos := s.cfg.pos.toNat, plc := n } ∧ s'.tiles = s.tiles))) ∧
     (s.cfg.swMbox = some m.val → Served s m ws (if s.loaded = true ∧ s.cfg.plc.toNat = n then 2 else 3) →
       (s.cfg.goal = .load → exec (.plcsw m core) s = .next s) ∧
       (s.cfg.goal ≠ .load → (∀ q < 4, (s.port q).isUp = true → portCode s q = hdrSender h) →
         ∃ s', exec (.plcsw m core) s = .next s' ∧ s'.cfg.plc = s.cfg.plc ∧
           (s.loaded = true ∧ s.cfg.plc.toNat = n → replied s s' m core ws {}) ∧
           (¬ (s.loaded = true ∧ s.cfg.plc.toNat = n) → replied s s' m core ws { status := 1, words := [0x030E] })))) ∧
    (hdrType h = 0x50 → hdrSender h ∈ [0, 15] →
      (msgWord ws 1 = 2 ^ 24 → hdrLen h = 1 →
        (s.sec.locked = false → Served s m ws 14 →
          ∃ s', exec (.dbgchalChallenge m core) s = .next s' ∧ s'.sec.chal = some (Config.freeBits s.free) ∧ s'.sec.chalNext = 0 ∧
            replied s s' m core ws { words := challengeWords (Config.freeBits s.free) }) ∧
        (s.sec.locked = true → Served s m ws 2 →
          ∃ s', exec (.dbgchalChallenge m core) s = .next s' ∧ replied s s' m core ws { status := 3 } ∧ onlyMbox s s' m)) ∧
      (∀ v part, s.sec.chal = some v → msgWord ws 1 = 2 * 2 ^ 24 + part → part < 4 → s.sec.chalNext = part → hdrLen h = 15 →
        let bytes := s.sec.chalParts ++ (ws.drop 2).flatMap fun w => natLe 4 w.toNat
        (part < 3 → Served s m ws 2 →
          ∃ s', exec (.dbgchalResponse m core) s = .next s' ∧ replied s s' m core ws {} ∧ s'.sec.chalNext = part + 1 ∧
            s'.sec.chalParts = bytes ∧ s'.sec.open_ = s.sec.open_) ∧
        (part = 3 → responseOk s v bytes = true → Served s m ws 2 →
          ∃ s', exec (.dbgchalResponse m core) s = .next s' ∧ replied s s' m core ws {} ∧ s'.sec.open_ = true ∧ s'.sec.chal = none ∧
            s'.sec.kind = kindCode (numAt bytes 0 1)) ∧
        (part = 3 → responseOk s v bytes = false → Served s m ws 3 →
          ∃ s', exec (.dbgchalResponse m core) s = .next s' ∧ replied s s' m core ws { status := 1, words := [0x0C05] } ∧
            s'.sec.open_ = s.sec.open_ ∧ s'.sec.chal = none ∧ s'.sec.fails = satInc s.sec.fails)))

/-! ## Links (17) -/

namespace Sys2Proof.Claims

/-- The frame a port has sent last. -/
def sentFrame (s s' : State) (p : Nat) (b : FrameBody) : Prop :=
  ∃ f : SentFrame, (s'.port p).sent = f :: (s.port p).sent ∧ f.body = b

/-- The commands that bring a frame to port p with a header. -/
def frameOf (p : Fin 4) (h : FrameHdr) : Instr → Bool
  | .tokenFrame q g _ _ => q == p && g == h
  | .nak q g => q == p && g == h
  | .idleFrame q g => q == p && g == h
  | .hello q g _ _ => q == p && g == h
  | .sync q g _ _ => q == p && g == h
  | .msgFrame q g _ => q == p && g == h
  | .abortFrame q g _ _ _ => q == p && g == h
  | _ => false

/-- A port receives a frame of good CRC whose ACK names a frame that the port has sent. -/
structure Heard (x : LinkPort) (h : FrameHdr) : Prop where
  listens : x.receives = true
  crc : h.crcGood = true
  ack : ackSent x h.ack = true

/-- A sequenced frame is the next one expected, on a port in UP. -/
structure InOrder (x : LinkPort) (h : FrameHdr) : Prop where
  heard : Heard x h
  up : x.state = .up
  seq : h.seq = x.rxe

end Sys2Proof.Claims

/-- R359, R363, R369, R370: training ends in HELLO with a HELLO frame sent, or after 100 ms in FAILED; FAILED goes back to TRAIN after 1 ms,
numbered anew; an enabled port trains, a disabled one is OFF; a cause of R363 fails a link, and aborts a task whose image uses it; while
PACE is not IDLE neither EN nor RETRAIN does anything; LK_CLRSTAT clears the counters of every port and nothing else. -/
def Obligations.LinkTraining : Prop :=
  ∀ (s : State) (p : Fin 4) (c : LinkCause) (en : Bool),
    let x := s.port p
    let anew := fun s' : State => (s'.port p).state = .train ∧ (s'.port p).txseq = 0 ∧ (s'.port p).rxe = 0 ∧ (s'.port p).replay = [] ∧
      (s'.port p).cred = [] ∧ (s'.port p).stateT = s.devTime
    (x.state = .train → ∃ s', exec (.trainComplete p) s = .next s' ∧ (s'.port p).state = .hello ∧ (s'.port p).stateT = s.devTime ∧
      sentFrame s s' p (.hello (helloRecOf s p) (BitVec.ofNat 64 s.time64))) ∧
    (x.state = .train → x.stateT + 100000000 < s.devTime → ∃ s', exec (.trainTimeout p) s = .next s' ∧ (s'.port p).state = .failed ∧
      (s'.port p).linkdn = satInc x.linkdn ∧ s'.pace = s.pace) ∧
    (x.state = .failed → x.stateT + 1000000 ≤ s.devTime → ∃ s', exec (.failedRetry p) s = .next s' ∧ anew s' ∧ (s'.port p).sent = x.sent) ∧
    (opens s 0x90000 → s.idle = true → s.powered (6 + p) = true →
      (x.en = false → ∃ s', exec (.portEnable p true) s = .next s' ∧ anew s' ∧ (s'.port p).en = true) ∧
      (x.en = true → ∃ s', exec (.portEnable p false) s = .next s' ∧ (s'.port p).state = .off ∧ (s'.port p).en = false ∧
        (s'.port p).replay = []) ∧
      (x.en = en → exec (.portEnable p en) s = .next s)) ∧
    (opens s 0x90000 → s.idle = true → (x.en = true → ∃ s', exec (.retrain p) s = .next s' ∧ anew s' ∧ (s'.port p).en = true) ∧
      (x.en = false → exec (.retrain p) s = .next s)) ∧
    (opens s 0x90000 → s.idle = false → exec (.portEnable p en) s = .next s ∧ exec (.retrain p) s = .next s) ∧
    (x.receives = true →
      (match c with
       | .replayLimit => (if s.lk.nakmax = 0 then 256 else s.lk.nakmax.toNat) ≤ x.replays
       | .silence => x.rxT + 10000 ≤ s.devTime
       | _ => True) →
      ∃ s', exec (.linkFail p c) s = .next s' ∧ (s'.port p).state = .failed ∧ (s'.port p).linkdn = satInc x.linkdn ∧ s'.tiles = s.tiles ∧
        (s.idle = false → imageUses s p = true → s'.pace.state = .aborted)) ∧
    (opens s 0x90000 → ∃ s', exec .lkClrstat s = .next s' ∧ s' = { s with lk := s'.lk } ∧ ∀ q < 4, s'.port q =
      { s.port q with crcerr := 0, replayCnt := 0, dup := 0, feccorr := 0, fecunc := 0, linkdn := 0 })

/-- R360 to R362, R369, R372: a TOKEN frame carries the oldest tokens of a VC, at most 12, of one step, none after a marker, numbered and
kept for replay; HELLO and SYNC go out when due; in UP a NAK and a timeout replay every frame that is outstanding, in order, and in HELLO or
REFUSED, which carry no sequenced frame, a NAK replays nothing (R370). -/
def Obligations.LinkSends : Prop :=
  ∀ (s : State) (p : Fin 4) (v : Fin 8) (h : FrameHdr),
    let x := s.port p
    (∀ u st r, x.state = .up → x.replay.length < 64 → x.txq = [] → mget [] x.vcout v = (u, st) :: r →
      ∃ s' ts rest, exec (.tokenFrameSend p v) s = .next s' ∧ s' = { s with lk := s'.lk } ∧ (u, st) :: r = ts ++ rest ∧ ts ≠ [] ∧
        ts.length ≤ 12 ∧ (∀ y ∈ ts, y.2 = st) ∧ (∀ y ∈ ts.dropLast, y.1.mark = .none) ∧
        (rest = [] ∨ ts.length = 12 ∨ (∃ y, ts.getLast? = some y ∧ y.1.mark ≠ .none) ∨ ∃ y, rest.head? = some y ∧ y.2 ≠ st) ∧
        mget [] (s'.port p).vcout v = rest ∧ (s'.port p).txseq = x.txseq + 1 ∧
        ∃ f, (s'.port p).sent = f :: x.sent ∧ (s'.port p).replay = x.replay ++ [f] ∧ f.seq = x.txseq ∧ f.ack = x.rxe - 1 ∧
          f.body = .token v st (ts.map fun y => y.1)) ∧
    (x.state = .hello ∨ x.state = .refused → x.helloT + 1000 ≤ s.devTime → ∃ s', exec (.helloSend p) s = .next s' ∧
      sentFrame s s' p (.hello (helloRecOf s p) (BitVec.ofNat 64 s.time64)) ∧ (s'.port p).helloT = s.devTime ∧
      BitVec.ofNat 64 s.time64 ∈ (s'.port p).probeTx ∧ s' = { s with lk := s'.lk }) ∧
    (x.receives = true → x.syncDue = true ∨ (s.idle = true ∧ x.syncT + 1000 ≤ s.devTime) → ∃ s', exec (.syncSend p) s = .next s' ∧
      sentFrame s s' p (.sync s.pace.step (BitVec.ofNat 64 s.time64)) ∧ (s'.port p).syncDue = false ∧ (s'.port p).syncT = s.devTime) ∧
    (x.state = .up → x.ackT + 10000 ≤ s.devTime → x.replay ≠ [] → ∃ s', exec (.replayTimeout p) s = .next s' ∧
      (s'.port p).sent = x.replay.reverse ++ x.sent ∧ (s'.port p).replay = x.replay ∧ (s'.port p).replays = x.replays + 1 ∧
      (s'.port p).replayCnt = satInc x.replayCnt) ∧
    (Heard x h → x.state ≠ .up → ∃ s', exec (.nak p h) s = .next s' ∧ (s'.port p).sent = x.sent ∧ s' = { s with lk := s'.lk }) ∧
    (Heard x h → x.state = .up → x.txq = [] → (h.ack - x.ack).toNat < x.replay.length →
      ∃ s', exec (.nak p h) s = .next s' ∧ (s'.port p).replay = x.replay.drop (h.ack - x.ack).toNat ∧
        (s'.port p).sent = (x.replay.drop (h.ack - x.ack).toNat).reverse ++ x.sent ∧ s'.tiles = s.tiles)

/-- R360, R362, R364, R365, R367 to R370, R372 to R374: the next frame in order is accepted: its tokens enter the VC buffer, its credits are
returned, a message reaches the lowest mailbox that permits its sender or TW, an ABORT frame aborts a running task and goes on over the
other ports; a frame of bad CRC is answered with a NAK; an ACK never sent fails the link and aborts; HELLO leads to UP or REFUSED, the echo of
an own probe measures RTT and another probe is echoed; a SYNC is the twin's heartbeat, serves an EPOCH that follows its port, and aborts a
task whose times disagree while both devices run one. -/
def Obligations.LinkReceives : Prop :=
  ∀ (s : State) (p : Fin 4) (h : FrameHdr),
    let x := s.port p
    (∀ (v : Fin 8) toks, InOrder x h → 1 ≤ toks.length → toks.length ≤ 12 → (mget [] x.vcbuf v).length + toks.length ≤ 1024 →
      ∃ s', exec (.tokenFrame p h v toks) s = .next s' ∧ s' = { s with lk := s'.lk } ∧
        mget [] (s'.port p).vcbuf v = mget [] x.vcbuf v ++ toks.map (fun t => (t, h.step)) ∧ (s'.port p).rxe = x.rxe + 1 ∧
        mget 0 (s'.port p).cred h.cretVc = mget 0 x.cred h.cretVc + h.cret.toNat) ∧
    (Heard x h → x.txq = [] → (h.ack - x.ack).toNat ≤ x.replay.length →
      ∃ s', exec (.idleFrame p h) s = .next s' ∧ s' = { s with lk := s'.lk } ∧ (s'.port p).rxT = s.devTime ∧
        (s'.port p).replay = x.replay.drop (h.ack - x.ack).toNat ∧
        mget 0 (s'.port p).cred h.cretVc = mget 0 x.cred h.cretVc + h.cret.toNat) ∧
    (∀ c, frameOf p h c = true → c.wf = true → x.receives = true →
      (h.crcGood = false → ∃ s', exec c s = .next s' ∧ s' = { s with lk := s'.lk } ∧ (s'.port p).crcerr = satInc x.crcerr ∧
        (s'.port p).rxe = x.rxe ∧ sentFrame s s' p .nak) ∧
      (h.crcGood = true → ackSent x h.ack = false → ∃ s', exec c s = .next s' ∧ (s'.port p).state = .failed ∧
        s'.pace.state = .aborted ∧ s'.tiles = s.tiles)) ∧
    (∀ w r (m : Fin 8), InOrder x h → x.twin = false ∨ isTwinMsg (w :: r) = false → hdrLen w = r.length → r.length ≤ 15 →
      let code := if s.paired && s.tw.port.toNat == p.val then 8 else 9 + p.val
      bitAt (s.mbox m).peer.toNat code = true → (∀ i < m.val, bitAt (s.mbox i).peer.toNat code = false) →
      r.length + 1 ≤ (s.mbox m).inq.freeWords →
      ∃ s', exec (.msgFrame p h (w :: r)) s = .next s' ∧ s' = { s with lk := s'.lk, mbx := s'.mbx } ∧
        (s'.mbox m).inq.words = (s.mbox m).inq.words ++ (stampSender w code :: r).map held ∧ ∀ i, i ≠ m.val → s'.mbox i = s.mbox i) ∧
    (∀ ws, InOrder x h → x.twin = true → 1 ≤ ws.length → ws.length ≤ 16 → isTwinMsg ws = true →
      (twinBad s ws = false → ∃ s', exec (.msgFrame p h ws) s = .next s' ∧ s'.tw = { s.tw with rxq := s.tw.rxq ++ [(p.val, ws)] } ∧
        s'.mbx = s.mbx) ∧
      (twinBad s ws = true → ∃ s', exec (.msgFrame p h ws) s = .next s' ∧ s'.tw = { s.tw with badmsg := satInc s.tw.badmsg } ∧
        s'.mbx = s.mbx)) ∧
    (∀ origin cause step, InOrder x h → s.idle = false → s.pace.state ≠ .aborted →
      (∀ q < 4, (s.port q).abortsSeen.contains (origin, step) = false) →
      ∃ s', exec (.abortFrame p h origin cause step) s = .next s' ∧ s'.pace.state = .aborted ∧ s'.tiles = s.tiles ∧
        (s.flt.firstCode = 0 → s'.flt.firstCode = 0x0909) ∧
        (∀ q < 4, q ≠ p.val → (s.port q).state = .up → (s.port q).replay.length < 64 → (s.port q).txq = [] →
          sentFrame s s' q (.abort origin cause step))) ∧
    (∀ r v, Heard x h → x.state = .hello → r.secmap.length = 16 →
      (helloMism s p r = 0 → ∃ s', exec (.hello p h r v) s = .next s' ∧ (s'.port p).state = .up ∧
        (∀ v < 8, mget 0 (s'.port p).cred v = 1024) ∧ (s'.port p).peerPos = r.pos) ∧
      (helloMism s p r ≠ 0 → ∃ s', exec (.hello p h r v) s = .next s' ∧ (s'.port p).state = .refused ∧
        (s'.port p).mism = helloMism s p r)) ∧
    (∀ r v, Heard x h → x.state = .up → r.secmap.length = 16 → x.peerRec = r →
      ∃ s', exec (.hello p h r v) s = .next s' ∧ (s'.port p).state = .up ∧ s' = { s with lk := s'.lk } ∧
        (v ∈ x.probeTx → (s'.port p).rtt = BitVec.ofNat 32 (s.time64 - v.toNat)) ∧
        (v ∉ x.probeTx → (s'.port p).rtt = x.rtt ∧
          (x.txq = [] → sentFrame s s' p (.hello (helloRecOf s p) v)))) ∧
    (∀ step time runs, Heard x h →
      (s.lk.follow = none → s.paired = true → s.tw.port.toNat = p.val → s.idle = true → ∃ s', exec (.sync p h ⟨step, runs⟩ time) s = .next s' ∧
        s'.tw = { s.tw with miss := 0, hbT := s.devTime, pstep := step }) ∧
      (∀ v t, s.lk.follow = some (p.val, v, t) → s.idle = true → s.hq.cur.isSome = true →
        s.devTime + s.timeOff ≤ time.toNat + x.rtt.toNat / 2 → ∃ s', exec (.sync p h ⟨step, runs⟩ time) s = .next s' ∧ finished s s' 0 0 ∧
          s'.time64 = (time.toNat + x.rtt.toNat / 2) % 2 ^ 64 ∧ s'.lk.epoch = v ∧ s'.lk.follow = none) ∧
      (s.lk.follow = none → s.idle = false → s.lk.ttol ≠ 0 →
        2 * s.lk.ttol.toNat < (2 * (time.toNat : Int) + x.rtt.toNat - 2 * s.time64).natAbs →
        (runs = true → ∃ s', exec (.sync p h ⟨step, true⟩ time) s = .next s' ∧ s'.pace.state = .aborted ∧ s'.tiles = s.tiles) ∧
        (runs = false → ∃ s', exec (.sync p h ⟨step, false⟩ time) s = .next s' ∧ s'.pace = s.pace ∧ s'.tiles = s.tiles)))

/-! ## The twin pair, the fault log and the dump (18) -/

namespace Sys2Proof.Claims

/-- The oldest message that came for TW on the port that it names is of a subtype; r are the others. -/
def twinHead (s : State) (sub : Nat) (ws : List Word) (r : List (Nat × List Word)) : Prop :=
  (s.tw.rxq.find? fun m => m.1 == s.tw.port.toNat) = some (s.tw.port.toNat, ws) ∧ r = s.tw.rxq.erase (s.tw.port.toNat, ws) ∧
  bits (msgWord ws 1) 24 8 = sub

/-- Step a exceeds step b, modulo 2^48 (R49). -/
def exceeds (a b : BitVec 48) : Prop := 0 < (a - b).toNat ∧ (a - b).toNat < 2 ^ 47

/-- The check entry that a DIGEST message carries (R385). -/
def digestEntry (s : State) (ws : List Word) : CheckEntry :=
  { defn := bits (msgWord ws 2) 16 16, step := nearStep s.pace.step (bits (msgWord ws 2) 0 16), ordinal := bits (msgWord ws 1) 0 24
    bytes := ((ws.drop 3).flatMap fun w => natLe 4 w.toNat).take (checkDef s (bits (msgWord ws 2) 16 16)).flen }

end Sys2Proof.Claims

/-- R381 to R389, R466: TW_CFG out of OFF waits for a partner or names CONFLICT, as each later write does in WAIT and CONFLICT; ROLE messages of two roles form the pair, of one role a CONFLICT;
READY lets the lead send START, whose TS the shadow keeps; a DIGEST is matched or kept; FIRST rows that differ, and an entry due and
unmatched, abort the task; a missed heartbeat counts, and at HBMISS the device goes on alone. -/
def Obligations.TwinManager : Prop :=
  ∀ (s : State) (v : Word) (ws : List Word) (r : List (Nat × List Word)),
    let q := s.port s.tw.port.toNat
    let port := bits v.toNat 8 2
    (opens s 0xA0000 → s.idle = true → s.tw.en = false ∨ s.tw.state = .wait ∨ s.tw.state = .conflict → bitAt v.toNat 0 = true →
      ∃ s', exec (.twEnable v) s = .next s' ∧ s'.tw.en = true ∧
      s'.tw.shadow = bitAt v.toNat 1 ∧ s'.tw.port = BitVec.ofNat 2 port ∧ s'.tw.hbmiss = BitVec.ofNat 4 (bits v.toNat 12 4) ∧
      s'.tw.tslead = BitVec.ofNat 8 (bits v.toNat 16 8) ∧ s'.tw.state = (if (s.port port).twin then .wait else .conflict)) ∧
    (opens s 0xA0000 → s.idle = true → bitAt v.toNat 0 = false → ∃ s', exec (.twEnable v) s = .next s' ∧ s'.tw.en = false ∧ s'.tw.state = .off ∧
      s'.tw.lead = false ∧ s'.tw.fence = false) ∧
    (opens s 0xA0000 → s.idle = false → exec (.twEnable v) s = .next s) ∧
    (twinHead s 1 ws r → s.tw.en = true → s.tw.state = .wait → q.twin = true → ∃ s', exec .role s = .next s' ∧ s'.tw.rxq = r ∧
      (bitAt (msgWord ws 1) 0 = s.tw.shadow → s'.tw.state = .conflict) ∧
      (bitAt (msgWord ws 1) 0 ≠ s.tw.shadow → s'.tw.state = .paired ∧ s'.tw.lead = !s.tw.shadow ∧ s'.tw.miss = 0)) ∧
    (twinHead s 2 ws r → s.paired = true → s.tw.lead = true → s.tw.pair.waiting = true → s.tw.pair.ts = none →
      ∃ s', exec .ready s = .next s' ∧ s'.tw.rxq = r ∧ s'.tw.pair.gotReady = true ∧
        s'.tw.pair.ts = some (s.devTime + s.timeOff + (if s.tw.tslead = 0 then 256 else s.tw.tslead.toNat) * 10000)) ∧
    (twinHead s 3 ws r → s.paired = true → s.tw.lead = false → s.tw.pair.waiting = true → s.tw.pair.ts = none →
      s.devTime + s.timeOff + 1000 ≤ msgWord ws 2 + 2 ^ 32 * msgWord ws 3 → ∃ s', exec .start s = .next s' ∧ s'.tw.rxq = r ∧
        s'.tw.pair.ts = some (msgWord ws 2 + 2 ^ 32 * msgWord ws 3) ∧ s' = { s with tw := s'.tw }) ∧
    (twinHead s 3 ws r → s.paired = true → s.tw.lead = false → s.tw.pair.waiting = true → s.tw.pair.ts = none → s.hq.cur.isSome = true →
      msgWord ws 2 + 2 ^ 32 * msgWord ws 3 < s.devTime + s.timeOff + 1000 → ∃ s', exec .start s = .next s' ∧ s'.tw.rxq = r ∧
        finished s s' 1 0x0A02 ∧ s'.tw.pair.waiting = false) ∧
    (twinHead s 4 ws r → s.comparing = true →
      (s.tw.own.find? (sameKey (digestEntry s ws)) = none → s.tw.partner.length < 4096 → ∃ s', exec .digest s = .next s' ∧
        s'.tw = { s.tw with rxq := r, partner := s.tw.partner ++ [digestEntry s ws] } ∧ s'.pace = s.pace) ∧
      (∀ o, s.tw.own.find? (sameKey (digestEntry s ws)) = some o → o.bytes = (digestEntry s ws).bytes → ∃ s', exec .digest s = .next s' ∧
        s'.tw = { s.tw with rxq := r, own := s.tw.own.erase o, cmpcnt := satInc s.tw.cmpcnt } ∧ s'.pace = s.pace)) ∧
    (twinHead s 5 ws r → s.paired = true →
      let k := bits (msgWord ws 1) 0 4
      ∃ s', exec .first s = .next s' ∧ s'.tw.rxq = r ∧ mget none s'.tw.firstPeer k = some (lget 0 ws 2) ∧
        (∀ a, mget none s.tw.firstOwn k = some a → a ≠ lget 0 ws 2 → s'.pace.state = .aborted) ∧
        (mget none s.tw.firstOwn k = some (lget 0 ws 2) ∨ mget none s.tw.firstOwn k = none → s'.pace = s.pace)) ∧
    (s.comparing = true → s.idle = false →
      (∃ e ∈ s.tw.own ++ s.tw.partner,
        let lim := e.step + BitVec.ofNat 48 (if (checkDef s e.defn).window = 0 then 64 else (checkDef s e.defn).window)
        exceeds s.pace.step lim ∧ exceeds s.tw.pstep lim) →
      ∃ s', exec .checkEntryDue s = .next s' ∧ s'.pace.state = .aborted ∧ s'.tiles = s.tiles) ∧
    (s.paired = true → s.tw.hbT + s.pace.act.period.toNat ≤ s.devTime →
      let lim := if s.tw.hbmiss = 0 then 16 else s.tw.hbmiss.toNat
      ∃ s', exec .heartbeatMiss s = .next s' ∧ s'.tw.miss = s.tw.miss + 1 ∧ s'.tw.hblost = satInc s.tw.hblost ∧ s'.pace = s.pace ∧
        (s.tw.miss + 1 < lim ∨ s.idle = true → s'.tw.state = .paired) ∧
        (lim ≤ s.tw.miss + 1 → s.idle = false → s'.tw.state = .solo ∧ s'.tw.fence = true ∧ s'.tw.own = [] ∧ s'.tw.partner = []))

/-- R394, R395: the dump that is due is written in three writes, which zero its MAGIC, write the sections, and write the header with MAGIC, and
nothing else in LPDDR6 changes; where one fails, FLT_DUMP says so (that memory then stays is the model's choice, log entry 28); an index
write samples one entry for its agent; CLEAR empties the log, but for a dump being written. -/
def Obligations.FaultLog : Prop :=
  ∀ (s : State) (a : Agent) (i : BitVec 9),
    (s.flt.dumpState = .writing → s.sec.bootState = 1 ∨ s.sec.bootState = 3 →
      let writes := fun (c : Instr) (at_ : Nat) (b : List Byte) (q : State → Prop) => ∃ s', exec c s = .next s' ∧ q s' ∧
        s'.flt.log = s.flt.log ∧ s'.tiles = s.tiles ∧ (∀ k, (hk : k < b.length) → memGet s'.mc.mem (at_ + k) = b[k]) ∧
        (∀ k, k < at_ ∨ at_ + b.length ≤ k → memGet s'.mc.mem k = memGet s.mc.mem k)
      (s.mc.ready = true →
        (s.flt.dumpStep = 0 → writes (.faultDump true) (dumpBase s) [0, 0, 0, 0] fun s' => s'.flt.dumpState = .writing ∧
          s'.flt.dumpStep = 1) ∧
        (s.flt.dumpStep = 1 → writes (.faultDump true) (dumpBase s + 256) ((dumpSections s).flatMap id) fun s' =>
          s'.flt.dumpState = .writing ∧ s'.flt.dumpStep = 2 ∧ s'.flt.dumpLens = (dumpSections s).map List.length) ∧
        (s.flt.dumpStep = 2 →
          let b := dumpHeader s (satInc s.flt.dumpNum) s.flt.dumpLens
          b.length = 256 ∧ b.take 4 = [0x54, 0x56, 0x44, 0x31] ∧
          writes (.faultDump true) (dumpBase s) b fun s' => s'.flt.dumpState = .complete ∧ s'.flt.dumpNum = satInc s.flt.dumpNum ∧
            s'.flt.dumpLen = BitVec.ofNat 32 (256 + s.flt.dumpLens.sum))) ∧
      (∃ s', exec (.faultDump false) s = .next s' ∧ s'.flt.dumpState = .failed ∧ s'.mc.mem = s.mc.mem)) ∧
    (reaches s a 0xF0008 true → ∃ s', exec (.fltIdxWrite a i) s = .next s' ∧ s' = { s with flt := s'.flt } ∧ s'.flt.log = s.flt.log ∧
      mget [] s'.flt.data (agentNo a) = (match s.flt.log[i.toNat]? with
        | some e => (leWords 4 16 (logBytes e)).map (BitVec.ofNat 32)
        | none => List.replicate 16 0) ∧
      ∀ k, k ≠ agentNo a → mget [] s'.flt.data k = mget [] s.flt.data k) ∧
    (opens s 0xF0000 → s.flt.dumpState ≠ .writing → exec .fltClear s = .next { s with flt := { s.flt with log := [], lost := 0 } }) ∧
    (opens s 0xF0000 → s.flt.dumpState = .writing → exec .fltClear s = .next s)

/-! ## Power (19) -/

/-- R400, R401, R403, R405, R407, R409, R411, R404, R295: the cap governor moves v_cap by one step; TJ is the highest reading in use, a sensor
that reads out of range or stands still while another of its block moves is excluded, and at TCRIT the device shuts down; a change of v_eff makes a voltage write due, which goes out alone, is acknowledged or tried again; a readback is judged
against its band, and a changeover that goes on beyond its time without one in band is reported; a memory step is a rate request, taken when no burst is
outstanding; the management cores' step waits for a changeover's end; CLRSTAT clears its three counters. -/
def Obligations.PowerControl : Prop :=
  ∀ (s : State) (w : BitVec 16) (k : Fin 48) (keep : Bool) (req : BitVec 4) (mem mgmt : BitVec 2),
    let p := s.pwr
    (∃ s', exec (.capGovernor w) s = .next s' ∧ s'.pwr.power = w ∧ s'.pwr.peak = (if p.peak < w then w else p.peak) ∧ s'.tiles = s.tiles ∧
      s'.pwr.vcap = (if 16 * p.cap.toNat < w.toNat ∧ p.floor.toNat < p.vcap.toNat then p.vcap - 1
        else if w.toNat + 16 * p.hyst.toNat < 16 * p.cap.toNat ∧ 10 ≤ p.calm + 1 ∧ p.vcap.toNat < 15 then p.vcap + 1 else p.vcap)) ∧
    (p.excl.contains k.val = false → ∀ (deg : BitVec 14) (q : BitVec 2),
      let w : BitVec 16 := deg ++ q
      let stuck := p.seen.contains k.val = true ∧ mget 0 p.sens k = w ∧ (mget {} p.watch k).since + 100000000 ≤ s.devTime ∧
        ∃ m ∈ (mget {} p.watch k).mates, m.2.1 + 8 ≤ m.2.2
      ((-220 ≤ w.toInt ∧ w.toInt ≤ 600) → ¬ stuck →
        ∃ s', exec (.thermalSensorRead k deg q) s = .next s' ∧ mget 0 s'.pwr.sens k = w ∧ s'.pwr.excl = p.excl ∧
          (∃ i < 48, s'.pwr.seen.contains i = true ∧ p.excl.contains i = false ∧ mget 0 s'.pwr.sens i = s'.pwr.tj ∧
            s'.pwr.tjSens.toNat = i) ∧
          (∀ i < 48, s'.pwr.seen.contains i = true → p.excl.contains i = false → (mget 0 s'.pwr.sens i).toInt ≤ s'.pwr.tj.toInt) ∧
          (s'.pwr.tj.toInt < 4 * (if s.glb.gradeI then 115 else 105) → s' = { s with pwr := s'.pwr }) ∧
          (4 * (if s.glb.gradeI then 115 else 105) ≤ s'.pwr.tj.toInt → p.thermOff = false →
            s'.pace.state = .aborted ∧ s'.pace.fatal = true ∧ ∀ d, 6 ≤ d → d < 30 → s'.domain d = false)) ∧
      (w.toInt < -220 ∨ 600 < w.toInt ∨ stuck → ∃ s', exec (.thermalSensorRead k deg q) s = .next s' ∧ s'.pwr.excl = p.excl ++ [k.val] ∧
        s'.pace = s.pace)) ∧
    (p.excl.contains k.val = true → ∀ deg q, exec (.thermalSensorRead k deg q) s = .next s) ∧
    (opens s 0xB0000 → exec (.vsetWrite keep req) s = .next { s with pwr := { p with
      keep := keep, req := req
      wrDue := p.wrDue || min req.toNat (min p.vcap.toNat p.vtherm.toNat) != min p.req.toNat (min p.vcap.toNat p.vtherm.toNat) } }) ∧
    (p.wrDue = true → p.wrOut = none → p.retryT = none → p.co = false → ∃ s', exec .voltageWrite s = .next s' ∧
      s'.pwr.wrOut = some (BitVec.ofNat 4 p.veff) ∧ s'.pwr.wrDue = false ∧ s' = { s with pwr := s'.pwr }) ∧
    (∀ v, p.wrOut = some v →
      exec (.voltageWriteAck true) s = .next { s with pwr := { p with vack := v, wrOut := none, wrFails := 0 } } ∧
      (p.wrFails + 1 < 3 → exec (.voltageWriteAck false) s = .next { s with pwr := { p with
        avserr := satInc p.avserr, wrFails := p.wrFails + 1 } }) ∧
      (3 ≤ p.wrFails + 1 → ∃ s', exec (.voltageWriteAck false) s = .next s' ∧ s'.pwr.wrOut = none ∧ s'.pwr.retryT = some s.devTime ∧
        s'.pwr.avserr = satInc p.avserr ∧ s'.pace = s.pace)) ∧
    (∀ t, p.retryT = some t → t + 1000000 ≤ s.devTime → p.co = false → ∃ s', exec .avsRetry s = .next s' ∧
      s'.pwr.wrOut = some (BitVec.ofNat 4 p.veff) ∧ s'.pwr.retryT = none) ∧
    (∃ s', exec (.vfabReadback (some w)) s = .next s' ∧ s'.pwr.vread = w ∧ s'.pwr.rdFails = 0 ∧ s'.pace = s.pace ∧
      (s'.pwr.vinBand = true ↔ 97 * (550 + 20 * p.veff) ≤ 100 * w.toNat ∧ 100 * w.toNat ≤ 103 * (550 + 20 * p.veff))) ∧
    (∃ s', exec (.vfabReadback none) s = .next s' ∧ s'.pwr.avserr = satInc p.avserr ∧ s'.pwr.vread = p.vread) ∧
    (p.co = true → p.coWarn = false → p.coT + max 1 p.settle.toNat * 1000 + 1000000 ≤ s.devTime → s.hq.evq.length < 255 →
      ∀ o, (o = none ∧ p.vinBand = false) ∨ (∃ m, o = some m ∧ (100 * m.toNat < 97 * (550 + 20 * p.veff) ∨ 103 * (550 + 20 * p.veff) < 100 * m.toNat)) →
        ∃ s', exec (.vfabReadback o) s = .next s' ∧ s'.pwr.coWarn = true ∧ s'.pwr.co = true ∧ ∃ e ∈ s'.hq.evq, e.code = 0x0B08) ∧
    (opens s 0xB0000 → p.memHeld = false → ∃ s', exec (.clockStepChange mem mgmt) s = .next s' ∧ s'.pwr.mem = mem ∧ s'.pwr.mgmt = mgmt ∧
      s'.pwr.mgmtRun = (if p.co then p.mgmtRun else mgmt) ∧
      (mem ≠ p.mem → s.mc.trained = true → s'.mc.rateReq = some mem) ∧ (mem = p.mem → s'.mc = s.mc)) ∧
    (∀ r, s.mc.rateReq = some r → p.co = false → p.selfRefresh = false → s.mc.chok = 0xFF →
      ((∃ b ∈ s.se.eng, b.2.bursts ≠ []) → exec .rateChange s = .next { s with mc := { s.mc with quiesced := true } }) ∧
      ((∀ b ∈ s.se.eng, b.2.bursts = []) → exec .rateChange s = .next { s with mc := { s.mc with
        rate := r, rateReq := none, quiesced := false } })) ∧
    (opens s 0xB0000 → exec .pwrClrstat s = .next { s with pwr := { p with peak := 0, thrcnt := 0, avserr := 0 } })

/-- R408: v_therm stands at 15 after reset; a tick at TJ >= TTHR lowers it by one step, not sooner than 100 us after the last change and not
below 0; one at TJ < TTHR - THYS raises it by one step, not sooner than 1 ms after it and not above 15; otherwise it holds. The fall from 15
raises 0x0B03, the return to 15 raises 0x0B04, each as the next record of the event queue; TTHR is 90 or 100 after reset, by grade. -/
def Obligations.ThermalLimit : Prop :=
  State.reset.pwr.vtherm = 15 ∧ State.reset.pwr.tthr = (if Config.grade then 100 else 90) ∧
  ∀ s : State,
    let p := s.pwr
    let hot : Int := 4 * (min p.tthr.toNat ((if s.glb.gradeI then 115 else 105) - 1) : Nat)
    let cool : Int := hot - 4 * (max 1 p.thys.toNat : Nat)
    let tells := fun (s' : State) (code : Nat) => ∃ e, s'.hq.evq = s.hq.evq ++ [e] ∧ e.code = BitVec.ofNat 16 code ∧ e.step = s.pace.step
    (hot ≤ p.tj.toInt → p.vtherm ≠ 0 → p.thermT + 100000 ≤ s.devTime →
      ∃ s', exec .thermalLimitStep s = .next s' ∧ s'.pwr.vtherm = p.vtherm - 1 ∧ s'.pwr.thermT = s.devTime ∧ s'.pace = s.pace ∧
        (p.vtherm ≠ 15 → s'.hq = s.hq) ∧ (p.vtherm = 15 → s.hq.evq.length < 256 → tells s' 0x0B03)) ∧
    (p.tj.toInt < cool → p.vtherm ≠ 15 → p.thermT + 1000000 ≤ s.devTime →
      ∃ s', exec .thermalLimitStep s = .next s' ∧ s'.pwr.vtherm = p.vtherm + 1 ∧ s'.pwr.thermT = s.devTime ∧ s'.pace = s.pace ∧
        (p.vtherm ≠ 14 → s'.hq = s.hq) ∧ (p.vtherm = 14 → s.hq.evq.length < 256 → tells s' 0x0B04)) ∧
    ((cool ≤ p.tj.toInt ∧ p.tj.toInt < hot) ∨ (hot ≤ p.tj.toInt ∧ (p.vtherm = 0 ∨ s.devTime < p.thermT + 100000)) ∨
      (p.tj.toInt < cool ∧ (p.vtherm = 15 ∨ s.devTime < p.thermT + 1000000)) → exec .thermalLimitStep s = .next s)

namespace Sys2Proof.Claims

/-- A changeover to a path has begun: counted, and holding back voltage writes until it settles (R411). -/
def changesOver (s s' : State) (toB : Bool) : Prop :=
  s'.pwr.selB = toB ∧ s'.pwr.co = true ∧ s'.pwr.coT = s.devTime ∧ s'.pwr.cocnt = satInc s.pwr.cocnt ∧ s'.pace = s.pace ∧ s'.tiles = s.tiles

end Sys2Proof.Claims

/-- R397 to R399, R409 to R414, R449, R453, R458: one domain asked for is switched, or refused; a switch that completes sets the domain and loses
what it held; unused fabric goes off; the supply paths change over, return and settle; the loss of the last path, of a rail or of the clock
is device-fatal; a bank out of band turns its port off; the PMBus reads answer while PD1 is on. -/
def Obligations.DomainsAndSupplies : Prop :=
  ∀ (s : State) (v : BitVec 30) (d : Fin 30) (k : Fin 8) (rail : Rail) (reading : BitVec 32),
    let p := s.pwr
    (opens s 0xB0000 → (∀ e < 30, e ≠ d.val → bitAt v.toNat e = domTarget s e) → bitAt v.toNat d ≠ domTarget s d →
      ∃ s', exec (.domainRequest v) s = .next s' ∧ (14 ≤ d.val → bitAt v.toNat d = true → onPermitted s v.toNat d = true →
        s.loaded = true → fabUsed s (d - 14) = false → s'.pwr.keepOn.contains d.val = true) ∧ s'.pwr.domOn = p.domOn ∧ s'.tiles = s.tiles ∧
        (∀ e < 30, e ≠ d.val → domTarget s' e = domTarget s e) ∧
        domTarget s' d = (if (if bitAt v.toNat d then onPermitted s v.toNat d else offPermitted s v.toNat d) then bitAt v.toNat d
          else domTarget s d)) ∧
    (∀ x, p.switching.find? (fun y => y.d == d.val) = some x → ∃ s', exec (.domainSwitchComplete d) s = .next s' ∧
      s'.domain d = x.on ∧ (∀ e < 30, e ≠ d.val → s'.domain e = s.domain e) ∧ (∀ y ∈ s'.pwr.switching, y.d ≠ d.val) ∧
      (x.on = false → 6 ≤ d.val → d.val < 10 → s'.port (d - 6) = {}) ∧ (x.on = false → d.val = 11 → s'.nce = {}) ∧ (x.on = false → d.val = 12 → s'.pp = {}) ∧
      (x.on = false → d.val = 13 → s'.cfg = {} ∧ s'.pace.state = s.pace.state) ∧
      (x.on = false → 14 ≤ d.val → ∀ t < 1024, s'.tile t = if gridFab t = d.val - 14 then {} else s.tile t)) ∧
    (p.autofab = true → s.loaded = true → s.cfg.goal = .none → ∃ s', exec .autofabSwitchOff s = .next s' ∧ s' = { s with pwr := s'.pwr } ∧
      ∀ b < 16, domTarget s' (14 + b) = (domTarget s (14 + b) && (fabUsed s b || p.keepOn.contains (14 + b)))) ∧
    (∀ t, p.memOffT = some t → t + 10000000 ≤ s.devTime → ∃ s', exec .memoryDomainsOffLimit s = .next s' ∧
      (∀ e, 3 ≤ e → e ≤ 5 → s'.domain e = false) ∧ s'.mc.ready = false ∧ s'.pwr.memOffT = none) ∧
    (p.aOk = false → exec (.supplyOkChange false true) s = .next { s with pwr := { p with aOk := true, aOkT := s.devTime } }) ∧
    (p.aOk = true → p.bOk = true → p.selB = false → ∃ s', exec (.supplyOkChange false false) s = .next s' ∧ s'.pwr.aOk = false ∧
      changesOver s s' true) ∧
    (p.aOk = true → p.bOk = true → p.selB = false → ∃ s', exec (.supplyOkChange true false) s = .next s' ∧ s'.pwr.bOk = false ∧
      s'.pwr.selB = false ∧ s'.pwr.co = p.co ∧ s'.pace = s.pace) ∧
    (p.aOk = true → p.bOk = false → ∃ s', exec (.supplyOkChange false false) s = .next s' ∧ s'.pace.state = .aborted ∧ s'.pace.fatal = true) ∧
    (p.co = true → p.vinBand = true → p.coT + max 1 p.settle.toNat * 1000 ≤ s.devTime →
      exec .changeoverSettle s = .next { s with pwr := { p with co := false, mgmtRun := p.mgmt } }) ∧
    (p.selB = true → p.aOk = true → p.co = false → (opens s 0xB0000 → ∃ s', exec .sela s = .next s' ∧ changesOver s s' false) ∧
      (p.autoret = true → p.aOkT + (if p.retdly = 0 then 256 else p.retdly.toNat) * 1000000 ≤ s.devTime →
        ∃ s', exec .autoReturn s = .next s' ∧ changesOver s s' false)) ∧
    (∀ b, p.aonB ≠ b → ∃ s', exec (.aonSwitch b) s = .next s' ∧ s'.pwr = { p with aonB := b } ∧
      s' = { s with pwr := s'.pwr, hq := s'.hq, ic := s'.ic }) ∧
    ((s.sport k).en = true → ∃ s', exec (.bankSupplyOutOfBand k) s = .next s' ∧ (s'.sport k).state = .off ∧ (s'.sport k).en = false ∧
      (∀ i, i ≠ k.val → s'.sport i = s.sport i) ∧ s'.pace = s.pace) ∧
    (∃ s', exec (.railOutOfRange rail reading) s = .next s' ∧ s'.pace.state = .aborted ∧ s'.pace.fatal = true ∧ s'.tiles = s.tiles) ∧
    (p.clkLost = false → ∃ s', exec .sysClk25Loss s = .next s' ∧ s'.pace.state = .aborted ∧ s'.pace.fatal = true ∧ s'.mc.quiesced = true ∧
      s'.pwr.intOsc = true ∧ s'.pwr.selfRefresh = true ∧ s'.pwr.clkLost = true) ∧
    (p.clkLost = true → exec .sysClk25Loss s = .next { s with pwr := { p with clkLost := false } }) ∧
    (s.domain 1 = true → exec .readTemperature1 s = .next { s with answer := .word (p.tj.zeroExtend 32) } ∧
      exec .readPout s = .next { s with answer := .word (p.power.zeroExtend 32) } ∧
      exec .statusByte s = .next { s with answer := .word (if p.vtherm.toNat < 15 then 4 else 0) }) ∧
    (s.domain 1 = false → ∀ c ∈ [Instr.readTemperature1, .readPout, .statusByte], exec c s = .next { s with answer := .none })

/-! ## Resets, boot, security (20) -/

namespace Sys2Proof.Claims

/-- What a SYS reset leaves: the fabric, PACE, CFG and the rings new, LPDDR6's bytes and the fuses kept, the cause marked. -/
def sysDone (s s' : State) (c : SysCause) : Prop :=
  s'.tiles = [] ∧ s'.edges = [] ∧ s'.beds = [] ∧ s'.cfg = {} ∧ s'.hq.rings = [] ∧ s'.hq.cur = none ∧ s'.mc.mem = s.mc.mem ∧
  s'.mc.ready = false ∧ s'.sec.fuses = s.sec.fuses ∧ s'.sec.bootState = 0 ∧ s'.sec.open_ = false ∧ s'.devTime = s.devTime ∧
  (s.pace.needPor = false → s'.pace = { snap := s'.pace.snap }) ∧ s'.sec.cores = 0 ∧ s'.pwr.intOsc = s.pwr.clkLost ∧
  (match c with
   | .pin => s'.sec.causePin = true
   | .soft => s'.sec.causeSoft = true
   | .watchdog => s'.sec.causeWdog = true
   | .dbg => s'.sec.causeDbg = true)

/-- The boot has failed with a cause, which the console prints (R422). -/
def bootFailed (s s' : State) (cause : Nat) : Prop :=
  s'.sec.bootState = 0xF ∧ s'.sec.bootCause = BitVec.ofNat 8 cause ∧ s'.sec.uart = s.sec.uart ++ [BitVec.ofNat 8 cause] ∧ s'.sec.romRunning = false

/-- The ROM has started a firmware copy on the four cores, with the copies that it rejected (R419, R421). -/
def started (s' : State) (copy1 : Bool) (b : List Byte) (rej : Nat) : Prop :=
  s'.sec.bootState = 1 ∧ s'.sec.bootCause = 0 ∧ s'.sec.bootCopy = copy1 ∧ s'.sec.bootRej = BitVec.ofNat 2 rej ∧ s'.sec.cores = 15 ∧
  s'.sec.sram = b.take (128 + numAt b 4 4 + 256) ∧ s'.sec.fwver = BitVec.ofNat 32 (numAt b 8 4) ∧ s'.sec.fwsvn = BitVec.ofNat 64 (numAt b 12 8)

end Sys2Proof.Claims

/-- R416 to R422, R294, R320, R328, R450, R453: a FUNC reset clears the host interface and the host's masks and leaves the fabric; a SYS reset starts the
device anew but for LPDDR6, fuses and the cause, and waits for a burn; a POR reset starts all anew but the fuses and what the supply pins say;
the ROM starts where the rails were in range and SYS_CLK25 runs, and verifies the copies: the valid one of the greater FWSVN runs, or the boot
fails with its CAUSE; firmware trains LPDDR6; a lost channel is device-fatal; the link and Bus Master Enable go and come back. -/
def Obligations.Resets : Prop :=
  ∀ (s : State) (fc : FuncCause) (sc : SysCause) (pc : PorCause) (f : FlashView) (tr : Training)
    (chok : BitVec 8),
    (s.idle = true → ∃ s', exec (.funcReset fc) s = .next s' ∧ s'.hq.rings = [] ∧ s'.hq.cur = none ∧ s'.hq.kept = none ∧ s'.hq.bme = false ∧
      s'.hq.eseq = s.hq.eseq ∧ s'.hq.evq = s.hq.evq ∧ s'.ic.msixEn = false ∧ s'.sec.nonce = none ∧ s'.tiles = s.tiles ∧ s'.cfg = s.cfg ∧ s'.pace = s.pace ∧
      (∀ k < 128, (s'.source k).maskHost = true ∧ (s'.source k).vec = 0 ∧ (s'.source k).maskMp = (s.source k).maskMp) ∧
      (∀ m < 8, bitAt (s.mbox m).peer.toNat 0 = true → (s'.mbox m).inq = {} ∧ (s'.mbox m).outq = {}) ∧
      (fc = .hotReset ∨ fc = .perst → s'.hq.linkUp = false)) ∧
    (s.idle = false → ∃ s', exec (.funcReset fc) s = .next s' ∧ s'.pace.state = .aborted ∧ s'.tiles = s.tiles) ∧
    (s.sec.burn = none →
      (sc ≠ .dbg ∨ s.sec.open_ = true → ∃ s', exec (.sysReset sc) s = .next s' ∧ sysDone s s' sc) ∧
      (opens s 0xC001C → ∃ s', exec (.secRstWrite 0x5359 1) s = .next s' ∧ sysDone s s' .soft) ∧
      (∃ s', exec .managementWatchdogExpiry s = .next s' ∧ sysDone s s' .watchdog)) ∧
    (s.sec.burn ≠ none → opens s 0xC001C → exec (.secRstWrite 0x5359 1) s = .next { s with sec := { s.sec with sysWaits := some .soft } }) ∧
    (∀ key level, opens s 0xC001C → key ≠ 0x5359 ∨ level ≠ 1 → exec (.secRstWrite key level) s = .next s) ∧
    (∃ s', exec (.porReset pc) s = .next s' ∧ s'.tiles = [] ∧ s'.pace = {} ∧ s'.cfg = {} ∧ s'.hq = {} ∧ s'.mc = {} ∧ s'.ic = {} ∧
      s'.pwr = { aonB := s.pwr.aonB, aOk := s.pwr.aOk, bOk := s.pwr.bOk, aOkT := s.pwr.aOkT, selB := !s.pwr.aOk && s.pwr.bOk,
                 railsOk := (porRails pc).needed, lnkRail := (porRails pc).lnk, clkLost := s.pwr.clkLost, intOsc := s.pwr.clkLost } ∧
      s'.sec.bootState = 0 ∧ s'.devTime = (if porByPin pc then s.devTime else 0) ∧
      s'.sec.fuses.shadow = s'.sec.fuses.bank0 ||| s'.sec.fuses.bank1 ∧
      (s.sec.burn = none → s'.sec.fuses.bank0 = s.sec.fuses.bank0 ∧ s'.sec.fuses.bank1 = s.sec.fuses.bank1)) ∧
    (s.sec.bootState = 0 →
      (s.pwr.railsOk = true → s.pwr.intOsc = false → ∃ s', exec .bootRomStart s = .next s' ∧ s'.sec.romRunning = true ∧ s'.sec.cores = 1 ∧
        s'.domain 2 = true ∧ s'.tiles = s.tiles) ∧
      (s.pwr.railsOk = false ∨ s.pwr.intOsc = true → exec .bootRomStart s = .next s)) ∧
    (s.sec.romRunning = true → s.sec.bootState = 0 → (Instr.firmwareVerify f).wf = true → ∃ s', exec (.firmwareVerify f) s = .next s' ∧
      (f.answering = false → bootFailed s s' 3) ∧ (f.answering = true → f.sfdp = none → bootFailed s s' 4) ∧
      (f.answering = true → f.sfdp ≠ none → f.dirOk = false → bootFailed s s' 1) ∧
      (f.answering = true → f.sfdp ≠ none → f.dirOk = true →
        let c0 := slice f.bytes (if numAt f.bytes 0 4 = 0x31425654 then numAt f.bytes 4 4 else 0x10000) (128 + 2 ^ 21 + 256)
        let c1 := slice f.bytes (if numAt f.bytes 0 4 = 0x31425654 then numAt f.bytes 8 4 else 0x220000) (128 + 2 ^ 21 + 256)
        let rej := b2n (!fwValid s c0) + 2 * b2n (!fwValid s c1)
        (∀ x, f.sfdp = some x → s'.sec.flashRead = x) ∧
        (fwValid s c0 = false → fwValid s c1 = false → bootFailed s s' 2 ∧ s'.sec.bootRej = 3) ∧
        (fwValid s c0 = true → fwValid s c1 = false ∨ numAt c1 12 8 ≤ numAt c0 12 8 → started s' false c0 rej) ∧
        (fwValid s c1 = true → fwValid s c0 = false ∨ numAt c0 12 8 < numAt c1 12 8 → started s' true c1 rej))) ∧
    (s.sec.bootState = 1 → trainingOk tr = true → ∃ s', exec (.firmwareReady (some tr)) s = .next s' ∧ s'.sec.bootState = 3 ∧
      s'.mc.trained = true ∧ s'.mc.pkgsz = tr.pkgsz ∧ s'.mc.rate = s.pwr.mem ∧ s'.mc.mem = s.mc.mem ∧ s'.pace = s.pace) ∧
    (s.sec.bootState = 1 → ∃ s', exec (.firmwareReady none) s = .next s' ∧ s'.pace.state = .aborted ∧ s'.pace.fatal = true ∧
      s'.sec.bootState = 1) ∧
    (s.mc.trained = true → chok ≠ 0xFF → ∃ s', exec (.channelLoss chok) s = .next s' ∧ s'.pace.state = .aborted ∧ s'.pace.fatal = true ∧
      s'.mc.chok = chok ∧ s'.mc.quiesced = true) ∧
    (∃ s', exec .linkDown s = .next s' ∧ s' = { s with hq := s'.hq } ∧ s'.hq.linkUp = false ∧ s'.hq.rings = s.hq.rings) ∧
    (s.hq.linkUp = false → ∃ s', exec .pcieLinkUp s = .next s' ∧ s'.hq.linkUp = true ∧ 1 ≤ s'.hq.lspeed.toNat ∧ s'.hq.lspeed.toNat ≤ 5 ∧
      s'.hq.lwidth ∈ [1, 2, 4] ∧ s'.tiles = s.tiles) ∧
    exec .busMasterEnableCleared s = .next { s with hq := { s.hq with bme := false } } ∧
    (∃ s', exec .busMasterEnableSet s = .next s' ∧ s'.hq.bme = true ∧ (s.hq.linkUp = true → s'.hq.msixOut = []) ∧
      s' = { s with hq := s'.hq, hostOut := s'.hostOut })

namespace Sys2Proof.Claims

/-- The commands that start a signed request, with its ROP and the burn it asks for (Table SEC-4). -/
def requestOf (b : List Byte) : Instr → Option (Nat × Burn)
  | .prog => some (1, .prog (numAt b 3 1) (BitVec.ofNat 384 (numAt b 4 48)))
  | .revoke => some (2, .revoke (numAt b 3 1))
  | .advImg => some (3, .img (numAt b 4 8))
  | .advFw => some (4, .fw (numAt b 4 8))
  | _ => none

/-- A signed request has ended with a RESULT (Table SEC-6): nothing burns, and its event is 0x0C04 or 0x0C03. -/
def requestEnds (s s' : State) (result : Nat) : Prop :=
  s'.sec.reqResult = BitVec.ofNat 8 result ∧ s'.sec.reqEvt = (if result = 0 then 0x0C04 else 0x0C03) ∧ s'.sec.busy = false ∧
  s'.sec.burn = none ∧ s'.pace = s.pace ∧ s'.tiles = s.tiles

end Sys2Proof.Claims

/-- R425 to R430: a nonce is drawn into the reader's own registers; a request takes the nonce and is malformed, stale, unsigned, unauthorised,
or burns; a burn that succeeds blows exactly the bits of what was asked, in both fuses of each, one that fails some of them, never PROG, REV or
the whole counter, and a slot with hash bits and no PROG is damaged; a self-check that finds a wrong parity, as one upset bit makes it, is
device-fatal; the debug port closes and halts only while open. -/
def Obligations.Security : Prop :=
  ∀ (s : State) (a : Agent) (c : Instr) (n : Nat),
    let b := reqBytes s
    let f := s.sec.fuses
    (reaches s a 0xC0040 false → ∃ s', exec (.nonceDraw a) s = .next s' ∧ s'.sec.nonce = some (Config.freeBits s.free) ∧
      mget 0 s'.sec.nonceRegs (agentNo a) = Config.freeBits s.free ∧ s'.answer = .word ((Config.freeBits s.free).truncate 32) ∧
      ∀ k, k ≠ agentNo a → mget 0 s'.sec.nonceRegs k = mget 0 s.sec.nonceRegs k) ∧
    (∀ rop burn, opens s 0xC0060 → requestOf b c = some (rop, burn) → s.sec.busy = false → numAt b 0 2 = rop →
      ∃ s', exec c s = .next s' ∧ s'.sec.nonce = none ∧ s'.sec.fuses = f ∧
        (reqFormed b = false → requestEnds s s' 4) ∧
        (reqFormed b = true → s.sec.nonce ≠ some (reqNonce b) → requestEnds s s' 1) ∧
        (reqFormed b = true → s.sec.nonce = some (reqNonce b) → reqSigned f b = false → requestEnds s s' 2) ∧
        (reqFormed b = true → s.sec.nonce = some (reqNonce b) → reqSigned f b = true → reqAuthorised s b = false → requestEnds s s' 3) ∧
        (reqFormed b = true → s.sec.nonce = some (reqNonce b) → reqSigned f b = true → reqAuthorised s b = true →
          s'.sec.busy = true ∧ s'.sec.burn = some burn)) ∧
    (∀ x, s.sec.burn = some x → s.sec.sysWaits = none →
      let bit := fun (g : Fuses) (i : Nat) => g.shadow.getLsbD i
      let asked := fun i : Nat => match x with
        | .prog k h => (384 * k ≤ i ∧ i < 384 * k + 384 ∧ h.getLsbD (i - 384 * k) = true) ∨ i = 1536 + k
        | .revoke k => i = 1540 + k
        | .img _ => 1608 ≤ i ∧ i < 1672
        | .fw _ => 1544 ≤ i ∧ i < 1608
      let grows := fun g : Fuses => (∀ i < 1672, bit f i = true → bit g i = true) ∧ (∀ i < 1672, bit g i = true → bit f i = true ∨ asked i) ∧
        (∀ i < 1672, bit g i = true → bit f i = false → g.bank0.getLsbD i = true ∧ g.bank1.getLsbD i = true) ∧
        (shadowParity f.shadow = f.par → shadowParity g.shadow = g.par)
      (match x with
       | .prog k _ | .revoke k => k < 4
       | .img v => f.arbImg < v ∧ v ≤ 64
       | .fw v => f.arbFw < v ∧ v ≤ 64) →
      (∃ s', exec (.burnComplete true n) s = .next s' ∧ requestEnds s s' 0 ∧ grows s'.sec.fuses ∧ (match x with
        | .img v => s'.sec.fuses.arbImg = v
        | .fw v => s'.sec.fuses.arbFw = v
        | _ => ∀ i < 1672, asked i → bit s'.sec.fuses i = true)) ∧
      (∃ s', exec (.burnComplete false n) s = .next s' ∧ requestEnds s s' 5 ∧ grows s'.sec.fuses ∧ (match x with
        | .img v => f.arbImg ≤ s'.sec.fuses.arbImg ∧ s'.sec.fuses.arbImg < v
        | .fw v => f.arbFw ≤ s'.sec.fuses.arbFw ∧ s'.sec.fuses.arbFw < v
        | .revoke _ => s'.sec.fuses = f
        | .prog k _ => bit s'.sec.fuses (1536 + k) = bit f (1536 + k) ∧
            (bit f (1536 + k) = false → (∃ i, 384 * k ≤ i ∧ i < 384 * k + 384 ∧ bit s'.sec.fuses i = true) →
              slotDamaged s'.sec.fuses k = true ∧ slotGood s'.sec.fuses k = false)))) ∧
    (∀ flips,
      (shadowParity (upset f.shadow flips) = f.par →
        exec (.fuseSelfCheck flips) s = .next { s with sec := { s.sec with fuses := { f with shadow := upset f.shadow flips } } }) ∧
      (shadowParity (upset f.shadow flips) ≠ f.par ∨ (shadowParity f.shadow = f.par ∧ ∃ i < 1672, flips = [i]) →
        ∃ s', exec (.fuseSelfCheck flips) s = .next s' ∧ s'.pace.state = .aborted ∧ s'.pace.fatal = true ∧ s'.pace.needPor = true ∧
          s'.sec.open_ = false)) ∧
    (s.sec.open_ = true →
      (∃ s', exec .debugClose s = .next s' ∧ s'.sec.open_ = false ∧ bitAt s'.pace.req.toNat 5 = false ∧ s'.tiles = s.tiles) ∧
      (∀ halt, ∃ s', exec (.debugHalt halt) s = .next s' ∧ bitAt s'.pace.req.toNat 5 = halt ∧ s' = { s with pace := s'.pace } ∧
        ∀ i, i < 7 → i ≠ 5 → bitAt s'.pace.req.toNat i = bitAt s.pace.req.toNat i)) ∧
    (s.sec.open_ = false → exec .debugClose s = .next s ∧ ∀ halt, exec (.debugHalt halt) s = .next s)

/-! ## Registers (21) -/

namespace Sys2Proof.Claims

/-- A register access of one whole aligned doubleword in BAR0's space, unpoisoned, to a block whose domain is on, by an agent that issues
accesses. -/
structure Reaches (s : State) (x : RegAccess) : Prop where
  space : x.space = .bar0
  sound : x.poisoned = false
  agent : agentReaches s x.agent x.offset = true
  valid : accessValid x = true
  boot : s.sec.bootState ≠ 0xF
  powered : offPowered s x.offset = true
  inside : x.offset < 0x4000000

/-- A violating access has been recorded (R435): its code, its address and its count; nothing else but the report of it changed. -/
def violated (s s' : State) (x : RegAccess) (code : Nat) : Prop :=
  s'.glb.violCode = BitVec.ofNat 16 code ∧ s'.glb.violAddr = BitVec.ofNat 36 x.offset ∧ s'.glb.violCnt = satInc s.glb.violCnt ∧
  s' = { s with glb := s'.glb, hq := s'.hq, ic := s'.ic, flt := s'.flt, answer := s'.answer }

/-- A violating read's answer to an agent (Table MAP-2, R438). -/
def refusedRead : Agent → Answer
  | .host _ => .abort
  | .mp _ => .busError
  | .dbg => .jtagError

/-- Commands that are a write of one register and name no agent, with the register's offset. -/
def plainRows (n : Fin 26) (k : Fin 8) (p : Fin 4) (v : Word) (b : Bool) : List (Instr × Nat) :=
  [(.doorbell n v, 0x4010C + 0x20 * n), (.ringEnable n 12, 0x40100 + 0x20 * n), (.ringDisable n, 0x40100 + 0x20 * n), (.hqClrstat, 0x40000),
   (.windowBaseWrite 0, 0x40008), (.pendWrite 0 v, 0x20010), (.maskWrite false 0 v, 0x20020), (.senseChange 0 0, 0x21000),
   (.portEnable p b, 0x90100 + 0x80 * p), (.retrain p, 0x90100 + 0x80 * p), (.lkClrstat, 0x90000), (.domainRequest 0, 0xB0060),
   (.vsetWrite b 0, 0xB0008), (.clockStepChange 0 0, 0xB0030), (.pwrClrstat, 0xB0000), (.sela, 0xB0058), (.prog, 0xC0060),
   (.revoke, 0xC0060), (.advImg, 0xC0060), (.advFw, 0xC0060), (.secRstWrite 0 0, 0xC001C), (.nceClrstat, 0xD0000), (.ppClrstat, 0xE0000),
   (.fltClear, 0xF0000), (.glbClrviol, 0x0000C), (.paceClrstat, 0x10000), (.swholdWrite b, 0x1004C), (.spEnable k v b, 0x80100 + 0x80 * k),
   (.spClrstat, 0x80000), (.seClrstat, 0x60000), (.mcClrcnt, 0x7000C), (.twEnable v, 0xA0000)]

end Sys2Proof.Claims

/-- R67, R209, R230, R291, R297, R299, R318, R321, R342, R422, R433 to R438, R442, R443: a valid access reaches its register, another, or one whose
register does not answer, is recorded and changes nothing else, its read refused as its agent's port has it; a poisoned host write is dropped
with 0x0207; a LO read latches its HI register for its agent; a queue record is sampled whole for its agent; clears clear what they name;
FFDATA reaches the inactive bank and advances; RRP takes values in its range alone; a host's accesses to BAR4 reach the vectors' entries and the
PBA (laid out as PCI Express has it, log entry 86). -/
def Obligations.Registers : Prop :=
  ∀ (s : State) (x : RegAccess) (a : Agent) (b : Fin 256) (k : Fin 16) (v : Word) (m : BitVec 5),
    (Reaches s x →
      (x.offset = 0x8 → exec (.registerWrite x) s = .next { s with glb := { s.glb with scratch := x.data } }) ∧
      (x.offset = 0x1004C → exec (.registerWrite x) s = exec (.swholdWrite (bitAt x.data.toNat 0)) s) ∧
      (x.offset = 0x1000 → exec (.registerWrite x) s = .next (violateReg s x.agent 0x0102 0x1000 true)) ∧
      (x.offset = 0x10000 → s.idle = false → BitVec.ofNat 2 (x.data.toNat % 4) ≠ s.pace.mode →
        ∃ s', exec (.registerWrite x) s = .next s' ∧ violated s s' x 0x0103 ∧ s'.answer = s.answer) ∧
      (x.offset = 0x10008 → ∃ s', exec (.loReadLatch x) s = .next s' ∧ s'.answer = .word (BitVec.ofNat 32 s.pace.step.toNat) ∧
        s'.latched x.agent 0x1000C = BitVec.ofNat 32 (s.pace.step.toNat / 2 ^ 32) ∧
        s' = { s with latches := s'.latches, answer := s'.answer }) ∧
      (x.offset = 0x1000C → exec (.loReadLatch x) s = .next { s with answer := .word (s.latched x.agent 0x1000C) })) ∧
    (x.wf = true → x.space = .bar0 → agentReaches s x.agent x.offset = true → accessEmpty x = false →
      (accessValid x = false →
        (x.poisoned = false → ∃ s', exec (.registerWrite x) s = .next s' ∧ violated s s' x 0x0101) ∧
        (∃ s', exec (.loReadLatch x) s = .next s' ∧ violated s s' x 0x0101 ∧ s'.answer = refusedRead x.agent)) ∧
      (accessValid x = true →
        (x.poisoned = false → rowOpen s x.offset true = false → ∃ s', exec (.registerWrite x) s = .next s' ∧ violated s s' x 0x0102) ∧
        (rowOpen s x.offset false = false → ∃ s', exec (.loReadLatch x) s = .next s' ∧ violated s s' x 0x0102 ∧
          s'.answer = refusedRead x.agent))) ∧
    (∀ rid, x.wf = true → x.space = .bar0 → x.agent = .host rid → x.poisoned = true →
      ∃ s', exec (.registerWrite x) s = .next s' ∧ s' = { s with hq := s'.hq, ic := s'.ic, flt := s'.flt } ∧
        (s.hq.evq.length < 256 → ∃ e, s'.hq.evq = s.hq.evq ++ [e] ∧ e.code = 0x0207 ∧ e.addr = BitVec.ofNat 64 x.offset)) ∧
    (∀ n p j w bb, ∀ c ∈ plainRows n p j w bb, rowOpen s c.2 true = false → ∃ s', exec c.1 s = .next s' ∧ s'.glb.violCode = 0x0102 ∧
      s'.glb.violAddr = BitVec.ofNat 36 c.2 ∧ s' = { s with glb := s'.glb, hq := s'.hq, ic := s'.ic, flt := s'.flt, free := s'.free }) ∧
    (∀ rid (j : Fin 64), x.wf = true → x.agent = .host rid → x.space = .bar4 → x.be = 15 → s.powered 2 = true →
      (x.offset = 16 * j → ∃ s', exec (.registerWrite x) s = .next s' ∧
        (s'.target j).msgAddr = BitVec.ofNat 64 ((s.target j).msgAddr.toNat / 2 ^ 32 * 2 ^ 32 + x.data.toNat / 4 * 4) ∧ s' = { s with ic := s'.ic }) ∧
      (x.offset = 16 * j + 8 → ∃ s', exec (.registerWrite x) s = .next s' ∧ (s'.target j).msgData = x.data ∧ s' = { s with ic := s'.ic }) ∧
      (x.offset = 16 * j + 12 → ∃ s', exec (.registerWrite x) s = .next s' ∧ (s'.target j).vmask = bitAt x.data.toNat 0) ∧
      (x.offset = 0x1000 → exec (.loReadLatch x) s = .next { s with answer := .word (packW ((List.range 32).map fun i =>
        (i, b2n (decide (0 < (s.target i).pba))))) })) ∧
    (opens s 0xC → ∃ s', exec .glbClrviol s = .next s' ∧ (∀ e o, o < 2 ^ 26 → s'.latched e o = if o = 0x14 then 0 else s.latched e o) ∧
      s' = { s with
        glb := { s.glb with violAddr := 0, violSpace := 0, violReq := 0, violCode := 0, violCnt := 0 }, latches := s'.latches }) ∧
    (reaches s a (0x100080 + 0x1000 * b) false → bedDefined s b = true → ∀ t q, selQueue s a b = some (t, q) → ∃ s', exec (.qrecSample a b) s = .next s' ∧
      (s'.sel a b).sample = queueWords (s.tile t) q ∧ s'.answer = .word ((queueWords (s.tile t) q).headD 0) ∧
      (s'.sel a b).qsel = (s.sel a b).qsel ∧ (∀ e c, agentNo e ≠ agentNo a ∧ c < 256 → s'.sel e c = s.sel e c) ∧
      s' = { s with sels := s'.sels, answer := s'.answer }) ∧
    (reaches s a (0x100080 + 0x1000 * b) false → bedDefined s b = false → exec (.qrecSample a b) s = .next { s with answer := .word 0 }) ∧
    (opens s (0x100024 + 0x1000 * b) → bedDefined s b = true → ∃ s', exec (.bedClr b m) s = .next s' ∧ s' = { s with beds := s'.beds } ∧
      (∀ c, c ≠ b.val → s'.bed c = s.bed c) ∧ s'.bed b = { s.bed b with
        nonfin := if bitAt m.toNat 0 then 0 else (s.bed b).nonfin, steer := if bitAt m.toNat 1 then 0 else (s.bed b).steer
        ovf := if bitAt m.toNat 2 then 0 else (s.bed b).ovf, cecc := if bitAt m.toNat 3 then 0 else (s.bed b).cecc
        adapt := if bitAt m.toNat 4 then 0 else (s.bed b).adapt }) ∧
    (reaches s a (0x1000C8 + 0x1000 * b) true → bedDefined s b = true → ∀ t, selQ s a b = some t → ∃ s', exec (.bedSatclr a b) s = .next s' ∧ s' = { s with tiles := s'.tiles } ∧
      (∀ i, mget 0 (s'.tile t).q.satc i = 0) ∧ (s'.tile t).q.fired = [] ∧ (s'.tile t).q.qs = (s.tile t).q.qs ∧
      ∀ u, u ≠ t → s'.tile u = s.tile u) ∧
    (let key := ffKey (b2n (!bitAt s.nce.ffbank.toNat s.nce.ffView.toNat)) s.nce.ffView.toNat s.nce.ffCol.toNat
     (reaches s a 0xD0024 false → exec (.ffdataAccess a none) s = .next { s with answer := .word (mget 0 s.nce.ff key), nce := { s.nce with ffCol := s.nce.ffCol + 1 } }) ∧
     (reaches s a 0xD0024 true → ∃ s', exec (.ffdataAccess a (some v)) s = .next s' ∧ s'.nce.ffCol = s.nce.ffCol + 1 ∧
       mget 0 s'.nce.ff key = packW [(16, FloatFmt.fp16.finite (bits v.toNat 16 16)), (0, FloatFmt.fp16.finite (bits v.toNat 0 16))] ∧
       ∀ i, i ≠ key → mget 0 s'.nce.ff i = mget 0 s.nce.ff i)) ∧
    (opens s 0xD0000 → exec .nceClrstat s = .next { s with nce := { s.nce with cropcnt := 0, clipcnt := 0 } }) ∧
    (opens s 0xE0000 → exec .ppClrstat s = .next { s with pp := { s.pp with qdrop := 0, accept := 0, supp := 0, qhwm := 0 } }) ∧
    (opens s 0x80000 → ∃ s', exec .spClrstat s = .next s' ∧ s' = { s with sp := s'.sp } ∧ ∀ i, (s'.sport i).good = 0 ∧ (s'.sport i).short = 0 ∧
      (s'.sport i).crc = 0 ∧ (s'.sport i).hdr = 0 ∧ (s'.sport i).xoffcnt = 0 ∧ (s'.sport i).v0 = (s.sport i).v0) ∧
    (opens s 0x60000 → ∃ s', exec .seClrstat s = .next s' ∧ s' = { s with se := s'.se } ∧ ∀ i, s'.engine i = { s.engine i with drop := 0 }) ∧
    (opens s 0x7000C → exec .mcClrcnt s = .next { s with mc := { s.mc with cecnt := 0, uecnt := 0 } }) ∧
    (reaches s a (0x60124 + 0x40 * k) true →
     let e := s.engine k
     let size := if e.szl = 0 then 0 else 2 ^ e.szl.toNat
     ((e.rwp - v).toNat ≤ size → exec (.rrpWrite k v a) s = .next (s.setEngine k { e with rrp := v })) ∧
     (size < (e.rwp - v).toNat → ∃ s', exec (.rrpWrite k v a) s = .next s' ∧ s'.se = s.se ∧ s'.glb.violCode = 0x0103))

/-! ## Sensor ports (14) -/

namespace Sys2Proof.Claims

/-- The lanes carry the bytes of a body, byte i on lane i mod nl, and filler to the end of the last lane-cycle (R302); the sync word stands
nowhere in them. -/
structure OnLanes (nl : Nat) (ls : List (List Byte)) (b : List Byte) : Prop where
  lanes : ls.length = nl
  cycles : ∀ l ∈ ls, l.length = (b.length + nl - 1) / nl
  bytes : ∀ i < b.length, (ls.getD (i % nl) []).getD (i / nl) 0 = b.getD i 0
  noSync : ∀ j, ∃ l < nl, slice (ls.getD l []) j 4 ≠ [0x0F, 0xE2, 0x47, 0xB9]

end Sys2Proof.Claims

/-- R301, R302, R304 to R311, R316: the sync word opens a line; a good line in order joins its view's queue, eight pixels an entry, and is counted; a
bad one is counted and discarded; the sync word on all lanes inside a body ends its line short; the clock's loss returns the port to HUNT until edges return; CFG enables a port whose values the tables
allow and whose supply stands. -/
def Obligations.SensorPorts : Prop :=
  ∀ (s : State) (k : Fin 8) (b : List Byte) (ls : List (List Byte)) (cfg : Word) (ok : Bool),
    let p := s.sport k
    (p.state = .hunt → p.clklost = false → ∃ s', exec (.lineSync k) s = .next s' ∧ s' = { s with sp := s'.sp } ∧
      s'.sport k = { p with state := .body, discard := false } ∧ ∀ i, i ≠ k.val → s'.sport i = s.sport i) ∧
    (p.state = .body → p.clklost = false → p.discard = false → ∃ s', exec (.lineSync k) s = .next s' ∧ (s'.sport k).short = satInc p.short ∧
      (s'.sport k).v0 = p.v0 ∧ (s'.sport k).v1 = p.v1) ∧
    (p.state = .off → exec (.lineSync k) s = .next s) ∧
    (p.state = .body → p.clklost = false → p.discard = false → ∃ s',
      exec (.lineComplete k (List.replicate (2 ^ p.nl.toNat) [0x0F, 0xE2, 0x47, 0xB9])) s = .next s' ∧ (s'.sport k).short = satInc p.short ∧
      (s'.sport k).state = .body ∧ (s'.sport k).v0 = p.v0 ∧ (s'.sport k).v1 = p.v1) ∧
    (p.state = .body → p.clklost = false → p.discard = false → b.length = lnLength b → OnLanes (2 ^ p.nl.toNat) ls b →
      (lnCrcOk b = false → ∃ s', exec (.lineComplete k ls) s = .next s' ∧ (s'.sport k).crc = satInc p.crc ∧ (s'.sport k).state = .hunt ∧
        (s'.sport k).v0 = p.v0 ∧ (s'.sport k).v1 = p.v1 ∧ (s'.sport k).good = p.good) ∧
      (lnCrcOk b = true → lnHdrOk s k b = false → ∃ s', exec (.lineComplete k ls) s = .next s' ∧ (s'.sport k).hdr = satInc p.hdr ∧
        (s'.sport k).state = .hunt ∧ (s'.sport k).v0 = p.v0 ∧ (s'.sport k).v1 = p.v1) ∧
      (lnCrcOk b = true → lnHdrOk s k b = true → s.idle = true → ∃ s', exec (.lineComplete k ls) s = .next s' ∧
        s'.sport k = { p with state := .hunt, good := satInc p.good }) ∧
      (lnCrcOk b = true → lnHdrOk s k b = true → s.idle = false → s.pace.state ≠ .aborted →
        let x := p.view (lnView b)
        (∀ e, x.expect = some e → e = lnRow b) → x.queue.length + lnWidth b / 8 ≤ 8192 →
        ∃ s', exec (.lineComplete k ls) s = .next s' ∧ (s'.sport k).good = satInc p.good ∧ (s'.sport k).state = .hunt ∧
          let y := (s'.sport k).view (lnView b)
          y.queue = x.queue ++ (List.range (lnWidth b / 8)).map (fun j =>
            let w := mkPayload 16 ((List.range 8).map fun l => ((lnPixels b).getD (8 * j + l) 0).toNat)
            { payload := w, par := parityOf w, vb := 0xFFFF, sol := j == 0 }) ∧
          y.expect = some (lnRow b + 1) ∧ (x.expect = none → y.first = lnRow b) ∧
          (s'.sport k).view (1 - lnView b) = { p.view (1 - lnView b) with fullish := ((s'.sport k).view (1 - lnView b)).fullish })) ∧
    (p.state = .off → exec (.clockLost k) s = .next s) ∧
    (p.en = true → p.state ≠ .off → p.clklost = false → ∃ s', exec (.clockLost k) s = .next s' ∧
      s'.sport k = { p with clklost := true, state := .hunt, discard := false } ∧ s'.pace = s.pace) ∧
    (∃ s', exec (.sensorClockReturn k) s = .next s' ∧ s'.sport k = { p with clklost := false } ∧ s' = { s with sp := s'.sp }) ∧
    (opens s (0x80100 + 0x80 * k) →
    (s.idle = true → bitAt cfg.toNat 0 = true → spCfgOk cfg.toNat = true → ∃ s', exec (.spEnable k cfg true) s = .next s' ∧
      (s'.sport k).en = true ∧ (s'.sport k).cfgerr = false ∧ (s'.sport k).std = BitVec.ofNat 2 (bits cfg.toNat 1 2) ∧
      (p.state = .off → (s'.sport k).state = if s.domain 10 then .hunt else .off)) ∧
    (s.idle = true → bitAt cfg.toNat 0 = true → spCfgOk cfg.toNat = false ∨ ok = false → ∃ s', exec (.spEnable k cfg ok) s = .next s' ∧
      (s'.sport k).en = false ∧ (s'.sport k).cfgerr = true ∧ (s'.sport k).state = .off) ∧
    (s.idle = true → bitAt cfg.toNat 0 = false → ∃ s', exec (.spEnable k cfg ok) s = .next s' ∧ (s'.sport k).en = false ∧
      (s'.sport k).state = .off ∧ (s'.sport k).v0.queue = [] ∧ (s'.sport k).v1.queue = []))

/-! ## The narrow-channel engine and the post-processor (10) -/

/-- R207 to R209, R215, R216, R218: the scheduled line leaves its queue and enters the line buffer corrected by its gains and offsets, a wrong
parity aborts; every crop slot is served in a window's request; the tokens of a slot are taken from its segment, and a crop cut by its
window is counted. -/
def Obligations.NarrowChannel : Prop :=
  ∀ (s : State) (k : Fin 8),
    let b := s.nceBlock
    let v := s.nextView
    let n := nvWidth b v / 8
    let es := (s.viewQueue b v).take n
    (intakeDue s = true → s.nce.badParity = [] →
      ((∀ e ∈ es, e.par = parityOf e.payload) → ∃ s', exec .nceLineIntake s = .next s' ∧ s'.nce.intakeDone = true ∧
        s'.nce.sched = (s.nce.sched + 1) % max 1 (nceNsched b) ∧ s'.viewQueue b v = (s.viewQueue b v).drop n ∧
        (let w := mget {} s.nce.views v
         let w' := mget {} s'.nce.views v
         w'.rowsIn = w.rowsIn + 1 ∧ w'.rows.getLast? = some ((entryPixels es).zipIdx.map fun p => BitVec.ofNat 32
           (if bitAt s.nce.ffen.toNat v then
              let g := (mget 0 s.nce.ff (ffKey (b2n (bitAt s.nce.ffbank.toNat v)) v p.2)).toNat
              (viewFmt b v).round ((FloatFmt.fp16.operand (bits g 16 16)).mul ((Frac.ofInt p.1).sub (FloatFmt.fp16.operand (bits g 0 16))))
            else (viewFmt b v).round (Frac.ofInt p.1)))) ∧
        s'.tiles = s.tiles ∧ s'.pace = s.pace ∧ s'.mc = s.mc) ∧
      ((∃ e ∈ es, e.par ≠ parityOf e.payload) → ∃ s', exec .nceLineIntake s = .next s' ∧ s'.pace.state = .aborted ∧ s'.sp = s.sp)) ∧
    (stepRuns s = true → s.nceOn = true → crCW b ≠ 0 → s.pace.rakeAct = false → s.cropWindow = s.nce.cropWin → s.nce.badParity = [] →
      (s.nce.reqDone = true → exec .cropRequest s = .next s) ∧
      (s.nce.reqDone = false → ∃ s', exec .cropRequest s = .next s' ∧ s'.nce.reqDone = true ∧ s' = { s with nce := s'.nce } ∧
        (∀ i < crST b, mget {} s'.nce.slots i = serveSlot s b (mget none s.nce.lines i)) ∧
        ∀ c < 40, chRole b c = 3 → chUnit b c < crNSEG b →
          mget [] s'.nce.chan c = mget [] s.nce.chan c ++ (List.range (crST b)).flatMap fun i =>
            let y := serveSlot s b (mget none s.nce.lines i)
            let on := y.line.isSome && y.seg == chUnit b c
            requestTokens (cropDescriptor b (chUnit b c) (if on then y.t0 else 0) (if on then y.r0 - mrow b s.nce.cropWin else 0)))) ∧
    (let i := mget 0 s.nce.cropNext k
     let m := crRH b * crRWT b
     let ts := mget [] s.nce.rx (32 + k)
     let c := mget {} s.nce.slots i
     s.nceOn = true → s.nce.reqDone = true → k.val < crNSEG b → i < crST b → m ≠ 0 → m ≤ ts.length → s.pace.rakeAct = false →
     s.nce.badParity = [] → ∀ l, c.line = some l → ∃ s', exec (.cropResample k) s = .next s' ∧ mget [] s'.nce.rx (32 + k) = ts.drop m ∧
       mget 0 s'.nce.cropNext k = i + 1 ∧ s'.tiles = s.tiles ∧ s'.pace = s.pace ∧
       s'.nce.cropcnt = (if c.seg = k.val then satInc s.nce.cropcnt else s.nce.cropcnt) ∧
       s'.nce.clipcnt = (if c.seg = k.val ∧ c.clipped = true then satInc s.nce.clipcnt else s.nce.clipcnt) ∧
       (c.seg = k.val → mget 0 s.nce.cropNext 8 = i →
         let out := 32 + Config.slotChannel i (crNSEG b) % max 1 (crNSEG b) % 8
         (mget [] s.nce.chan out ++ cropTokens s b c l (ts.take m)) <+: mget [] s'.nce.chan out))

/-- R200, R221, R222, R225, R226, R228: a step of the PP takes every head's tokens and keeps queue and accepted boxes within their sizes; a ripe
candidate that nothing overlaps is accepted, takes the next BOXID and gives its detection record, at once or, in the text-line set, at its crop
window's end, flagged "text line", and "not read" where the packer has no slot for it; while a ring that the block names has no room the PP
takes no token. -/
def Obligations.PostProcessor : Prop :=
  (∀ (s : State) (n : Nat), n ∈ [2 + ppRing s.ppBlock 1, 2 + ppRing s.ppBlock 2, 2 + ppRing s.ppBlock 3] → ringRoom s n = false →
    exec .ppStep s = .next s) ∧
  ∀ s : State, ppDue s = true → s.pp.badParity = [] → s.cropWindow = s.nce.cropWin →
    let b := s.ppBlock
    (∃ s', exec .ppStep s = .next s' ∧ s'.pp.stepDone = true ∧ s'.tiles = s.tiles ∧ s'.mc = s.mc ∧ s'.pace = s.pace ∧
      (∀ h ∈ ppHeads b, ∀ c ∈ headChans b (ppHead b h), mget [] s'.pp.rx c = []) ∧
      (s.pp.queue.length ≤ 4096 → s'.pp.queue.length ≤ 4096) ∧ (s.pp.accepted.length ≤ 1024 → s'.pp.accepted.length ≤ 1024) ∧
      s.pp.records <+: s'.pp.records) ∧
    (∀ c, ppHeads b = [] → s.pp.rx = [] → s.nce.rx = [] → s.pp.queue = [c] → s.pp.accepted = [] → s.pp.held = [] →
      isRipe s (ppSW b) c = true →
      let det := fun flags : Nat => ({ kind := 1, ring := ppRing b 1, step := s.pace.step
                                       bytes := detBytes c flags s.pp.nextid.toNat s.pace.step.toNat, ordinal := s.pp.ordDet } : ResultRec)
      let ends := crCW s.nceBlock = 0 ∨ (s.pace.step.toNat + 1) % crCW s.nceBlock = 0 ∨ s.pace.rank = .taskEnd
      let room := crCW s.nceBlock ≠ 0 ∧ crST s.nceBlock ≠ 0
      ∃ s', exec .ppStep s = .next s' ∧ s'.pp.queue = [] ∧ s'.pp.accept = satInc s.pp.accept ∧ s'.pp.nextid = s.pp.nextid + 1 ∧
        s'.pp.supp = s.pp.supp ∧
        (ppTextClass b c.cls = false → s'.pp.held = [] ∧ s'.pp.records = s.pp.records ++ [det 0]) ∧
        (ppTextClass b c.cls = true → ¬ ends → s'.pp.held = [(c, s.pp.nextid)] ∧ s'.pp.records = s.pp.records) ∧
        (ppTextClass b c.cls = true → ends → s'.pp.held = [] ∧
          (room → s'.pp.records = s.pp.records ++ [det 1] ∧ s'.pp.packed = [(lineOf c s.pp.nextid, c.score)]) ∧
          (¬ room → s'.pp.records = s.pp.records ++ [det 3] ∧ s'.pp.packed = [] ∧ (s.bedIds.contains (ppPacker b) = true →
            (s'.bed (ppPacker b)).ovf = satAdd (s.bed (ppPacker b)).ovf 1))))

/-! ## Stream engines and LPDDR6 (13) -/

/-- R237, R276, R281, R282, R285 to R287, R291: a burst slot goes to the winner alone and no engine has more than six bursts outstanding; a write burst
stores its units and nothing else, but for those in memory that R237 keeps from it, a read burst fills its engine's buffer, an uncorrectable unit aborts the task; a token of an outward
edge enters the write buffer as one unit at its row's address. -/
def Obligations.StreamEngines : Prop :=
  ∀ (s : State) (remote : Bool) (k : Fin 16) (h : UnitHealth) (a : Nat),
    let e := s.engine k
    (∃ s', exec (.burstIssue remote) s = .next s' ∧ s' = { s with se := s'.se } ∧ (e.bursts.length ≤ 6 → (s'.engine k).bursts.length ≤ 6) ∧
      (s.mc.ready = false ∨ s.mc.quiesced = true → s' = s) ∧
      (s.mc.ready = true → s.mc.quiesced = false →
        (winner (fillEngines s) remote = none → s' = fillEngines s) ∧
        (∀ w, winner (fillEngines s) remote = some w → s'.se.granted = w ∧ ∀ j, j ≠ w.2 → s'.engine j = (fillEngines s).engine j) ∧
        (∀ us, winner (fillEngines s) remote = some (2, k.val) → nextWrite (fillEngines s) ((fillEngines s).engine k) = some us →
          (s'.engine k).bursts = e.bursts ++ [{ kind := .write us, addr := (us.headD {}).addr }] ∧
          (s'.engine k).wbuf = e.wbuf.drop us.length))) ∧
    (∀ u a0 r, e.bursts = { kind := .write [u], addr := a0 } :: r → memKept s u.addr 16 = true → ∃ s',
      exec (.burstComplete k h a) s = .next s' ∧ (s'.engine k).bursts = r ∧ s'.mc = s.mc ∧ s'.glb.violCode = 0x0104 ∧
      s'.glb.violAddr = BitVec.ofNat 36 u.addr) ∧
    (∀ us a0 r, e.bursts = { kind := .write us, addr := a0 } :: r → (∀ u ∈ us, memKept s u.addr 16 = false) →
      ∃ s', exec (.burstComplete k h a) s = .next s' ∧
      (s'.engine k).bursts = r ∧ (∀ j, j ≠ k.val → s'.engine j = s.engine j) ∧ s' = { s with se := s'.se, mc := s'.mc } ∧
      (∀ x, (∀ u ∈ us, x < u.addr ∨ u.addr + 16 ≤ x) → memGet s'.mc.mem x = memGet s.mc.mem x) ∧
      (∀ u, us = [u] → memRead s'.mc.mem u.addr 16 = payBytes u.pay ∧ mget 0 s'.mc.side (u.addr / 16) = u.side)) ∧
    (∀ n f a0 r, e.bursts = { kind := .read n 0 f, addr := a0 } :: r →
      (∃ s', exec (.burstComplete k .good a) s = .next s' ∧ (s'.engine k).bursts = r ∧ s' = { s with se := s'.se } ∧
        (s'.engine k).rbuf = e.rbuf ++ (List.range n).map fun i => unitToken s (a0 + 16 * i)) ∧
      (∃ s', exec (.burstComplete k .uncorrectable a) s = .next s' ∧ s'.pace.state = .aborted ∧ s'.mc.uecnt = satInc s.mc.uecnt ∧
        s'.mc.mem = s.mc.mem ∧ (s'.engine k).rbuf = e.rbuf)) ∧
    (∀ w a0 r, e.bursts = { kind := .desc w, addr := a0 } :: r → ∃ s', exec (.burstComplete k .good a) s = .next s' ∧
      (s'.engine k).descFetched = (if w then e.descFetched else e.descFetched + 8) ∧
      (s'.engine k).wdescFetched = (if w then e.wdescFetched + 8 else e.wdescFetched)) ∧
    (let x := 65 + 2 * k.val
     let g := s.edge x
     ∀ u r, g.outSlots = u :: r → edgeLive s x = true → g.outCnt < g.ctxCfg.quota 4 →
       (tokParOk u = false → ∃ s', exec (.engineTokenReceive k) s = .next s' ∧ s'.pace.state = .aborted ∧ s'.se = s.se) ∧
       (tokParOk u = true → ∀ d, writeDesc e = some d → writeRoom e = true → e.wwalk.d < e.wdescFetched → e.wlist.cmp = 0 →
         e.discardRow = false → rowNoFit e = false → ∃ s', exec (.engineTokenReceive k) s = .next s' ∧
           (s'.edge x).outSlots = r ∧ (s'.edge x).outCnt = g.outCnt + 1 ∧ s' = { s with se := s'.se, edges := s'.edges } ∧
           ∃ w, (s'.engine k).wbuf = e.wbuf ++ [w] ∧ w.pay = u.payload ∧ w.side.toNat = u.bseq.toNat + 16 * b2n u.bub ∧
             (d.cap = false → w.addr = ((d.addr : Int) + e.wwalk.row * d.pitch + (16 * e.wwalk.u : Nat)).toNat)))

/-! ## The numbers of events (23) -/

/-- R335: ESEQ is 0 after reset; every event takes the number that ESEQ holds and raises it by 1, written or lost; HQ_ESEQ reads it. -/
def Obligations.EventNumbers : Prop :=
  State.reset.hq.eseq = 0 ∧ (∀ s c, ∃ s', exec (.porReset c) s = .next s' ∧ s'.hq.eseq = 0) ∧
  (∀ (s : State) (code : Nat) (a : EvArgs),
    (eventBase s code a).hq.eseq = s.hq.eseq + 1 ∧
    (s.hq.evq.length < 256 → ∃ r, (eventBase s code a).hq.evq = s.hq.evq ++ [r] ∧ r.eseq = s.hq.eseq ∧ r.code = BitVec.ofNat 16 code) ∧
    (256 ≤ s.hq.evq.length → (eventBase s code a).hq.evq = s.hq.evq ∧ (eventBase s code a).hq.evlost = satInc s.hq.evlost)) ∧
  ∀ (s : State) (x : RegAccess), Reaches s x → x.offset = 0x40020 → exec (.loReadLatch x) s = .next { s with answer := .word s.hq.eseq }
end

