-- ==== Sys2Proof/Laws/Store.lean ====
section
/-! SUPPORT. Sparse arrays and LPDDR6: a read after a write, and the canonical form that every write keeps. -/

namespace Sys2Proof.Machine

/-! ## Reads after writes, of any array -/

@[simp] theorem mget_nil {α : Type} (d : α) (k : Nat) : mget d [] k = d := rfl

/-- A delisted key reads as the default. -/
theorem mget_mdel_self {α : Type} (d : α) (m : AMap α) (k : Nat) : mget d (mdel m k) k = d := by
  induction m with
  | nil => rfl
  | cons p r ih =>
    by_cases h : p.1 = k
    · rw [show mdel (p :: r) k = mdel r k by simp [mdel, h]]; exact ih
    · rw [show mdel (p :: r) k = p :: mdel r k by simp [mdel, h]]
      simp only [mget, h, if_false]; exact ih

/-- Delisting a key leaves every other as it was. -/
theorem mget_mdel_other {α : Type} (d : α) (m : AMap α) (k j : Nat) (hj : j ≠ k) : mget d (mdel m k) j = mget d m j := by
  induction m with
  | nil => rfl
  | cons p r ih =>
    by_cases h : p.1 = k
    · rw [show mdel (p :: r) k = mdel r k by simp [mdel, h], ih]
      have : p.1 ≠ j := fun e => hj (e.symm.trans h)
      simp only [mget, this, if_false]
    · rw [show mdel (p :: r) k = p :: mdel r k by simp [mdel, h]]
      simp only [mget, ih]

/-- A listed key is read back where nothing else lists it. -/
theorem mget_mins_self {α : Type} (d : α) (m : AMap α) (k : Nat) (v : α) (h : ∀ p ∈ m, p.1 ≠ k) : mget d (mins m k v) k = v := by
  induction m with
  | nil => simp [mins, mget]
  | cons p r ih =>
    simp only [mins]
    split
    · simp [mget]
    · have := h p (by simp)
      simp only [mget, this, if_false]
      exact ih fun q hq => h q (by simp [hq])

/-- Listing a key leaves every other as it was. -/
theorem mget_mins_other {α : Type} (d : α) (m : AMap α) (k j : Nat) (v : α) (hj : j ≠ k) : mget d (mins m k v) j = mget d m j := by
  induction m with
  | nil => simp [mins, mget, Ne.symm hj]
  | cons p r ih =>
    simp only [mins]
    split
    · simp [mget, Ne.symm hj]
    · simp only [mget, ih]

/-- What an array holds after a write, key by key. -/
theorem mget_mset {α : Type} [DecidableEq α] (d : α) (m : AMap α) (k j : Nat) (v : α) :
    mget d (mset d m k v) j = if j = k then v else mget d m j := by
  unfold mset
  split
  · rename_i hv
    split
    · rename_i h; rw [h, hv]; exact mget_mdel_self d m k
    · rename_i h; exact mget_mdel_other d m k j h
  · split
    · rename_i h
      rw [h]
      exact mget_mins_self d _ k v fun p hp => by simpa using (List.mem_filter.mp hp).2
    · rename_i h
      rw [mget_mins_other d _ k j v h]; exact mget_mdel_other d m k j h

@[simp] theorem mget_mset_self {α : Type} [DecidableEq α] (d : α) (m : AMap α) (k : Nat) (v : α) :
    mget d (mset d m k v) k = v := by rw [mget_mset, if_pos rfl]

theorem mget_mset_other {α : Type} [DecidableEq α] (d e : α) (m : AMap α) (k j : Nat) (v : α) (hj : j ≠ k) :
    mget e (mset d m k v) j = mget e m j := by
  unfold mset
  split
  · exact mget_mdel_other e m k j hj
  · rw [mget_mins_other e _ k j v hj]; exact mget_mdel_other e m k j hj

/-- What an array holds after a function has gone over its entries; a default goes to a default. -/
theorem mget_mapAll {α : Type} [DecidableEq α] (d : α) (m : AMap α) (f : Nat → α → α) (k : Nat) (h : f k d = d) :
    mget d (mapAll d m f) k = f k (mget d m k) := by
  induction m with
  | nil => exact h.symm
  | cons p r ih =>
    simp only [mapAll, mget_mset, mget]
    by_cases hp : p.1 = k
    · simp [hp]
    · simp [hp, Ne.symm hp, ih]

/-- A property of every image and of the default holds of every value. -/
theorem mapAll_all {α : Type} [DecidableEq α] (d : α) (m : AMap α) (f : Nat → α → α) (P : α → Prop) (hd : P d)
    (hf : ∀ i v, P (f i v)) (k : Nat) : P (mget d (mapAll d m f) k) := by
  induction m with
  | nil => exact hd
  | cons p r ih =>
    simp only [mapAll, mget_mset]
    split
    · exact hf _ _
    · exact ih

/-! ## The canonical form -/

/-- Rising keys stay rising under a lower bound. -/
theorem mRising_mono {α : Type} (m : AMap α) (a b : Nat) (hm : mRising b m = true) (h : a ≤ b) : mRising a m = true := by
  cases m with
  | nil => rfl
  | cons p r =>
    simp only [mRising, Bool.and_eq_true, decide_eq_true_eq] at hm ⊢
    exact ⟨by omega, hm.2⟩

theorem mdel_rising {α : Type} (m : AMap α) (k : Nat) : ∀ lo, mRising lo m = true → mRising lo (mdel m k) = true := by
  induction m with
  | nil => intro _ h; exact h
  | cons p r ih =>
    intro lo hm
    simp only [mRising, Bool.and_eq_true, decide_eq_true_eq] at hm
    by_cases h : p.1 = k
    · rw [show mdel (p :: r) k = mdel r k by simp [mdel, h]]
      exact mRising_mono _ lo (p.1 + 1) (ih _ hm.2) (by omega)
    · rw [show mdel (p :: r) k = p :: mdel r k by simp [mdel, h]]
      simp only [mRising, Bool.and_eq_true, decide_eq_true_eq]
      exact ⟨hm.1, ih _ hm.2⟩

theorem mins_rising {α : Type} (m : AMap α) (k : Nat) (v : α) (h : ∀ p ∈ m, p.1 ≠ k) :
    ∀ lo, lo ≤ k → mRising lo m = true → mRising lo (mins m k v) = true := by
  induction m with
  | nil => intro lo hk _; simp [mins, mRising, hk]
  | cons p r ih =>
    intro lo hk hm
    have hp := h p (by simp)
    simp only [mRising, Bool.and_eq_true, decide_eq_true_eq] at hm
    simp only [mins]
    split
    · simp only [mRising, Bool.and_eq_true, decide_eq_true_eq]
      exact ⟨hk, by omega, hm.2⟩
    · simp only [mRising, Bool.and_eq_true, decide_eq_true_eq]
      exact ⟨hm.1, ih (fun q hq => h q (by simp [hq])) _ (by omega) hm.2⟩

theorem mem_mins {α : Type} (m : AMap α) (k : Nat) (v : α) (p : Nat × α) (h : p ∈ mins m k v) : p = (k, v) ∨ p ∈ m := by
  induction m with
  | nil => simpa [mins] using h
  | cons q r ih =>
    simp only [mins] at h
    split at h
    · simpa using h
    · rcases List.mem_cons.mp h with h | h
      · exact .inr (by simp [h])
      · rcases ih h with h | h
        · exact .inl h
        · exact .inr (by simp [h])

/-- A write keeps the canonical form. -/
theorem mset_wf {α : Type} [DecidableEq α] (d : α) (m : AMap α) (k : Nat) (v : α) (hm : mwf d m = true) :
    mwf d (mset d m k v) = true := by
  simp only [mwf, Bool.and_eq_true, List.all_eq_true, decide_eq_true_eq] at hm ⊢
  have hd : ∀ p ∈ mdel m k, p.2 ≠ d := fun p hp => hm.2 p (List.mem_filter.mp hp).1
  unfold mset
  split
  · exact ⟨mdel_rising m k 0 hm.1, hd⟩
  · rename_i hv
    refine ⟨mins_rising _ k v (fun p hp => by simpa using (List.mem_filter.mp hp).2) 0 (Nat.zero_le k) (mdel_rising m k 0 hm.1), ?_⟩
    intro p hp
    rcases mem_mins _ k v p hp with h | h
    · rw [h]; exact hv
    · exact hd p h

theorem mapAll_wf {α : Type} [DecidableEq α] (d : α) (m : AMap α) (f : Nat → α → α) : mwf d (mapAll d m f) = true := by
  induction m with
  | nil => rfl
  | cons p r ih => exact mset_wf d _ _ _ ih

/-! ## LPDDR6 -/

theorem memSet_wf (m : List Host.Cell) (a : Nat) (b : Byte) (hm : memoryWf m = true) : memoryWf (memSet m a b) = true :=
  mset_wf memDefault m a b hm

/-- Writing bytes keeps LPDDR6 canonical. -/
theorem memWrite_wf (bs : List Byte) : ∀ (m : List Host.Cell) (a : Nat), memoryWf m = true → memoryWf (memWrite m a bs) = true := by
  induction bs with
  | nil => intro m a hm; exact hm
  | cons b r ih => intro m a hm; exact ih _ (a + 1) (memSet_wf m a b hm)

/-- A write of bytes leaves every byte outside them as it was. -/
theorem memGet_memWrite_outside (bs : List Byte) : ∀ (m : List Host.Cell) (a x : Nat),
    (x < a ∨ a + bs.length ≤ x) → memGet (memWrite m a bs) x = memGet m x := by
  induction bs with
  | nil => intro m a x _; rfl
  | cons b r ih =>
    intro m a x hx
    have hx' : x < a ∨ a + r.length + 1 ≤ x := by simpa [Nat.add_assoc] using hx
    rw [memWrite, ih (memSet m a b) (a + 1) x (by omega)]
    exact mget_mset_other memDefault memDefault m a x b (by omega)

/-- A write of bytes gives each of them back. -/
theorem memGet_memWrite_inside (bs : List Byte) : ∀ (m : List Host.Cell) (a i : Nat), (h : i < bs.length) →
    memGet (memWrite m a bs) (a + i) = bs[i] := by
  induction bs with
  | nil => intro m a i h; exact absurd h (Nat.not_lt_zero i)
  | cons b r ih =>
    intro m a i h
    cases i with
    | zero =>
      rw [memWrite, memGet_memWrite_outside r _ (a + 1) (a + 0) (by omega)]
      exact mget_mset_self memDefault m a b
    | succ j =>
      have := ih (memSet m a b) (a + 1) j (by simpa using h)
      rw [memWrite, show a + (j + 1) = a + 1 + j by omega, this]
      rfl

end Sys2Proof.Machine
end

