-- ==== Sys2Proof/Laws/State.lean ====
section
/-! SUPPORT. The small lemmas of State: what each named update leaves as it was, one per field, all by rfl. -/

namespace Sys2Proof.Machine

/-! ## setTile -/

@[simp] theorem State.setTile_pending (s : State) (t : Nat) (g : GridTile) : (s.setTile t g).pending = s.pending := rfl
@[simp] theorem State.setTile_devTime (s : State) (t : Nat) (g : GridTile) : (s.setTile t g).devTime = s.devTime := rfl
@[simp] theorem State.setTile_timeOff (s : State) (t : Nat) (g : GridTile) : (s.setTile t g).timeOff = s.timeOff := rfl
@[simp] theorem State.setTile_edges (s : State) (t : Nat) (g : GridTile) : (s.setTile t g).edges = s.edges := rfl
@[simp] theorem State.setTile_beds (s : State) (t : Nat) (g : GridTile) : (s.setTile t g).beds = s.beds := rfl
@[simp] theorem State.setTile_sels (s : State) (t : Nat) (g : GridTile) : (s.setTile t g).sels = s.sels := rfl
@[simp] theorem State.setTile_pace (s : State) (t : Nat) (g : GridTile) : (s.setTile t g).pace = s.pace := rfl
@[simp] theorem State.setTile_cfg (s : State) (t : Nat) (g : GridTile) : (s.setTile t g).cfg = s.cfg := rfl
@[simp] theorem State.setTile_ic (s : State) (t : Nat) (g : GridTile) : (s.setTile t g).ic = s.ic := rfl
@[simp] theorem State.setTile_mbx (s : State) (t : Nat) (g : GridTile) : (s.setTile t g).mbx = s.mbx := rfl
@[simp] theorem State.setTile_hq (s : State) (t : Nat) (g : GridTile) : (s.setTile t g).hq = s.hq := rfl
@[simp] theorem State.setTile_hostOut (s : State) (t : Nat) (g : GridTile) : (s.setTile t g).hostOut = s.hostOut := rfl
@[simp] theorem State.setTile_lk (s : State) (t : Nat) (g : GridTile) : (s.setTile t g).lk = s.lk := rfl
@[simp] theorem State.setTile_tw (s : State) (t : Nat) (g : GridTile) : (s.setTile t g).tw = s.tw := rfl
@[simp] theorem State.setTile_flt (s : State) (t : Nat) (g : GridTile) : (s.setTile t g).flt = s.flt := rfl
@[simp] theorem State.setTile_pwr (s : State) (t : Nat) (g : GridTile) : (s.setTile t g).pwr = s.pwr := rfl
@[simp] theorem State.setTile_sec (s : State) (t : Nat) (g : GridTile) : (s.setTile t g).sec = s.sec := rfl
@[simp] theorem State.setTile_sp (s : State) (t : Nat) (g : GridTile) : (s.setTile t g).sp = s.sp := rfl
@[simp] theorem State.setTile_nce (s : State) (t : Nat) (g : GridTile) : (s.setTile t g).nce = s.nce := rfl
@[simp] theorem State.setTile_pp (s : State) (t : Nat) (g : GridTile) : (s.setTile t g).pp = s.pp := rfl
@[simp] theorem State.setTile_se (s : State) (t : Nat) (g : GridTile) : (s.setTile t g).se = s.se := rfl
@[simp] theorem State.setTile_mc (s : State) (t : Nat) (g : GridTile) : (s.setTile t g).mc = s.mc := rfl
@[simp] theorem State.setTile_glb (s : State) (t : Nat) (g : GridTile) : (s.setTile t g).glb = s.glb := rfl
@[simp] theorem State.setTile_latches (s : State) (t : Nat) (g : GridTile) : (s.setTile t g).latches = s.latches := rfl
@[simp] theorem State.setTile_answer (s : State) (t : Nat) (g : GridTile) : (s.setTile t g).answer = s.answer := rfl
@[simp] theorem State.setTile_free (s : State) (t : Nat) (g : GridTile) : (s.setTile t g).free = s.free := rfl
@[simp] theorem State.setTile_edge (s : State) (t : Nat) (g : GridTile) (u : Nat) : (s.setTile t g).edge u = s.edge u := rfl
@[simp] theorem State.setTile_bed (s : State) (t : Nat) (g : GridTile) (u : Nat) : (s.setTile t g).bed u = s.bed u := rfl
@[simp] theorem State.setTile_port (s : State) (t : Nat) (g : GridTile) (u : Nat) : (s.setTile t g).port u = s.port u := rfl
@[simp] theorem State.setTile_source (s : State) (t : Nat) (g : GridTile) (u : Nat) : (s.setTile t g).source u = s.source u := rfl
@[simp] theorem State.setTile_target (s : State) (t : Nat) (g : GridTile) (u : Nat) : (s.setTile t g).target u = s.target u := rfl
@[simp] theorem State.setTile_mbox (s : State) (t : Nat) (g : GridTile) (u : Nat) : (s.setTile t g).mbox u = s.mbox u := rfl
@[simp] theorem State.setTile_engine (s : State) (t : Nat) (g : GridTile) (u : Nat) : (s.setTile t g).engine u = s.engine u := rfl
@[simp] theorem State.setTile_holding (s : State) (t : Nat) (g : GridTile) : (s.setTile t g).holding = s.holding := rfl

/-! ## setEdge -/

@[simp] theorem State.setEdge_pending (s : State) (e : Nat) (g : EdgeTile) : (s.setEdge e g).pending = s.pending := rfl
@[simp] theorem State.setEdge_devTime (s : State) (e : Nat) (g : EdgeTile) : (s.setEdge e g).devTime = s.devTime := rfl
@[simp] theorem State.setEdge_timeOff (s : State) (e : Nat) (g : EdgeTile) : (s.setEdge e g).timeOff = s.timeOff := rfl
@[simp] theorem State.setEdge_tiles (s : State) (e : Nat) (g : EdgeTile) : (s.setEdge e g).tiles = s.tiles := rfl
@[simp] theorem State.setEdge_beds (s : State) (e : Nat) (g : EdgeTile) : (s.setEdge e g).beds = s.beds := rfl
@[simp] theorem State.setEdge_sels (s : State) (e : Nat) (g : EdgeTile) : (s.setEdge e g).sels = s.sels := rfl
@[simp] theorem State.setEdge_pace (s : State) (e : Nat) (g : EdgeTile) : (s.setEdge e g).pace = s.pace := rfl
@[simp] theorem State.setEdge_cfg (s : State) (e : Nat) (g : EdgeTile) : (s.setEdge e g).cfg = s.cfg := rfl
@[simp] theorem State.setEdge_ic (s : State) (e : Nat) (g : EdgeTile) : (s.setEdge e g).ic = s.ic := rfl
@[simp] theorem State.setEdge_mbx (s : State) (e : Nat) (g : EdgeTile) : (s.setEdge e g).mbx = s.mbx := rfl
@[simp] theorem State.setEdge_hq (s : State) (e : Nat) (g : EdgeTile) : (s.setEdge e g).hq = s.hq := rfl
@[simp] theorem State.setEdge_hostOut (s : State) (e : Nat) (g : EdgeTile) : (s.setEdge e g).hostOut = s.hostOut := rfl
@[simp] theorem State.setEdge_lk (s : State) (e : Nat) (g : EdgeTile) : (s.setEdge e g).lk = s.lk := rfl
@[simp] theorem State.setEdge_tw (s : State) (e : Nat) (g : EdgeTile) : (s.setEdge e g).tw = s.tw := rfl
@[simp] theorem State.setEdge_flt (s : State) (e : Nat) (g : EdgeTile) : (s.setEdge e g).flt = s.flt := rfl
@[simp] theorem State.setEdge_pwr (s : State) (e : Nat) (g : EdgeTile) : (s.setEdge e g).pwr = s.pwr := rfl
@[simp] theorem State.setEdge_sec (s : State) (e : Nat) (g : EdgeTile) : (s.setEdge e g).sec = s.sec := rfl
@[simp] theorem State.setEdge_sp (s : State) (e : Nat) (g : EdgeTile) : (s.setEdge e g).sp = s.sp := rfl
@[simp] theorem State.setEdge_nce (s : State) (e : Nat) (g : EdgeTile) : (s.setEdge e g).nce = s.nce := rfl
@[simp] theorem State.setEdge_pp (s : State) (e : Nat) (g : EdgeTile) : (s.setEdge e g).pp = s.pp := rfl
@[simp] theorem State.setEdge_se (s : State) (e : Nat) (g : EdgeTile) : (s.setEdge e g).se = s.se := rfl
@[simp] theorem State.setEdge_mc (s : State) (e : Nat) (g : EdgeTile) : (s.setEdge e g).mc = s.mc := rfl
@[simp] theorem State.setEdge_glb (s : State) (e : Nat) (g : EdgeTile) : (s.setEdge e g).glb = s.glb := rfl
@[simp] theorem State.setEdge_latches (s : State) (e : Nat) (g : EdgeTile) : (s.setEdge e g).latches = s.latches := rfl
@[simp] theorem State.setEdge_answer (s : State) (e : Nat) (g : EdgeTile) : (s.setEdge e g).answer = s.answer := rfl
@[simp] theorem State.setEdge_free (s : State) (e : Nat) (g : EdgeTile) : (s.setEdge e g).free = s.free := rfl
@[simp] theorem State.setEdge_tile (s : State) (e : Nat) (g : EdgeTile) (u : Nat) : (s.setEdge e g).tile u = s.tile u := rfl
@[simp] theorem State.setEdge_bed (s : State) (e : Nat) (g : EdgeTile) (u : Nat) : (s.setEdge e g).bed u = s.bed u := rfl
@[simp] theorem State.setEdge_port (s : State) (e : Nat) (g : EdgeTile) (u : Nat) : (s.setEdge e g).port u = s.port u := rfl
@[simp] theorem State.setEdge_source (s : State) (e : Nat) (g : EdgeTile) (u : Nat) : (s.setEdge e g).source u = s.source u := rfl
@[simp] theorem State.setEdge_target (s : State) (e : Nat) (g : EdgeTile) (u : Nat) : (s.setEdge e g).target u = s.target u := rfl
@[simp] theorem State.setEdge_mbox (s : State) (e : Nat) (g : EdgeTile) (u : Nat) : (s.setEdge e g).mbox u = s.mbox u := rfl
@[simp] theorem State.setEdge_engine (s : State) (e : Nat) (g : EdgeTile) (u : Nat) : (s.setEdge e g).engine u = s.engine u := rfl
@[simp] theorem State.setEdge_holding (s : State) (e : Nat) (g : EdgeTile) : (s.setEdge e g).holding = s.holding := rfl

/-! ## setBed -/

@[simp] theorem State.setBed_pending (s : State) (b : Nat) (x : BedState) : (s.setBed b x).pending = s.pending := rfl
@[simp] theorem State.setBed_devTime (s : State) (b : Nat) (x : BedState) : (s.setBed b x).devTime = s.devTime := rfl
@[simp] theorem State.setBed_timeOff (s : State) (b : Nat) (x : BedState) : (s.setBed b x).timeOff = s.timeOff := rfl
@[simp] theorem State.setBed_tiles (s : State) (b : Nat) (x : BedState) : (s.setBed b x).tiles = s.tiles := rfl
@[simp] theorem State.setBed_edges (s : State) (b : Nat) (x : BedState) : (s.setBed b x).edges = s.edges := rfl
@[simp] theorem State.setBed_sels (s : State) (b : Nat) (x : BedState) : (s.setBed b x).sels = s.sels := rfl
@[simp] theorem State.setBed_pace (s : State) (b : Nat) (x : BedState) : (s.setBed b x).pace = s.pace := rfl
@[simp] theorem State.setBed_cfg (s : State) (b : Nat) (x : BedState) : (s.setBed b x).cfg = s.cfg := rfl
@[simp] theorem State.setBed_ic (s : State) (b : Nat) (x : BedState) : (s.setBed b x).ic = s.ic := rfl
@[simp] theorem State.setBed_mbx (s : State) (b : Nat) (x : BedState) : (s.setBed b x).mbx = s.mbx := rfl
@[simp] theorem State.setBed_hq (s : State) (b : Nat) (x : BedState) : (s.setBed b x).hq = s.hq := rfl
@[simp] theorem State.setBed_hostOut (s : State) (b : Nat) (x : BedState) : (s.setBed b x).hostOut = s.hostOut := rfl
@[simp] theorem State.setBed_lk (s : State) (b : Nat) (x : BedState) : (s.setBed b x).lk = s.lk := rfl
@[simp] theorem State.setBed_tw (s : State) (b : Nat) (x : BedState) : (s.setBed b x).tw = s.tw := rfl
@[simp] theorem State.setBed_flt (s : State) (b : Nat) (x : BedState) : (s.setBed b x).flt = s.flt := rfl
@[simp] theorem State.setBed_pwr (s : State) (b : Nat) (x : BedState) : (s.setBed b x).pwr = s.pwr := rfl
@[simp] theorem State.setBed_sec (s : State) (b : Nat) (x : BedState) : (s.setBed b x).sec = s.sec := rfl
@[simp] theorem State.setBed_sp (s : State) (b : Nat) (x : BedState) : (s.setBed b x).sp = s.sp := rfl
@[simp] theorem State.setBed_nce (s : State) (b : Nat) (x : BedState) : (s.setBed b x).nce = s.nce := rfl
@[simp] theorem State.setBed_pp (s : State) (b : Nat) (x : BedState) : (s.setBed b x).pp = s.pp := rfl
@[simp] theorem State.setBed_se (s : State) (b : Nat) (x : BedState) : (s.setBed b x).se = s.se := rfl
@[simp] theorem State.setBed_mc (s : State) (b : Nat) (x : BedState) : (s.setBed b x).mc = s.mc := rfl
@[simp] theorem State.setBed_glb (s : State) (b : Nat) (x : BedState) : (s.setBed b x).glb = s.glb := rfl
@[simp] theorem State.setBed_latches (s : State) (b : Nat) (x : BedState) : (s.setBed b x).latches = s.latches := rfl
@[simp] theorem State.setBed_answer (s : State) (b : Nat) (x : BedState) : (s.setBed b x).answer = s.answer := rfl
@[simp] theorem State.setBed_free (s : State) (b : Nat) (x : BedState) : (s.setBed b x).free = s.free := rfl
@[simp] theorem State.setBed_tile (s : State) (b : Nat) (x : BedState) (u : Nat) : (s.setBed b x).tile u = s.tile u := rfl
@[simp] theorem State.setBed_edge (s : State) (b : Nat) (x : BedState) (u : Nat) : (s.setBed b x).edge u = s.edge u := rfl
@[simp] theorem State.setBed_port (s : State) (b : Nat) (x : BedState) (u : Nat) : (s.setBed b x).port u = s.port u := rfl
@[simp] theorem State.setBed_source (s : State) (b : Nat) (x : BedState) (u : Nat) : (s.setBed b x).source u = s.source u := rfl
@[simp] theorem State.setBed_target (s : State) (b : Nat) (x : BedState) (u : Nat) : (s.setBed b x).target u = s.target u := rfl
@[simp] theorem State.setBed_mbox (s : State) (b : Nat) (x : BedState) (u : Nat) : (s.setBed b x).mbox u = s.mbox u := rfl
@[simp] theorem State.setBed_engine (s : State) (b : Nat) (x : BedState) (u : Nat) : (s.setBed b x).engine u = s.engine u := rfl
@[simp] theorem State.setBed_holding (s : State) (b : Nat) (x : BedState) : (s.setBed b x).holding = s.holding := rfl

/-! ## setPort -/

@[simp] theorem State.setPort_pending (s : State) (p : Nat) (x : LinkPort) : (s.setPort p x).pending = s.pending := rfl
@[simp] theorem State.setPort_devTime (s : State) (p : Nat) (x : LinkPort) : (s.setPort p x).devTime = s.devTime := rfl
@[simp] theorem State.setPort_timeOff (s : State) (p : Nat) (x : LinkPort) : (s.setPort p x).timeOff = s.timeOff := rfl
@[simp] theorem State.setPort_tiles (s : State) (p : Nat) (x : LinkPort) : (s.setPort p x).tiles = s.tiles := rfl
@[simp] theorem State.setPort_edges (s : State) (p : Nat) (x : LinkPort) : (s.setPort p x).edges = s.edges := rfl
@[simp] theorem State.setPort_beds (s : State) (p : Nat) (x : LinkPort) : (s.setPort p x).beds = s.beds := rfl
@[simp] theorem State.setPort_sels (s : State) (p : Nat) (x : LinkPort) : (s.setPort p x).sels = s.sels := rfl
@[simp] theorem State.setPort_pace (s : State) (p : Nat) (x : LinkPort) : (s.setPort p x).pace = s.pace := rfl
@[simp] theorem State.setPort_cfg (s : State) (p : Nat) (x : LinkPort) : (s.setPort p x).cfg = s.cfg := rfl
@[simp] theorem State.setPort_ic (s : State) (p : Nat) (x : LinkPort) : (s.setPort p x).ic = s.ic := rfl
@[simp] theorem State.setPort_mbx (s : State) (p : Nat) (x : LinkPort) : (s.setPort p x).mbx = s.mbx := rfl
@[simp] theorem State.setPort_hq (s : State) (p : Nat) (x : LinkPort) : (s.setPort p x).hq = s.hq := rfl
@[simp] theorem State.setPort_hostOut (s : State) (p : Nat) (x : LinkPort) : (s.setPort p x).hostOut = s.hostOut := rfl
@[simp] theorem State.setPort_tw (s : State) (p : Nat) (x : LinkPort) : (s.setPort p x).tw = s.tw := rfl
@[simp] theorem State.setPort_flt (s : State) (p : Nat) (x : LinkPort) : (s.setPort p x).flt = s.flt := rfl
@[simp] theorem State.setPort_pwr (s : State) (p : Nat) (x : LinkPort) : (s.setPort p x).pwr = s.pwr := rfl
@[simp] theorem State.setPort_sec (s : State) (p : Nat) (x : LinkPort) : (s.setPort p x).sec = s.sec := rfl
@[simp] theorem State.setPort_sp (s : State) (p : Nat) (x : LinkPort) : (s.setPort p x).sp = s.sp := rfl
@[simp] theorem State.setPort_nce (s : State) (p : Nat) (x : LinkPort) : (s.setPort p x).nce = s.nce := rfl
@[simp] theorem State.setPort_pp (s : State) (p : Nat) (x : LinkPort) : (s.setPort p x).pp = s.pp := rfl
@[simp] theorem State.setPort_se (s : State) (p : Nat) (x : LinkPort) : (s.setPort p x).se = s.se := rfl
@[simp] theorem State.setPort_mc (s : State) (p : Nat) (x : LinkPort) : (s.setPort p x).mc = s.mc := rfl
@[simp] theorem State.setPort_glb (s : State) (p : Nat) (x : LinkPort) : (s.setPort p x).glb = s.glb := rfl
@[simp] theorem State.setPort_latches (s : State) (p : Nat) (x : LinkPort) : (s.setPort p x).latches = s.latches := rfl
@[simp] theorem State.setPort_answer (s : State) (p : Nat) (x : LinkPort) : (s.setPort p x).answer = s.answer := rfl
@[simp] theorem State.setPort_free (s : State) (p : Nat) (x : LinkPort) : (s.setPort p x).free = s.free := rfl
@[simp] theorem State.setPort_tile (s : State) (p : Nat) (x : LinkPort) (u : Nat) : (s.setPort p x).tile u = s.tile u := rfl
@[simp] theorem State.setPort_edge (s : State) (p : Nat) (x : LinkPort) (u : Nat) : (s.setPort p x).edge u = s.edge u := rfl
@[simp] theorem State.setPort_bed (s : State) (p : Nat) (x : LinkPort) (u : Nat) : (s.setPort p x).bed u = s.bed u := rfl
@[simp] theorem State.setPort_source (s : State) (p : Nat) (x : LinkPort) (u : Nat) : (s.setPort p x).source u = s.source u := rfl
@[simp] theorem State.setPort_target (s : State) (p : Nat) (x : LinkPort) (u : Nat) : (s.setPort p x).target u = s.target u := rfl
@[simp] theorem State.setPort_mbox (s : State) (p : Nat) (x : LinkPort) (u : Nat) : (s.setPort p x).mbox u = s.mbox u := rfl
@[simp] theorem State.setPort_engine (s : State) (p : Nat) (x : LinkPort) (u : Nat) : (s.setPort p x).engine u = s.engine u := rfl
@[simp] theorem State.setPort_holding (s : State) (p : Nat) (x : LinkPort) : (s.setPort p x).holding = s.holding := rfl

/-! ## setRing -/

@[simp] theorem State.setRing_pending (s : State) (n : Nat) (x : Ring) : (s.setRing n x).pending = s.pending := rfl
@[simp] theorem State.setRing_devTime (s : State) (n : Nat) (x : Ring) : (s.setRing n x).devTime = s.devTime := rfl
@[simp] theorem State.setRing_timeOff (s : State) (n : Nat) (x : Ring) : (s.setRing n x).timeOff = s.timeOff := rfl
@[simp] theorem State.setRing_tiles (s : State) (n : Nat) (x : Ring) : (s.setRing n x).tiles = s.tiles := rfl
@[simp] theorem State.setRing_edges (s : State) (n : Nat) (x : Ring) : (s.setRing n x).edges = s.edges := rfl
@[simp] theorem State.setRing_beds (s : State) (n : Nat) (x : Ring) : (s.setRing n x).beds = s.beds := rfl
@[simp] theorem State.setRing_sels (s : State) (n : Nat) (x : Ring) : (s.setRing n x).sels = s.sels := rfl
@[simp] theorem State.setRing_pace (s : State) (n : Nat) (x : Ring) : (s.setRing n x).pace = s.pace := rfl
@[simp] theorem State.setRing_cfg (s : State) (n : Nat) (x : Ring) : (s.setRing n x).cfg = s.cfg := rfl
@[simp] theorem State.setRing_ic (s : State) (n : Nat) (x : Ring) : (s.setRing n x).ic = s.ic := rfl
@[simp] theorem State.setRing_mbx (s : State) (n : Nat) (x : Ring) : (s.setRing n x).mbx = s.mbx := rfl
@[simp] theorem State.setRing_hostOut (s : State) (n : Nat) (x : Ring) : (s.setRing n x).hostOut = s.hostOut := rfl
@[simp] theorem State.setRing_lk (s : State) (n : Nat) (x : Ring) : (s.setRing n x).lk = s.lk := rfl
@[simp] theorem State.setRing_tw (s : State) (n : Nat) (x : Ring) : (s.setRing n x).tw = s.tw := rfl
@[simp] theorem State.setRing_flt (s : State) (n : Nat) (x : Ring) : (s.setRing n x).flt = s.flt := rfl
@[simp] theorem State.setRing_pwr (s : State) (n : Nat) (x : Ring) : (s.setRing n x).pwr = s.pwr := rfl
@[simp] theorem State.setRing_sec (s : State) (n : Nat) (x : Ring) : (s.setRing n x).sec = s.sec := rfl
@[simp] theorem State.setRing_sp (s : State) (n : Nat) (x : Ring) : (s.setRing n x).sp = s.sp := rfl
@[simp] theorem State.setRing_nce (s : State) (n : Nat) (x : Ring) : (s.setRing n x).nce = s.nce := rfl
@[simp] theorem State.setRing_pp (s : State) (n : Nat) (x : Ring) : (s.setRing n x).pp = s.pp := rfl
@[simp] theorem State.setRing_se (s : State) (n : Nat) (x : Ring) : (s.setRing n x).se = s.se := rfl
@[simp] theorem State.setRing_mc (s : State) (n : Nat) (x : Ring) : (s.setRing n x).mc = s.mc := rfl
@[simp] theorem State.setRing_glb (s : State) (n : Nat) (x : Ring) : (s.setRing n x).glb = s.glb := rfl
@[simp] theorem State.setRing_latches (s : State) (n : Nat) (x : Ring) : (s.setRing n x).latches = s.latches := rfl
@[simp] theorem State.setRing_answer (s : State) (n : Nat) (x : Ring) : (s.setRing n x).answer = s.answer := rfl
@[simp] theorem State.setRing_free (s : State) (n : Nat) (x : Ring) : (s.setRing n x).free = s.free := rfl
@[simp] theorem State.setRing_tile (s : State) (n : Nat) (x : Ring) (u : Nat) : (s.setRing n x).tile u = s.tile u := rfl
@[simp] theorem State.setRing_edge (s : State) (n : Nat) (x : Ring) (u : Nat) : (s.setRing n x).edge u = s.edge u := rfl
@[simp] theorem State.setRing_bed (s : State) (n : Nat) (x : Ring) (u : Nat) : (s.setRing n x).bed u = s.bed u := rfl
@[simp] theorem State.setRing_port (s : State) (n : Nat) (x : Ring) (u : Nat) : (s.setRing n x).port u = s.port u := rfl
@[simp] theorem State.setRing_source (s : State) (n : Nat) (x : Ring) (u : Nat) : (s.setRing n x).source u = s.source u := rfl
@[simp] theorem State.setRing_target (s : State) (n : Nat) (x : Ring) (u : Nat) : (s.setRing n x).target u = s.target u := rfl
@[simp] theorem State.setRing_mbox (s : State) (n : Nat) (x : Ring) (u : Nat) : (s.setRing n x).mbox u = s.mbox u := rfl
@[simp] theorem State.setRing_engine (s : State) (n : Nat) (x : Ring) (u : Nat) : (s.setRing n x).engine u = s.engine u := rfl
@[simp] theorem State.setRing_holding (s : State) (n : Nat) (x : Ring) : (s.setRing n x).holding = s.holding := rfl

/-! ## setChan -/

@[simp] theorem State.setChan_pending (s : State) (c : Nat) (x : StreamChan) : (s.setChan c x).pending = s.pending := rfl
@[simp] theorem State.setChan_devTime (s : State) (c : Nat) (x : StreamChan) : (s.setChan c x).devTime = s.devTime := rfl
@[simp] theorem State.setChan_timeOff (s : State) (c : Nat) (x : StreamChan) : (s.setChan c x).timeOff = s.timeOff := rfl
@[simp] theorem State.setChan_tiles (s : State) (c : Nat) (x : StreamChan) : (s.setChan c x).tiles = s.tiles := rfl
@[simp] theorem State.setChan_edges (s : State) (c : Nat) (x : StreamChan) : (s.setChan c x).edges = s.edges := rfl
@[simp] theorem State.setChan_beds (s : State) (c : Nat) (x : StreamChan) : (s.setChan c x).beds = s.beds := rfl
@[simp] theorem State.setChan_sels (s : State) (c : Nat) (x : StreamChan) : (s.setChan c x).sels = s.sels := rfl
@[simp] theorem State.setChan_pace (s : State) (c : Nat) (x : StreamChan) : (s.setChan c x).pace = s.pace := rfl
@[simp] theorem State.setChan_cfg (s : State) (c : Nat) (x : StreamChan) : (s.setChan c x).cfg = s.cfg := rfl
@[simp] theorem State.setChan_ic (s : State) (c : Nat) (x : StreamChan) : (s.setChan c x).ic = s.ic := rfl
@[simp] theorem State.setChan_mbx (s : State) (c : Nat) (x : StreamChan) : (s.setChan c x).mbx = s.mbx := rfl
@[simp] theorem State.setChan_hostOut (s : State) (c : Nat) (x : StreamChan) : (s.setChan c x).hostOut = s.hostOut := rfl
@[simp] theorem State.setChan_lk (s : State) (c : Nat) (x : StreamChan) : (s.setChan c x).lk = s.lk := rfl
@[simp] theorem State.setChan_tw (s : State) (c : Nat) (x : StreamChan) : (s.setChan c x).tw = s.tw := rfl
@[simp] theorem State.setChan_flt (s : State) (c : Nat) (x : StreamChan) : (s.setChan c x).flt = s.flt := rfl
@[simp] theorem State.setChan_pwr (s : State) (c : Nat) (x : StreamChan) : (s.setChan c x).pwr = s.pwr := rfl
@[simp] theorem State.setChan_sec (s : State) (c : Nat) (x : StreamChan) : (s.setChan c x).sec = s.sec := rfl
@[simp] theorem State.setChan_sp (s : State) (c : Nat) (x : StreamChan) : (s.setChan c x).sp = s.sp := rfl
@[simp] theorem State.setChan_nce (s : State) (c : Nat) (x : StreamChan) : (s.setChan c x).nce = s.nce := rfl
@[simp] theorem State.setChan_pp (s : State) (c : Nat) (x : StreamChan) : (s.setChan c x).pp = s.pp := rfl
@[simp] theorem State.setChan_se (s : State) (c : Nat) (x : StreamChan) : (s.setChan c x).se = s.se := rfl
@[simp] theorem State.setChan_mc (s : State) (c : Nat) (x : StreamChan) : (s.setChan c x).mc = s.mc := rfl
@[simp] theorem State.setChan_glb (s : State) (c : Nat) (x : StreamChan) : (s.setChan c x).glb = s.glb := rfl
@[simp] theorem State.setChan_latches (s : State) (c : Nat) (x : StreamChan) : (s.setChan c x).latches = s.latches := rfl
@[simp] theorem State.setChan_answer (s : State) (c : Nat) (x : StreamChan) : (s.setChan c x).answer = s.answer := rfl
@[simp] theorem State.setChan_free (s : State) (c : Nat) (x : StreamChan) : (s.setChan c x).free = s.free := rfl
@[simp] theorem State.setChan_tile (s : State) (c : Nat) (x : StreamChan) (u : Nat) : (s.setChan c x).tile u = s.tile u := rfl
@[simp] theorem State.setChan_edge (s : State) (c : Nat) (x : StreamChan) (u : Nat) : (s.setChan c x).edge u = s.edge u := rfl
@[simp] theorem State.setChan_bed (s : State) (c : Nat) (x : StreamChan) (u : Nat) : (s.setChan c x).bed u = s.bed u := rfl
@[simp] theorem State.setChan_port (s : State) (c : Nat) (x : StreamChan) (u : Nat) : (s.setChan c x).port u = s.port u := rfl
@[simp] theorem State.setChan_source (s : State) (c : Nat) (x : StreamChan) (u : Nat) : (s.setChan c x).source u = s.source u := rfl
@[simp] theorem State.setChan_target (s : State) (c : Nat) (x : StreamChan) (u : Nat) : (s.setChan c x).target u = s.target u := rfl
@[simp] theorem State.setChan_mbox (s : State) (c : Nat) (x : StreamChan) (u : Nat) : (s.setChan c x).mbox u = s.mbox u := rfl
@[simp] theorem State.setChan_engine (s : State) (c : Nat) (x : StreamChan) (u : Nat) : (s.setChan c x).engine u = s.engine u := rfl
@[simp] theorem State.setChan_holding (s : State) (c : Nat) (x : StreamChan) : (s.setChan c x).holding = s.holding := rfl

/-! ## setSport -/

@[simp] theorem State.setSport_pending (s : State) (k : Nat) (x : SensorPort) : (s.setSport k x).pending = s.pending := rfl
@[simp] theorem State.setSport_devTime (s : State) (k : Nat) (x : SensorPort) : (s.setSport k x).devTime = s.devTime := rfl
@[simp] theorem State.setSport_timeOff (s : State) (k : Nat) (x : SensorPort) : (s.setSport k x).timeOff = s.timeOff := rfl
@[simp] theorem State.setSport_tiles (s : State) (k : Nat) (x : SensorPort) : (s.setSport k x).tiles = s.tiles := rfl
@[simp] theorem State.setSport_edges (s : State) (k : Nat) (x : SensorPort) : (s.setSport k x).edges = s.edges := rfl
@[simp] theorem State.setSport_beds (s : State) (k : Nat) (x : SensorPort) : (s.setSport k x).beds = s.beds := rfl
@[simp] theorem State.setSport_sels (s : State) (k : Nat) (x : SensorPort) : (s.setSport k x).sels = s.sels := rfl
@[simp] theorem State.setSport_pace (s : State) (k : Nat) (x : SensorPort) : (s.setSport k x).pace = s.pace := rfl
@[simp] theorem State.setSport_cfg (s : State) (k : Nat) (x : SensorPort) : (s.setSport k x).cfg = s.cfg := rfl
@[simp] theorem State.setSport_ic (s : State) (k : Nat) (x : SensorPort) : (s.setSport k x).ic = s.ic := rfl
@[simp] theorem State.setSport_mbx (s : State) (k : Nat) (x : SensorPort) : (s.setSport k x).mbx = s.mbx := rfl
@[simp] theorem State.setSport_hq (s : State) (k : Nat) (x : SensorPort) : (s.setSport k x).hq = s.hq := rfl
@[simp] theorem State.setSport_hostOut (s : State) (k : Nat) (x : SensorPort) : (s.setSport k x).hostOut = s.hostOut := rfl
@[simp] theorem State.setSport_lk (s : State) (k : Nat) (x : SensorPort) : (s.setSport k x).lk = s.lk := rfl
@[simp] theorem State.setSport_tw (s : State) (k : Nat) (x : SensorPort) : (s.setSport k x).tw = s.tw := rfl
@[simp] theorem State.setSport_flt (s : State) (k : Nat) (x : SensorPort) : (s.setSport k x).flt = s.flt := rfl
@[simp] theorem State.setSport_pwr (s : State) (k : Nat) (x : SensorPort) : (s.setSport k x).pwr = s.pwr := rfl
@[simp] theorem State.setSport_sec (s : State) (k : Nat) (x : SensorPort) : (s.setSport k x).sec = s.sec := rfl
@[simp] theorem State.setSport_nce (s : State) (k : Nat) (x : SensorPort) : (s.setSport k x).nce = s.nce := rfl
@[simp] theorem State.setSport_pp (s : State) (k : Nat) (x : SensorPort) : (s.setSport k x).pp = s.pp := rfl
@[simp] theorem State.setSport_se (s : State) (k : Nat) (x : SensorPort) : (s.setSport k x).se = s.se := rfl
@[simp] theorem State.setSport_mc (s : State) (k : Nat) (x : SensorPort) : (s.setSport k x).mc = s.mc := rfl
@[simp] theorem State.setSport_glb (s : State) (k : Nat) (x : SensorPort) : (s.setSport k x).glb = s.glb := rfl
@[simp] theorem State.setSport_latches (s : State) (k : Nat) (x : SensorPort) : (s.setSport k x).latches = s.latches := rfl
@[simp] theorem State.setSport_answer (s : State) (k : Nat) (x : SensorPort) : (s.setSport k x).answer = s.answer := rfl
@[simp] theorem State.setSport_free (s : State) (k : Nat) (x : SensorPort) : (s.setSport k x).free = s.free := rfl
@[simp] theorem State.setSport_tile (s : State) (k : Nat) (x : SensorPort) (u : Nat) : (s.setSport k x).tile u = s.tile u := rfl
@[simp] theorem State.setSport_edge (s : State) (k : Nat) (x : SensorPort) (u : Nat) : (s.setSport k x).edge u = s.edge u := rfl
@[simp] theorem State.setSport_bed (s : State) (k : Nat) (x : SensorPort) (u : Nat) : (s.setSport k x).bed u = s.bed u := rfl
@[simp] theorem State.setSport_port (s : State) (k : Nat) (x : SensorPort) (u : Nat) : (s.setSport k x).port u = s.port u := rfl
@[simp] theorem State.setSport_source (s : State) (k : Nat) (x : SensorPort) (u : Nat) : (s.setSport k x).source u = s.source u := rfl
@[simp] theorem State.setSport_target (s : State) (k : Nat) (x : SensorPort) (u : Nat) : (s.setSport k x).target u = s.target u := rfl
@[simp] theorem State.setSport_mbox (s : State) (k : Nat) (x : SensorPort) (u : Nat) : (s.setSport k x).mbox u = s.mbox u := rfl
@[simp] theorem State.setSport_engine (s : State) (k : Nat) (x : SensorPort) (u : Nat) : (s.setSport k x).engine u = s.engine u := rfl
@[simp] theorem State.setSport_holding (s : State) (k : Nat) (x : SensorPort) : (s.setSport k x).holding = s.holding := rfl

/-! ## setEngine -/

@[simp] theorem State.setEngine_pending (s : State) (k : Nat) (x : Engine) : (s.setEngine k x).pending = s.pending := rfl
@[simp] theorem State.setEngine_devTime (s : State) (k : Nat) (x : Engine) : (s.setEngine k x).devTime = s.devTime := rfl
@[simp] theorem State.setEngine_timeOff (s : State) (k : Nat) (x : Engine) : (s.setEngine k x).timeOff = s.timeOff := rfl
@[simp] theorem State.setEngine_tiles (s : State) (k : Nat) (x : Engine) : (s.setEngine k x).tiles = s.tiles := rfl
@[simp] theorem State.setEngine_edges (s : State) (k : Nat) (x : Engine) : (s.setEngine k x).edges = s.edges := rfl
@[simp] theorem State.setEngine_beds (s : State) (k : Nat) (x : Engine) : (s.setEngine k x).beds = s.beds := rfl
@[simp] theorem State.setEngine_sels (s : State) (k : Nat) (x : Engine) : (s.setEngine k x).sels = s.sels := rfl
@[simp] theorem State.setEngine_pace (s : State) (k : Nat) (x : Engine) : (s.setEngine k x).pace = s.pace := rfl
@[simp] theorem State.setEngine_cfg (s : State) (k : Nat) (x : Engine) : (s.setEngine k x).cfg = s.cfg := rfl
@[simp] theorem State.setEngine_ic (s : State) (k : Nat) (x : Engine) : (s.setEngine k x).ic = s.ic := rfl
@[simp] theorem State.setEngine_mbx (s : State) (k : Nat) (x : Engine) : (s.setEngine k x).mbx = s.mbx := rfl
@[simp] theorem State.setEngine_hq (s : State) (k : Nat) (x : Engine) : (s.setEngine k x).hq = s.hq := rfl
@[simp] theorem State.setEngine_hostOut (s : State) (k : Nat) (x : Engine) : (s.setEngine k x).hostOut = s.hostOut := rfl
@[simp] theorem State.setEngine_lk (s : State) (k : Nat) (x : Engine) : (s.setEngine k x).lk = s.lk := rfl
@[simp] theorem State.setEngine_tw (s : State) (k : Nat) (x : Engine) : (s.setEngine k x).tw = s.tw := rfl
@[simp] theorem State.setEngine_flt (s : State) (k : Nat) (x : Engine) : (s.setEngine k x).flt = s.flt := rfl
@[simp] theorem State.setEngine_pwr (s : State) (k : Nat) (x : Engine) : (s.setEngine k x).pwr = s.pwr := rfl
@[simp] theorem State.setEngine_sec (s : State) (k : Nat) (x : Engine) : (s.setEngine k x).sec = s.sec := rfl
@[simp] theorem State.setEngine_sp (s : State) (k : Nat) (x : Engine) : (s.setEngine k x).sp = s.sp := rfl
@[simp] theorem State.setEngine_nce (s : State) (k : Nat) (x : Engine) : (s.setEngine k x).nce = s.nce := rfl
@[simp] theorem State.setEngine_pp (s : State) (k : Nat) (x : Engine) : (s.setEngine k x).pp = s.pp := rfl
@[simp] theorem State.setEngine_mc (s : State) (k : Nat) (x : Engine) : (s.setEngine k x).mc = s.mc := rfl
@[simp] theorem State.setEngine_glb (s : State) (k : Nat) (x : Engine) : (s.setEngine k x).glb = s.glb := rfl
@[simp] theorem State.setEngine_latches (s : State) (k : Nat) (x : Engine) : (s.setEngine k x).latches = s.latches := rfl
@[simp] theorem State.setEngine_answer (s : State) (k : Nat) (x : Engine) : (s.setEngine k x).answer = s.answer := rfl
@[simp] theorem State.setEngine_free (s : State) (k : Nat) (x : Engine) : (s.setEngine k x).free = s.free := rfl
@[simp] theorem State.setEngine_tile (s : State) (k : Nat) (x : Engine) (u : Nat) : (s.setEngine k x).tile u = s.tile u := rfl
@[simp] theorem State.setEngine_edge (s : State) (k : Nat) (x : Engine) (u : Nat) : (s.setEngine k x).edge u = s.edge u := rfl
@[simp] theorem State.setEngine_bed (s : State) (k : Nat) (x : Engine) (u : Nat) : (s.setEngine k x).bed u = s.bed u := rfl
@[simp] theorem State.setEngine_port (s : State) (k : Nat) (x : Engine) (u : Nat) : (s.setEngine k x).port u = s.port u := rfl
@[simp] theorem State.setEngine_source (s : State) (k : Nat) (x : Engine) (u : Nat) : (s.setEngine k x).source u = s.source u := rfl
@[simp] theorem State.setEngine_target (s : State) (k : Nat) (x : Engine) (u : Nat) : (s.setEngine k x).target u = s.target u := rfl
@[simp] theorem State.setEngine_mbox (s : State) (k : Nat) (x : Engine) (u : Nat) : (s.setEngine k x).mbox u = s.mbox u := rfl
@[simp] theorem State.setEngine_holding (s : State) (k : Nat) (x : Engine) : (s.setEngine k x).holding = s.holding := rfl

/-! ## setMbox -/

@[simp] theorem State.setMbox_pending (s : State) (m : Nat) (x : Mbox) : (s.setMbox m x).pending = s.pending := rfl
@[simp] theorem State.setMbox_devTime (s : State) (m : Nat) (x : Mbox) : (s.setMbox m x).devTime = s.devTime := rfl
@[simp] theorem State.setMbox_timeOff (s : State) (m : Nat) (x : Mbox) : (s.setMbox m x).timeOff = s.timeOff := rfl
@[simp] theorem State.setMbox_tiles (s : State) (m : Nat) (x : Mbox) : (s.setMbox m x).tiles = s.tiles := rfl
@[simp] theorem State.setMbox_edges (s : State) (m : Nat) (x : Mbox) : (s.setMbox m x).edges = s.edges := rfl
@[simp] theorem State.setMbox_beds (s : State) (m : Nat) (x : Mbox) : (s.setMbox m x).beds = s.beds := rfl
@[simp] theorem State.setMbox_sels (s : State) (m : Nat) (x : Mbox) : (s.setMbox m x).sels = s.sels := rfl
@[simp] theorem State.setMbox_pace (s : State) (m : Nat) (x : Mbox) : (s.setMbox m x).pace = s.pace := rfl
@[simp] theorem State.setMbox_cfg (s : State) (m : Nat) (x : Mbox) : (s.setMbox m x).cfg = s.cfg := rfl
@[simp] theorem State.setMbox_ic (s : State) (m : Nat) (x : Mbox) : (s.setMbox m x).ic = s.ic := rfl
@[simp] theorem State.setMbox_hq (s : State) (m : Nat) (x : Mbox) : (s.setMbox m x).hq = s.hq := rfl
@[simp] theorem State.setMbox_hostOut (s : State) (m : Nat) (x : Mbox) : (s.setMbox m x).hostOut = s.hostOut := rfl
@[simp] theorem State.setMbox_lk (s : State) (m : Nat) (x : Mbox) : (s.setMbox m x).lk = s.lk := rfl
@[simp] theorem State.setMbox_tw (s : State) (m : Nat) (x : Mbox) : (s.setMbox m x).tw = s.tw := rfl
@[simp] theorem State.setMbox_flt (s : State) (m : Nat) (x : Mbox) : (s.setMbox m x).flt = s.flt := rfl
@[simp] theorem State.setMbox_pwr (s : State) (m : Nat) (x : Mbox) : (s.setMbox m x).pwr = s.pwr := rfl
@[simp] theorem State.setMbox_sec (s : State) (m : Nat) (x : Mbox) : (s.setMbox m x).sec = s.sec := rfl
@[simp] theorem State.setMbox_sp (s : State) (m : Nat) (x : Mbox) : (s.setMbox m x).sp = s.sp := rfl
@[simp] theorem State.setMbox_nce (s : State) (m : Nat) (x : Mbox) : (s.setMbox m x).nce = s.nce := rfl
@[simp] theorem State.setMbox_pp (s : State) (m : Nat) (x : Mbox) : (s.setMbox m x).pp = s.pp := rfl
@[simp] theorem State.setMbox_se (s : State) (m : Nat) (x : Mbox) : (s.setMbox m x).se = s.se := rfl
@[simp] theorem State.setMbox_mc (s : State) (m : Nat) (x : Mbox) : (s.setMbox m x).mc = s.mc := rfl
@[simp] theorem State.setMbox_glb (s : State) (m : Nat) (x : Mbox) : (s.setMbox m x).glb = s.glb := rfl
@[simp] theorem State.setMbox_latches (s : State) (m : Nat) (x : Mbox) : (s.setMbox m x).latches = s.latches := rfl
@[simp] theorem State.setMbox_answer (s : State) (m : Nat) (x : Mbox) : (s.setMbox m x).answer = s.answer := rfl
@[simp] theorem State.setMbox_free (s : State) (m : Nat) (x : Mbox) : (s.setMbox m x).free = s.free := rfl
@[simp] theorem State.setMbox_tile (s : State) (m : Nat) (x : Mbox) (u : Nat) : (s.setMbox m x).tile u = s.tile u := rfl
@[simp] theorem State.setMbox_edge (s : State) (m : Nat) (x : Mbox) (u : Nat) : (s.setMbox m x).edge u = s.edge u := rfl
@[simp] theorem State.setMbox_bed (s : State) (m : Nat) (x : Mbox) (u : Nat) : (s.setMbox m x).bed u = s.bed u := rfl
@[simp] theorem State.setMbox_port (s : State) (m : Nat) (x : Mbox) (u : Nat) : (s.setMbox m x).port u = s.port u := rfl
@[simp] theorem State.setMbox_source (s : State) (m : Nat) (x : Mbox) (u : Nat) : (s.setMbox m x).source u = s.source u := rfl
@[simp] theorem State.setMbox_target (s : State) (m : Nat) (x : Mbox) (u : Nat) : (s.setMbox m x).target u = s.target u := rfl
@[simp] theorem State.setMbox_engine (s : State) (m : Nat) (x : Mbox) (u : Nat) : (s.setMbox m x).engine u = s.engine u := rfl
@[simp] theorem State.setMbox_holding (s : State) (m : Nat) (x : Mbox) : (s.setMbox m x).holding = s.holding := rfl

/-! ## putSource -/

@[simp] theorem State.putSource_pending (s : State) (k : Nat) (x : Source) : (s.putSource k x).pending = s.pending := rfl
@[simp] theorem State.putSource_devTime (s : State) (k : Nat) (x : Source) : (s.putSource k x).devTime = s.devTime := rfl
@[simp] theorem State.putSource_timeOff (s : State) (k : Nat) (x : Source) : (s.putSource k x).timeOff = s.timeOff := rfl
@[simp] theorem State.putSource_tiles (s : State) (k : Nat) (x : Source) : (s.putSource k x).tiles = s.tiles := rfl
@[simp] theorem State.putSource_edges (s : State) (k : Nat) (x : Source) : (s.putSource k x).edges = s.edges := rfl
@[simp] theorem State.putSource_beds (s : State) (k : Nat) (x : Source) : (s.putSource k x).beds = s.beds := rfl
@[simp] theorem State.putSource_sels (s : State) (k : Nat) (x : Source) : (s.putSource k x).sels = s.sels := rfl
@[simp] theorem State.putSource_pace (s : State) (k : Nat) (x : Source) : (s.putSource k x).pace = s.pace := rfl
@[simp] theorem State.putSource_cfg (s : State) (k : Nat) (x : Source) : (s.putSource k x).cfg = s.cfg := rfl
@[simp] theorem State.putSource_mbx (s : State) (k : Nat) (x : Source) : (s.putSource k x).mbx = s.mbx := rfl
@[simp] theorem State.putSource_hq (s : State) (k : Nat) (x : Source) : (s.putSource k x).hq = s.hq := rfl
@[simp] theorem State.putSource_hostOut (s : State) (k : Nat) (x : Source) : (s.putSource k x).hostOut = s.hostOut := rfl
@[simp] theorem State.putSource_lk (s : State) (k : Nat) (x : Source) : (s.putSource k x).lk = s.lk := rfl
@[simp] theorem State.putSource_tw (s : State) (k : Nat) (x : Source) : (s.putSource k x).tw = s.tw := rfl
@[simp] theorem State.putSource_flt (s : State) (k : Nat) (x : Source) : (s.putSource k x).flt = s.flt := rfl
@[simp] theorem State.putSource_pwr (s : State) (k : Nat) (x : Source) : (s.putSource k x).pwr = s.pwr := rfl
@[simp] theorem State.putSource_sec (s : State) (k : Nat) (x : Source) : (s.putSource k x).sec = s.sec := rfl
@[simp] theorem State.putSource_sp (s : State) (k : Nat) (x : Source) : (s.putSource k x).sp = s.sp := rfl
@[simp] theorem State.putSource_nce (s : State) (k : Nat) (x : Source) : (s.putSource k x).nce = s.nce := rfl
@[simp] theorem State.putSource_pp (s : State) (k : Nat) (x : Source) : (s.putSource k x).pp = s.pp := rfl
@[simp] theorem State.putSource_se (s : State) (k : Nat) (x : Source) : (s.putSource k x).se = s.se := rfl
@[simp] theorem State.putSource_mc (s : State) (k : Nat) (x : Source) : (s.putSource k x).mc = s.mc := rfl
@[simp] theorem State.putSource_glb (s : State) (k : Nat) (x : Source) : (s.putSource k x).glb = s.glb := rfl
@[simp] theorem State.putSource_latches (s : State) (k : Nat) (x : Source) : (s.putSource k x).latches = s.latches := rfl
@[simp] theorem State.putSource_answer (s : State) (k : Nat) (x : Source) : (s.putSource k x).answer = s.answer := rfl
@[simp] theorem State.putSource_free (s : State) (k : Nat) (x : Source) : (s.putSource k x).free = s.free := rfl
@[simp] theorem State.putSource_tile (s : State) (k : Nat) (x : Source) (u : Nat) : (s.putSource k x).tile u = s.tile u := rfl
@[simp] theorem State.putSource_edge (s : State) (k : Nat) (x : Source) (u : Nat) : (s.putSource k x).edge u = s.edge u := rfl
@[simp] theorem State.putSource_bed (s : State) (k : Nat) (x : Source) (u : Nat) : (s.putSource k x).bed u = s.bed u := rfl
@[simp] theorem State.putSource_port (s : State) (k : Nat) (x : Source) (u : Nat) : (s.putSource k x).port u = s.port u := rfl
@[simp] theorem State.putSource_mbox (s : State) (k : Nat) (x : Source) (u : Nat) : (s.putSource k x).mbox u = s.mbox u := rfl
@[simp] theorem State.putSource_engine (s : State) (k : Nat) (x : Source) (u : Nat) : (s.putSource k x).engine u = s.engine u := rfl
@[simp] theorem State.putSource_holding (s : State) (k : Nat) (x : Source) : (s.putSource k x).holding = s.holding := rfl

/-! ## setTarget -/

@[simp] theorem State.setTarget_pending (s : State) (t : Nat) (x : Target) : (s.setTarget t x).pending = s.pending := rfl
@[simp] theorem State.setTarget_devTime (s : State) (t : Nat) (x : Target) : (s.setTarget t x).devTime = s.devTime := rfl
@[simp] theorem State.setTarget_timeOff (s : State) (t : Nat) (x : Target) : (s.setTarget t x).timeOff = s.timeOff := rfl
@[simp] theorem State.setTarget_tiles (s : State) (t : Nat) (x : Target) : (s.setTarget t x).tiles = s.tiles := rfl
@[simp] theorem State.setTarget_edges (s : State) (t : Nat) (x : Target) : (s.setTarget t x).edges = s.edges := rfl
@[simp] theorem State.setTarget_beds (s : State) (t : Nat) (x : Target) : (s.setTarget t x).beds = s.beds := rfl
@[simp] theorem State.setTarget_sels (s : State) (t : Nat) (x : Target) : (s.setTarget t x).sels = s.sels := rfl
@[simp] theorem State.setTarget_pace (s : State) (t : Nat) (x : Target) : (s.setTarget t x).pace = s.pace := rfl
@[simp] theorem State.setTarget_cfg (s : State) (t : Nat) (x : Target) : (s.setTarget t x).cfg = s.cfg := rfl
@[simp] theorem State.setTarget_mbx (s : State) (t : Nat) (x : Target) : (s.setTarget t x).mbx = s.mbx := rfl
@[simp] theorem State.setTarget_hq (s : State) (t : Nat) (x : Target) : (s.setTarget t x).hq = s.hq := rfl
@[simp] theorem State.setTarget_hostOut (s : State) (t : Nat) (x : Target) : (s.setTarget t x).hostOut = s.hostOut := rfl
@[simp] theorem State.setTarget_lk (s : State) (t : Nat) (x : Target) : (s.setTarget t x).lk = s.lk := rfl
@[simp] theorem State.setTarget_tw (s : State) (t : Nat) (x : Target) : (s.setTarget t x).tw = s.tw := rfl
@[simp] theorem State.setTarget_flt (s : State) (t : Nat) (x : Target) : (s.setTarget t x).flt = s.flt := rfl
@[simp] theorem State.setTarget_pwr (s : State) (t : Nat) (x : Target) : (s.setTarget t x).pwr = s.pwr := rfl
@[simp] theorem State.setTarget_sec (s : State) (t : Nat) (x : Target) : (s.setTarget t x).sec = s.sec := rfl
@[simp] theorem State.setTarget_sp (s : State) (t : Nat) (x : Target) : (s.setTarget t x).sp = s.sp := rfl
@[simp] theorem State.setTarget_nce (s : State) (t : Nat) (x : Target) : (s.setTarget t x).nce = s.nce := rfl
@[simp] theorem State.setTarget_pp (s : State) (t : Nat) (x : Target) : (s.setTarget t x).pp = s.pp := rfl
@[simp] theorem State.setTarget_se (s : State) (t : Nat) (x : Target) : (s.setTarget t x).se = s.se := rfl
@[simp] theorem State.setTarget_mc (s : State) (t : Nat) (x : Target) : (s.setTarget t x).mc = s.mc := rfl
@[simp] theorem State.setTarget_glb (s : State) (t : Nat) (x : Target) : (s.setTarget t x).glb = s.glb := rfl
@[simp] theorem State.setTarget_latches (s : State) (t : Nat) (x : Target) : (s.setTarget t x).latches = s.latches := rfl
@[simp] theorem State.setTarget_answer (s : State) (t : Nat) (x : Target) : (s.setTarget t x).answer = s.answer := rfl
@[simp] theorem State.setTarget_free (s : State) (t : Nat) (x : Target) : (s.setTarget t x).free = s.free := rfl
@[simp] theorem State.setTarget_tile (s : State) (t : Nat) (x : Target) (u : Nat) : (s.setTarget t x).tile u = s.tile u := rfl
@[simp] theorem State.setTarget_edge (s : State) (t : Nat) (x : Target) (u : Nat) : (s.setTarget t x).edge u = s.edge u := rfl
@[simp] theorem State.setTarget_bed (s : State) (t : Nat) (x : Target) (u : Nat) : (s.setTarget t x).bed u = s.bed u := rfl
@[simp] theorem State.setTarget_port (s : State) (t : Nat) (x : Target) (u : Nat) : (s.setTarget t x).port u = s.port u := rfl
@[simp] theorem State.setTarget_mbox (s : State) (t : Nat) (x : Target) (u : Nat) : (s.setTarget t x).mbox u = s.mbox u := rfl
@[simp] theorem State.setTarget_engine (s : State) (t : Nat) (x : Target) (u : Nat) : (s.setTarget t x).engine u = s.engine u := rfl
@[simp] theorem State.setTarget_holding (s : State) (t : Nat) (x : Target) : (s.setTarget t x).holding = s.holding := rfl

/-! ## Reads after the named updates -/

theorem State.setTile_tile (s : State) (t u : Nat) (g : GridTile) : (s.setTile t g).tile u = if u = t then g else s.tile u := mget_mset _ _ _ _ _
@[simp] theorem State.setTile_tile_self (s : State) (t : Nat) (g : GridTile) : (s.setTile t g).tile t = g := mget_mset_self _ _ _ _
theorem State.setEdge_edge (s : State) (t u : Nat) (g : EdgeTile) : (s.setEdge t g).edge u = if u = t then g else s.edge u := mget_mset _ _ _ _ _
@[simp] theorem State.setEdge_edge_self (s : State) (t : Nat) (g : EdgeTile) : (s.setEdge t g).edge t = g := mget_mset_self _ _ _ _
theorem State.setBed_bed (s : State) (t u : Nat) (g : BedState) : (s.setBed t g).bed u = if u = t then g else s.bed u := mget_mset _ _ _ _ _
@[simp] theorem State.setBed_bed_self (s : State) (t : Nat) (g : BedState) : (s.setBed t g).bed t = g := mget_mset_self _ _ _ _
theorem State.setPort_port (s : State) (t u : Nat) (g : LinkPort) : (s.setPort t g).port u = if u = t then g else s.port u := mget_mset _ _ _ _ _
@[simp] theorem State.setPort_port_self (s : State) (t : Nat) (g : LinkPort) : (s.setPort t g).port t = g := mget_mset_self _ _ _ _
theorem State.setRing_ring (s : State) (t u : Nat) (g : Ring) : (s.setRing t g).ring u = if u = t then g else s.ring u := mget_mset _ _ _ _ _
@[simp] theorem State.setRing_ring_self (s : State) (t : Nat) (g : Ring) : (s.setRing t g).ring t = g := mget_mset_self _ _ _ _
theorem State.setChan_chan (s : State) (t u : Nat) (g : StreamChan) : (s.setChan t g).chan u = if u = t then g else s.chan u := mget_mset _ _ _ _ _
@[simp] theorem State.setChan_chan_self (s : State) (t : Nat) (g : StreamChan) : (s.setChan t g).chan t = g := mget_mset_self _ _ _ _
theorem State.setSport_sport (s : State) (t u : Nat) (g : SensorPort) : (s.setSport t g).sport u = if u = t then g else s.sport u := mget_mset _ _ _ _ _
@[simp] theorem State.setSport_sport_self (s : State) (t : Nat) (g : SensorPort) : (s.setSport t g).sport t = g := mget_mset_self _ _ _ _
theorem State.setEngine_engine (s : State) (t u : Nat) (g : Engine) : (s.setEngine t g).engine u = if u = t then g else s.engine u := mget_mset _ _ _ _ _
@[simp] theorem State.setEngine_engine_self (s : State) (t : Nat) (g : Engine) : (s.setEngine t g).engine t = g := mget_mset_self _ _ _ _
theorem State.setTarget_target (s : State) (t u : Nat) (g : Target) : (s.setTarget t g).target u = if u = t then g else s.target u := mget_mset _ _ _ _ _
@[simp] theorem State.setTarget_target_self (s : State) (t : Nat) (g : Target) : (s.setTarget t g).target t = g := mget_mset_self _ _ _ _
@[simp] theorem State.setMbox_mbox_self (s : State) (t : Nat) (x : Mbox) : (s.setMbox t x).mbox t = x := mget_mset_self _ _ _ _
theorem State.setMbox_mbox_other (s : State) (t u : Nat) (x : Mbox) (h : u ≠ t) : (s.setMbox t x).mbox u = s.mbox u :=
  mget_mset_other _ _ _ _ _ _ h
@[simp] theorem State.putSource_source_self (s : State) (t : Nat) (x : Source) : (s.putSource t x).source t = x := mget_mset_self _ _ _ _
theorem State.putSource_source_other (s : State) (t u : Nat) (x : Source) (h : u ≠ t) : (s.putSource t x).source u = s.source u :=
  mget_mset_other _ _ _ _ _ _ h

end Sys2Proof.Machine
end

