-- ==== Sys2Proof/Laws/Flags.lean ====
section
/-! SUPPORT. What raising an interrupt source, generating an event and aborting can change: one frame for each operation, and
from it one small lemma per field left alone. -/

namespace Sys2Proof.Machine

theorem requestAt_frame (s : State) (t : Nat) (p : BitVec 4) : requestAt s t p = { s with ic := (requestAt s t p).ic } := rfl


theorem armHost_frame (s : State) (k : Nat) : armHost s k = { s with ic := (armHost s k).ic } := by
  unfold armHost
  simp only []
  split <;> rfl


theorem armMp_frame (s : State) (k : Nat) : armMp s k = { s with ic := (armMp s k).ic } := by
  unfold armMp
  simp only []
  split <;> rfl


theorem State.setSource_frame (s : State) (k : Nat) (x : Source) : s.setSource k x = { s with ic := (s.setSource k x).ic } := by
  unfold State.setSource
  simp only []
  split <;> split <;> first | rfl | (rw [armMp_frame, armHost_frame]; rfl) | (rw [armHost_frame]; rfl) | (rw [armMp_frame]; rfl)


theorem raiseSource_frame (s : State) (k : Nat) : raiseSource s k = { s with ic := (raiseSource s k).ic } := State.setSource_frame s k _

@[simp] theorem raiseSource_pending (s : State) (k : Nat) : (raiseSource s k).pending = s.pending := by rw [raiseSource_frame]
@[simp] theorem raiseSource_tiles (s : State) (k : Nat) : (raiseSource s k).tiles = s.tiles := by rw [raiseSource_frame]
@[simp] theorem raiseSource_edges (s : State) (k : Nat) : (raiseSource s k).edges = s.edges := by rw [raiseSource_frame]
@[simp] theorem raiseSource_beds (s : State) (k : Nat) : (raiseSource s k).beds = s.beds := by rw [raiseSource_frame]
@[simp] theorem raiseSource_pace (s : State) (k : Nat) : (raiseSource s k).pace = s.pace := by rw [raiseSource_frame]
@[simp] theorem raiseSource_sec (s : State) (k : Nat) : (raiseSource s k).sec = s.sec := by rw [raiseSource_frame]
@[simp] theorem raiseSource_se (s : State) (k : Nat) : (raiseSource s k).se = s.se := by rw [raiseSource_frame]
@[simp] theorem raiseSource_mc (s : State) (k : Nat) : (raiseSource s k).mc = s.mc := by rw [raiseSource_frame]
@[simp] theorem raiseSource_tile (s : State) (k : Nat) (u : Nat) : (raiseSource s k).tile u = s.tile u := by rw [raiseSource_frame]; rfl
@[simp] theorem raiseSource_edge (s : State) (k : Nat) (u : Nat) : (raiseSource s k).edge u = s.edge u := by rw [raiseSource_frame]; rfl
@[simp] theorem raiseSource_bed (s : State) (k : Nat) (u : Nat) : (raiseSource s k).bed u = s.bed u := by rw [raiseSource_frame]; rfl

theorem queueRecord_frame (s : State) (r : EventRec) : queueRecord s r = { s with ic := (queueRecord s r).ic, hq := (queueRecord s r).hq } := by
  unfold queueRecord
  simp only []
  split
  · split
    · rw [raiseSource_frame]
    · rfl
  · rw [raiseSource_frame]


theorem eventBase_frame (s : State) (c : Nat) (a : EvArgs) : eventBase s c a = { s with ic := (eventBase s c a).ic, hq := (eventBase s c a).hq } := by
  unfold eventBase
  simp only []
  rw [raiseSource_frame, queueRecord_frame]

@[simp] theorem eventBase_pending (s : State) (c : Nat) (a : EvArgs) : (eventBase s c a).pending = s.pending := by rw [eventBase_frame]
@[simp] theorem eventBase_tiles (s : State) (c : Nat) (a : EvArgs) : (eventBase s c a).tiles = s.tiles := by rw [eventBase_frame]
@[simp] theorem eventBase_edges (s : State) (c : Nat) (a : EvArgs) : (eventBase s c a).edges = s.edges := by rw [eventBase_frame]
@[simp] theorem eventBase_beds (s : State) (c : Nat) (a : EvArgs) : (eventBase s c a).beds = s.beds := by rw [eventBase_frame]
@[simp] theorem eventBase_pace (s : State) (c : Nat) (a : EvArgs) : (eventBase s c a).pace = s.pace := by rw [eventBase_frame]
@[simp] theorem eventBase_sec (s : State) (c : Nat) (a : EvArgs) : (eventBase s c a).sec = s.sec := by rw [eventBase_frame]
@[simp] theorem eventBase_se (s : State) (c : Nat) (a : EvArgs) : (eventBase s c a).se = s.se := by rw [eventBase_frame]
@[simp] theorem eventBase_mc (s : State) (c : Nat) (a : EvArgs) : (eventBase s c a).mc = s.mc := by rw [eventBase_frame]
@[simp] theorem eventBase_tile (s : State) (c : Nat) (a : EvArgs) (u : Nat) : (eventBase s c a).tile u = s.tile u := by rw [eventBase_frame]; rfl
@[simp] theorem eventBase_edge (s : State) (c : Nat) (a : EvArgs) (u : Nat) : (eventBase s c a).edge u = s.edge u := by rw [eventBase_frame]; rfl
@[simp] theorem eventBase_bed (s : State) (c : Nat) (a : EvArgs) (u : Nat) : (eventBase s c a).bed u = s.bed u := by rw [eventBase_frame]; rfl

theorem logEntry_frame (s : State) (e : LogEntry) : logEntry s e = { s with ic := (logEntry s e).ic, hq := (logEntry s e).hq, flt := (logEntry s e).flt } := by
  unfold logEntry
  split
  · rw [raiseSource_frame]
  · split
    · rw [raiseSource_frame]
    · rw [eventBase_frame]


theorem recordEvent_frame (s : State) (c : Nat) (a : EvArgs) : recordEvent s c a = { s with ic := (recordEvent s c a).ic, hq := (recordEvent s c a).hq, flt := (recordEvent s c a).flt } := by
  unfold recordEvent
  simp only []
  split
  · rw [logEntry_frame, eventBase_frame]
  · rw [eventBase_frame]

@[simp] theorem recordEvent_pending (s : State) (c : Nat) (a : EvArgs) : (recordEvent s c a).pending = s.pending := by rw [recordEvent_frame]
@[simp] theorem recordEvent_tiles (s : State) (c : Nat) (a : EvArgs) : (recordEvent s c a).tiles = s.tiles := by rw [recordEvent_frame]
@[simp] theorem recordEvent_edges (s : State) (c : Nat) (a : EvArgs) : (recordEvent s c a).edges = s.edges := by rw [recordEvent_frame]
@[simp] theorem recordEvent_beds (s : State) (c : Nat) (a : EvArgs) : (recordEvent s c a).beds = s.beds := by rw [recordEvent_frame]
@[simp] theorem recordEvent_pace (s : State) (c : Nat) (a : EvArgs) : (recordEvent s c a).pace = s.pace := by rw [recordEvent_frame]
@[simp] theorem recordEvent_sec (s : State) (c : Nat) (a : EvArgs) : (recordEvent s c a).sec = s.sec := by rw [recordEvent_frame]
@[simp] theorem recordEvent_se (s : State) (c : Nat) (a : EvArgs) : (recordEvent s c a).se = s.se := by rw [recordEvent_frame]
@[simp] theorem recordEvent_mc (s : State) (c : Nat) (a : EvArgs) : (recordEvent s c a).mc = s.mc := by rw [recordEvent_frame]
@[simp] theorem recordEvent_tile (s : State) (c : Nat) (a : EvArgs) (u : Nat) : (recordEvent s c a).tile u = s.tile u := by rw [recordEvent_frame]; rfl
@[simp] theorem recordEvent_edge (s : State) (c : Nat) (a : EvArgs) (u : Nat) : (recordEvent s c a).edge u = s.edge u := by rw [recordEvent_frame]; rfl
@[simp] theorem recordEvent_bed (s : State) (c : Nat) (a : EvArgs) (u : Nat) : (recordEvent s c a).bed u = s.bed u := by rw [recordEvent_frame]; rfl

theorem sendOnUp_frame (s : State) (ok : Nat → Bool) (b : FrameBody) : sendOnUp s ok b = { s with lk := (sendOnUp s ok b).lk } := by
  unfold sendOnUp
  generalize List.range 4 = l
  induction l generalizing s with
  | nil => rfl
  | cons p r ih =>
    rw [List.foldl_cons]
    split
    · rw [ih]; rfl
    · exact ih s


theorem announce_frame (s : State) (ok : Nat → Bool) (b : FrameBody) : announce s ok b = { s with lk := (announce s ok b).lk } := by
  unfold announce
  split
  · rfl
  · rw [sendOnUp_frame]


theorem noteDump_frame (s : State) (v : Nat) : noteDump s v = { s with flt := (noteDump s v).flt } := rfl


theorem abortWith_frame (s : State) (v c : Nat) (n : Snapshot) (ok : Nat → Bool) (f : FrameBody) : abortWith s v c n ok f = { s with lk := (abortWith s v c n ok f).lk, pace := (abortWith s v c n ok f).pace, cfg := (abortWith s v c n ok f).cfg, flt := (abortWith s v c n ok f).flt } := by
  unfold abortWith
  simp only []
  split
  · rw [noteDump_frame]
  · rw [announce_frame, noteDump_frame]

@[simp] theorem abortWith_pending (s : State) (v c : Nat) (n : Snapshot) (ok : Nat → Bool) (f : FrameBody) : (abortWith s v c n ok f).pending = s.pending := by rw [abortWith_frame]
@[simp] theorem abortWith_tiles (s : State) (v c : Nat) (n : Snapshot) (ok : Nat → Bool) (f : FrameBody) : (abortWith s v c n ok f).tiles = s.tiles := by rw [abortWith_frame]
@[simp] theorem abortWith_edges (s : State) (v c : Nat) (n : Snapshot) (ok : Nat → Bool) (f : FrameBody) : (abortWith s v c n ok f).edges = s.edges := by rw [abortWith_frame]
@[simp] theorem abortWith_beds (s : State) (v c : Nat) (n : Snapshot) (ok : Nat → Bool) (f : FrameBody) : (abortWith s v c n ok f).beds = s.beds := by rw [abortWith_frame]
@[simp] theorem abortWith_sec (s : State) (v c : Nat) (n : Snapshot) (ok : Nat → Bool) (f : FrameBody) : (abortWith s v c n ok f).sec = s.sec := by rw [abortWith_frame]
@[simp] theorem abortWith_se (s : State) (v c : Nat) (n : Snapshot) (ok : Nat → Bool) (f : FrameBody) : (abortWith s v c n ok f).se = s.se := by rw [abortWith_frame]
@[simp] theorem abortWith_mc (s : State) (v c : Nat) (n : Snapshot) (ok : Nat → Bool) (f : FrameBody) : (abortWith s v c n ok f).mc = s.mc := by rw [abortWith_frame]
@[simp] theorem abortWith_tile (s : State) (v c : Nat) (n : Snapshot) (ok : Nat → Bool) (f : FrameBody) (u : Nat) : (abortWith s v c n ok f).tile u = s.tile u := by rw [abortWith_frame]; rfl
@[simp] theorem abortWith_edge (s : State) (v c : Nat) (n : Snapshot) (ok : Nat → Bool) (f : FrameBody) (u : Nat) : (abortWith s v c n ok f).edge u = s.edge u := by rw [abortWith_frame]; rfl
@[simp] theorem abortWith_bed (s : State) (v c : Nat) (n : Snapshot) (ok : Nat → Bool) (f : FrameBody) (u : Nat) : (abortWith s v c n ok f).bed u = s.bed u := by rw [abortWith_frame]; rfl

theorem event_frame (s : State) (c : Nat) (a : EvArgs) : event s c a = { s with ic := (event s c a).ic, hq := (event s c a).hq, flt := (event s c a).flt, lk := (event s c a).lk, pace := (event s c a).pace, cfg := (event s c a).cfg } := by
  unfold event
  simp only []
  split
  · rw [recordEvent_frame]
  · rw [abortWith_frame, recordEvent_frame]

@[simp] theorem event_pending (s : State) (c : Nat) (a : EvArgs) : (event s c a).pending = s.pending := by rw [event_frame]
@[simp] theorem event_tiles (s : State) (c : Nat) (a : EvArgs) : (event s c a).tiles = s.tiles := by rw [event_frame]
@[simp] theorem event_edges (s : State) (c : Nat) (a : EvArgs) : (event s c a).edges = s.edges := by rw [event_frame]
@[simp] theorem event_beds (s : State) (c : Nat) (a : EvArgs) : (event s c a).beds = s.beds := by rw [event_frame]
@[simp] theorem event_sec (s : State) (c : Nat) (a : EvArgs) : (event s c a).sec = s.sec := by rw [event_frame]
@[simp] theorem event_se (s : State) (c : Nat) (a : EvArgs) : (event s c a).se = s.se := by rw [event_frame]
@[simp] theorem event_mc (s : State) (c : Nat) (a : EvArgs) : (event s c a).mc = s.mc := by rw [event_frame]
@[simp] theorem event_tile (s : State) (c : Nat) (a : EvArgs) (u : Nat) : (event s c a).tile u = s.tile u := by rw [event_frame]; rfl
@[simp] theorem event_edge (s : State) (c : Nat) (a : EvArgs) (u : Nat) : (event s c a).edge u = s.edge u := by rw [event_frame]; rfl
@[simp] theorem event_bed (s : State) (c : Nat) (a : EvArgs) (u : Nat) : (event s c a).bed u = s.bed u := by rw [event_frame]; rfl

theorem tileEvent_frame (s : State) (t c a d e n : Nat) (m : List Nat) : tileEvent s t c a d e n m = { s with ic := (tileEvent s t c a d e n m).ic, hq := (tileEvent s t c a d e n m).hq, flt := (tileEvent s t c a d e n m).flt, lk := (tileEvent s t c a d e n m).lk, pace := (tileEvent s t c a d e n m).pace, cfg := (tileEvent s t c a d e n m).cfg } := event_frame s c _

@[simp] theorem tileEvent_pending (s : State) (t c a d e n : Nat) (m : List Nat) : (tileEvent s t c a d e n m).pending = s.pending := by rw [tileEvent_frame]
@[simp] theorem tileEvent_tiles (s : State) (t c a d e n : Nat) (m : List Nat) : (tileEvent s t c a d e n m).tiles = s.tiles := by rw [tileEvent_frame]
@[simp] theorem tileEvent_edges (s : State) (t c a d e n : Nat) (m : List Nat) : (tileEvent s t c a d e n m).edges = s.edges := by rw [tileEvent_frame]
@[simp] theorem tileEvent_beds (s : State) (t c a d e n : Nat) (m : List Nat) : (tileEvent s t c a d e n m).beds = s.beds := by rw [tileEvent_frame]
@[simp] theorem tileEvent_sec (s : State) (t c a d e n : Nat) (m : List Nat) : (tileEvent s t c a d e n m).sec = s.sec := by rw [tileEvent_frame]
@[simp] theorem tileEvent_se (s : State) (t c a d e n : Nat) (m : List Nat) : (tileEvent s t c a d e n m).se = s.se := by rw [tileEvent_frame]
@[simp] theorem tileEvent_mc (s : State) (t c a d e n : Nat) (m : List Nat) : (tileEvent s t c a d e n m).mc = s.mc := by rw [tileEvent_frame]
@[simp] theorem tileEvent_tile (s : State) (t c a d e n : Nat) (m : List Nat) (u : Nat) : (tileEvent s t c a d e n m).tile u = s.tile u := by rw [tileEvent_frame]; rfl
@[simp] theorem tileEvent_edge (s : State) (t c a d e n : Nat) (m : List Nat) (u : Nat) : (tileEvent s t c a d e n m).edge u = s.edge u := by rw [tileEvent_frame]; rfl
@[simp] theorem tileEvent_bed (s : State) (t c a d e n : Nat) (m : List Nat) (u : Nat) : (tileEvent s t c a d e n m).bed u = s.bed u := by rw [tileEvent_frame]; rfl

/-- A minor event that is not logged touches only the interrupt controller and the event queue. -/
theorem event_minor (s : State) (c : Nat) (a : EvArgs) (h : evSev c < 2) (hl : evLogged c = false) : event s c a = eventBase s c a := by
  unfold event recordEvent
  simp [h, hl]

/-- Counting non-finite operands touches the bed and, with the first of a step, an event. -/
theorem countNonfin_frame (s : State) (b n : Nat) :
    countNonfin s b n = { s with beds := (countNonfin s b n).beds, ic := (countNonfin s b n).ic, hq := (countNonfin s b n).hq } := by
  unfold countNonfin
  simp only []
  split
  · rfl
  · split
    · rfl
    · rw [event_minor _ _ _ (by decide) (by decide), eventBase_frame]; rfl

theorem countSteer_frame (s : State) (b : Nat) :
    countSteer s b = { s with beds := (countSteer s b).beds, ic := (countSteer s b).ic, hq := (countSteer s b).hq } := by
  unfold countSteer
  simp only []
  split
  · rfl
  · rw [event_minor _ _ _ (by decide) (by decide), eventBase_frame]; rfl

end Sys2Proof.Machine
end

