-- ==== Sys2Proof/Laws/Commands.lean ====
section
/-! SUPPORT. What generating an event and ending a host command leave as they were in the host interface, and what a command's end sets. -/

namespace Sys2Proof.Machine

/-! ## The host interface through an event -/

/-- What an event may change in the host interface: ESEQ, the event queue and the counts of lost records. -/
def Hq.sameBut (x y : Hq) : Prop := y = { x with eseq := y.eseq, evq := y.evq, evlost := y.evlost, lostNow := y.lostNow }

theorem Hq.sameBut_trans {x y z : Hq} (h : Hq.sameBut x y) (k : Hq.sameBut y z) : Hq.sameBut x z := by
  unfold Hq.sameBut at *
  rw [k, h]

theorem raiseSource_hq (s : State) (k : Nat) : (raiseSource s k).hq = s.hq := by rw [raiseSource_frame]
theorem raiseSource_flt (s : State) (k : Nat) : (raiseSource s k).flt = s.flt := by rw [raiseSource_frame]
theorem raiseSource_lk (s : State) (k : Nat) : (raiseSource s k).lk = s.lk := by rw [raiseSource_frame]
theorem raiseSource_cfg (s : State) (k : Nat) : (raiseSource s k).cfg = s.cfg := by rw [raiseSource_frame]
theorem raiseSource_hostOut (s : State) (k : Nat) : (raiseSource s k).hostOut = s.hostOut := by rw [raiseSource_frame]

theorem queueRecord_hq (s : State) (r : EventRec) : Hq.sameBut s.hq (queueRecord s r).hq := by
  unfold queueRecord Hq.sameBut
  simp only []
  split
  · split <;> simp [raiseSource_hq]
  · simp [raiseSource_hq]

theorem eventBase_hq (s : State) (c : Nat) (a : EvArgs) : Hq.sameBut s.hq (eventBase s c a).hq := by
  unfold eventBase
  rw [raiseSource_hq]
  exact Hq.sameBut_trans (by rfl) (queueRecord_hq _ _)

theorem logEntry_hq (s : State) (e : LogEntry) : Hq.sameBut s.hq (logEntry s e).hq := by
  unfold logEntry
  split
  · rw [raiseSource_hq]; rfl
  · split
    · rw [raiseSource_hq]; rfl
    · exact Hq.sameBut_trans (by rfl) (eventBase_hq _ _ _)

theorem recordEvent_hq (s : State) (c : Nat) (a : EvArgs) : Hq.sameBut s.hq (recordEvent s c a).hq := by
  unfold recordEvent
  simp only []
  split
  · exact Hq.sameBut_trans (eventBase_hq _ _ _) (logEntry_hq _ _)
  · exact eventBase_hq _ _ _

theorem abortWith_hq (s : State) (v c : Nat) (n : Snapshot) (ok : Nat → Bool) (f : FrameBody) : (abortWith s v c n ok f).hq = s.hq := by
  rw [abortWith_frame]

theorem event_hq (s : State) (c : Nat) (a : EvArgs) : Hq.sameBut s.hq (event s c a).hq := by
  unfold event
  simp only []
  split
  · exact recordEvent_hq _ _ _
  · rw [abortWith_hq]; exact recordEvent_hq _ _ _

@[simp] theorem event_cur (s : State) (c : Nat) (a : EvArgs) : (event s c a).hq.cur = s.hq.cur := by rw [event_hq s c a]
@[simp] theorem event_kept (s : State) (c : Nat) (a : EvArgs) : (event s c a).hq.kept = s.hq.kept := by rw [event_hq s c a]
@[simp] theorem event_rings (s : State) (c : Nat) (a : EvArgs) : (event s c a).hq.rings = s.hq.rings := by rw [event_hq s c a]
@[simp] theorem event_chans (s : State) (c : Nat) (a : EvArgs) : (event s c a).hq.chans = s.hq.chans := by rw [event_hq s c a]
@[simp] theorem event_ring (s : State) (c : Nat) (a : EvArgs) (n : Nat) : (event s c a).ring n = s.ring n := by simp [State.ring]
@[simp] theorem event_chan (s : State) (c : Nat) (a : EvArgs) (n : Nat) : (event s c a).chan n = s.chan n := by simp [State.chan]
@[simp] theorem event_hostOut (s : State) (c : Nat) (a : EvArgs) : (event s c a).hostOut = s.hostOut := by rw [event_frame]
@[simp] theorem event_sp (s : State) (c : Nat) (a : EvArgs) : (event s c a).sp = s.sp := by rw [event_frame]
@[simp] theorem event_nce (s : State) (c : Nat) (a : EvArgs) : (event s c a).nce = s.nce := by rw [event_frame]
@[simp] theorem event_pp (s : State) (c : Nat) (a : EvArgs) : (event s c a).pp = s.pp := by rw [event_frame]
@[simp] theorem event_pwr (s : State) (c : Nat) (a : EvArgs) : (event s c a).pwr = s.pwr := by rw [event_frame]
@[simp] theorem event_tw (s : State) (c : Nat) (a : EvArgs) : (event s c a).tw = s.tw := by rw [event_frame]
@[simp] theorem event_mbx (s : State) (c : Nat) (a : EvArgs) : (event s c a).mbx = s.mbx := by rw [event_frame]
@[simp] theorem event_glb (s : State) (c : Nat) (a : EvArgs) : (event s c a).glb = s.glb := by rw [event_frame]
@[simp] theorem event_devTime (s : State) (c : Nat) (a : EvArgs) : (event s c a).devTime = s.devTime := by rw [event_frame]
@[simp] theorem event_timeOff (s : State) (c : Nat) (a : EvArgs) : (event s c a).timeOff = s.timeOff := by rw [event_frame]
@[simp] theorem event_free (s : State) (c : Nat) (a : EvArgs) : (event s c a).free = s.free := by rw [event_frame]
@[simp] theorem event_answer (s : State) (c : Nat) (a : EvArgs) : (event s c a).answer = s.answer := by rw [event_frame]
@[simp] theorem event_latches (s : State) (c : Nat) (a : EvArgs) : (event s c a).latches = s.latches := by rw [event_frame]
@[simp] theorem event_sels (s : State) (c : Nat) (a : EvArgs) : (event s c a).sels = s.sels := by rw [event_frame]

/-! ## Events below task-abort -/

/-- An event below task-abort changes the interrupt controller, the host interface and the fault log alone. -/
theorem event_low (s : State) (c : Nat) (a : EvArgs) (h : evSev c < 2) : event s c a =
    { s with ic := (event s c a).ic, hq := (event s c a).hq, flt := (event s c a).flt } := by
  unfold event
  simp only [h, if_true]
  exact recordEvent_frame s c a

/-- A task-abort or device-fatal event brings PACE to ABORTED. -/
theorem event_aborts (s : State) (c : Nat) (a : EvArgs) (h : 2 ≤ evSev c) : (event s c a).pace.state = .aborted := by
  unfold event
  simp only [Nat.not_lt.mpr h, if_false]
  unfold abortWith
  simp only []
  split
  · assumption
  · rfl

/-! ## The end of a host command -/

/-- A completion changes what an event below task-abort changes, and may wait. -/
theorem completion_frame (s : State) (o q : BitVec 16) (t : Nat) (d : Bool) (e : Nat) (i : Word) : completion s o q t d e i =
    { s with ic := (completion s o q t d e i).ic, hq := (completion s o q t d e i).hq, flt := (completion s o q t d e i).flt } := by
  unfold completion
  simp only []
  split
  · exact event_low _ _ _ (by decide)
  · rfl

/-- A completion keeps the command register, the kept command, the rings and the channels. -/
theorem completion_hq (s : State) (o q : BitVec 16) (t : Nat) (d : Bool) (e : Nat) (i : Word) :
    (completion s o q t d e i).hq.cur = s.hq.cur ∧ (completion s o q t d e i).hq.kept = s.hq.kept ∧
    (completion s o q t d e i).hq.rings = s.hq.rings ∧ (completion s o q t d e i).hq.chans = s.hq.chans := by
  unfold completion
  simp only []
  split <;> simp

/-- The end of a command changes the interrupt controller, the host interface and the fault log alone. -/
theorem finishCmd_frame (s : State) (t e : Nat) : finishCmd s t e =
    { s with ic := (finishCmd s t e).ic, hq := (finishCmd s t e).hq, flt := (finishCmd s t e).flt } := by
  unfold finishCmd
  split
  · rfl
  · simp only []
    split
    · rfl
    · rw [completion_frame]

/-- The command under execution ends and its outcome is kept. -/
theorem finishCmd_done (s : State) (t e : Nat) (c : Command) (h : s.hq.cur = some c) :
    (finishCmd s t e).hq.cur = none ∧
    (finishCmd s t e).hq.kept = some { opc := c.opc, seq := c.seq, status := BitVec.ofNat 8 t, evt := BitVec.ofNat 16 e } := by
  unfold finishCmd
  rw [h]
  simp only []
  split
  · exact ⟨rfl, rfl⟩
  · exact ⟨(completion_hq _ _ _ _ _ _ _).1, (completion_hq _ _ _ _ _ _ _).2.1⟩

theorem finishCmd_rings (s : State) (t e : Nat) : (finishCmd s t e).hq.rings = s.hq.rings := by
  unfold finishCmd
  split
  · rfl
  · simp only []
    split
    · rfl
    · exact (completion_hq _ _ _ _ _ _ _).2.2.1

@[simp] theorem finishCmd_pace (s : State) (t e : Nat) : (finishCmd s t e).pace = s.pace := by rw [finishCmd_frame]
@[simp] theorem finishCmd_tiles (s : State) (t e : Nat) : (finishCmd s t e).tiles = s.tiles := by rw [finishCmd_frame]
@[simp] theorem finishCmd_edges (s : State) (t e : Nat) : (finishCmd s t e).edges = s.edges := by rw [finishCmd_frame]
@[simp] theorem finishCmd_cfg (s : State) (t e : Nat) : (finishCmd s t e).cfg = s.cfg := by rw [finishCmd_frame]
@[simp] theorem finishCmd_lk (s : State) (t e : Nat) : (finishCmd s t e).lk = s.lk := by rw [finishCmd_frame]
@[simp] theorem finishCmd_tw (s : State) (t e : Nat) : (finishCmd s t e).tw = s.tw := by rw [finishCmd_frame]
@[simp] theorem finishCmd_sec (s : State) (t e : Nat) : (finishCmd s t e).sec = s.sec := by rw [finishCmd_frame]
@[simp] theorem finishCmd_mc (s : State) (t e : Nat) : (finishCmd s t e).mc = s.mc := by rw [finishCmd_frame]
@[simp] theorem finishCmd_hostOut (s : State) (t e : Nat) : (finishCmd s t e).hostOut = s.hostOut := by rw [finishCmd_frame]
@[simp] theorem finishCmd_devTime (s : State) (t e : Nat) : (finishCmd s t e).devTime = s.devTime := by rw [finishCmd_frame]
@[simp] theorem finishCmd_timeOff (s : State) (t e : Nat) : (finishCmd s t e).timeOff = s.timeOff := by rw [finishCmd_frame]

end Sys2Proof.Machine
end

