-- ==== Sys2Proof/Laws/Firing.lean ====
section
/-! SUPPORT. What the shared parts of a firing do, one lemma each: reading words, consuming, producing, the next index, the count, and
what follows a firing. -/

namespace Sys2Proof.Machine

/-- Undamaged words are read without effect. -/
theorem readWords_good (s : State) (t : Nat) (h : ∀ i, mget 0 (s.tile t).health i = 0) : ∀ l, readWords s t l = (s, []) := by
  intro l
  induction l with
  | nil => rfl
  | cons i r ih => simp only [readWords, h]; exact ih

/-- A core that can fire and is ready commits its firing. -/
theorem fire_ready (s : State) (t : Nat) (k : Kind) (opc : Nat) (ready : GridTile → BitVec 64 → Bool)
    (consts : GridTile → BitVec 64 → List Nat) (plan : State → GridTile → BitVec 64 → List (Nat × Token) → Plan)
    (hc : canFire s t k opc = true) (hr : ready (s.tile t) (s.tile t).instr = true)
    (hw : ∀ i, mget 0 (s.tile t).health i = 0) :
    fire s t k opc ready consts plan =
      commitFiring s t k (plan s (s.tile t) (s.tile t).instr (heads (s.tile t) (s.tile t).instr)) (s.tile t).instr
        (heads (s.tile t) (s.tile t).instr) [] := by
  simp [fire, hc, hr, readWords_good s t hw, wordLost]

/-- A core that cannot fire, or is not ready, waits. -/
theorem fire_waits (s : State) (t : Nat) (k : Kind) (opc : Nat) (ready : GridTile → BitVec 64 → Bool)
    (consts : GridTile → BitVec 64 → List Nat) (plan : State → GridTile → BitVec 64 → List (Nat × Token) → Plan)
    (h : canFire s t k opc = false ∨ ready (s.tile t) (s.tile t).instr = false) : fire s t k opc ready consts plan = s := by
  unfold fire
  rcases h with h | h <;> simp [h]

/-- A held machine lets no core fire. -/
theorem canFire_held (s : State) (t : Nat) (k : Kind) (opc : Nat) (h : s.holding = true) : canFire s t k opc = false := by
  simp [canFire, h]

/-- No faults raise nothing. -/
@[simp] theorem raiseFaults_nil (s : State) (t n : Nat) : raiseFaults s t n [] = s := rfl

/-- A firing with no fault has its whole effect. -/
theorem commitFiring_good (s : State) (t : Nat) (k : Kind) (p : Plan) (w : BitVec 64) (ts : List (Nat × Token))
    (h1 : fabricFaults (s.tile t) w ts = []) (h2 : closingFaults k (s.tile t) p = []) (h3 : p.faults = [])
    (h4 : p.counts = true → quotaFaults (s.tile t) ts = []) :
    commitFiring s t k p w ts [] = afterFiring s t p (firedTile s k p w ts) := by
  have h5 : (if p.counts then quotaFaults (s.tile t) ts else []) = [] := by
    split
    · exact h4 (by assumption)
    · rfl
  simp [commitFiring, firedTile, h1, h2, h3, h5]

/-- A firing with a fault raises its faults and leaves the tiles as they were. -/
theorem raiseFaults_tiles (s : State) (t n : Nat) (fs : List FireFault) : (raiseFaults s t n fs).tiles = s.tiles := by
  unfold raiseFaults
  generalize sortBy (fun a => a.code * 2 ^ 64 + a.addr) fs = l
  induction l generalizing s with
  | nil => rfl
  | cons f r ih => rw [List.foldl_cons, ih]; simp

/-! ## Consuming and producing -/

/-- Consuming changes the input buffers, the markers passed and the note that a token came. -/
theorem consume_frame (ts : List (Nat × Token)) : ∀ g : GridTile, consume g ts =
    { g with inb := (consume g ts).inb, passed := (consume g ts).passed, hiMark := (consume g ts).hiMark
             tokUsed := (consume g ts).tokUsed } := by
  induction ts with
  | nil => intro g; rfl
  | cons x r ih => intro g; unfold consume at ih ⊢; rw [List.foldl_cons, ih]

/-- A port from which nothing is consumed keeps its tokens. -/
theorem consume_inb_other (ts : List (Nat × Token)) (p : Nat) (h : ∀ x ∈ ts, x.1 ≠ p) :
    ∀ g : GridTile, mget [] (consume g ts).inb p = mget [] g.inb p := by
  induction ts with
  | nil => intro g; rfl
  | cons x r ih =>
    intro g
    have hx := h x (by simp)
    unfold consume at ih ⊢
    rw [List.foldl_cons, ih fun y hy => h y (by simp [hy])]
    exact mget_mset_other _ _ _ _ _ _ (Ne.symm hx)

/-- A port from which one token is consumed loses its head. -/
theorem consume_inb (ts : List (Nat × Token)) (p : Nat) (h1 : ∃ x ∈ ts, x.1 = p) (h2 : (ts.map fun x => x.1).Nodup) :
    ∀ g : GridTile, mget [] (consume g ts).inb p = (mget [] g.inb p).drop 1 := by
  induction ts with
  | nil => simp at h1
  | cons x r ih =>
    intro g
    simp only [List.map_cons, List.nodup_cons, List.mem_map, not_exists, not_and] at h2
    unfold consume at ih ⊢
    rw [List.foldl_cons]
    by_cases hx : x.1 = p
    · have := consume_inb_other r p (fun y hy e => h2.1 y hy (e.trans hx.symm))
      unfold consume at this
      rw [this]
      simp [hx]
    · obtain ⟨y, hy, e⟩ := h1
      have hy' : y ∈ r := by
        rcases List.mem_cons.mp hy with h | h
        · exact absurd (h ▸ e) hx
        · exact h
      rw [ih ⟨y, hy', e⟩ h2.2]
      rw [mget_mset_other _ _ _ _ _ _ (Ne.symm hx)]

/-- Producing changes the pipelines alone. -/
theorem produce_frame (out : List (Nat × List Token)) : ∀ g : GridTile, produce g out = { g with pipe := (produce g out).pipe } := by
  induction out with
  | nil => intro g; rfl
  | cons x r ih => intro g; unfold produce at ih ⊢; rw [List.foldl_cons, ih]

/-- A port's pipeline gains the tokens of the port, in their order. -/
theorem produce_pipe (out : List (Nat × List Token)) (p : Nat) : ∀ g : GridTile,
    mget [] (produce g out).pipe p = mget [] g.pipe p ++ (out.filter fun x => x.1 == p).flatMap fun x => x.2 := by
  induction out with
  | nil => intro g; simp [produce]
  | cons x r ih =>
    intro g
    unfold produce at ih ⊢
    rw [List.foldl_cons, ih]
    by_cases hx : x.1 = p
    · simp [hx]
    · rw [mget_mset_other _ _ _ _ _ _ (Ne.symm hx)]
      simp [hx]

/-- What a core's pipelines hold beyond its depth waits in the firing. -/
theorem spill_frame (d : Nat) (g : GridTile) : spill d g = { g with pipe := (spill d g).pipe, rest := (spill d g).rest } := by
  unfold spill
  split <;> rfl

/-- Pipelines within the depth stay as they are. -/
theorem spill_fits (d : Nat) (g : GridTile) (h : (g.pipe.all fun p => decide (p.2.length ≤ d)) = true) : spill d g = g := by
  simp only [spill, h, if_true]

/-- The ports of the tokens a firing consumes. -/
theorem heads_ports (g : GridTile) (w : BitVec 64) : ((heads g w).map fun x => x.1).Sublist (maskPorts (iIn w)) := by
  unfold heads
  generalize maskPorts (iIn w) = l
  induction l with
  | nil => simp
  | cons p r ih =>
    cases h : (mget [] g.inb p).head? with
    | none => simp only [List.filterMap_cons, h, Option.map_none]; exact ih.cons p
    | some u => simp only [List.filterMap_cons, h, Option.map_some, List.map_cons]; exact ih.cons_cons p

/-- No port is consumed from twice. -/
theorem heads_nodup (g : GridTile) (w : BitVec 64) : ((heads g w).map fun x => x.1).Nodup :=
  ((List.nodup_range).filter _).sublist (heads_ports g w)

/-! ## The next index and the count -/

theorem advance_frame (g : GridTile) (w : BitVec 64) (m : Marker) (j : Option (BitVec 8)) : advance g w m j =
    { g with pc := (advance g w m j).pc, rep := (advance g w m j).rep, halted := (advance g w m j).halted } := by
  unfold advance
  cases j with
  | some i => rfl
  | none =>
    simp only []
    split
    · rfl
    · split
      · rfl
      · split
        · rfl
        · split <;> rfl

theorem countFiring_frame (g : GridTile) (c : Bool) : countFiring g c =
    { g with fired := (countFiring g c).fired, parked := (countFiring g c).parked } := by
  unfold countFiring
  split <;> rfl

/-! ## After a firing -/

/-- On tiles with nothing to do at park and with no warnings, what follows a firing sets the tile, and touches bed counters, sources
and events beside it. -/
theorem afterFiring_frame (s : State) (t : Nat) (p : Plan) (g : GridTile) (hk : tileKind t ≠ .q) (hs : tileKind t ≠ .s)
    (hw : p.warns = []) :
    afterFiring s t p g = { s.setTile t g with
      beds := (afterFiring s t p g).beds, ic := (afterFiring s t p g).ic, hq := (afterFiring s t p g).hq } := by
  have hp : ∀ (x : State) (i : Nat), parkHook x t i = x := by
    intro x i
    unfold parkHook
    cases h : tileKind t <;> simp_all
  have hr : ∀ x : State, raiseWarns x t p.warns = x := by intro x; simp [raiseWarns, hw]
  unfold afterFiring
  simp only [hp, hr, ite_self]
  cases p.steer
  · simp only [Bool.false_eq_true, if_false]
    rw [countNonfin_frame]
  · simp only [if_true]
    rw [countSteer_frame, countNonfin_frame]
    rfl

end Sys2Proof.Machine
end

