-- ==== Sys2Proof/Laws/Rows.lean ====
section
/-! SUPPORT. What a command that is a register access does: its effect where the register answers, a violation and nothing else where not. -/

namespace Sys2Proof.Machine

/-- A violation of code 0x0101, 0x0102, 0x0103 or 0x0104 is minor, and is recorded (R435). -/
theorem violate_frame (s : State) (v : Violation) (h : evSev v.code < 2) : violate s v =
    { s with glb := { s.glb with
               violAddr := BitVec.ofNat 36 v.addr, violSpace := BitVec.ofNat 2 v.space, violReq := BitVec.ofNat 20 v.req
               violCode := BitVec.ofNat 16 v.code, violCnt := satInc s.glb.violCnt }
             hq := (violate s v).hq, ic := (violate s v).ic, flt := (violate s v).flt } := by
  unfold violate
  rw [event_low _ _ _ h]

theorem violateReg_frame (s : State) (a : Agent) (code off : Nat) (w : Bool) (h : evSev code < 2) : violateReg s a code off w =
    { s with glb := { s.glb with
               violAddr := BitVec.ofNat 36 off, violSpace := BitVec.ofNat 2 (agentSpace a), violReq := BitVec.ofNat 20 (agentReq a)
               violCode := BitVec.ofNat 16 code, violCnt := satInc s.glb.violCnt }
             hq := (violateReg s a code off w).hq, ic := (violateReg s a code off w).ic, flt := (violateReg s a code off w).flt } :=
  violate_frame s _ h

theorem rowWrite_open (s : State) (off : Nat) (f : State → State) (h : rowOpen s off true = true) : rowWrite s off f = f s := by
  simp [rowWrite, h]

theorem rowWrite_shut (s : State) (off : Nat) (f : State → State) (h : rowOpen s off true = false) :
    rowWrite s off f = violateReg s.drawFree.2 (.host (s.drawFree.1.truncate 16)) 0x0102 off true := by
  simp [rowWrite, h]

theorem rowAccess_open (s : State) (a : Agent) (off : Nat) (w : Bool) (f : State → State) (ha : agentReaches s a off = true)
    (h : rowOpen s off w = true) : rowAccess s a off w f = f s := by
  simp [rowAccess, ha, h]

theorem rowAccess_unreached (s : State) (a : Agent) (off : Nat) (w : Bool) (f : State → State) (ha : agentReaches s a off = false) :
    rowAccess s a off w f = s := by
  simp [rowAccess, ha]

theorem rowAccess_shut (s : State) (a : Agent) (off : Nat) (w : Bool) (f : State → State) (ha : agentReaches s a off = true)
    (h : rowOpen s off w = false) : rowAccess s a off w f =
      if w then violateReg s a 0x0102 off w else { violateReg s a 0x0102 off w with answer := abortAnswer a } := by
  simp [rowAccess, ha, h]

theorem rowFirmware_open (s : State) (off : Nat) (f : State → State) (hc : s.sec.cores ≠ 0) (h : rowOpen s off true = true) :
    rowFirmware s off f = f s := by
  have c : (s.sec.cores != 0) = true := by rw [bne_iff_ne]; exact hc
  simp only [rowFirmware, c, h, Bool.and_self, if_true]

end Sys2Proof.Machine
end

