-- ==== Sys2Proof/Machine/Pins.lean ====
section
/-! DEFINITION. What the device drives on its system and AON output pins (22, R456, Table PIN-8), read off the state. -/

namespace Sys2Proof.Machine

/-- The output pins of Table PIN-8. -/
inductive Pin where
  | supSel | twFenceN | avsClk | avsMdata | pmbAlertN | pmbSda | spiCsN | spiClk | uartTx | tdo
  | spXoffN (k : Fin 8)
deriving DecidableEq, Repr

/-- What a pin is driven with: a level, nothing, or the traffic of its bus. -/
inductive Drive where
  | low | high | off | bus
deriving DecidableEq, Repr

/-- A level. -/
def driveOf (b : Bool) : Drive := if b then .high else .low

/-- An open-drain output: pulled low, or nothing. -/
def openDrain (low : Bool) : Drive := if low then .low else .off

/-- Does the ROM or firmware drive the pins: neither does until MP0 runs the ROM (R456)? -/
def State.pinsDriven (s : State) : Bool := s.sec.cores != 0

/-- XOFF_N of a sensor port (R311): high-impedance until the port is first driven; push-pull, or open-drain where XOD is 1. -/
def xoffDrive (p : SensorPort) : Drive := if p.state == .off then .off else if p.xod then openDrain p.xoff else driveOf (!p.xoff)

/-- What a pin is driven with. SUP_SEL is PD0's whatever the resets (R450); the AVSBus pair is low with no transfer under way; TDO is
high-impedance when not shifting. -/
def pinDrive (s : State) (p : Pin) : Drive :=
  match p with
  | .supSel => driveOf s.pwr.selB
  | .twFenceN => openDrain (s.pinsDriven && s.tw.fence)
  | .avsClk | .avsMdata => if s.pinsDriven && s.pwr.wrOut.isSome then .bus else .low
  | .pmbAlertN => openDrain (s.pinsDriven && s.pwr.thr)
  | .pmbSda => .off
  | .spiCsN => if s.sec.romRunning then .bus else .high
  | .spiClk => if s.sec.romRunning then .bus else .off
  | .uartTx => .high
  | .tdo => .off
  | .spXoffN k => xoffDrive (s.sport k)

end Sys2Proof.Machine
end

