-- ==== Sys2Proof/Tests/Slice0.lean ====
section
/-! SUPPORT. The model's own tests: what WellFormed refuses, small steps worked out from the spec by hand, and for every statement's hypotheses a state and operands that meet them. -/

namespace Sys2Proof.Tests

set_option Elab.async false

open Sys2Proof Sys2Proof.Machine Sys2Proof.Claims

/-! ## Helpers -/

/-- An instruction word from its fields (Table TRL-9). -/
def word (opc ins outs opnd : Nat) (rep : Nat := 0) (bubm : Nat := 0) (seq : Nat := 0) (jmp : Nat := 0) : BitVec 64 :=
  BitVec.ofNat 64 (opc * 2 ^ 56 + ins * 2 ^ 52 + outs * 2 ^ 48 + rep * 2 ^ 32 + bubm * 2 ^ 28 + jmp * 2 ^ 20 + seq * 2 ^ 18 + opnd)

/-- A released core at index 0 with one instruction, constants and tokens waiting. -/
def core (w : BitVec 64) (consts : List (Nat × Nat) := []) (inb : AMap (List Token) := []) : GridTile :=
  { words := (0, w) :: consts.map fun c => (257 + c.1, BitVec.ofNat 64 c.2), inReset := false, parked := false, inb := inb }

/-- The device after reset but for one tile. -/
def oneTile (t : Nat) (g : GridTile) : State := { State.reset with tiles := [(t, g)] }

/-- A token of FP16 lanes 1.0 to 1.0. -/
def ones : Token := mkToken (mkPayload 16 (List.replicate 8 0x3C00)) .none 0 5

/-- A frame of good CRC that is next in order on a port that has received none. -/
def hdr : FrameHdr := { crcGood := true, seq := 0, ack := 0xFFFF, cretVc := 7, cret := 3, step := 9 }

theorem stands_of (s : State) (t : Fin 1024) (k : Kind) (opc : Nat)
    (h : (canFire s t k opc && (s.tile t).badParity.isEmpty && (fabricFaults (s.tile t) (s.tile t).instr (firing s t)).isEmpty) = true)
    (h2 : (s.tile t).health = []) : Stands s t k opc := by
  simp only [Bool.and_eq_true, List.isEmpty_iff] at h
  exact ⟨h.1.1, fun i => by rw [h2]; rfl, h.1.2, h.2⟩

theorem closes_of (s : State) (t : Fin 1024) (c : Bool) (h : completing (s.tile t) = false) : closesOk s t c :=
  fun h' => absurd (h.symm.trans h') (by decide)

/-- A core that fires well before its quota is complete. -/
theorem stood (s : State) (t : Fin 1024) (k : Kind) (opc : Nat)
    (h : (canFire s t k opc && (s.tile t).badParity.isEmpty && (fabricFaults (s.tile t) (s.tile t).instr (firing s t)).isEmpty &&
      (quotaFaults (s.tile t) (firing s t)).isEmpty && !completing (s.tile t)) = true)
    (h2 : (s.tile t).health = []) : Stands s t k opc ∧ quotaMet s t ∧ ∀ c, closesOk s t c := by
  simp only [Bool.and_eq_true, List.isEmpty_iff, Bool.not_eq_true'] at h
  exact ⟨⟨h.1.1.1.1, fun i => by rw [h2]; rfl, h.1.1.1.2, h.1.1.2⟩, h.1.2, fun c => closes_of s t c h.2⟩

theorem whole_of (g : GridTile) (h : g.s.queues = []) (h2 : g.s.deferred = []) : QueuesWhole g :=
  ⟨fun q => by simp [GridTile.queue, h, mget, ptrDiff], fun q => by simp [GridTile.queue, h, mget], h2⟩

/-- The same with one queue listed. -/
theorem whole_one (g : GridTile) (k : Nat) (x : Queue) (h : g.s.queues = [(k, x)]) (h1 : ptrDiff x = none) (h3 : x.froz = false)
    (h2 : g.s.deferred = []) : QueuesWhole g :=
  ⟨fun q => by by_cases c : k = q <;> simp [GridTile.queue, h, mget, c, h1]; simp [ptrDiff],
   fun q => by by_cases c : k = q <;> simp [GridTile.queue, h, mget, c, h3], h2⟩

/-! ## WellFormed: one ill-formed command for each check -/

theorem test_wf_commandFetch : Instr.wf (.commandFetch (.ok (List.replicate 63 0))) = false := by decide
theorem test_wf_hostStreamFetch : Instr.wf (.hostStreamFetch 0 (.ok (List.replicate 31 0))) = false := by decide
theorem test_wf_registerWrite : Instr.wf (.registerWrite { agent := .dbg, offset := 0x4000000, ndw := 1, be := 15, data := 0 }) = false := by decide
theorem test_wf_loReadLatch : Instr.wf (.loReadLatch { agent := .dbg, offset := 0, ndw := 1025, be := 15, data := 0 }) = false := by decide
theorem test_wf_bar2Read : Instr.wf (.bar2Read 0 4097 .good 0) = false := by decide
theorem test_wf_bar2Write : Instr.wf (.bar2Write 0 [] false 0) = false := by decide
theorem test_wf_tokenFrame : Instr.wf (.tokenFrame 0 hdr 0 []) = false := by decide
theorem test_wf_msgFrame : Instr.wf (.msgFrame 0 hdr (List.replicate 17 0)) = false := by decide
theorem test_wf_hello : Instr.wf (.hello 0 hdr { secmap := [] } 0) = false := by decide
theorem test_wf_firmwareVerify : Instr.wf (.firmwareVerify { answering := true, sfdp := none, dirOk := true, bytes := [0] }) = false := by decide
theorem test_ill_formed_stops : exec (.bar2Write 0 [] false 0) State.reset = .fault .illFormed := by rfl

/-! ## The block -/

theorem wit_step_runs_front : (∃ s c r, State.pending s = c :: r) ∧ ∃ s : State, s.pending = [] :=
  ⟨⟨{ State.reset with pending := [.hqClrstat] }, .hqClrstat, [], rfl⟩, ⟨State.reset, rfl⟩⟩

theorem wit_step_keeps_memory : ∃ s t : State, memoryWf s.mc.mem = true ∧ step s = .next t := ⟨State.reset, State.reset, by decide, rfl⟩

theorem wit_only_burns : ∃ t, (∀ ok n, Instr.hqClrstat ≠ .burnComplete ok n) ∧ exec .hqClrstat State.reset = .next t :=
  ⟨_, fun _ _ h => Instr.noConfusion h, rfl⟩

/-! ## The fabric (02) -/

theorem wit_held : ∃ s : State, s.holding = true ∧ coreOf (.mac 1) = some 1 :=
  ⟨{ State.reset with pace := { swhold := true, req := 0x40 } }, by decide, rfl⟩

/-- Tile 1 with a token in the buffer of OP0, which tile 2's west track selects: IP0 of tile 2 takes it. -/
def forked : State :=
  { State.reset with
    cfg := { stage := 3 }
    tiles := [(1, { (core 0) with words := [(256, BitVec.ofNat 64 (9 * 2 ^ 8))], outb := [(0, [ones])] }),
              (2, { (core 0) with words := [(256, BitVec.ofNat 64 (7 * 2 ^ 32 + 7 * 2 ^ 36))] })] }

theorem wit_slot_forks : destsOf forked (.op 1 0) = [.ip 2 0, .ip 2 1] ∧ slotToks forked (.op 1 0) = [ones] ∧
    slotAcked forked (.op 1 0) = [] ∧ destRoom forked (.ip 2 0) = true ∧ forked.cfg.stage ≠ 0 ∧ forked.cfg.stage ≠ 15 := by
  decide +kernel

theorem wit_slot_empties : ∃ s : State, slotToks s (.op 1 0) = [ones] ∧ slotAcked s (.op 1 0) = [.ip 2 0] ∧ destRoom s (.ip 2 1) = true ∧
    (∀ x ∈ destsOf s (.op 1 0), x = .ip 2 1 ∨ x ∈ slotAcked s (.op 1 0)) :=
  ⟨setAcked forked (.op 1 0) [.ip 2 0], by decide +kernel⟩

theorem wit_core_emits : ∃ s : State, s.cfg.stage ≠ 0 ∧ s.cfg.stage ≠ 15 ∧ mget [] (s.tile 1).pipe 3 = [ones] ∧
    mget [] (s.tile 1).outb 3 = [] :=
  ⟨{ oneTile 1 { (core 0) with pipe := [(3, [ones])] } with cfg := { stage := 1 } }, by decide +kernel⟩

theorem wit_nop : let s := oneTile 1 (core (word 0 1 1 0) [] [(0, [ones])])
    Stands s 1 (tileKind 1) 0 ∧ tileKind 1 ≠ .s ∧ nopRoom s (tileKind 1) (s.tile 1) (s.tile 1).instr = true ∧ quotaMet s 1 ∧
    closesOk s 1 false :=
  ⟨stands_of _ _ _ _ (by decide +kernel) (by decide +kernel), by decide, by decide +kernel, by unfold quotaMet; decide +kernel,
   closes_of _ _ _ (by decide +kernel)⟩

theorem test_fork_keeps_token : (slotMove forked (.capture (.op 1 0) (.ip 2 0))).tile 1 = { forked.tile 1 with acked := [(0, [.ip 2 0])] } := by
  decide +kernel

/-! ## M tiles (05): tile 1 -/

/-- A layer of 8 channels and 32 elements, INT4 codes, group 32: A has WF 0, G 0, NCH 8, K 32. -/
def layer : Nat := 7 * 2 ^ 38 + 31 * 2 ^ 24

/-- A MAC with FLIP at its only repeat. -/
def macTile : State := oneTile 1 (core (word 1 1 0 0x100) [(0, layer)] [(0, [ones])])

theorem wit_mac : Stands macTile 1 .m 1 ∧ quotaMet macTile 1 ∧ mReady (macTile.tile 1) (macTile.tile 1).instr = true ∧
    closesOk macTile 1 (isFlip (macTile.tile 1) (macTile.tile 1).instr) :=
  ⟨stands_of _ _ _ _ (by decide +kernel) (by decide +kernel), by unfold quotaMet; decide +kernel, by decide +kernel,
   closes_of _ _ _ (by decide +kernel)⟩

theorem wit_seed : let s := oneTile 1 (core (word 2 4 0 0 1) [(0, layer)] [(2, [ones])])
    Stands s 1 .m 2 ∧ quotaMet s 1 ∧ mReady (s.tile 1) (s.tile 1).instr = true ∧ closesOk s 1 (isFlip (s.tile 1) (s.tile 1).instr) :=
  ⟨stands_of _ _ _ _ (by decide +kernel) (by decide +kernel), by unfold quotaMet; decide +kernel, by decide +kernel,
   closes_of _ _ _ (by decide +kernel)⟩

theorem wit_drain : let s := oneTile 1 { (core 0) with m := { drain := { toks := [ones] } } }
    tileKind (1 : Fin 1024) = .m ∧ (s.tile 1).inReset = false ∧ s.holding = false ∧ roomAll s.adr .m (s.tile 1) 1 = true ∧
    (s.tile 1).m.drain.toks = [ones] := by
  decide +kernel

theorem wit_ldc : let s := oneTile 1 (core (word 3 2 0 0) [(0, layer)] [(1, [ones])])
    Stands s 1 .m 3 ∧ quotaMet s 1 ∧ closesOk s 1 false ∧ loadChannel (s.tile 1).instr = false :=
  ⟨stands_of _ _ _ _ (by decide +kernel) (by decide +kernel), by unfold quotaMet; decide +kernel, closes_of _ _ _ (by decide +kernel),
   by decide +kernel⟩

theorem wit_lds : let s := oneTile 1 (core (word 4 8 0 0) [(0, layer)] [(3, [ones])])
    Stands s 1 .m 4 ∧ quotaMet s 1 ∧ closesOk s 1 false ∧ loadChannel (s.tile 1).instr = false :=
  ⟨stands_of _ _ _ _ (by decide +kernel) (by decide +kernel), by unfold quotaMet; decide +kernel, closes_of _ _ _ (by decide +kernel),
   by decide +kernel⟩

theorem wit_kctl : let s := oneTile 1 (core (word 5 0 0 (7 + 128 * 16)))
    Stands s 1 .m 5 ∧ iIn (s.tile 1).instr = 0 ∧ quotaMet s 1 ∧ closesOk s 1 false :=
  ⟨stands_of _ _ _ _ (by decide +kernel) (by decide +kernel), by decide +kernel, by unfold quotaMet; decide +kernel,
   closes_of _ _ _ (by decide +kernel)⟩

theorem wit_kctl_refused : iOpc (word 5 0 0 0 1) = 5 ∧ iRep (word 5 0 0 0 1) ≠ 0 ∧ word 5 0 0 0 1 ∈ [word 5 0 0 0 1] := by decide +kernel

theorem test_kctl : (mget 0 ((kctlFire (oneTile 1 (core (word 5 0 0 (7 + 128 * 16)))) 1).tile 1).m.kc 7) = 128 := by decide +kernel

/-- A word with MODE set is a channel load; the counter of the layer stands at its 8 channels. -/
def fullLoad (opc ins p : Nat) : State :=
  oneTile 1 { (core (word opc ins 0 0x80) [(0, layer)] [(p, [ones])]) with m := { kc := [(0, 8)] } }

theorem wit_channel_faults : (∃ s : State, canFire s 1 .m 3 = true ∧ loadChannel (s.tile 1).instr = true ∧ (∀ i, mget 0 (s.tile 1).health i = 0) ∧
      (mDesc (s.tile 1) (s.tile 1).instr).nch ≤ mget 0 (s.tile 1).m.kc (mDesc (s.tile 1) (s.tile 1).instr).ksel) ∧
    (∃ s : State, canFire s 1 .m 4 = true ∧ loadChannel (s.tile 1).instr = true ∧ (∀ i, mget 0 (s.tile 1).health i = 0) ∧
      mget none (s.tile 1).m.tag (mDesc (s.tile 1) (s.tile 1).instr).ksel = some 4 ∧ (4 : BitVec 4) ≠ (tokAt (firing s 1) 3).bseq) :=
  ⟨⟨fullLoad 3 2 1, by decide +kernel, by decide +kernel, fun _ => rfl, by decide +kernel⟩,
   ⟨oneTile 1 { (core (word 4 8 0 0x80) [(0, layer)] [(3, [ones])]) with m := { tag := [(0, some 4)] } },
    by decide +kernel, by decide +kernel, fun _ => rfl, by decide +kernel, by decide +kernel⟩⟩

/-! ## Q tiles (06): tile 67 -/

/-- A descriptor A of blocks of 32 FP16 elements, rotated with NORM 1, FP16 out; of transport format QF. -/
def qd (qf : Nat := 0) (nb : Nat := 1) (nch : Nat := 1) : Nat :=
  qf * 2 ^ 58 + 2 ^ 55 + 2 ^ 53 + (nb - 1) * 2 ^ 42 + (nch - 1) * 2 ^ 35

/-- A Q tile at the closing firing of a block. -/
def qTile (opc ins outs d : Nat) (rep : Nat := 3) : GridTile :=
  { (core (word opc ins outs 0 rep) [(0, d)] [(0, [ones]), (1, [ones])]) with rep := rep }

theorem wit_rot : let s := oneTile 67 (qTile 1 1 1 (qd))
    (Stands s 67 .q 1 ∧ quotaMet s 67 ∧ ∀ c, closesOk s 67 c) ∧ rotReady s (s.tile 67) (s.tile 67).instr = true ∧
    blockCloses (s.tile 67) (qDesc (s.tile 67) (s.tile 67).instr) = true :=
  ⟨stood _ _ _ _ (by decide +kernel) (by decide +kernel), by decide +kernel, by decide +kernel⟩

theorem wit_kvq : let s := oneTile 67 (qTile 2 1 3 (qd))
    (Stands s 67 .q 2 ∧ quotaMet s 67 ∧ ∀ c, closesOk s 67 c) ∧ kvqReady s (s.tile 67) (s.tile 67).instr = true ∧
    vectorEnds (s.tile 67) (qDesc (s.tile 67) (s.tile 67).instr) = true :=
  ⟨stood _ _ _ _ (by decide +kernel) (by decide +kernel), by decide +kernel, by decide +kernel⟩

theorem wit_dsc : let s := oneTile 67 (qTile 3 2 0 (qd 2 1 8) 0)
    (Stands s 67 .q 3 ∧ quotaMet s 67 ∧ ∀ c, closesOk s 67 c) ∧ (s.tile 67).rep = 0 :=
  ⟨stood _ _ _ _ (by decide +kernel) (by decide +kernel), by decide +kernel⟩

theorem wit_deq : let s := oneTile 67 { (qTile 4 1 1 (qd 3 1 16) 0) with q := { rt := some 5 } }
    (Stands s 67 .q 4 ∧ quotaMet s 67 ∧ ∀ c, closesOk s 67 c) ∧ deqReady s (s.tile 67) (s.tile 67).instr = true ∧
    (qDesc (s.tile 67) (s.tile 67).instr).transport = true ∧ (s.tile 67).q.rt = some (tokAt (firing s 67) 0).bseq :=
  ⟨stood _ _ _ _ (by decide +kernel) (by decide +kernel), by decide +kernel⟩

theorem wit_sco : let s := oneTile 67 (qTile 5 0 2 (qd 2 1 8) 0)
    (Stands s 67 .q 5 ∧ quotaMet s 67 ∧ ∀ c, closesOk s 67 c) ∧ roomAll s.adr .q (s.tile 67) (iOut (s.tile 67).instr) = true :=
  ⟨stood _ _ _ _ (by decide +kernel) (by decide +kernel), by decide +kernel⟩

theorem wit_qnt : let s := oneTile 67 (qTile 6 1 1 (qd 3 1 16) 1)
    (Stands s 67 .q 6 ∧ quotaMet s 67 ∧ ∀ c, closesOk s 67 c) ∧ qntReady s (s.tile 67) (s.tile 67).instr = true ∧
    qntProduces (s.tile 67) (qDesc (s.tile 67) (s.tile 67).instr) = true :=
  ⟨stood _ _ _ _ (by decide +kernel) (by decide +kernel), by decide +kernel⟩

theorem wit_tag : let s := oneTile 67 (core (word 7 0 0 15))
    Stands s 67 .q 7 ∧ quotaMet s 67 ∧ ∀ c, closesOk s 67 c :=
  stood _ _ _ _ (by decide +kernel) (by decide +kernel)

theorem wit_scale_skew : (∃ s : State, canFire s 67 .q 3 = true ∧ (∀ i, mget 0 (s.tile 67).health i = 0) ∧ (s.tile 67).rep ≠ 0 ∧
      (s.tile 67).q.rt ≠ some (tokAt (firing s 67) 1).bseq) ∧
    (∃ s : State, canFire s 67 .q 4 = true ∧ (∀ i, mget 0 (s.tile 67).health i = 0) ∧ deqReady s (s.tile 67) (s.tile 67).instr = true ∧
      (s.tile 67).q.rt ≠ some (tokAt (firing s 67) 0).bseq) :=
  ⟨⟨oneTile 67 (qTile 3 2 0 (qd 2 1 8) 1), by decide +kernel, fun _ => rfl, by decide +kernel, by decide +kernel⟩,
   ⟨oneTile 67 (qTile 4 1 1 (qd 3 1 16) 0), by decide +kernel, fun _ => rfl, by decide +kernel, by decide +kernel⟩⟩

/-! ## S tiles (07): tile 0 -/

/-- Queue 2 with its region of 4 slots at slot 0, in FIFO mode, and where it stands. -/
def sTile (w : BitVec 64) (p : Ptrs) (inb : AMap (List Token) := []) : GridTile :=
  { (core w [(112, 2 * 2 ^ 39), (126, 3 + 3 * 2 ^ 20)] inb) with
    s := { queues := [(2, { a := p, b := p })]
           store := [(0, { tok := ones, chk := sideParity ones }), (2, { tok := ones, chk := !sideParity ones })] } }

/-- With FP = RP = 0 and two tokens in the queue. -/
def two2 : Ptrs := { wp := 2 }

def sDev (g : GridTile) : State := { oneTile 0 g with cfg := { stage := 2 } }

theorem sWhole (w : BitVec 64) (p : Ptrs) (inb : AMap (List Token)) : QueuesWhole (sTile w p inb) :=
  whole_one _ 2 { a := p, b := p } rfl (by simp [ptrDiff]) rfl rfl

theorem wit_push : let s := sDev (sTile (word 1 1 0 2) two2 [(0, [ones])])
    StandsS s 0 1 ∧ 2 ≤ s.cfg.stage.toNat ∧ 0 < ((s.tile 0).queue (instrQueue (s.tile 0).instr)).free ((s.tile 0).qdesc (instrQueue (s.tile 0).instr)) ∧
    mget 0 (atBeat s 0 5 [2]).s.bankUse 0 < 2 :=
  have h := stood (sDev (sTile (word 1 1 0 2) two2 [(0, [ones])])) 0 .s 1 (by decide +kernel) (by decide +kernel)
  ⟨⟨h.1, h.2.1, sWhole _ _ _⟩, by decide +kernel, by decide +kernel, by decide +kernel⟩

/-- Both accesses of bank 0 are used up in the beat: a push defers its write. -/
theorem wit_push_defers : ∃ s : State, 2 ≤ mget 0 (atBeat s 0 5 [2]).s.bankUse (slotBank 0) :=
  ⟨sDev { (sTile (word 1 1 0 2) two2) with s := { bankUse := [(0, 2)], beatRank := 4 } }, by decide +kernel⟩

theorem wit_pop : let s := sDev (sTile (word 2 0 1 2) two2)
    StandsS s 0 2 ∧ 0 < ((s.tile 0).queue 2).avl ∧ instrQueue (s.tile 0).instr = 2 ∧ sRoom s (s.tile 0) (s.tile 0).instr = true ∧
    slotOk (slotAt (s.tile 0) 0) = true ∧ mget 0 (atBeat s 0 5 [2]).s.bankUse 0 < 2 :=
  have h := stood (sDev (sTile (word 2 0 1 2) two2)) 0 .s 2 (by decide +kernel) (by decide +kernel)
  ⟨⟨h.1, h.2.1, sWhole _ _ _⟩, by decide +kernel, by decide +kernel, by decide +kernel, by decide +kernel, by decide +kernel⟩

theorem wit_pop_bad_slot : let s := sDev (sTile (word 2 0 1 2) { wp := 3, rp := 2, fp := 2 })
    StandsS s 0 2 ∧ 0 < ((s.tile 0).queue 2).avl ∧ sRoom s (s.tile 0) (s.tile 0).instr = true ∧ slotOk (slotAt (s.tile 0) 2) = false ∧
    mget 0 (atBeat s 0 5 [2]).s.bankUse 0 < 2 :=
  have h := stood (sDev (sTile (word 2 0 1 2) { wp := 3, rp := 2, fp := 2 })) 0 .s 2 (by decide +kernel) (by decide +kernel)
  ⟨⟨h.1, h.2.1, sWhole _ _ _⟩, by decide +kernel, by decide +kernel, by decide +kernel, by decide +kernel⟩

/-- MARK, UNMARK, REWIND with a mark, SKIP of all that is there, RELEASE of all and of one. -/
theorem wit_queue_control :
    (let s := sDev (sTile (word 4 0 0 2) two2); Stands s 0 .s 4 ∧ quotaMet s 0 ∧ QueuesWhole (s.tile 0)) ∧
    (let s := sDev (sTile (word 5 0 0 2) two2); Stands s 0 .s 5 ∧ quotaMet s 0 ∧ QueuesWhole (s.tile 0)) ∧
    (let s := sDev (sTile (word 6 0 0 2) { wp := 2, rp := 1, mv := true })
     Stands s 0 .s 6 ∧ quotaMet s 0 ∧ QueuesWhole (s.tile 0) ∧ ((s.tile 0).queue 2).a.mv = true) ∧
    (let s := sDev (sTile (word 7 0 0 (2 + 2 * 16)) two2)
     Stands s 0 .s 7 ∧ quotaMet s 0 ∧ QueuesWhole (s.tile 0) ∧ instrN (s.tile 0).instr = ((s.tile 0).queue 2).avl) ∧
    (let s := sDev (sTile (word 8 0 0 2) { wp := 2, rp := 1 })
     Stands s 0 .s 8 ∧ quotaMet s 0 ∧ QueuesWhole (s.tile 0) ∧ instrN (s.tile 0).instr = 0) ∧
    (let s := sDev (sTile (word 8 0 0 (2 + 16)) { wp := 2, rp := 1 })
     Stands s 0 .s 8 ∧ quotaMet s 0 ∧ QueuesWhole (s.tile 0) ∧ instrN (s.tile 0).instr = dist (releaseLimit ((s.tile 0).queue 2).a) 0 ∧
     instrN (s.tile 0).instr = 1) :=
  ⟨have h := stood (sDev (sTile (word 4 0 0 2) two2)) 0 .s 4 (by decide +kernel) (by decide +kernel); ⟨h.1, h.2.1, sWhole _ _ _⟩,
   have h := stood (sDev (sTile (word 5 0 0 2) two2)) 0 .s 5 (by decide +kernel) (by decide +kernel); ⟨h.1, h.2.1, sWhole _ _ _⟩,
   have h := stood (sDev (sTile (word 6 0 0 2) { wp := 2, rp := 1, mv := true })) 0 .s 6 (by decide +kernel) (by decide +kernel)
   ⟨h.1, h.2.1, sWhole _ _ _, by decide +kernel⟩,
   have h := stood (sDev (sTile (word 7 0 0 (2 + 2 * 16)) two2)) 0 .s 7 (by decide +kernel) (by decide +kernel)
   ⟨h.1, h.2.1, sWhole _ _ _, by decide +kernel⟩,
   have h := stood (sDev (sTile (word 8 0 0 2) { wp := 2, rp := 1 })) 0 .s 8 (by decide +kernel) (by decide +kernel)
   ⟨h.1, h.2.1, sWhole _ _ _, by decide +kernel⟩,
   have h := stood (sDev (sTile (word 8 0 0 (2 + 16)) { wp := 2, rp := 1 })) 0 .s 8 (by decide +kernel) (by decide +kernel)
   ⟨h.1, h.2.1, sWhole _ _ _, by decide +kernel, by decide +kernel⟩⟩

/-- REWIND without a mark, RELEASE of one more than the limit. -/
theorem wit_queue_faults :
    (let s := sDev (sTile (word 6 0 0 2) two2); Stands s 0 .s 6 ∧ quotaMet s 0 ∧ QueuesWhole (s.tile 0) ∧ ((s.tile 0).queue 2).a.mv = false) ∧
    (let s := sDev (sTile (word 8 0 0 (2 + 16)) two2)
     Stands s 0 .s 8 ∧ quotaMet s 0 ∧ QueuesWhole (s.tile 0) ∧ dist (releaseLimit ((s.tile 0).queue 2).a) 0 < instrN (s.tile 0).instr) :=
  ⟨have h := stood (sDev (sTile (word 6 0 0 2) two2)) 0 .s 6 (by decide +kernel) (by decide +kernel); ⟨h.1, h.2.1, sWhole _ _ _, by decide +kernel⟩,
   have h := stood (sDev (sTile (word 8 0 0 (2 + 16)) two2)) 0 .s 8 (by decide +kernel) (by decide +kernel)
   ⟨h.1, h.2.1, sWhole _ _ _, by decide +kernel⟩⟩

/-- A RUN of descriptor 0, absolute reads from slot 0, extent 1 by 0, X0 = 0 (inside) or 1 (outside), no queue used. -/
def runAt (x0 : Nat) : GridTile :=
  { (core (word 3 0 1 0) [(0, 6 * 2 ^ 60), (1, x0 * 2 ^ 48 + 2 ^ 16), (2, 2 ^ 52)]) with
    s := { store := [(0, { tok := ones, chk := sideParity ones })] } }

theorem wit_run :
    (let s := sDev (runAt 0)
     Stands s 0 .s 3 ∧ quotaMet s 0 ∧ QueuesWhole (s.tile 0) ∧ runDesc (s.tile 0).instr ≠ 127 ∧ runReady s (s.tile 0) (s.tile 0).instr = true ∧
     (let x := Ag.ofWords ((List.range 8).map fun k => (s.tile 0).const (runDesc (s.tile 0).instr + k))
      x.wr = false ∧ agOffset x (runIdx (s.tile 0) (s.tile 0).instr) = some 0 ∧ agSlot (s.tile 0) x 0 = .ok 0) ∧
     slotOk (slotAt (s.tile 0) 0) = true ∧ mget 0 (atBeat s 0 5 []).s.bankUse 0 < 2) ∧
    (let s := sDev (runAt 1)
     Stands s 0 .s 3 ∧ quotaMet s 0 ∧ QueuesWhole (s.tile 0) ∧ runReady s (s.tile 0) (s.tile 0).instr = true ∧
     agOffset (Ag.ofWords ((List.range 8).map fun k => (s.tile 0).const k)) (runIdx (s.tile 0) (s.tile 0).instr) = none) :=
  ⟨have h := stood (sDev (runAt 0)) 0 .s 3 (by decide +kernel) (by decide +kernel)
   ⟨h.1, h.2.1, whole_of _ rfl rfl, by decide +kernel, by decide +kernel, ⟨by decide +kernel, by decide +kernel, by rfl⟩, by decide +kernel, by decide +kernel⟩,
   have h := stood (sDev (runAt 1)) 0 .s 3 (by decide +kernel) (by decide +kernel)
   ⟨h.1, h.2.1, whole_of _ rfl rfl, by decide +kernel, by decide +kernel⟩⟩

theorem wit_qcnt_ldg :
    (let s := sDev (sTile (word 9 0 1 2) two2)
     Stands s 0 .s 9 ∧ quotaMet s 0 ∧ QueuesWhole (s.tile 0) ∧ sRoom s (s.tile 0) (s.tile 0).instr = true) ∧
    (let s := sDev { (core (word 10 1 0 0 3) [] [(0, [ones])]) with rep := 3 }
     Stands s 0 .s 10 ∧ quotaMet s 0 ∧ QueuesWhole (s.tile 0) ∧ (s.tile 0).rep = 3) :=
  ⟨have h := stood (sDev (sTile (word 9 0 1 2) two2)) 0 .s 9 (by decide +kernel) (by decide +kernel)
   ⟨h.1, h.2.1, sWhole _ _ _, by decide +kernel⟩,
   have h := stood (sDev { (core (word 10 1 0 0 3) [] [(0, [ones])]) with rep := 3 }) 0 .s 10 (by decide +kernel) (by decide +kernel)
   ⟨h.1, h.2.1, whole_of _ rfl rfl, by decide +kernel⟩⟩

/-- Hard ports IP0 and OP0 bound to queue 2, quotas of two. -/
def hardDev : State :=
  sDev { (sTile 0 two2 [(0, [ones])]) with
    cfg := [(0, { claimed := true, qport := [2, 0, 0, 0, 2, 0, 0, 0] })]
    s := { (sTile 0 two2 []).s with portsOff := false } }

theorem wit_hard_push : QueuesWhole (hardDev.tile 0) ∧ (hardDev.tile 0).binding 0 = some 2 ∧ mget [] (hardDev.tile 0).inb 0 = [ones] ∧
    portLive hardDev 0 0 = true ∧ 2 ≤ hardDev.cfg.stage.toNat ∧ 0 < ((hardDev.tile 0).queue 2).free ((hardDev.tile 0).qdesc 2) ∧
    pushFaults (hardDev.tile 0) 0 ones = [] ∧ mget 0 (atBeat hardDev 0 1 []).s.bankUse (slotBank 2) < 2 :=
  ⟨whole_one _ 2 { a := two2, b := two2 } rfl (by simp [ptrDiff]) rfl rfl, by decide +kernel⟩

theorem wit_hard_pop : (hardDev.tile 0).binding 4 = some 2 ∧ portLive hardDev 0 4 = true ∧ 0 < ((hardDev.tile 0).queue 2).avl ∧
    (mget [] (hardDev.tile 0).pipe 0).length < 3 ∧ slotOk (slotAt (hardDev.tile 0) 0) = true ∧
    mget 0 (atBeat hardDev 0 6 [2]).s.bankUse (slotBank 0) < 2 ∧
    (mget 0 (hardDev.tile 0).s.portCnt 4 + 1 == (hardDev.tile 0).ctxCfg.quota 4) = false := by
  decide +kernel

theorem wit_deferred : (∃ s : State, tileKind (0 : Fin 1024) = .s ∧ (s.tile 0).s.deferred = [(5, .write 3 ones)]) ∧
    (∃ s : State, (s.tile 0).s.deferred = [(6, .read 0 0 .none)] ∧ slotOk (slotAt (s.tile 0) 0) = true) :=
  ⟨⟨sDev { (core 0) with s := { deferred := [(5, .write 3 ones)] } }, by decide +kernel⟩,
   ⟨sDev { (sTile 0 two2) with s := { (sTile 0 two2).s with deferred := [(6, .read 0 0 .none)] } }, by decide +kernel⟩⟩

/-! ## F tiles (09, 08): tile 3 -/

/-- A GELU of FP16 to FP16 with the constant 127. -/
theorem wit_fun : let s := oneTile 3 (core (word 1 1 1 (6 * 2 ^ 14 + 127)) [] [(0, [ones])])
    (Stands s 3 .f 1 ∧ quotaMet s 3 ∧ ∀ c, closesOk s 3 c) ∧ funOf 3 (.funGelu 3) = some 6 ∧ fSub (s.tile 3).instr = 6 ∧
    fReady funCloses s (s.tile 3) (s.tile 3).instr = true :=
  ⟨stood _ _ _ _ (by decide +kernel) (by decide +kernel), rfl, by decide +kernel, by decide +kernel⟩

theorem wit_bin : let s := oneTile 3 (core (word 2 3 1 (7 * 2 ^ 14)) [] [(0, [ones]), (1, [ones])])
    (Stands s 3 .f 2 ∧ quotaMet s 3 ∧ ∀ c, closesOk s 3 c) ∧ (∃ op, binOf 3 (.binCeq 3) = some (7, op)) ∧ fSub (s.tile 3).instr = 7 ∧
    roomAll s.adr .f (s.tile 3) (iOut (s.tile 3).instr) = true :=
  ⟨stood _ _ _ _ (by decide +kernel) (by decide +kernel), ⟨_, rfl⟩, by decide +kernel, by decide +kernel⟩

/-- ARGMAX over eight elements, at its last repeat. -/
theorem wit_vec : let s := oneTile 3 (core (word 3 1 3 (2 * 2 ^ 14)) [(0, 8 * 2 ^ 16)] [(0, [ones])])
    (Stands s 3 .f 3 ∧ quotaMet s 3 ∧ ∀ c, closesOk s 3 c) ∧ vecOf 3 (.vecArgmax 3) = some 2 ∧ fSub (s.tile 3).instr = 2 ∧
    fReady lastRep s (s.tile 3) (s.tile 3).instr = true ∧ lastRep (s.tile 3) (s.tile 3).instr = true :=
  ⟨stood _ _ _ _ (by decide +kernel) (by decide +kernel), rfl, by decide +kernel, by decide +kernel⟩

/-- The other three operations, over eight elements; STAT names OP1 alone. -/
theorem wit_vec_smax : let s := oneTile 3 (core (word 3 1 3 0) [(0, 8 * 2 ^ 16)] [(0, [ones])])
    (Stands s 3 .f 3 ∧ quotaMet s 3 ∧ ∀ c, closesOk s 3 c) ∧ vecOf 3 (.vecSmax 3) = some 0 ∧ fSub (s.tile 3).instr = 0 ∧
    1 ≤ vecN (s.tile 3) (s.tile 3).instr ∧ fReady lastRep s (s.tile 3) (s.tile 3).instr = true :=
  ⟨stood _ _ _ _ (by decide +kernel) (by decide +kernel), rfl, by decide +kernel, by decide +kernel, by decide +kernel⟩

theorem wit_vec_lnrm : let s := oneTile 3 (core (word 3 1 3 (2 ^ 14)) [(0, 8 * 2 ^ 16)] [(0, [ones])])
    (Stands s 3 .f 3 ∧ quotaMet s 3 ∧ ∀ c, closesOk s 3 c) ∧ vecOf 3 (.vecLnrm 3) = some 1 ∧ fSub (s.tile 3).instr = 1 ∧
    1 ≤ vecN (s.tile 3) (s.tile 3).instr ∧ fReady lastRep s (s.tile 3) (s.tile 3).instr = true :=
  ⟨stood _ _ _ _ (by decide +kernel) (by decide +kernel), rfl, by decide +kernel, by decide +kernel, by decide +kernel⟩

theorem wit_vec_stat : let s := oneTile 3 (core (word 3 1 2 (3 * 2 ^ 14)) [(0, 8 * 2 ^ 16)] [(0, [ones])])
    (Stands s 3 .f 3 ∧ quotaMet s 3 ∧ ∀ c, closesOk s 3 c) ∧ vecOf 3 (.vecStat 3) = some 3 ∧ fSub (s.tile 3).instr = 3 ∧
    1 ≤ vecN (s.tile 3) (s.tile 3).instr ∧ fReady lastRep s (s.tile 3) (s.tile 3).instr = true :=
  ⟨stood _ _ _ _ (by decide +kernel) (by decide +kernel), rfl, by decide +kernel, by decide +kernel, by decide +kernel⟩

theorem wit_wacc : let s := oneTile 3 { (core (word 4 3 1 0 7) [] [(0, [ones]), (1, [ones])]) with rep := 7 }
    (Stands s 3 .f 4 ∧ quotaMet s 3 ∧ ∀ c, closesOk s 3 c) ∧ fReady lastRep s (s.tile 3) (s.tile 3).instr = true :=
  ⟨stood _ _ _ _ (by decide +kernel) (by decide +kernel), by decide +kernel⟩

/-- A window record of 2 by 2 taps, stride 2, over an image of 4 by 4, average by EXCLUDE. -/
def winRec : List Byte := [0, 2, 8, 0, 4, 0, 4, 0, 2, 2, 2, 2, 1, 1, 0, 0, 0, 0, 2, 0, 2, 0, 0, 0, 0, 0, 0, 0, 0, 0, 0, 0]

def poolDev (avg : Bool) : State :=
  oneTile 3 { (core (word 5 1 1 (if avg then 2 ^ 14 else 0) 3) [] [(0, [ones])]) with
    rep := 3, wrec := [(0, winRec)], f := { held := [ones, ones, ones] } }

theorem wit_pool (avg : Bool) : (Stands (poolDev avg) 3 .f 5 ∧ quotaMet (poolDev avg) 3 ∧ ∀ c, closesOk (poolDev avg) 3 c) ∧
    fSub ((poolDev avg).tile 3).instr = b2n avg ∧ fReady poolCloses (poolDev avg) ((poolDev avg).tile 3) ((poolDev avg).tile 3).instr = true ∧
    poolCloses ((poolDev avg).tile 3) 0 = true := by
  cases avg <;> exact ⟨stood _ _ _ _ (by decide +kernel) (by decide +kernel), by decide +kernel⟩

theorem wit_bil : let s := oneTile 3 { (core (word 6 1 1 0 3) [(0, 0x3F000000 * 2 ^ 32 + 0x3F000000)] [(0, [ones])]) with
      rep := 3, f := { held := [ones, ones, ones] } }
    (Stands s 3 .f 6 ∧ quotaMet s 3 ∧ ∀ c, closesOk s 3 c) ∧ fReady bilCloses s (s.tile 3) (s.tile 3).instr = true ∧
    bilCloses (s.tile 3) (s.tile 3).instr = true :=
  ⟨stood _ _ _ _ (by decide +kernel) (by decide +kernel), by decide +kernel, by decide +kernel⟩

/-! ## W tiles (09): tile 34 -/

def wDev (w : BitVec 64) : State := oneTile 34 (core w [] [(0, [ones]), (3, [ones])])

theorem wit_steering (opc ins : Nat) (h : (opc, ins) ∈ [(1, 1), (2, 1), (3, 9), (4, 9), (5, 1), (6, 8)]) :
    let s := wDev (word opc ins (if opc = 6 then 0 else 3) 0)
    (Stands s 34 .w opc ∧ quotaMet s 34 ∧ ∀ c, closesOk s 34 c) ∧ wReady s (s.tile 34) (s.tile 34).instr = true := by
  simp only [List.mem_cons, List.not_mem_nil, or_false, Prod.mk.injEq] at h
  rcases h with ⟨rfl, rfl⟩ | ⟨rfl, rfl⟩ | ⟨rfl, rfl⟩ | ⟨rfl, rfl⟩ | ⟨rfl, rfl⟩ | ⟨rfl, rfl⟩ <;>
    exact ⟨stood _ _ _ _ (by decide +kernel) (by decide +kernel), by decide +kernel⟩

theorem wit_loop_br : (let s := oneTile 34 (core (word 7 0 0 0x20FFF)); Stands s 34 .w 7 ∧ iIn (s.tile 34).instr = 0 ∧ iOut (s.tile 34).instr = 0) ∧
    (let s := oneTile 34 (core (word 8 0 0 0 (jmp := 255))); Stands s 34 .w 8 ∧ iIn (s.tile 34).instr = 0 ∧ iOut (s.tile 34).instr = 0) :=
  ⟨⟨stands_of _ _ _ _ (by decide +kernel) (by decide +kernel), by decide +kernel⟩,
   ⟨stands_of _ _ _ _ (by decide +kernel) (by decide +kernel), by decide +kernel⟩⟩

/-! ## PACE (03) and the front (12): a placement of one context with beds 0 and 255, tile 1 in bed 0 -/

def plc1 : PlcImage :=
  { missing := 0xFFFF, secmap := [1, 0, 0, 0, 0, 0]
    ctxs := [{ ctx := 0, beds := [{ bed := 0, ntile := 1 }, { bed := 255 }], blocks := [{ tile := 1, bed := 0, claimed := true }] }] }

/-- Loaded, and running after a step released at 0, bed 255 done. -/
def running (p : Pace := {}) : State :=
  { State.reset with
    cfg := { image := some { adr := 2, chainlen := 1, plcs := [plc1] }, state := 3, stage := 3 }
    pace := { p with state := .running, released := true }
    beds := [(255, { reported := true, report := .stepEnd })] }

theorem wit_hold_entry : holdStands (running { swhold := true }) 6 = true ∧ bitAt (running { swhold := true }).pace.req.toNat 6 = false ∧
    (running { swhold := true }).pace.state ≠ .idle := by decide +kernel

theorem wit_hold_exit : holdStands (running { req := 0x40 }) 6 = false ∧ bitAt (running { req := 0x40 }).pace.req.toNat 6 = true := by decide +kernel

theorem wit_time : (∃ s : State, s.dbgHold = true) ∧ (∃ s : State, s.dbgHold = false ∧ s.pace.req = 0) ∧
    ∃ s : State, s.dbgHold = false ∧ s.pace.req ≠ 0 ∧ s.pace.state ≠ .idle :=
  ⟨⟨running { req := 0x20 }, by decide +kernel⟩, ⟨running, by decide +kernel⟩, ⟨running { req := 1 }, by decide +kernel⟩⟩

theorem wit_bed_report : stepRuns running = true ∧ (0 : Nat) ∈ State.bedIds running ∧ (State.bed running 0).reported = false ∧ bedParked running 0 = true := by
  decide +kernel

/-- Bed 255 has yet to report. -/
theorem wit_bed_waits : let s := { running with beds := [] }
    stepRuns s = true ∧ (0 : Nat) ∈ s.bedIds ∧ (s.bed 0).reported = false ∧ bedParked s 0 = true ∧
    ∃ k ∈ s.bedIds, k ≠ 0 ∧ (s.bed k).reported = false := by
  decide +kernel

theorem wit_last_report : (∀ k ∈ State.bedIds running, k ≠ 0 → (State.bed running k).reported = true ∧ (State.bed running k).report = (State.pace running).rank) ∧
    bedMark running 0 = (State.pace running).rank ∧ (State.pace running).rank = .stepEnd := by
  decide +kernel

/-- A step complete at 0, the next one due at 2,000. -/
def due (p : Pace := {}) : Pace := { p with complete := true, dupComplete := true, clock := 2000 }

theorem wit_release : let s := running (due)
    mayRelease s = true ∧ stopsHere s = false ∧ s.holding = false ∧ timeReached s = true ∧ paceAgrees s = true ∧ listFault s = 0 := by
  decide +kernel

theorem wit_stop_step : let s := running (due { stopEn := true, stopStep := 1 })
    mayRelease s = true ∧ stopsHere s = true := by decide +kernel

theorem wit_copies_differ : let s := running (due { dupStep := 1 })
    mayRelease s = true ∧ stopsHere s = false ∧ s.holding = false ∧ timeReached s = true ∧ paceAgrees s = false := by
  decide +kernel

theorem wit_limits :
    (let s := running { req := 1, standT := 100000001 }
     s.pace.req ≠ 0 ∧ s.pace.state ≠ .idle ∧ s.pace.state ≠ .aborted ∧ s.pace.holdlim ≠ 0 ∧ s.pace.holdlim.toNat * 1000 < s.pace.standT ∧
     s.flt.firstCode = 0) ∧
    (let s := running { clock := 32001 }; stepRuns s = true ∧ wdogLimit s < busyNow s ∧ namedQueue s = none ∧ namedTile s = some 1) ∧
    (let s := { running { clock := 32001 } with cfg := { (State.cfg running) with front := .running }, tiles := [(1, { switched := false })] }
     s.cfg.front ≠ .none ∧ wdogLimit s < s.pace.clock - s.pace.barrierT ∧ (unswitched s).head? = some 1) := by
  decide +kernel

/-- A full queue 2 of tile 0 on which a hard push waits is the one that a stall names. -/
theorem wit_stall_queue : let s := { (running { clock := 32001 }) with
      cfg := { image := some { adr := 2, chainlen := 1, plcs := [{ plc1 with ctxs := [{ ctx := 0, beds := [{ bed := 0 }], blocks := [{ tile := 0, claimed := true }] }] }] }, state := 3 }
      tiles := [(0, sTile 0 { wp := 4 } [(0, [ones])])] }
    stepRuns s = true ∧ wdogLimit s < busyNow s ∧ namedQueue s = some (0, 2) := by
  decide +kernel

def aborted (p : AbortPhase) (fatal : Bool := false) : State := { running with pace := { state := .aborted, abort := p, fatal := fatal } }

theorem wit_abort_phases : (∃ s : State, s.pace.state = .aborted ∧ s.pace.abort = .announced) ∧
    (∃ s : State, s.pace.state = .aborted ∧ s.pace.abort = .resetDone ∧ s.pace.fatal = false ∧ s.pace.needPor = false ∧ s.flt.dumpState ≠ .writing) ∧
    ∃ s : State, s.pace.state = .aborted ∧ s.pace.fatal = true :=
  ⟨⟨aborted .announced, by decide +kernel⟩, ⟨aborted .resetDone, by decide +kernel⟩, ⟨aborted .resetDone true, by decide +kernel⟩⟩

/-- The front moves; tile 1 and edge 3 have drained and not switched. -/
def atFront : State :=
  { running with
    cfg := { (State.cfg running) with front := .running, nceSwitched := true, ppSwitched := true }
    pace := { state := .barrier, released := true, rank := .sectionEnd }
    tiles := [(1, { switched := false })], edges := [(3, { switched := false })] }

theorem wit_front : frontMoves atFront = true ∧ atFront.cfg.front ≠ .none ∧ (atFront.tile 1).switched = false ∧ gridDrained (atFront.tile 1) = true ∧
    (tileKind 1 = .s → (atFront.tile 1).portsParked = true) ∧ (∀ i, mget 0 (atFront.tile 1).health i = 0) ∧ (atFront.edge 3).switched = false ∧
    edgeDrained (atFront.edge 3) = true :=
  ⟨by decide +kernel, by decide +kernel, by decide +kernel, by decide +kernel, by decide +kernel, fun _ => rfl, by decide +kernel, by decide +kernel⟩

/-- Before the barrier, tile 1 with an old path; the NCE and the PP follow their edge tiles to a context of other parameters. -/
theorem wit_front_early : (let s := { atFront with
      cfg := { (State.cfg atFront) with front := .none }, tiles := [(1, { switched := false, parked := true, cfg := [(0, { claimed := true })] })] }
    frontMoves s = true ∧ (s.tile 1).switched = false ∧ gridOld (s.tile 1) = true ∧ gridDrained (s.tile 1) = true) ∧
    (let s := { atFront with
       cfg := { (State.cfg atFront) with nceSwitched := false, ppSwitched := false, nextSec := 1, image := some { plcs := [{ plc1 with
         secmap := [2, 0, 0, 1, 0, 0], ctxs := [{ ctx := 0, nce := some [8], pp := some [1] }, { ctx := 1 }] }] } }, edges := [], pp := { stepDone := true } }
     frontMoves s = true ∧ s.cfg.nceSwitched = false ∧ s.cfg.ppSwitched = false ∧ edgesGone s nceEdge = true ∧ edgesGone s ppEdge = true ∧
     s.ppSettled = true ∧ (s.ctxImage s.cfg.nceCtx.toNat).nce ≠ (s.ctxImage (nextCtx s).toNat).nce ∧
     (s.ctxImage s.cfg.ppCtx.toNat).pp ≠ (s.ctxImage (nextCtx s).toNat).pp) := by
  decide +kernel

theorem wit_front_complete : let s := { atFront with tiles := [], edges := [] }
    frontMoves s = true ∧ s.cfg.front ≠ .none ∧ allSwitched s = true ∧ writesDone s = true := by decide +kernel

def releasing (stage : BitVec 4) (t : Nat := 0) : State :=
  { running with cfg := { (State.cfg running) with goal := .load, state := 2, stage := stage }, pace := {}, devTime := t }

theorem wit_stages : (∃ s : State, s.cfg.goal ≠ .none ∧ s.pace.state ≠ .aborted ∧ s.cfg.stage.toNat < 2) ∧
    (∃ s : State, s.cfg.stage = 2 ∧ s.cfg.goal = .load ∧ s.pace.state ≠ .aborted ∧ ∀ p ∈ s.tiles, p.2.health = []) ∧
    ∃ s : State, s.cfg.goal ≠ .none ∧ s.pace.state ≠ .aborted ∧ 50000 < s.devTime - s.cfg.stageT :=
  ⟨⟨releasing 1, by decide +kernel⟩, ⟨releasing 2, by decide +kernel⟩, ⟨releasing 1 50001, by decide +kernel⟩⟩

/-- A placement waits for an open fabric to close, at each stage. -/
def closing (stage : BitVec 4) : State :=
  { releasing stage with cfg := { (State.cfg (releasing stage)) with pend := some { im := { adr := 2, chainlen := 1, plcs := [plc1] }, pos := 0, plc := 0 } } }

theorem wit_closing : (State.cfg (closing 3)).goal ≠ .none ∧ (State.cfg (closing 3)).pend.isSome = true ∧ (State.cfg (closing 1)).stage = 1 ∧
    (State.pace (closing 2)).state ≠ .aborted := by decide +kernel

/-- The last stage closed, tile 1 stands written: its claim, and the routing word of no route. -/
theorem test_writes : (let s := releaseStage (closing 1); s.cfg.pend = none ∧ s.cfg.stage = 0 ∧ ((s.tile 1).ctxCfg).claimed = true ∧
    mget 0 (s.tile 2).words 256 = 0x1000000000000000) := by decide +kernel

theorem reaches_of (s : State) (a : Agent) (off : Nat) (w : Bool) (h : (agentReaches s a off && rowOpen s off w) = true) : reaches s a off w := by
  simpa [reaches] using h

theorem wit_commit : (∃ s : State, reaches s (.host 0) (commitOff .pace) true ∧ groupPending s .pace = false ∧ groupIdle s .pace = false) ∧
    (∃ s : State, reaches s (.host 0) (commitOff .pace) true ∧ groupPending s .pace = false ∧ groupIdle s .pace = true ∧ groupRefusal s .pace = none) ∧
    (∃ s : State, groupPending s .pwr = true ∧ groupIdle s .pwr = true ∧ groupRefusal s .pwr ≠ none) :=
  ⟨⟨running, reaches_of _ _ _ _ (by decide +kernel), by decide +kernel⟩, ⟨State.reset, reaches_of _ _ _ _ (by decide +kernel), by decide +kernel⟩,
   ⟨{ State.reset with pwr := { pending := true, shCap := 34 } }, by decide +kernel⟩⟩

/-! ## Host commands (15) -/

/-- A command entry: opcode, SEQ, FLAGS, then its operand bytes. -/
def entry (opc seq : Nat) (ops : List Byte := []) : List Byte :=
  padBytes 64 (natLe 2 opc ++ natLe 2 seq ++ natLe 4 0 ++ ops)

def cmdDev (s : State) (opc : Nat) (ops : List Byte := []) : State :=
  { s with hq := { linkUp := true, bme := true, cur := some { opc := BitVec.ofNat 16 opc, seq := 7, bytes := entry opc 7 ops } } }

def fetchDev (kept : Option Kept) : State :=
  { State.reset with hq := { linkUp := true, bme := true, kept := kept, rings := [(0, { en := true, szl := 4, pi := 1 })] } }

theorem wit_fetch : fetchDue (fetchDev (some { seq := 7 })) = true ∧ (entry 1 7).length = 64 ∧ (7 : BitVec 16) = BitVec.ofNat 16 (numAt (entry 1 7) 2 2) ∧
    fetchDue (fetchDev none) = true ∧ cmdMalformed (entry 1 7) = false ∧ cmdMalformed (entry 2 7) = true ∧ cmdMalformed (entry 1 7 [1]) = true := by
  decide +kernel

theorem wit_nop_command : curIs (cmdDev State.reset 1) 1 = true := by decide +kernel

theorem wit_resume : let s := cmdDev { running with pace := { state := .stopped, stopByStep := true } } 0x21
    curIs s 0x21 = true ∧ s.pace.state = .stopped ∧ s.pace.stopByStep = true ∧ s.pace.rakeAct = false := by decide +kernel

theorem wit_rake_abort : (let s := cmdDev running 0x22; curIs s 0x22 = true ∧ s.pace.state ≠ .idle ∧ s.pace.state ≠ .aborted ∧ s.pace.rakeAct = false) ∧
    (let s := cmdDev running 0x23; curIs s 0x23 = true ∧ s.pace.state ≠ .idle ∧ s.pace.state ≠ .aborted) := by decide +kernel

theorem wit_task_refused : (let s := cmdDev State.reset 0x21; curIs s 0x21 = true ∧ s.pace.state ≠ .stopped) ∧
    (let s := cmdDev State.reset 0x22; curIs s 0x22 = true ∧ s.pace.state = .idle) ∧
    (let s := cmdDev State.reset 0x23; curIs s 0x23 = true ∧ s.pace.state = .idle) := by decide +kernel

/-- The loaded image with PACE idle. -/
def loadedIdle : State := { running with pace := {} }

/-- Every domain is on after reset but PD6 to PD9; tile 1 lies in a block that is on. -/
theorem wit_task_start : let s := cmdDev loadedIdle 0x20
    curIs s 0x20 = true ∧ s.tw.pair.waiting = false ∧ s.cfg.goal = .none ∧ s.loaded = true ∧ s.pace.state = .idle ∧ ringsReady s = true ∧
    startStep s = 0 ∧ startRefusal s = none ∧ s.tw.state ≠ .paired := by
  decide +kernel

theorem wit_task_start_refused : let s := cmdDev { loadedIdle with tw := { state := .wait } } 0x20
    curIs s 0x20 = true ∧ s.loaded = true ∧ s.pace.state = .idle ∧ ringsReady s = true ∧ startRefusal s = some (0x0A02, {}) ∧ evSev 0x0A02 < 2 := by
  decide +kernel

theorem wit_pair_start :
    (let s := cmdDev { loadedIdle with tw := { state := .paired, pair := { waiting := true, ts := some 5 } }, devTime := 5 } 0x20
     s.tw.pair.waiting = true ∧ s.tw.pair.ts = some 5 ∧ 5 ≤ s.devTime + s.timeOff ∧ s.pace.state = .idle ∧ s.tw.state = .paired) ∧
    (let s := cmdDev { loadedIdle with tw := { state := .paired, pair := { waiting := true } }, devTime := 100000001 } 0x20
     s.tw.pair.waiting = true ∧ s.tw.pair.ts = none ∧ s.tw.pair.since + 100000000 < s.devTime ∧ s.hq.cur.isSome = true) := by
  decide +kernel

/-- An image of no bytes fails its first check. -/
theorem wit_image_refused : let s := cmdDev { State.reset with mc := { ready := true, pkgsz := 1 } } 0x10 [1]
    curIs s 0x10 = true ∧ s.cfg.goal = .none ∧ s.mc.ready = true ∧ loadAddrOk s = true ∧ s.pace.state = .idle ∧
    imageBytes s (.ok []) .good = some [] ∧ (∃ f, loadChecks s [] (loadLen s) (loadPlc s) (loadPos s) = some f ∧ evSev f.code < 2) := by
  refine ⟨by decide +kernel, by decide +kernel, by decide +kernel, by decide +kernel, by decide +kernel, by decide +kernel, ?_⟩
  exact ⟨_, rfl, by decide +kernel⟩

theorem wit_plc_switch :
    (let s := cmdDev loadedIdle 0x30
     curIs s 0x30 = true ∧ s.cfg.goal = .none ∧ s.loaded = true ∧ s.pace.state = .idle ∧
     s.cfg.image = some { adr := 2, chainlen := 1, plcs := [plc1] } ∧ plcCarried s 0 = true ∧ domainOff s plc1 = none) ∧
    (let s := cmdDev loadedIdle 0x30 [1]; numAt (curBytes s) 8 1 = 1 ∧ plcCarried s 1 = false) := by
  decide +kernel

theorem wit_epoch :
    (let s := cmdDev State.reset 0x40 (natLe 8 1000)
     curIs s 0x40 = true ∧ s.lk.follow = none ∧ s.pace.state = .idle ∧ bitAt (numAt (curBytes s) 16 4) 0 = false ∧
     s.devTime + s.timeOff ≤ numAt (curBytes s) 8 8) ∧
    (let s := cmdDev { State.reset with lk := { ports := [(3, { state := .up })] } } 0x40 (natLe 8 1000 ++ natLe 4 7)
     bitAt (numAt (curBytes s) 16 4) 0 = true ∧ (s.port (bits (numAt (curBytes s) 16 4) 1 2)).isUp = true) ∧
    (let s := cmdDev { State.reset with lk := { follow := some (3, 1000, 0) }, devTime := 100001 } 0x40
     s.lk.follow = some (3, 1000, 0) ∧ s.hq.cur.isSome = true ∧ 0 + 100000 < s.devTime) := by
  decide +kernel

theorem wit_attest : (let s := cmdDev { State.reset with sec := { bootState := 3 } } 0x50
     curIs s 0x50 = true ∧ s.sec.bootState = 3 ∧ s.canRequest = true) ∧
    (let s := cmdDev State.reset 0x50; curIs s 0x50 = true ∧ s.sec.bootState ≠ 3) := by decide +kernel

/-! ## Rings, streams, BAR2 (15) -/

theorem wit_doorbell : (let s := fetchDev none; (s.ring 0).en = true ∧ hostProduces 0 = true ∧ (1 : Word) = (s.ring 0).pi ∧ (2 : Word) ≠ (s.ring 0).pi ∧
      ((16 : Word) - (s.ring 0).pi).toNat = (s.ring 0).size - (s.ring 0).used ∧ (s.ring 0).size - (s.ring 0).used < ((17 : Word) - (s.ring 0).pi).toNat) ∧
    (State.reset.ring 25).en = false ∧ szlOk 25 4 = true ∧ wbOverlaps State.reset 25 4 = false ∧ szlOk 25 3 = false ∧ ringLocked State.reset 25 = false := by
  decide +kernel

/-- Host memory reachable, one ring enabled. -/
def ringDev (n : Nat) (s : State := State.reset) : State :=
  { s with hq := { s.hq with linkUp := true, bme := true, rings := [(n, { en := true, szl := 4 })] } }

theorem wit_write_back : let s : State := { State.reset with hq := { wbEn := true, wbDirty := true, linkUp := true, bme := true } }
    s.hq.wbEn = true ∧ s.hq.wbDirty = true ∧ s.canRequest = true := by decide +kernel

theorem wit_event_record : let s := ringDev 1 { State.reset with hq := { evq := [{}] } }
    s.hq.evq = [{}] ∧ ringRoom s 1 = true ∧ s.hq.lostNow = 0 ∧ s.hq.cplWait = none := by decide +kernel

theorem wit_result_record : let s := ringDev 9 { State.reset with pp := { records := [{ ring := 7 }] } }
    s.pp.records = [{ ring := 7 }] ∧ ringRoom s (2 + 7) = true := by decide +kernel

theorem wit_stream_write : let s := ringDev 25 { State.reset with hq := { chans := [(7, { outq := [ones] })] } }
    (s.chan 7).outq = [ones] ∧ ringRoom s (18 + 7) = true := by decide +kernel

/-- Channel 7 feeds an inward path of edge tile e(E,23), ring 17 holds an entry, a task runs. -/
theorem wit_stream_fetch : let s := { running with
      cfg := { image := some { plcs := [{ plc1 with ctxs := [{ blocks := [{ tile := BitVec.ofNat 16 (edgeId 55), edesc := BitVec.ofNat 64 (2 ^ 50) }] }] }] }, state := 3 }
      hq := { linkUp := true, bme := true, rings := [(17, { en := true, szl := 4, pi := 1 })] } }
    streamDue s 7 = true ∧ (List.replicate 32 (0 : Byte)).length = 32 := by decide +kernel

/-- The last byte of 8 GiB is in the dump region; offset 0 of window 0 is free. -/
theorem wit_bar2 : let s : State := { State.reset with mc := { ready := true, pkgsz := 1 } }
    s.mc.ready = true ∧ s.hq.win.toNat * 2 ^ 30 + 0 + 1 ≤ memSize s ∧ bar2Kept s 0 1 = false ∧ bar2Kept s (2 ^ 33 - 1) 1 = true ∧
    s.hq.win.toNat * 2 ^ 30 + (2 ^ 33 - 1) + 1 = memSize s ∧ memSize s < s.hq.win.toNat * 2 ^ 30 + 2 ^ 33 + 1 ∧ State.reset.mc.ready = false := by
  decide +kernel

theorem test_bar2_stores : memGet (bar2Write { State.reset with mc := { ready := true, pkgsz := 1 } } 5 [0xAB] false 0).mc.mem 5 = (0xAB : Byte) := by
  decide +kernel

/-! ## Interrupts and mailboxes (16) -/

/-- Source 105 follows a changeover, its vector word enabling target 3; source 26 has nothing to follow. -/
def lineDev : State :=
  { State.reset with
    pwr := { co := true }
    ic := { src := [(105, { maskHost := false, vec := 8 })] } }

theorem wit_line_change : levelSource 105 = true ∧ lineLevel lineDev 105 = true ∧ (State.source lineDev 105).line ≠ true ∧
    (State.source lineDev 105).pend = false ∧ senseEvent (State.source lineDev 105).sense true = true ∧ (State.source lineDev 105).maskHost = false ∧
    (State.source lineDev 105).maskMp = true ∧
    nextTarget 64 (State.source lineDev 105).lastHost (fun v => bitAt (State.source lineDev 105).vec.toNat v) = some 3 ∧
    (let s := { lineDev with ic := { src := [(105, { line := true })] }, pwr := {} }
     lineLevel s 105 = false ∧ (s.source 105).line ≠ false) := by
  decide +kernel

/-- A target whose set holds a message, and its stack. -/
def target (x : Target) (s : State := State.reset) : State := { s with ic := { s.ic with tgt := [(3, x)] } }

theorem wit_send : (let s := target { waiting := 1, wprio := 5, vmask := false } { State.reset with hq := { linkUp := true, bme := true } }
      sendDue s (s.target 3) = true ∧ s.ic.fmask = false ∧ (s.target 3).vmask = false ∧ s.canRequest = true ∧ s.hq.msixOut = []) ∧
    (let s := target { waiting := 1, wprio := 5 }; sendDue s (s.target 3) = true ∧ (s.target 3).vmask = true) ∧
    (let s := { State.reset with ic := { tgt := [(65, { waiting := 1 })] } }; sendDue s (s.target 65) = true) ∧
    (let s := target { waiting := 1, wprio := 5, stack := [5] }; sendDue s (s.target 3) = false ∧ ∃ p r, (s.target 3).stack = p :: r) ∧
    (State.reset.target 3).stack = [] ∧ isHost (.mp 0) = false := by
  refine ⟨by decide +kernel, by decide +kernel, by decide +kernel, ⟨by decide +kernel, 5, [], by decide +kernel⟩, by decide +kernel, by decide +kernel⟩

/-- Mailbox 0 between host and firmware, n one-word messages waiting for firmware. -/
def hostMbox (n : Nat) (s : State := State.reset) : State :=
  { s with mbx := [(0, { peer := 1, inq := { words := List.replicate n (held 0x10000) } })] }

theorem wit_mailbox_write : (between (State.mbox (hostMbox 15) 0).inq ∧ bitAt (State.mbox (hostMbox 15) 0).peer.toNat 0 = true ∧ hdrLen 0x10000 = 0 ∧
      (State.mbox (hostMbox 15) 0).inq.words.length < 16) ∧
    (between (State.mbox (hostMbox 16) 0).inq ∧ 16 < (State.mbox (hostMbox 16) 0).inq.words.length + hdrLen 0x10000 + 1) ∧
    (between (State.mbox (hostMbox 15) 0).inq ∧ 16 < (State.mbox (hostMbox 15) 0).inq.words.length + hdrLen 0x1010000 + 1) :=
  ⟨⟨⟨rfl, rfl, rfl⟩, by decide +kernel⟩, ⟨⟨rfl, rfl, rfl⟩, by decide +kernel⟩, ⟨rfl, rfl, rfl⟩, by decide +kernel⟩

theorem wit_peer : peerOk 1 = true ∧ peerOk 0x1F00 = true ∧ peerOk 0x1F01 = false ∧ peerOk 2 = false := by decide

/-- Port 1 in UP. -/
def upDev (x : LinkPort := {}) (s : State := State.reset) : State :=
  { s with lk := { s.lk with ports := [(1, { x with en := true, state := .up })] } }

theorem wit_forward : let s := { upDev with mbx := [(5, { peer := 0x1E00, outDests := [10], outq := { words := [held 0x10000], headLeft := 1 } })] }
    (s.mbox 5).outDests = [10] ∧ portOfCode s 10 = some 1 ∧ (s.mbox 5).outq.headLeft = (s.mbox 5).outq.headWords ∧
    0 < (s.mbox 5).outq.headWords ∧ (s.mbox 5).outq.headWords ≤ (s.mbox 5).outq.words.length ∧ (s.port 1).isUp = true ∧ (s.mbox 5).perr = false ∧
    (s.port 1).replay.length < 64 ∧ (s.port 1).txq = [] := by
  decide +kernel

/-! ## Firmware (16) -/

/-- Firmware runs; a message stands in a mailbox of this mask. -/
def asked (peer : BitVec 16) (ws : List Word) (s : State := State.reset) : State :=
  { s with sec := { s.sec with bootState := 3 }, mbx := [(0, { peer := peer, inq := { words := ws.map held } })] }

/-- A header: sender, LEN, TYPE, MSEQ. -/
def hdrOf (sender len type seq : Nat) : Word := BitVec.ofNat 32 (sender * 2 ^ 28 + len * 2 ^ 24 + type * 2 ^ 16 + seq)

theorem served (s : State) (ws : List Word) (k : Nat)
    (h : (s.sec.bootState == 3 && headMessage s 0 == some (ws.map held) && ws.length == 1 + hdrLen (ws.headD 0) &&
      (s.mbox 0).keptMseq != some (hdrSeq (ws.headD 0)) && outReady s 0 k && destOk s 0 (hdrSender (ws.headD 0)) &&
      (s.mbox 0).outq.words.isEmpty) = true) :
    Served s 0 ws k := by
  simp only [Bool.and_eq_true, beq_iff_eq, bne_iff_ne, List.isEmpty_iff] at h
  obtain ⟨⟨⟨⟨⟨⟨a, b⟩, c⟩, d⟩, e⟩, f⟩, g⟩ := h
  exact ⟨a, b, c, d, e, f, .inl g⟩

theorem wit_host_asks : Served (asked 1 [hdrOf 0 0 0x01 9]) 0 [hdrOf 0 0 0x01 9] 3 ∧ Served (asked 1 [hdrOf 0 0 0x02 9]) 0 [hdrOf 0 0 0x02 9] 5 ∧
    Served (asked 1 [hdrOf 0 0 0x11 9]) 0 [hdrOf 0 0 0x11 9] 4 ∧ Served (asked 1 [hdrOf 0 2 0x10 9, 0, 1]) 0 [hdrOf 0 2 0x10 9, 0, 1] 16 ∧
    hdrType (hdrOf 0 2 0x10 9) = 0x10 ∧ hdrSender (hdrOf 0 2 0x10 9) = 0 ∧ hdrLen (hdrOf 0 2 0x10 9) = 2 :=
  ⟨served _ _ _ (by decide +kernel), served _ _ _ (by decide +kernel), served _ _ _ (by decide +kernel), served _ _ _ (by decide +kernel), by decide⟩

theorem wit_link_asks : Served (asked 0x400 [hdrOf 10 0 0x10 9] upDev) 0 [hdrOf 10 0 0x10 9] 2 ∧ hdrSender (hdrOf 10 0 0x10 9) ∉ [0, 15] :=
  ⟨served _ _ _ (by decide +kernel), by decide⟩

/-- The twin link on port 1, in UP. -/
def twinUp (s : State := State.reset) : State := upDev { twin := true } { s with tw := { s.tw with en := true, port := 1, state := .paired } }

theorem wit_twin_asks : Served (asked 0x100 [hdrOf 8 1 0x30 9, 0x6000000] twinUp) 0 [hdrOf 8 1 0x30 9, 0x6000000] 2 ∧
    Served (asked 0x100 [hdrOf 8 3 0x30 9, 0x7000000, 1, 0] twinUp) 0 [hdrOf 8 3 0x30 9, 0x7000000, 1, 0] 2 :=
  ⟨served _ _ _ (by decide +kernel), served _ _ _ (by decide +kernel)⟩

theorem wit_pacehint : let ws := [hdrOf 10 3 0x20 9, 4, 100, 2]
    Served (asked 0x400 ws upDev) 0 ws 2 ∧ hdrSender (ws.headD 0) ∈ linkSenders ∧ bits (msgWord ws 1) 4 27 = 0 ∧ bits (msgWord ws 3) 16 16 = 0 ∧
    (State.lk (asked 0x400 ws upDev)).hintsSeen = [] ∧ bitAt (msgWord ws 1) 31 = false ∧
    ∀ q < 4, ((asked 0x400 ws upDev).port q).isUp = true → portCode (asked 0x400 ws upDev) q = hdrSender (ws.headD 0) :=
  ⟨served _ _ _ (by decide +kernel), by decide +kernel⟩

/-- The image carries a second placement, as the first. -/
def twoPlc : State := { loadedIdle with cfg := { (State.cfg loadedIdle) with image := some { adr := 2, chainlen := 1, plcs := [plc1, plc1] } } }

theorem wit_plcsw : let ws := [hdrOf 10 1 0x22 9, 0xFFFF0000]; let ws1 := [hdrOf 10 1 0x22 9, 0xFFFF0001]
    let s := asked 0x400 ws (upDev {} twoPlc); let t := asked 0x400 ws1 (upDev {} twoPlc)
    Served s 0 ws 2 ∧ Served t 0 ws1 2 ∧
    (s.loaded = true ∧ s.cfg.swMbox = none ∧ s.cfg.plc.toNat = bits (msgWord ws 1) 0 8 ∧ s.plc.missing.toNat = bits (msgWord ws 1) 16 16) ∧
    (t.loaded = true ∧ t.cfg.plc.toNat ≠ bits (msgWord ws1 1) 0 8 ∧ t.pace.state = .idle ∧ t.cfg.goal = .none ∧ plcCarried t 1 = true ∧
      plc1.missing.toNat = bits (msgWord ws1 1) 16 16 ∧ domainOff t plc1 = none) :=
  ⟨served _ _ _ (by decide +kernel), served _ _ _ (by decide +kernel), by decide +kernel, by decide +kernel⟩

/-- A response part: header, word 1, 14 words of zeros. -/
def part0 : List Word := hdrOf 0 15 0x50 9 :: 0x2000000 :: List.replicate 14 0

theorem wit_challenge : (let ws := [hdrOf 0 1 0x50 9, 0x1000000]; Served (asked 1 ws) 0 ws 14 ∧ (asked 1 ws).sec.locked = false) ∧
    (let s : State := asked 1 part0 { State.reset with sec := { chal := some 0 } }
     Served s 0 part0 2 ∧ s.sec.chal = some 0 ∧ msgWord part0 1 = 2 * 2 ^ 24 + 0 ∧ s.sec.chalNext = 0 ∧ hdrLen (part0.headD 0) = 15) :=
  ⟨⟨served _ _ _ (by decide +kernel), rfl⟩, served _ _ _ (by decide +kernel), by decide +kernel⟩

theorem test_ping : (mailboxTx (hostMbox 0) (.host 0) 0 0x10009).mbox 0 = { peer := 1, inq := { words := [held 0x10009] } } ∧
    ((ping (asked 1 [hdrOf 0 0 0x01 9]) 0 2).mbox 0).outq.words.map (fun w => w.w) = [0x32810009, 0, 0] := by
  decide +kernel

/-! ## Links (17) -/

/-- Port 1 in a state. -/
def linkDev (x : LinkPort) (s : State := State.reset) : State := { s with lk := { s.lk with ports := [(1, x)] } }

theorem heard (x : LinkPort) (h : FrameHdr) (c : (x.receives && h.crcGood && ackSent x h.ack) = true) : Heard x h := by
  simp only [Bool.and_eq_true] at c
  exact ⟨c.1.1, c.1.2, c.2⟩

theorem inOrder (x : LinkPort) (h : FrameHdr) (c : (x.receives && h.crcGood && ackSent x h.ack && x.state == .up && h.seq == x.rxe) = true) :
    InOrder x h := by
  simp only [Bool.and_eq_true, beq_iff_eq] at c
  exact ⟨⟨c.1.1.1.1, c.1.1.1.2, c.1.1.2⟩, c.1.2, c.2⟩

theorem wit_training : (State.port (linkDev { state := .train }) 1).state = .train ∧
    (let s := { linkDev { state := .train } with devTime := 100000001 }; (s.port 1).state = .train ∧ (s.port 1).stateT + 100000000 < s.devTime) ∧
    (let s := { linkDev { state := .failed } with devTime := 1000000 }; (s.port 1).state = .failed ∧ (s.port 1).stateT + 1000000 ≤ s.devTime) ∧
    (let s := { State.reset with pwr := { domOn := 0x3FFFFCFF } }; s.idle = true ∧ s.powered (6 + 1) = true ∧ (s.port 1).en = false) ∧
    (let s := { linkDev { en := true } with pwr := { domOn := 0x3FFFFCFF } }; s.idle = true ∧ s.powered (6 + 1) = true ∧ (s.port 1).en = true) ∧
    State.idle running = false := by
  decide +kernel

/-- Edge tile e(W,9) of port 1 carries tokens. -/
def linked : State :=
  { running with
    cfg := { image := some { plcs := [{ plc1 with ctxs := [{ blocks := [{ tile := BitVec.ofNat 16 (edgeId 104), qport := [1] }] }] }] }, state := 3 }
    lk := { ports := [(1, { state := .up, replays := 8 })] } }

theorem wit_link_fail : (State.port linked 1).receives = true ∧ State.idle linked = false ∧ imageUses linked 1 = true ∧
    (if (State.lk linked).nakmax = 0 then 256 else (State.lk linked).nakmax.toNat) ≤ (State.port linked 1).replays ∧
    (let s := { linkDev { state := .up } with devTime := 10000 }; (s.port 1).receives = true ∧ (s.port 1).rxT + 10000 ≤ s.devTime) := by
  decide +kernel

theorem wit_sends :
    (let s := upDev { vcout := [(2, [(ones, 9)])] }
     (s.port 1).state = .up ∧ (s.port 1).replay.length < 64 ∧ (s.port 1).txq = [] ∧ mget [] (s.port 1).vcout 2 = [(ones, 9)]) ∧
    (let s := { linkDev { state := .hello } with devTime := 1000 }; (s.port 1).state = .hello ∧ (s.port 1).helloT + 1000 ≤ s.devTime) ∧
    (let s := linkDev { state := .up, syncDue := true }; (s.port 1).receives = true ∧ (s.port 1).syncDue = true) ∧
    (let s := { linkDev { state := .refused } with devTime := 1000 }; (s.port 1).receives = true ∧ s.idle = true ∧ (s.port 1).syncT + 1000 ≤ s.devTime) ∧
    (let s := { upDev { replay := [{}] } with devTime := 10000 }; (s.port 1).state = .up ∧ (s.port 1).ackT + 10000 ≤ s.devTime ∧ (s.port 1).replay ≠ []) ∧
    (let x : LinkPort := { state := .up, txseq := 2, txCount := 2, replay := [{}, { seq := 1 }] }
     Heard x { hdr with ack := 0 } ∧ x.txq = [] ∧ (({ hdr with ack := 0 } : FrameHdr).ack - x.ack).toNat < x.replay.length) :=
  ⟨by decide +kernel, by decide +kernel, by decide +kernel, by decide +kernel, by decide +kernel, heard _ _ (by decide +kernel), by decide +kernel⟩

theorem wit_token_frame : InOrder (State.port upDev 1) hdr ∧ (mget [] (State.port upDev 1).vcbuf 3).length + 12 ≤ 1024 ∧
    (Heard (State.port upDev 1) hdr ∧ (State.port upDev 1).txq = [] ∧ (hdr.ack - (State.port upDev 1).ack).toNat ≤ (State.port upDev 1).replay.length) :=
  ⟨inOrder _ _ (by decide +kernel), by decide +kernel, heard _ _ (by decide +kernel), by decide +kernel⟩

theorem wit_bad_frames : frameOf 1 { hdr with crcGood := false } (.nak 1 { hdr with crcGood := false }) = true ∧
    (Instr.nak 1 hdr).wf = true ∧ (State.port upDev 1).state = .up ∧
    frameOf 1 { hdr with ack := 0 } (.idleFrame 1 { hdr with ack := 0 }) = true ∧ ackSent (State.port upDev 1) 0 = false := by
  decide +kernel

theorem wit_message_in : let s := { upDev with mbx := [(5, { peer := 0x1E00 })] }
    InOrder (s.port 1) hdr ∧ (s.port 1).twin = false ∧ hdrLen 0x1020000 = [(7 : Word)].length ∧ bitAt (s.mbox 5).peer.toNat (9 + 1) = true ∧
    (∀ i < 5, bitAt (s.mbox i).peer.toNat (9 + 1) = false) ∧ [(7 : Word)].length + 1 ≤ (s.mbox 5).inq.freeWords :=
  ⟨inOrder _ _ (by decide +kernel), by decide +kernel⟩

theorem wit_twin_in : let ws := [hdrOf 0 1 0x30 0, 0x1000001]
    InOrder (State.port twinUp 1) hdr ∧ (State.port twinUp 1).twin = true ∧ (State.tw twinUp).port.toNat = 1 ∧ isTwinMsg ws = true ∧ twinBad twinUp ws = false :=
  ⟨inOrder _ _ (by decide +kernel), by decide +kernel⟩

theorem wit_abort_in : let s := upDev {} running
    InOrder (s.port 1) hdr ∧ s.idle = false ∧ s.pace.state ≠ .aborted ∧ (∀ q < 4, (s.port q).abortsSeen.contains (2, 5) = false) ∧ s.flt.firstCode = 0 :=
  ⟨inOrder _ _ (by decide +kernel), by decide +kernel⟩

/-- A device of stepping A0 whose port 1 is in HELLO. -/
def helloDev : State := linkDev { state := .hello } { State.reset with glb := { stepping := .a0 } }

theorem wit_hello : Heard (State.port helloDev 1) hdr ∧ (helloRecOf helloDev 1).secmap.length = 16 ∧
    helloMism helloDev 1 { helloRecOf helloDev 1 with stepping := 0x20 } ≠ 0 ∧ helloMism helloDev 1 (helloRecOf helloDev 1) = 0 :=
  ⟨heard _ _ (by decide +kernel), by decide +kernel⟩

theorem wit_sync : Heard (State.port upDev 1) hdr ∧
    (State.lk twinUp).follow = none ∧ State.paired twinUp = true ∧ (State.tw twinUp).port.toNat = 1 ∧ State.idle twinUp = true ∧
    (let s := cmdDev (linkDev { state := .up } { State.reset with lk := { follow := some (1, 5, 0) } }) 0x40
     s.lk.follow = some (1, 5, 0) ∧ s.idle = true ∧ s.hq.cur.isSome = true ∧ s.devTime + s.timeOff ≤ (0 : BitVec 64).toNat + (s.port 1).rtt.toNat / 2) ∧
    (let s := upDev {} running
     s.lk.follow = none ∧ (s.port 1).state = .up ∧ s.idle = false ∧ s.lk.ttol ≠ 0 ∧
     2 * s.lk.ttol.toNat < (2 * ((1001 : BitVec 64).toNat : Int) + (s.port 1).rtt.toNat - 2 * s.time64).natAbs) :=
  ⟨heard _ _ (by decide +kernel), by decide +kernel⟩

/-! ## The twin pair and the fault log (18) -/

/-- A twin manager with one message to take. -/
def twinMsg (t : Tw) (sub lo : Nat) (r : List Word := []) (s : State := State.reset) : State :=
  { upDev { twin := true } s with tw := { t with en := true, port := 1, rxq := [(1, hdrOf 0 (1 + r.length) 0x30 0 :: BitVec.ofNat 32 (sub * 2 ^ 24 + lo) :: r)] } }

theorem twinHead_of (t : Tw) (sub lo : Nat) (r : List Word) (s : State) (h : bits (BitVec.ofNat 32 (sub * 2 ^ 24 + lo)).toNat 24 8 = sub) :
    twinHead (twinMsg t sub lo r s) sub (hdrOf 0 (1 + r.length) 0x30 0 :: BitVec.ofNat 32 (sub * 2 ^ 24 + lo) :: r) [] :=
  ⟨by simp [twinMsg], by simp [twinMsg], h⟩

theorem wit_twin_cfg : State.reset.idle = true ∧ State.reset.tw.en = false ∧ bitAt (1 : Word).toNat 0 = true ∧ State.idle running = false := by
  decide +kernel

theorem wit_role : (∃ ws r, twinHead (twinMsg { state := .wait } 1 1) 1 ws r ∧ bitAt (msgWord ws 1) 0 ≠ false) ∧
    (∃ ws r, twinHead (twinMsg { state := .wait } 1 0) 1 ws r ∧ bitAt (msgWord ws 1) 0 = false) ∧
    (State.tw (twinMsg { state := .wait } 1 0)).state = .wait ∧ ((twinMsg { state := .wait } 1 0).port 1).twin = true :=
  ⟨⟨_, _, twinHead_of _ 1 1 [] _ (by decide), by decide⟩, ⟨_, _, twinHead_of _ 1 0 [] _ (by decide), by decide⟩, by decide +kernel⟩

theorem wit_ready_start :
    (∃ ws r, twinHead (twinMsg { state := .paired, lead := true, pair := { waiting := true } } 2 0) 2 ws r) ∧
    (∃ ws r, twinHead (twinMsg { state := .paired, pair := { waiting := true } } 3 0 [1000, 0]) 3 ws r ∧
      State.reset.devTime + State.reset.timeOff + 1000 ≤ msgWord ws 2 + 2 ^ 32 * msgWord ws 3) :=
  ⟨⟨_, _, twinHead_of _ 2 0 [] _ (by decide)⟩, ⟨_, _, twinHead_of _ 3 0 [1000, 0] _ (by decide), by decide +kernel⟩⟩

/-- A paired device whose image has one check definition of one byte. -/
def checking : State :=
  { running with cfg := { image := some { chk := true, plcs := [{ plc1 with checks := [{ flen := 1 }] }] }, state := 3 } }

/-- The own entry of step 0, ordinal 0. -/
def entry0 : CheckEntry := { bytes := [7] }

theorem wit_digest : (let s := twinMsg { state := .paired } 4 0 [0, 7] checking
      (∃ ws r, twinHead s 4 ws r ∧ s.tw.own.find? (sameKey (digestEntry s ws)) = none) ∧ s.comparing = true ∧ s.tw.partner.length < 4096) ∧
    (let s := twinMsg { state := .paired, own := [entry0] } 4 0 [0, 7] checking
     ∃ ws r, twinHead s 4 ws r ∧ s.tw.own.find? (sameKey (digestEntry s ws)) = some entry0 ∧ entry0.bytes = (digestEntry s ws).bytes) :=
  ⟨⟨⟨_, _, twinHead_of _ 4 0 [0, 7] _ (by decide), by decide +kernel⟩, by decide +kernel⟩,
   _, _, twinHead_of _ 4 0 [0, 7] _ (by decide), by decide +kernel⟩

theorem wit_first : (let s := twinMsg { state := .paired, firstOwn := [(2, some 9)] } 5 2 [8]
      ∃ ws r, twinHead s 5 ws r ∧ s.paired = true ∧ mget none s.tw.firstOwn (bits (msgWord ws 1) 0 4) = some 9 ∧ (9 : Word) ≠ lget 0 ws 2) ∧
    (let s := twinMsg { state := .paired } 5 2 [8]; ∃ ws r, twinHead s 5 ws r ∧ mget none s.tw.firstOwn (bits (msgWord ws 1) 0 4) = none) :=
  ⟨⟨_, _, twinHead_of _ 5 2 [8] _ (by decide), by decide +kernel⟩, _, _, twinHead_of _ 5 2 [8] _ (by decide), by decide +kernel⟩

theorem wit_entry_due : let s := { checking with tw := { state := .paired, own := [entry0], pstep := 65 }, pace := { (State.pace checking) with step := 65 } }
    s.comparing = true ∧ s.idle = false ∧ entry0 ∈ s.tw.own ++ s.tw.partner ∧
    entry0.step.toNat + (if (checkDef s entry0.defn).window = 0 then 64 else (checkDef s entry0.defn).window) < s.pace.step.toNat ∧
    entry0.step.toNat + (if (checkDef s entry0.defn).window = 0 then 64 else (checkDef s entry0.defn).window) < s.tw.pstep.toNat := by
  decide +kernel

theorem wit_heartbeat_miss : let s := { running with tw := { state := .paired, miss := 3 }, devTime := 2000 }
    s.paired = true ∧ s.tw.hbT + s.pace.act.period.toNat ≤ s.devTime ∧ (if s.tw.hbmiss = 0 then 16 else s.tw.hbmiss.toNat) ≤ s.tw.miss + 1 ∧
    s.idle = false := by
  decide +kernel

theorem wit_dump : let s : State := { State.reset with flt := { dumpState := .writing }, sec := { bootState := 3 }, mc := { ready := true, pkgsz := 1 } }
    s.flt.dumpState = .writing ∧ s.sec.bootState = 3 ∧ s.mc.ready = true ∧ State.reset.flt.dumpState ≠ .writing := by
  decide +kernel

/-! ## Power (19) -/

theorem wit_power : (-220 ≤ (100 : BitVec 16).toInt ∧ (100 : BitVec 16).toInt ≤ 600) ∧ 600 < (601 : BitVec 16).toInt ∧
    State.reset.pwr.excl.contains 0 = false ∧
    (let s : State := { State.reset with pwr := { wrDue := true } }; s.pwr.wrDue = true ∧ s.pwr.wrOut = none ∧ s.pwr.retryT = none ∧ s.pwr.co = false) ∧
    (let s : State := { State.reset with pwr := { wrOut := some 4, wrFails := 2 } }; s.pwr.wrOut = some 4 ∧ 3 ≤ s.pwr.wrFails + 1) ∧
    (let s : State := { State.reset with pwr := { wrOut := some 4 } }; s.pwr.wrOut = some 4 ∧ s.pwr.wrFails + 1 < 3) ∧
    (let s : State := { State.reset with pwr := { retryT := some 0 }, devTime := 1000000 }; s.pwr.retryT = some 0 ∧ 0 + 1000000 ≤ s.devTime ∧ s.pwr.co = false) ∧
    State.reset.pwr.memHeld = false ∧
    (let s : State := { State.reset with mc := { rateReq := some 1 }, se := { eng := [(3, { bursts := [{}] })] } }
     s.mc.rateReq = some 1 ∧ ∃ b ∈ s.se.eng, b.2.bursts ≠ []) ∧
    (let s : State := { State.reset with mc := { rateReq := some 1 } }; s.mc.rateReq = some 1 ∧ ∀ b ∈ s.se.eng, b.2.bursts = []) := by
  decide +kernel

/-- Power of a device of grade C: TCRIT 105, TTHR 90. -/
def heat (tj : BitVec 16) (v : BitVec 4) : State := { State.reset with glb := { gradeI := false }, pwr := { tthr := 90, tj := tj, vtherm := v }, devTime := 1000000 }

theorem wit_thermal :
    (4 * (min (heat 360 15).pwr.tthr.toNat 104 : Nat) ≤ (heat 360 15).pwr.tj.toInt ∧ (heat 360 15).pwr.vtherm ≠ 0 ∧
      (heat 360 15).pwr.thermT + 100000 ≤ (heat 360 15).devTime ∧ (heat 360 15).hq.evq.length < 256) ∧
    ((heat 347 14).pwr.tj.toInt < 4 * (min (heat 347 14).pwr.tthr.toNat 104 : Nat) - 4 * (max 1 (heat 347 14).pwr.thys.toNat : Nat) ∧
      (heat 347 14).pwr.vtherm ≠ 15 ∧ (heat 347 14).pwr.thermT + 1000000 ≤ (heat 347 14).devTime) ∧
    ((4 * (min (heat 348 14).pwr.tthr.toNat 104 : Nat) - 4 * (max 1 (heat 348 14).pwr.thys.toNat : Nat) : Int) ≤ (heat 348 14).pwr.tj.toInt ∧
      (heat 359 14).pwr.tj.toInt < 4 * (min (heat 359 14).pwr.tthr.toNat 104 : Nat)) := by
  decide +kernel

theorem wit_domains :
    ((∀ e < 30, e ≠ 6 → bitAt (0x3FFFFC7F : BitVec 30).toNat e = domTarget State.reset e) ∧ bitAt (0x3FFFFC7F : BitVec 30).toNat 6 ≠ domTarget State.reset 6) ∧
    (let s : State := { State.reset with pwr := { switching := [{ d := 6, on := true }] } }
     s.pwr.switching.find? (fun y => y.d == 6) = some { d := 6, on := true }) ∧
    (State.pwr loadedIdle).autofab = true ∧ State.loaded loadedIdle = true ∧ (State.cfg loadedIdle).goal = .none ∧
    (let s : State := { State.reset with pwr := { memOffT := some 0 }, devTime := 10000000 }; s.pwr.memOffT = some 0 ∧ 0 + 10000000 ≤ s.devTime) := by
  decide +kernel

theorem wit_supplies : State.reset.pwr.aOk = false ∧
    (let p : Pwr := { aOk := true, bOk := true }; p.aOk = true ∧ p.bOk = true ∧ p.selB = false) ∧
    (let p : Pwr := { aOk := true }; p.aOk = true ∧ p.bOk = false) ∧
    (let s : State := { State.reset with pwr := { co := true }, devTime := 40000 }
     s.pwr.co = true ∧ s.pwr.vinBand = true ∧ s.pwr.coT + max 1 s.pwr.settle.toNat * 1000 ≤ s.devTime) ∧
    (let s : State := { State.reset with pwr := { selB := true, aOk := true }, devTime := 100000000 }
     s.pwr.selB = true ∧ s.pwr.aOk = true ∧ s.pwr.co = false ∧ s.pwr.autoret = true ∧
     s.pwr.aOkT + (if s.pwr.retdly = 0 then 256 else s.pwr.retdly.toNat) * 1000000 ≤ s.devTime) ∧
    State.reset.pwr.aonB ≠ true ∧ (State.sport { State.reset with sp := [(2, { en := true })] } 2).en = true := by
  decide +kernel

/-! ## Resets and security (20) -/

/-- A flash whose directory is blank and whose copies are none. -/
def blankFlash : FlashView := { answering := true, sfdp := some { quad := true, addr4 := false }, dirOk := true, bytes := List.replicate 64 0 }

theorem fwValid_nil (s : State) : fwValid s [] = false := by simp [fwValid, fwHeader, numAt, slice, leNat]

theorem wit_boot : State.reset.sec.bootState = 0 ∧ State.reset.sec.burn = none ∧ (Instr.firmwareVerify blankFlash).wf = true ∧ blankFlash.sfdp ≠ none ∧
    fwValid State.reset (slice blankFlash.bytes 0x10000 (128 + 2 ^ 21 + 256)) = false ∧
    fwValid State.reset (slice blankFlash.bytes 0x220000 (128 + 2 ^ 21 + 256)) = false ∧
    (let s : State := { State.reset with sec := { romRunning := true } }; s.sec.romRunning = true ∧ s.sec.bootState = 0) ∧
    (let s : State := { State.reset with sec := { bootState := 1 } }; s.sec.bootState = 1 ∧ trainingOk { pkgsz := 1, ranks := 1, chok := 0xFF } = true) ∧
    (let s : State := { State.reset with mc := { trained := true } }; s.mc.trained = true ∧ (0xFE : BitVec 8) ≠ 0xFF) :=
  ⟨by decide +kernel, by decide +kernel, by decide +kernel, by decide +kernel, by simpa [slice, blankFlash] using fwValid_nil _, by simpa [slice, blankFlash] using fwValid_nil _, by decide +kernel⟩

theorem wit_resets : State.idle running = false ∧ (State.pace running).state ≠ .aborted ∧ State.idle (hostMbox 1) = true ∧
    bitAt (State.mbox (hostMbox 1) 0).peer.toNat 0 = true ∧ State.reset.hq.linkUp = false ∧
    (let s : State := { State.reset with sec := { burn := some (.img 1) } }; s.sec.burn ≠ none ∧ s.sec.burn = some (.img 1) ∧ s.sec.sysWaits = none) ∧
    (let s : State := { State.reset with sec := { open_ := true } }; s.sec.open_ = true ∧ State.reset.sec.open_ = false) := by
  decide +kernel

/-- A request buffer that holds the words given from its start. -/
def requests (ws : List Nat) : State := { State.reset with sec := { reqbuf := ws.zipIdx.map fun p => (p.2, BitVec.ofNat 32 p.1) } }

/-- An ADVANCE_IMG request to value 5 by slot 0: malformed with its reserved bytes set, stale without a nonce. -/
theorem wit_request : (let s := requests [3, 5, 0, 1]
      requestOf (reqBytes s) .advImg = some (3, .img 5) ∧ s.sec.busy = false ∧ numAt (reqBytes s) 0 2 = 3 ∧ reqFormed (reqBytes s) = false) ∧
    (let s := requests [3, 5]; reqFormed (reqBytes s) = true ∧ s.sec.nonce ≠ some (reqNonce (reqBytes s))) ∧
    (let s := { requests [3, 5] with sec := { (State.sec (requests [3, 5])) with nonce := some 0 } }
     reqFormed (reqBytes s) = true ∧ s.sec.nonce = some (reqNonce (reqBytes s))) := by
  decide +kernel

/-! ## Registers (21) -/

def reg (off : Nat) (a : Agent := .host 0) : RegAccess := { agent := a, offset := off, ndw := 1, be := 15, data := 1 }

theorem reaches (s : State) (x : RegAccess)
    (h : (x.space == .bar0 && !x.poisoned && agentReaches s x.agent x.offset && accessValid x && s.sec.bootState != 0xF && offPowered s x.offset &&
      decide (x.offset < 0x4000000)) = true) : Reaches s x := by
  simp only [Bool.and_eq_true, bne_iff_ne, decide_eq_true_eq, beq_iff_eq, Bool.not_eq_true'] at h
  exact ⟨h.1.1.1.1.1.1, h.1.1.1.1.1.2, h.1.1.1.1.2, h.1.1.1.2, h.1.1.2, h.1.2, h.2⟩

theorem wit_registers : Reaches State.reset (reg 0x8) ∧ Reaches { State.reset with sec := { cores := 1 } } (reg 0x1004C (.mp 0)) ∧ Reaches State.reset (reg 0x1000) ∧
    Reaches running (reg 0x10000) ∧ Reaches State.reset (reg 0x10008) ∧ Reaches State.reset (reg 0x1000C) ∧ Reaches State.reset (reg 0x40020) :=
  ⟨reaches _ _ (by decide +kernel), reaches _ _ (by decide +kernel), reaches _ _ (by decide +kernel), reaches _ _ (by decide +kernel),
   reaches _ _ (by decide +kernel), reaches _ _ (by decide +kernel), reaches _ _ (by decide +kernel)⟩

theorem wit_violation : let x := { reg 8 with ndw := 2 }
    (Instr.registerWrite x).wf = true ∧ x.space = .bar0 ∧ agentReaches State.reset x.agent x.offset = true ∧ accessEmpty x = false ∧ accessValid x = false ∧
    State.idle running = false ∧ BitVec.ofNat 2 ((reg 0x10000).data.toNat % 4) ≠ (State.pace running).mode := by
  decide +kernel

/-- Bed 0 claims S tile 0 and Q tile 67. -/
def bedDev : State :=
  { running with cfg := { image := some { plcs := [{ plc1 with ctxs := [{ beds := [{ bed := 0, ntile := 2 }], blocks :=
      [{ tile := 0, bed := 0, claimed := true }, { tile := 67, bed := 0, claimed := true }] }] }] }, state := 3 } }

theorem wit_bed_registers : bedDefined bedDev 0 = true ∧ selQueue bedDev (.mp 0) 0 = some (0, 0) ∧ bedDefined bedDev 1 = false ∧
    selQ bedDev (.host 0) 0 = some 67 := by
  decide +kernel

theorem wit_rrp : (let e : Engine := { rwp := 16, szl := 4 }; (e.rwp - 0).toNat ≤ (if e.szl = 0 then 0 else 2 ^ e.szl.toNat)) ∧
    (let e : Engine := { rwp := 17, szl := 4 }; (if e.szl = 0 then 0 else 2 ^ e.szl.toNat) < (e.rwp - 0).toNat) := by
  decide

/-! ## Sensor ports (14) -/

/-- The header and pixels of row 5 of view 0, eight pixels of eight bits. -/
def lineHead : List Byte := [0xA1, 0, 8, 0, 5, 0, 0, 0, 8, 0, 0, 0, 0, 0, 0, 0, 10, 20, 30, 40, 50, 60, 70, 80]

/-- With its CRC. -/
def lineBody : List Byte := lineHead ++ natLe 2 (crc16 lineHead)

/-- Port 0 receives a line of a view eight pixels wide, while the queue holds n entries. -/
def lineState (n : Nat) (s : State) : State :=
  { s with
    cfg := { (State.cfg s) with image := some { plcs := [{ plc1 with ctxs := [{ nce := some [8] }] }] }, state := 3 }
    sp := [(0, { en := true, state := .body, v0 := { pixfmt := 8, expect := some 5, queue := List.replicate n {} } })] }

theorem wit_line : lineBody.length = lnLength lineBody ∧ lnCrcOk lineBody = true ∧ lnHdrOk (lineState 0 running) 0 lineBody = true ∧
    State.idle (lineState 0 running) = false ∧ (State.pace (lineState 0 running)).state ≠ .aborted ∧ lnRow lineBody = 5 ∧
    (((lineState 8 running).sport 0).view (lnView lineBody)).queue.length + lnWidth lineBody / 8 ≤ 8192 ∧
    lnCrcOk (lineHead ++ [0, 0]) = false ∧ lnHdrOk State.reset 0 lineBody = false ∧ State.idle (lineState 0 State.reset) = true := by
  decide +kernel

theorem wit_line_sync : (let s : State := { State.reset with sp := [(3, { state := .hunt })] }; (s.sport 3).state = .hunt ∧ (s.sport 3).clklost = false) ∧
    (State.sport (lineState 0 running) 0).state = .body ∧ (State.sport (lineState 0 running) 0).discard = false ∧ (State.reset.sport 3).state = .off ∧
    (State.sport (lineState 0 running) 0).en = true := by
  decide +kernel

theorem wit_sp_cfg : spCfgOk 0x00C80003 = true ∧ bitAt 0x00C80003 0 = true ∧ spCfgOk 0x00C70003 = false ∧ spCfgOk 0x06400003 = true ∧
    spCfgOk 0x06410003 = false := by
  decide

theorem test_line_queued : ((lineComplete (lineState 0 running) 0 [lineBody]).sport 0).v0.queue.map (fun e => (e.payload, e.vb, e.sol)) =
    [(0x00500046003C00320028001E0014000A, 0xFFFF, true)] := by
  decide +kernel

/-! ## The narrow-channel engine, the post-processor (10) -/

/-- A parameter block of one view 8 wide on port 0, its schedule, and crops of one slot, one row of one token, one segment. -/
def nceBytes : List Byte :=
  padBytes 256 [8] ++ padBytes 16 [1] ++ padBytes 192 [0] ++ padBytes 112 [0] ++ [1, 1, 1, 1, 8, 0, 1, 0, 16] ++ padBytes 23 [0] ++ [0, 0, 1, 0]

def entryOf (p : BitVec 128) : SpEntry := { payload := p, par := parityOf p }

def nceDev (n : Nce) (q : List SpEntry) : State :=
  { running with
    cfg := { image := some { plcs := [{ plc1 with ctxs := [{ nce := some nceBytes, pp := some [] }] }] }, state := 3 }
    sp := [(0, { en := true, v0 := { queue := q } })], nce := n }

theorem wit_intake : intakeDue (nceDev {} [entryOf 7]) = true ∧ (State.nce (nceDev {} [entryOf 7])).badParity = [] ∧
    (∀ e ∈ (State.viewQueue (nceDev {} [entryOf 7]) nceBytes 0).take 1, e.par = parityOf e.payload) ∧
    State.nceBlock (nceDev {} []) = nceBytes ∧ State.nextView (nceDev {} []) = 0 ∧ nvWidth nceBytes 0 / 8 = 1 ∧
    intakeDue (nceDev {} [{ entryOf 7 with par := 0 }]) = true ∧ ∃ e ∈ (State.viewQueue (nceDev {} [{ entryOf 7 with par := 0 }]) nceBytes 0).take 1,
      e.par ≠ parityOf e.payload := by
  decide +kernel

/-- A line of view 0 to crop. -/
def cropLine : CropLine := { view := 0, rowBase := 0, y1 := 0, y2 := 0, x1 := 0, x2 := 0, boxid := 1 }

theorem wit_crops : let s := nceDev {} []
    (stepRuns s = true ∧ s.nceOn = true ∧ crCW nceBytes ≠ 0 ∧ s.pace.rakeAct = false ∧ s.cropWindow = s.nce.cropWin ∧ s.nce.reqDone = false) ∧
    (let s := nceDev { reqDone := true, rx := [(32, [ones])], slots := [(0, { line := some cropLine, clipped := true })] } []
     s.nceOn = true ∧ s.nce.reqDone = true ∧ 0 < crNSEG nceBytes ∧ mget 0 s.nce.cropNext 0 < crST nceBytes ∧ crRH nceBytes * crRWT nceBytes ≠ 0 ∧
     crRH nceBytes * crRWT nceBytes ≤ (mget [] s.nce.rx 32).length ∧ (mget {} s.nce.slots 0).line = some cropLine ∧ (mget {} s.nce.slots 0).seg = 0 ∧
     mget 0 s.nce.cropNext 8 = 0) := by
  decide +kernel

/-- One candidate of view 0, ripe once the front stands at its row. -/
def cand : Candidate := {}

theorem wit_pp : let s := ringDev 2 { nceDev {} [] with pp := { queue := [cand], front := [(0, some 0)] } }
    ppDue s = true ∧ s.pp.badParity = [] ∧ s.cropWindow = s.nce.cropWin ∧ ppHeads s.ppBlock = [] ∧ s.pp.rx = [] ∧ s.nce.rx = [] ∧ s.pp.queue = [cand] ∧
    s.pp.accepted = [] ∧ isRipe s (ppSW s.ppBlock) cand = true ∧ ppTextClass s.ppBlock cand.cls = false := by
  decide +kernel

/-! ## Stream engines (13) -/

/-- Engine 0 writes one row of one token to address 0, while e(S,1) has a quota of two outward tokens. -/
def engineDev (e : Engine) (g : EdgeTile) : State :=
  { running with
    mc := { ready := true, pkgsz := 1 }, se := { eng := [(0, e)] }
    edges := [(65, { g with cfg := [(0, { claimed := true, qport := [0, 0, 0, 0, 2] })], parked := false })] }

theorem wit_bursts : (let s := engineDev { wbuf := [{ last := true }] } {}
      s.mc.ready = true ∧ s.mc.quiesced = false ∧ winner (fillEngines s) false = some (2, 0) ∧
      nextWrite (fillEngines s) ((fillEngines s).engine 0) = some [{ last := true }] ∧ (s.engine 0).bursts.length ≤ 6) ∧
    State.reset.mc.ready = false ∧ (winner (fillEngines (engineDev {} {})) false = none) ∧
    ((State.engine (engineDev { bursts := [{ kind := .write [{}] }] } {}) 0).bursts = { kind := .write [{}], addr := 0 } :: []) ∧
    ((State.engine (engineDev { bursts := [{ kind := .read 2 0 false }] } {}) 0).bursts = { kind := .read 2 0 false, addr := 0 } :: []) ∧
    (State.engine (engineDev { bursts := [{}] } {}) 0).bursts = { kind := .desc false, addr := 0 } :: [] := by
  decide +kernel

theorem wit_engine_token : let s := engineDev { hasWrite := true, wlist := { write := true, descs := [{ rowtok := 1, nrow := 1 }] }, wdescFetched := 1 } { outSlots := [ones] }
    (s.edge 65).outSlots = ones :: [] ∧ edgeLive s 65 = true ∧ (s.edge 65).outCnt < (s.edge 65).ctxCfg.quota 4 ∧ tokParOk ones = true ∧
    writeDesc (s.engine 0) = some { rowtok := 1, nrow := 1 } ∧ writeRoom (s.engine 0) = true ∧ (s.engine 0).wwalk.d < (s.engine 0).wdescFetched ∧
    (s.engine 0).wlist.cmp = 0 ∧ (s.engine 0).discardRow = false ∧ rowNoFit (s.engine 0) = false ∧ tokParOk { ones with par := 0xFFFF } = false := by
  decide +kernel

/-! ## Events (23) -/

theorem wit_event_room : State.reset.hq.evq.length < 256 ∧ ∃ s : State, 256 ≤ s.hq.evq.length :=
  have h : ∀ n, ∃ s : State, n ≤ s.hq.evq.length := fun n => ⟨{ State.reset with hq := { evq := List.replicate n {} } }, by simp⟩
  ⟨by decide, h 256⟩

/-! ## Further clauses: the fabric and the tiles -/

/-- Edge tile e with quotas for both directions and what stands in its slots. -/
def edgeDev (e q0 q4 : Nat) (outs : List Token) (s : State := running) : State :=
  { s with
    cfg := { (State.cfg s) with stage := 3 }
    edges := [(e, { cfg := [(0, { claimed := true, qport := [q0, 0, 0, 0, q4, 0, 0, 0] })], parked := false, outSlots := outs })] }

/-- A channel of the NCE offers a token, VC 1 of port 0 one of step 0 and VC 2 one of step 9; port 0 has a credit on VC 1 and none on VC 2. -/
def sources (s : State) : State :=
  { s with nce := { chan := [(0, [ones])] }, lk := { ports := [(0, { state := .up, vcbuf := [(1, [(ones, 0)]), (2, [(ones, 9)])], cred := [(1, 1)] })] } }

theorem wit_inward :
    (let s := sources (edgeDev 0 1 0 [])
     s.cfg.stage ≠ 0 ∧ s.cfg.stage ≠ 15 ∧ s.holding = false ∧ (s.edge 0).ctxCfg.claimed = true ∧ (s.edge 0).parked = false ∧
     (s.edge 0).inCnt < (s.edge 0).ctxCfg.quota 0 ∧ (s.edge 0).inSlots.length < 2 ∧ s.pace.rakeAct = false ∧ inwardHead s 0 = some ones ∧
     westSkew s 0 = none) ∧
    (let s := sources (edgeDev 97 1 0 []); inwardHead s 97 = some ones ∧ westSkew s 97 = none) ∧
    (let s := sources (edgeDev 98 1 0 []); inwardHead s 98 = some ones ∧ westSkew s 98 = some 9 ∧ s.pace.state ≠ .aborted) ∧
    (let s := edgeDev 0 1 0 [] (running { rakeAct := true }); s.pace.rakeAct = true ∧ s.holding = false) := by
  decide +kernel

theorem wit_outward :
    (let s := sources (edgeDev 97 0 1 [ones])
     s.holding = false ∧ (s.edge 97).outCnt < (s.edge 97).ctxCfg.quota 4 ∧ (s.edge 97).outSlots = [ones] ∧ outwardRoom s 97 = true ∧
     tokParOk ones = true) ∧
    (let s := edgeDev 0 0 1 [{ ones with par := 7 }]; outwardRoom s 0 = true ∧ tokParOk { ones with par := 7 } = false ∧ s.pace.state ≠ .aborted) ∧
    (let s := sources (edgeDev 98 0 1 [ones]); mget 0 (s.port 0).cred 2 = 0 ∧ s.pace.rakeAct = false) ∧
    (let s := sources (edgeDev 98 0 1 [ones] (running { rakeAct := true, rakeDrop := true }))
     mget 0 (s.port 0).cred 2 = 0 ∧ s.pace.rakeAct = true ∧ s.pace.rakeDrop = true) := by
  decide +kernel

/-- Channel-mode loads that advance the counter: its tag empty, and the token's. -/
theorem wit_channel_loads :
    (let s := oneTile 1 (core (word 3 2 0 0x180) [(0, layer)] [(1, [ones])])
     (Stands s 1 .m 3 ∧ quotaMet s 1 ∧ ∀ c, closesOk s 1 c) ∧ loadChannel (s.tile 1).instr = true ∧ loadAdv (s.tile 1).instr = true ∧
     mget 0 (s.tile 1).m.kc 0 < (mDesc (s.tile 1) (s.tile 1).instr).nch ∧ mget none (s.tile 1).m.tag 0 = none) ∧
    (let s := oneTile 1 { (core (word 4 8 0 0x180) [(0, layer)] [(3, [ones])]) with m := { tag := [(0, some 5)] } }
     (Stands s 1 .m 4 ∧ quotaMet s 1 ∧ ∀ c, closesOk s 1 c) ∧ loadChannel (s.tile 1).instr = true ∧
     mget none (s.tile 1).m.tag 0 = some (tokAt (firing s 1) 3).bseq) :=
  ⟨⟨stood _ _ _ _ (by decide +kernel) (by decide +kernel), by decide +kernel⟩,
   stood _ _ _ _ (by decide +kernel) (by decide +kernel), by decide +kernel⟩

/-- The channel load's 16 bytes stand at its channel's place: of channel 3 of a layer of group 32, from 3 x 16. -/
theorem test_channel_ldc : let s := oneTile 1 { (core (word 3 2 0 0x180) [(0, layer)] [(1, [ones])]) with m := { kc := [(0, 3)] } }
    let m := ((ldcFire s 1).tile 1).m
    mget 0 m.code 47 = 0 ∧ mget 0 m.code 49 = 0x3C ∧ mget 0 m.code 63 = 0x3C ∧ mget 0 m.code 65 = 0 ∧ mget 0 m.kc 0 = 4 := by
  decide +kernel

/-- A DEQ of a K4 block at its closing firing. -/
theorem wit_deq_block : let s := oneTile 67 { (qTile 4 1 1 (qd) 0) with q := { rt := some 5 } }
    (Stands s 67 .q 4 ∧ quotaMet s 67 ∧ ∀ c, closesOk s 67 c) ∧ deqReady s (s.tile 67) (s.tile 67).instr = true ∧
    (qDesc (s.tile 67) (s.tile 67).instr).transport = false ∧ (s.tile 67).q.rt = some (tokAt (firing s 67) 0).bseq :=
  ⟨stood _ _ _ _ (by decide +kernel) (by decide +kernel), by decide +kernel⟩

/-- A RUN that writes slot 0, its bank free and used up. -/
def runWrite (b : AMap Nat) : GridTile :=
  { (core (word 3 1 0 0) [(0, 6 * 2 ^ 60 + 2 ^ 59), (1, 2 ^ 16), (2, 2 ^ 52)] [(0, [ones])]) with s := { bankUse := b } }

theorem wit_run_write :
    (let s := sDev (runWrite [])
     (Stands s 0 .s 3 ∧ quotaMet s 0 ∧ QueuesWhole (s.tile 0)) ∧ runReady s (s.tile 0) (s.tile 0).instr = true ∧
     (∃ l, agWords (s.tile 0) (s.tile 0).instr = some l ∧ agRefused (s.tile 0).instr (Ag.ofWords l) = false ∧ (Ag.ofWords l).wr = true ∧
       agOffset (Ag.ofWords l) (runIdx (s.tile 0) (s.tile 0).instr) = some 0 ∧ agSlot (s.tile 0) (Ag.ofWords l) 0 = .ok 0) ∧
     mget 0 (atBeat s 0 5 []).s.bankUse 0 < 2) ∧
    2 ≤ mget 0 (atBeat (sDev (runWrite [(0, 2)])) 0 5 []).s.bankUse 0 :=
  have h := stood (sDev (runWrite [])) 0 .s 3 (by decide +kernel) (by decide +kernel)
  ⟨⟨⟨h.1, h.2.1, whole_of _ rfl rfl⟩, by decide +kernel, ⟨_, rfl, by decide +kernel, by decide +kernel, by decide +kernel, by rfl⟩, by decide +kernel⟩,
   by decide +kernel⟩

/-- A RUN of the streamed descriptor where none has come; one whose slot lies before its region. -/
theorem wit_run_faults :
    (let s := sDev (core (word 3 0 1 (127 * 16)))
     (Stands s 0 .s 3 ∧ quotaMet s 0 ∧ QueuesWhole (s.tile 0)) ∧ agWords (s.tile 0) (s.tile 0).instr = none) ∧
    (let s := sDev (core (word 3 0 1 0) [(0, 6 * 2 ^ 60), (1, 2 ^ 16), (2, 2 ^ 52), (3, 0)])
     Stands s 0 .s 3 ∧ quotaMet s 0 ∧ QueuesWhole (s.tile 0)) :=
  have h := stood (sDev (core (word 3 0 1 (127 * 16)))) 0 .s 3 (by decide +kernel) (by decide +kernel)
  have k := stood (sDev (core (word 3 0 1 0) [(0, 6 * 2 ^ 60), (1, 2 ^ 16), (2, 2 ^ 52), (3, 0)])) 0 .s 3 (by decide +kernel) (by decide +kernel)
  ⟨⟨⟨h.1, h.2.1, whole_of _ rfl rfl⟩, by decide +kernel⟩, k.1, k.2.1, whole_of _ rfl rfl⟩

/-- The hard ports' tile with other bookkeeping of its beat. -/
def hardBeat (f : SState → SState) : State := { hardDev with tiles := [(0, { (hardDev.tile 0) with s := f (hardDev.tile 0).s })] }

/-- A push to which the core's operation gave room; one to a bank used up; a pop of a queue pushed in this beat; one of a bank used up. -/
theorem wit_hard_beats :
    pushFreed ((hardBeat fun s => { s with beatRank := 5, freed := [2] }).tile 0) 2 = true ∧
    2 ≤ mget 0 (atBeat (hardBeat fun s => { s with bankUse := [(0, 2)] }) 0 1 []).s.bankUse (slotBank 2) ∧
    (2 : Nat) ∈ ((hardBeat fun s => { s with pushedNow := [2], beatRank := 1 }).tile 0).s.pushedNow ∧
    2 ≤ mget 0 (atBeat (hardBeat fun s => { s with bankUse := [(0, 2)] }) 0 6 [2]).s.bankUse (slotBank 0) := by
  decide +kernel

/-- Three accesses of one bank: the next beat serves the write and the read that follows it, which sees it, and leaves one read over. -/
theorem test_three_left : let l : List (Nat × SlotAccess) := [(1, .write 0 ones), (5, .read 0 0 .none), (6, .read 2 1 .stepEnd)]
    let s := sDev { (sTile 0 two2) with s := { (sTile 0 two2).s with deferred := l } }
    Claims.served l = l.take 2 ∧ Claims.leftOver l = l.drop 2 ∧ slotOk (seenAt (s.tile 0) [(1, .write 0 ones)] 0) = true := by
  decide +kernel

/-! ## Further clauses: an image and a request that pass, loads, PACE -/

/-- An image of 1,024 bytes that breaks no rule of Table PLC-6, in 16-byte numbers: one placement of one bed with tile 1, signed for slot 0 by
a key of the test's own.
Built from 11's tables. -/
def imgWords : List Nat :=
  [0x400010000013149534a, 0x1010200008820, 0x5000001000000000000000000, 0x0, 0x0, 0x0, 0x0, 0x0, 0x0, 0x0, 0x0, 0x0, 0x0, 0x0,
   0x0, 0x0, 0x100000015000000000ff000001, 0x100000016000000000ff000002, 0x400000017000000000ff000003,
   0x40000001b00000000000000004, 0x50000001f00000000000000005, 0xffff00010000, 0x1, 0x64000007d0000007d0000007d0,
   0x100a000000000000000000, 0x0, 0x0, 0x10000, 0x0, 0x0, 0x0, 0x10000000100010001, 0x0, 0x1000000000000000000000000,
   0x1000000000000000, 0x0, 0x0, 0x0, 0x0, 0x0, 0x0, 0x0, 0x0, 0x0, 0x0, 0x0, 0x0, 0x0, 0x31474953,
   0xc0dfb5ad2e75824814295ac74087404, 0x59039c8a269df19a0bc86f823f156f28, 0x4d0069ea90af47d2a0ed01f698b37d28,
   0x84e816f3150ad1233c2f854c6a664ac1, 0x4ddc562e930cdd6a337018298cfba5c9, 0x5445250855b663f2823ed452b1c0748a, 0x38,
   0xbddffb62f39019fdcf2eac64f5e9d686, 0x1218f29ab4e26ac1f1ed99ea984ae5d1, 0xe24b1767b4edc4ecbd3573bb5dc247d1,
   0x33b5f5249f62542f5eba64e24c479e27, 0x51be8d83fd974b877da833ceb37dcd2d, 0x4527fc31a5ef49d222a449a6f02c32f9, 0x0, 0x0]

/-- The SHA-384 hash of that key, as slot 0 holds it. -/
def keyHash : Nat :=
  0x87950117c6d71d1af1156fbdd17230fd1031ff7c1fb461ff8dab045be50631660b144bd40143a851a34416bbf2f4d013

/-- Fuses with slot 0 programmed for it. -/
def keyFuses : Fuses := { shadow := BitVec.ofNat 1672 (keyHash + 2 ^ 1536) }

/-- IMG_LOAD of the image, from LPDDR6 or from host memory, on an unlocked device of stepping B0. -/
def loading (s : State) (host : Bool := false) : State :=
  cmdDev { s with mc := { ready := true, pkgsz := 1 }, glb := { stepping := .b0 }, sec := { fuses := keyFuses } } 0x10
    ([b2n host, 0, 0, 0, 0, 0, 0, 0].map (BitVec.ofNat 8) ++ natLe 8 0 ++ natLe 8 1024)

set_option maxRecDepth 100000 in
theorem wit_image_passes : loadChecks (loading State.reset) (imgWords.flatMap (natLe 16)) 1024 0 0 = none := by decide +kernel

/-- The same where the fabric is open or closed, out of host memory, with the domain of its tile off; and an image not read whole. -/
theorem wit_image_loads : (let s := loading State.reset
      curIs s 0x10 = true ∧ s.cfg.goal = .none ∧ s.mc.ready = true ∧ loadAddrOk s = true ∧ s.pace.state = .idle ∧ s.cfg.stage = 0 ∧
      loadFromHost s = false ∧ loadLen s = 1024 ∧ loadPlc s = 0 ∧ loadPos s = 0) ∧
    (let s := loading { State.reset with cfg := { stage := 3, state := 3 } }; s.cfg.stage ≠ 0 ∧ s.cfg.stage ≠ 15) ∧
    (let s := loading State.reset true; loadFromHost s = true ∧ s.canRequest = true) ∧
    (let s := { (loading State.reset true) with hq := { (loading State.reset true).hq with bme := false } }
     loadFromHost s = true ∧ s.canRequest = false ∧ imageBytes s .failed .good = none) ∧
    imageBytes (loading State.reset) (.ok []) .uncorrectable = none := by
  decide +kernel

/-- An ADVANCE_IMG request to value 5, signed by slot 0's key under nonce 0. -/
def reqWords : List Nat :=
  [0x3, 0x5, 0x0, 0x0, 0x0, 0x0, 0x0, 0x0, 0x0, 0x0, 0x0, 0x0, 0x0, 0x0, 0x0, 0x0, 0x0, 0x0, 0x0, 0x0, 0x0, 0x0, 0x0, 0x0, 0x0,
   0x0, 0x0, 0x0, 0x74087404, 0x814295ac, 0xd2e75824, 0xc0dfb5a, 0x3f156f28, 0xbc86f82, 0x269df19a, 0x59039c8a, 0x98b37d28,
   0xa0ed01f6, 0x90af47d2, 0x4d0069ea, 0x6a664ac1, 0x3c2f854c, 0x150ad123, 0x84e816f3, 0x8cfba5c9, 0x33701829, 0x930cdd6a,
   0x4ddc562e, 0xb1c0748a, 0x823ed452, 0x55b663f2, 0x54452508, 0x38, 0x0, 0x0, 0x0, 0xf5e9d686, 0xcf2eac64, 0xf39019fd,
   0xbddffb62, 0x984ae5d1, 0xf1ed99ea, 0xb4e26ac1, 0x1218f29a, 0x5dc247d1, 0xbd3573bb, 0xb4edc4ec, 0xe24b1767, 0xc8bb220f,
   0x124a8c3e, 0x3af96438, 0x6a649a99, 0x36c62c76, 0x1c5da62b, 0x2088ff7b, 0xec25b18f, 0x60b7a3c4, 0xa7639a5, 0xf4ae14b6,
   0xe945b2fb]

set_option maxRecDepth 100000 in
theorem wit_request_passes : let s := { (requests reqWords) with sec := { (requests reqWords).sec with nonce := some 0, fuses := keyFuses } }
    reqFormed (reqBytes s) = true ∧ s.sec.nonce = some (reqNonce (reqBytes s)) ∧ reqSigned s.sec.fuses (reqBytes s) = true ∧
    reqAuthorised s (reqBytes s) = true ∧ requestOf (reqBytes s) .advImg = some (3, .img 5) := by
  decide +kernel

theorem wit_burns : (let s : State := { State.reset with sec := { burn := some (.prog 1 5), fuses := keyFuses } }
      s.sec.burn = some (.prog 1 5) ∧ s.sec.sysWaits = none) ∧
    (let f : Fuses := { shadow := 2 ^ 384 }; slotDamaged f 1 = true ∧ slotGood f 1 = false) ∧
    (let f := keyFuses; f.arbImg < 5 ∧ f.arbFw < 5 ∧ shadowParity (upset f.shadow [7]) ≠ shadowParity f.shadow ∧
      shadowParity (upset f.shadow [7, 7]) = shadowParity f.shadow) := by
  decide +kernel

/-- The 10 ns decision runs: on a step-end, a section-end and a task-end step; with a report that differs; beyond the watchdog's limit. -/
theorem wit_decides (r : Marker) (h : r ∈ [.stepEnd, .sectionEnd, .taskEnd]) :
    (let s := { running { deciding := true, decLeft := 10, rank := r } with
       beds := [(0, { reported := true, report := r }), (255, { reported := true, report := r })] }
     stepRuns s = true ∧ s.pace.deciding = true ∧ s.pace.decLeft ≤ nsOf s 10 ∧ s.dbgHold = false ∧
     s.pace.clock + s.pace.decLeft - s.pace.relT - (s.pace.stepHold + 0) ≤ wdogLimit s ∧ s.pace.req = 0 ∧
     (∀ k ∈ s.bedIds, (s.bed k).report = s.pace.rank)) ∧
    (let s := { running { deciding := true, decLeft := 10, rank := r } with beds := [(0, { reported := true }), (255, { reported := true })] }
     stepRuns s = true ∧ ∃ k ∈ s.bedIds, (s.bed k).report ≠ s.pace.rank) ∧
    (let s := running { deciding := true, decLeft := 10, rank := r, clock := 32000 }
     wdogLimit s < s.pace.clock + s.pace.decLeft - s.pace.relT - (s.pace.stepHold + 0)) := by
  simp only [List.mem_cons, List.not_mem_nil, or_false] at h
  rcases h with rfl | rfl | rfl <;> decide +kernel

/-- A last instant before the decision; the PP has records to write. -/
theorem wit_waits : (let s := running { deciding := true, decLeft := 10 }; nsOf s 3 < s.pace.decLeft) ∧
    (let s := { running (due) with
       cfg := { (State.cfg running) with image := some { plcs := [{ plc1 with ctxs := [{ pp := some [] }] }] } }
       pp := { stepDone := true, records := [{}] } }
     s.pace.released = true ∧ s.ppSettled = false) := by
  decide +kernel

/-- Stage 3 of a start is the next to open; with a stop at the start step. -/
theorem wit_start_opens :
    (let s := cmdDev { running with pace := { state := .running }, cfg := { (State.cfg running) with stage := 2, goal := .start } } 0x20
     s.cfg.goal = .start ∧ s.cfg.pend = none ∧ s.cfg.stage = 2 ∧ s.hq.cur.isSome = true ∧ s.pace.released = false ∧ s.pace.rakeAct = false ∧
     s.pace.resumed = false ∧ s.pace.state = .running ∧ (∀ p ∈ s.tiles, p.2.health = []) ∧ s.pace.stopEn = false ∧ paceAgrees s = true ∧
     ∀ j < 16, s.listOf (s.secCtx 0) j false = none) ∧
    (let s := cmdDev { running with pace := { state := .running, stopEn := true }, cfg := { (State.cfg running) with stage := 2, goal := .start } } 0x20
     s.pace.stopEn = true ∧ s.pace.stopStep = s.pace.step) := by
  decide +kernel

/-- A PLC_SWITCH while the fabric is closed. -/
theorem wit_switch_closed : let s := cmdDev { loadedIdle with cfg := { (State.cfg loadedIdle) with stage := 0 } } 0x30
    curIs s 0x30 = true ∧ s.loaded = true ∧ s.cfg.stage = 0 ∧ plcCarried s 0 = true ∧ domainOff s plc1 = none := by
  decide +kernel

/-! ## Further clauses: host, mailboxes, firmware, links, twin, dump, power, registers, sensors, the PP, memory -/

/-- A host message where PEER does not name the host alone, a debug port's with and without permission; a message half in, one being skipped. -/
theorem wit_mailbox_clauses :
    (let s := { State.reset with mbx := [(0, { peer := 0x8001 })] }
     Claims.reaches s (.host 0) 0x30000 true ∧ Claims.reaches s .dbg 0x30000 true ∧ bitAt (s.mbox 0).peer.toNat 15 = true) ∧
    (let s := { State.reset with mbx := [(0, { peer := 2 })] }
     bitAt (s.mbox 0).peer.toNat 0 = false ∧ bitAt (s.mbox 0).peer.toNat 15 = false ∧ between (s.mbox 0).inq) ∧
    (let s := { State.reset with mbx := [(0, { peer := 1, inq := { part := [held 0x1000000], left := 1 } })] }
     (s.mbox 0).inq.skip = 0 ∧ 0 < (s.mbox 0).inq.left) ∧
    (let s := { State.reset with mbx := [(0, { peer := 1, inq := { skip := 2 } })] }; 0 < (s.mbox 0).inq.skip) ∧
    (let s := { State.reset with sec := { cores := 15 }, mbx := [(0, { peer := 1, dest := 0, inq := { words := [held 0x10009], headLeft := 1 } })] }
     Claims.reaches s (.mp 2) 0x30000 true ∧ Claims.reaches s (.mp 2) 0x30008 true ∧ between (s.mbox 0).outq ∧ destOk s 0 0 = true ∧
     opens s 0x30010 ∧ s.sec.cores ≠ 0) :=
  ⟨⟨reaches_of _ _ _ _ (by decide +kernel), reaches_of _ _ _ _ (by decide +kernel), by decide +kernel⟩,
   ⟨by decide +kernel, by decide +kernel, rfl, rfl, rfl⟩, by decide +kernel, by decide +kernel,
   reaches_of _ _ _ _ (by decide +kernel), reaches_of _ _ _ _ (by decide +kernel), ⟨rfl, rfl, rfl⟩, by decide +kernel, by unfold opens; decide +kernel,
   by decide +kernel⟩

/-- A sender that Table IRQ-3 does not permit, a LEN that it does not give, a TYPE that it does not define, a repeat of the kept MSEQ. -/
theorem wit_answers :
    (let ws := [hdrOf 15 3 0x20 9, 0, 0, 0]; Served (asked 0x8000 ws) 0 ws 2 ∧ (.pacehint 0 0, true, [9, 10, 11, 12], 3) ∈ messages 0 0 ws ∧
      hdrSender (ws.headD 0) ∉ [9, 10, 11, 12]) ∧
    (let ws := [hdrOf 0 1 0x01 9, 0]; Served (asked 1 ws) 0 ws 2 ∧ hdrLen (ws.headD 0) ≠ 0) ∧
    (let ws := [hdrOf 0 0 0x91 9]; Served (asked 1 ws) 0 ws 2 ∧ ∀ x ∈ messages 0 0 ws, x.2.1 = false) ∧
    (let ws := [hdrOf 0 0 0x01 9]
     let s : State := { State.reset with sec := { bootState := 3 }, mbx := [(0, { peer := 1, inq := { words := ws.map held }, keptMseq := some 9
                                                                                  keptReply := [hdrOf 0 2 0x81 9, 0, 7] })] }
     headMessage s 0 = some (ws.map held) ∧ (s.mbox 0).keptMseq = some (hdrSeq (ws.headD 0)) ∧ hdrLen (hdrOf 0 2 0x81 9) = 2 ∧
     outReady s 0 3 = true ∧ destOk s 0 0 = true ∧ (s.mbox 0).outq.words = []) :=
  ⟨⟨served _ _ _ (by decide +kernel), by decide +kernel, by decide +kernel⟩, ⟨served _ _ _ (by decide +kernel), by decide +kernel⟩,
   ⟨served _ _ _ (by decide +kernel), by decide +kernel⟩, by decide +kernel⟩

/-- A hint from port 1 with port 2 in UP and its mailbox 5, free or full; a PLCSW at the head of its mailbox, its load under way or done. -/
def hintDev (n : Nat) : State :=
  let ws := [hdrOf 10 3 0x20 9, 4, 100, 2]
  { State.reset with
    sec := { bootState := 3 }, lk := { ports := [(1, { state := .up }), (2, { state := .up })] }
    mbx := [(0, { peer := 0x400, inq := { words := ws.map held } }), (5, { peer := 0x800, outq := { words := List.replicate n (held 0x10000) } })] }

theorem wit_hint_goes_on :
    Served (hintDev 0) 0 [hdrOf 10 3 0x20 9, 4, 100, 2] 2 ∧ portCode (hintDev 0) 2 = 11 ∧ mboxFor (hintDev 0) 0 11 = 5 ∧
    outReady (hintDev 0) 5 4 = true ∧ destOk (hintDev 0) 5 11 = true ∧
    (∀ p < 4, p ≠ 2 → ((hintDev 0).port p).isUp = true → portCode (hintDev 0) p = 10) ∧ outReady (hintDev 13) 5 4 = false :=
  ⟨served _ _ _ (by decide +kernel), by decide +kernel⟩

theorem wit_plcsw_ends (done : Bool) : let ws := [hdrOf 10 1 0x22 9, 0xFFFF0000]
    let t := asked 0x400 ws (upDev {} twoPlc)
    let s := { t with cfg := { t.cfg with swMbox := some 0, goal := if done then .none else .load, state := if done then 3 else 2 } }
    Served s 0 ws (if s.loaded = true ∧ s.cfg.plc.toNat = bits (msgWord ws 1) 0 8 then 2 else 3) ∧ s.cfg.swMbox = some 0 ∧
    (s.cfg.goal = .load ↔ done = false) := by
  cases done <;> exact ⟨served _ _ _ (by decide +kernel), by decide +kernel, by decide +kernel⟩

/-- An own probe comes back, another's comes; a NAK outside UP; no MSI-X enabled. -/
theorem wit_link_clauses :
    (let s := upDev { probeTx := [5], peerRec := helloRecOf helloDev 1 }
     Heard (s.port 1) hdr ∧ (5 : BitVec 64) ∈ (s.port 1).probeTx ∧ (6 : BitVec 64) ∉ (s.port 1).probeTx ∧ (s.port 1).txq = [] ∧
     (s.port 1).peerRec = helloRecOf helloDev 1 ∧ (helloRecOf helloDev 1).secmap.length = 16) ∧
    (Heard (State.port helloDev 1) hdr ∧ (State.port helloDev 1).state ≠ .up) ∧
    (let s := target { waiting := 1, wprio := 5, vmask := false } { State.reset with hq := { linkUp := true, bme := true }, ic := { msixEn := true } }
     sendDue s (s.target 3) = true ∧ s.ic.msixEn = true ∧ s.ic.fmask = false ∧ (s.target 3).vmask = false ∧ s.canRequest = true) :=
  ⟨⟨heard _ _ (by decide +kernel), by decide +kernel⟩, ⟨heard _ _ (by decide +kernel), by decide +kernel⟩, by decide +kernel⟩

theorem wit_twin_clauses :
    (let s : State := { State.reset with tw := { en := true, state := .conflict } }; s.idle = true ∧ opens s 0xA0000 ∧ s.tw.state = .conflict) ∧
    (∃ ws r, twinHead (twinMsg { state := .paired, pair := { waiting := true } } 3 0 [10, 0] (cmdDev State.reset 0x20)) 3 ws r ∧
      msgWord ws 2 + 2 ^ 32 * msgWord ws 3 < (cmdDev State.reset 0x20).devTime + (cmdDev State.reset 0x20).timeOff + 1000) ∧
    exceeds 65 (entry0.step + BitVec.ofNat 48 (if (checkDef checking entry0.defn).window = 0 then 64 else (checkDef checking entry0.defn).window)) :=
  ⟨⟨by decide +kernel, by unfold opens; decide +kernel, by decide +kernel⟩, ⟨_, _, twinHead_of _ 3 0 [10, 0] _ (by decide), by decide +kernel⟩,
   by unfold exceeds; decide +kernel⟩

theorem wit_dump_steps (n : Nat) : let s : State := { State.reset with
      flt := { dumpState := .writing, dumpStep := n, dumpLens := [64] }, sec := { bootState := 3 }, mc := { ready := true, pkgsz := 1 } }
    s.flt.dumpState = .writing ∧ s.flt.dumpStep = n ∧ s.sec.bootState = 3 ∧ s.mc.ready = true :=
  ⟨rfl, rfl, rfl, rfl⟩

/-- Sensor 3 has read 25 C for 100 ms while another of its block rose by 2 C; a changeover 1 ms beyond its settling without a readback in band. -/
theorem wit_power_clauses :
    (let s : State := { State.reset with pwr := { sens := [(3, 100)], seen := [3], watch := [(3, { since := 0, mates := [(4, 80, 88)] })] }, devTime := 100000000 }
     (100 : BitVec 16) = (25 : BitVec 14) ++ (0 : BitVec 2) ∧ s.pwr.excl.contains 3 = false ∧ s.pwr.seen.contains 3 = true ∧ mget 0 s.pwr.sens 3 = 100 ∧
     (mget {} s.pwr.watch 3).since + 100000000 ≤ s.devTime ∧ ∃ m ∈ (mget {} s.pwr.watch 3).mates, m.2.1 + 8 ≤ m.2.2) ∧
    (let s : State := { State.reset with pwr := { co := true, vinBand := false }, devTime := 1040000 }
     s.pwr.co = true ∧ s.pwr.coWarn = false ∧ s.pwr.coT + max 1 s.pwr.settle.toNat * 1000 + 1000000 ≤ s.devTime ∧ s.hq.evq.length < 255 ∧
     s.pwr.vinBand = false ∧ 100 * (600 : BitVec 16).toNat < 97 * (550 + 20 * s.pwr.veff)) ∧
    (let s : State := { State.reset with pwr := { clkLost := true } }; s.pwr.clkLost = true ∧ State.reset.pwr.clkLost = false) ∧
    State.domain { State.reset with pwr := { domOn := 0 } } 1 = false ∧
    (let s : State := { State.reset with pwr := { railsOk := false } }; s.sec.bootState = 0 ∧ s.pwr.railsOk = false) ∧
    (let f : FlashView := { answering := false, sfdp := none, dirOk := true, bytes := List.replicate 64 0 }; (Instr.firmwareVerify f).wf = true) := by
  decide +kernel

/-- The fabric block of tile 1023 is unused, off, and may go on. -/
theorem wit_kept_on : let s := { loadedIdle with pwr := { domOn := 0x1FFFFC3F } }
    (∀ e < 30, e ≠ 29 → bitAt (0x3FFFFC3F : BitVec 30).toNat e = domTarget s e) ∧ bitAt (0x3FFFFC3F : BitVec 30).toNat 29 ≠ domTarget s 29 ∧
    onPermitted s (0x3FFFFC3F : BitVec 30).toNat 29 = true ∧ s.loaded = true ∧ fabUsed s 15 = false := by
  decide +kernel

/-- Registers of a block that is off and after a failed boot; a poisoned write; a vector's entry in BAR4. -/
theorem wit_register_clauses :
    (let s : State := { State.reset with sec := { bootState := 0xF } }
     rowOpen s 0x1004C true = false ∧ rowOpen s 0x10008 false = false ∧ agentReaches s (.host 0) 0x1004C = true ∧ accessValid (reg 0x1004C) = true ∧
     accessEmpty (reg 0x1004C) = false ∧ (reg 0x1004C).wf = true) ∧
    rowOpen { State.reset with pwr := { domOn := 0 } } 0x60000 true = false ∧
    (let x : RegAccess := { reg 8 with poisoned := true }; x.wf = true ∧ x.space = .bar0 ∧ x.poisoned = true ∧ x.agent = .host 0) ∧
    (let x : RegAccess := { reg 0x38 with space := .bar4 }
     x.wf = true ∧ x.agent = .host 0 ∧ x.space = .bar4 ∧ x.be = 15 ∧ State.powered State.reset 2 = true ∧ x.offset = 16 * 3 + 8) ∧
    opens State.reset 0xC :=
  ⟨by decide +kernel, by decide +kernel, by decide +kernel, by decide +kernel, by unfold opens; decide +kernel⟩

/-- The good line on one lane. -/
theorem wit_lanes : OnLanes 1 [lineBody] lineBody where
  lanes := rfl
  cycles := by decide +kernel
  bytes := by decide +kernel
  noSync := fun j => ⟨0, by decide, by
    have h : ∀ j < 30, slice lineBody j 4 ≠ [0x0F, 0xE2, 0x47, 0xB9] := by decide +kernel
    by_cases c : j < 30
    · exact h j c
    · intro e
      have := congrArg List.length e
      simp only [slice, List.getD_cons_zero, List.length_take, List.length_drop] at this
      have l : lineBody.length = 26 := by decide +kernel
      rw [l] at this
      simp at this
      omega⟩

/-- A block of the PP whose class 0 is text, with its packer in bed 0, over crops of windows of cw steps and st slots. -/
def textDev (cw st : Nat) : State :=
  let t := ringDev 2 { nceDev {} [] with pp := { queue := [cand], front := [(0, some 0)] } }
  let c : CtxImage := { beds := [{ bed := 0, ntile := 1 }], nce := some (padBytes 576 [8] ++ natLe 8 st ++ natLe 2 cw),
                        pp := some (padBytes 768 [0] ++ [1]) }
  { t with cfg := { t.cfg with image := some { plcs := [{ plc1 with ctxs := [c] }] } } }

theorem wit_text : ppTextClass (textDev 0 0).ppBlock 0 = true ∧ ppDue (textDev 0 0) = true ∧ crCW (textDev 0 0).nceBlock = 0 ∧
    crCW (textDev 1 1).nceBlock = 1 ∧ crST (textDev 1 1).nceBlock = 1 ∧ crCW (textDev 2 1).nceBlock = 2 ∧ ppDue (textDev 2 1) = true ∧
    (textDev 0 0).bedIds.contains (ppPacker (textDev 0 0).ppBlock) = true ∧
    (let s := { (textDev 0 0) with hq := {} }; ringRoom s 2 = false ∧ ppRing s.ppBlock 1 = 0) := by
  decide +kernel

/-- A write burst into the dump region and one elsewhere. -/
theorem wit_kept_units : let s := engineDev {} {}
    memKept s (2 ^ 33 - 16) 16 = true ∧ memKept s 0 16 = false := by
  decide +kernel

end Sys2Proof.Tests
end

section
/-! SUPPORT. What one firing does to its tile, field by field, and that a firing whose plan leaves the core's buffers, index and counts
as they were is a firing in the sense of `Fired`. -/

namespace Sys2Proof.Claims

open Sys2Proof Sys2Proof.Machine

/-! ## The core that fires (R29) -/

/-- What `canFire` says of the core it lets fire. -/
structure Fireable (g : GridTile) : Prop where
  parked : g.parked = false
  halted : g.halted = false
  rest : g.rest = []
  inputs : ∀ p ∈ maskPorts (iIn g.instr), mget [] g.inb p ≠ []

theorem fireable_of_canFire {s : State} {t : Nat} {k : Kind} {opc : Nat} (h : canFire s t k opc = true) : Fireable (s.tile t) := by
  simp only [canFire, Bool.and_eq_true, Bool.not_eq_true', List.isEmpty_iff, List.all_eq_true] at h
  obtain ⟨⟨⟨⟨⟨⟨⟨-, -⟩, hparked⟩, hhalted⟩, hrest⟩, -⟩, -⟩, hin⟩ := h
  exact ⟨hparked, hhalted, hrest, fun p hp e => by simpa [e] using hin p hp⟩

theorem tileKind_of_canFire {s : State} {t : Nat} {k : Kind} {opc : Nat} (h : canFire s t k opc = true) : tileKind t = k := by
  simp only [canFire, Bool.and_eq_true, beq_iff_eq] at h
  obtain ⟨⟨⟨⟨⟨⟨⟨hkind, -⟩, -⟩, -⟩, -⟩, -⟩, -⟩, -⟩ := h
  exact hkind

/-! ## The tile a firing leaves -/

theorem mem_maskPorts {m p : Nat} : p ∈ maskPorts m ↔ p < 4 ∧ bitAt m p = true := by
  simp [maskPorts]

/-- R39: a firing consumes the head of each port of IN, and of no other. -/
theorem consume_heads_inb (g g' : GridTile) (w : BitVec 64) (hin : ∀ p ∈ maskPorts (iIn w), mget [] g.inb p ≠ []) (hg : g'.inb = g.inb)
    (p : Nat) (hp : p < 4) : mget [] (consume g' (heads g w)).inb p =
      if bitAt (iIn w) p then (mget [] g.inb p).drop 1 else mget [] g.inb p := by
  by_cases hm : bitAt (iIn w) p = true
  · have hpm : p ∈ maskPorts (iIn w) := mem_maskPorts.mpr ⟨hp, hm⟩
    obtain ⟨u, r, hu⟩ := List.exists_cons_of_ne_nil (hin p hpm)
    have hmem : (p, u) ∈ heads g w := List.mem_filterMap.mpr ⟨p, hpm, by simp [hu]⟩
    rw [if_pos hm, consume_inb _ p ⟨_, hmem, rfl⟩ (heads_nodup g w), hg]
  · have hno : ∀ x ∈ heads g w, x.1 ≠ p := fun x hx e =>
      hm (mem_maskPorts.mp (e ▸ (heads_ports g w).subset (List.mem_map_of_mem hx))).2
    rw [if_neg hm, consume_inb_other _ p hno, hg]

theorem mget_length_le {g : AMap (List Token)} {d : Nat} (h : (g.all fun p => decide (p.2.length ≤ d)) = true) (p : Nat) :
    (mget [] g p).length ≤ d := by
  induction g with
  | nil => exact Nat.zero_le d
  | cons x r ih =>
    obtain ⟨hx, hr⟩ : x.2.length ≤ d ∧ (r.all fun p => decide (p.2.length ≤ d)) = true := by simpa using h
    unfold mget
    split
    · exact hx
    · exact ih hr

/-- R34: no pipeline holds more tokens than the core's depth. -/
theorem spill_pipe_length (d : Nat) (g : GridTile) (p : Nat) : (mget [] (spill d g).pipe p).length ≤ d := by
  unfold spill
  split
  · next h => exact mget_length_le h p
  · exact mapAll_all [] _ _ (fun l => l.length ≤ d) (Nat.zero_le d) (fun _ _ => List.length_take_le _ _) p

/-- R34: the tokens beyond the depth wait behind those of the pipeline. -/
theorem spill_pipe_append_rest (d : Nat) (g : GridTile) (h : g.rest = []) (p : Nat) :
    mget [] (spill d g).pipe p ++ mget [] (spill d g).rest p = mget [] g.pipe p := by
  unfold spill
  split
  · simp [h]
  · simp [mget_mapAll]

/-- Table TRL-9 without a jump of the instruction's own. -/
theorem advance_seqNext (g : GridTile) (w : BitVec 64) (m : Marker) (h : g.halted = false) :
    ((advance g w m none).pc, (advance g w m none).rep, (advance g w m none).halted) = seqNext g.pc g.rep w m := by
  simp only [advance, seqNext, Bool.and_eq_true, beq_iff_eq, bne_iff_ne]
  split_ifs <;> simp [h]

/-- The firing itself changes the buffers, pipelines, index, counts and markers of the tile that its plan leaves, and nothing else. -/
theorem firedTile_frame (s : State) (k : Kind) (p : Plan) (w : BitVec 64) (ts : List (Nat × Token)) :
    let g := firedTile s k p w ts
    g = { p.g with inb := g.inb, passed := g.passed, hiMark := g.hiMark, tokUsed := g.tokUsed, pipe := g.pipe, rest := g.rest
                   pc := g.pc, rep := g.rep, halted := g.halted, fired := g.fired, parked := g.parked } := by
  intro g
  simp only [g, firedTile]
  have hc := consume_frame ts p.g
  generalize consume p.g ts = c at hc ⊢
  have hq := produce_frame p.out c
  generalize produce c p.out = q at hq ⊢
  have hr := spill_frame (coreDepth s.adr k) q
  generalize spill (coreDepth s.adr k) q = r at hr ⊢
  have ha := advance_frame r w (maxMark (toksOf ts)) p.jump
  generalize advance r w (maxMark (toksOf ts)) p.jump = a at ha ⊢
  rw [countFiring_frame, ha, hr, hq, hc]

theorem firedTile_m (s : State) (k : Kind) (p : Plan) (w : BitVec 64) (ts : List (Nat × Token)) :
    (firedTile s k p w ts).m = p.g.m := by
  rw [firedTile_frame]

/-- What a plan leaves for the firing itself to move: the core's buffers, pipelines, index and counts. -/
structure KeepsCore (g g' : GridTile) : Prop where
  inb : g'.inb = g.inb
  pipe : g'.pipe = g.pipe
  rest : g'.rest = g.rest
  pc : g'.pc = g.pc
  rep : g'.rep = g.rep
  halted : g'.halted = g.halted
  fired : g'.fired = g.fired
  parked : g'.parked = g.parked
  ctxCfg : g'.ctxCfg = g.ctxCfg

section

variable (s : State) (k : Kind) (p : Plan) (w : BitVec 64) (ts : List (Nat × Token))

/-- A firing takes its tokens out of the input buffers of its plan. -/
theorem firedTile_inb : (firedTile s k p w ts).inb = (consume p.g ts).inb := by
  simp only [firedTile]
  rw [countFiring_frame, advance_frame, spill_frame, produce_frame]

/-- The pipelines of a firing, and what waits behind them, are those that `spill` leaves of what was produced. -/
theorem firedTile_pipe_rest :
    let g := spill (coreDepth s.adr k) (produce (consume p.g ts) p.out)
    (firedTile s k p w ts).pipe = g.pipe ∧ (firedTile s k p w ts).rest = g.rest := by
  simp only [firedTile]
  rw [countFiring_frame, advance_frame]
  exact ⟨rfl, rfl⟩

/-- R34: no pipeline holds more than the core's depth after a firing. -/
theorem firedTile_pipe_length (i : Nat) : (mget [] (firedTile s k p w ts).pipe i).length ≤ coreDepth s.adr k := by
  rw [(firedTile_pipe_rest s k p w ts).1]
  exact spill_pipe_length _ _ i

/-- R34: a port's tokens follow those of its pipeline, in the pipeline or waiting behind it. -/
theorem firedTile_produced (h : p.g.rest = []) (i : Nat) :
    mget [] (firedTile s k p w ts).pipe i ++ mget [] (firedTile s k p w ts).rest i = mget [] p.g.pipe i ++ onPort p.out i := by
  obtain ⟨hpipe, hrest⟩ := firedTile_pipe_rest s k p w ts
  rw [hpipe, hrest, spill_pipe_append_rest, produce_pipe, consume_frame]
  · rfl
  · rw [produce_frame, consume_frame]
    exact h

/-- R45: a firing that counts is counted, and the one that completes the quota parks the core. -/
theorem firedTile_counted (hc : p.counts = true) :
    (firedTile s k p w ts).fired = p.g.fired + 1 ∧ (firedTile s k p w ts).parked = (p.g.parked || completing p.g) := by
  simp only [firedTile, countFiring, hc, if_true]
  rw [advance_frame, spill_frame, produce_frame, consume_frame]
  exact ⟨rfl, rfl⟩

/-- Table TRL-9: the index, the repeat and the halt after a firing with no jump of its own. -/
theorem firedTile_next (hj : p.jump = none) (hh : p.g.halted = false) :
    ((firedTile s k p w ts).pc, (firedTile s k p w ts).rep, (firedTile s k p w ts).halted) =
      seqNext p.g.pc p.g.rep w (maxMark (toksOf ts)) := by
  generalize hg : spill (coreDepth s.adr k) (produce (consume p.g ts) p.out) = g
  have hkept : g.pc = p.g.pc ∧ g.rep = p.g.rep ∧ g.halted = p.g.halted := by
    rw [← hg, spill_frame, produce_frame, consume_frame]
    exact ⟨rfl, rfl, rfl⟩
  obtain ⟨hpc, hrep, hhalted⟩ := hkept
  simp only [firedTile, hg, hj]
  rw [countFiring_frame, ← hpc, ← hrep]
  exact advance_seqNext g w _ (hhalted.trans hh)

end

/-! ## One firing (R29, R34, R39, R45) -/

/-- What follows a firing leaves its tile as the firing left it, where the kind does nothing at park. -/
theorem afterFiring_tile_self (s : State) (t : Nat) (p : Plan) (g : GridTile) (hq : tileKind t ≠ .q) (hs : tileKind t ≠ .s)
    (hw : p.warns = []) : (afterFiring s t p g).tile t = g := by
  rw [afterFiring_frame s t p g hq hs hw]
  exact State.setTile_tile_self s t g

theorem afterFiring_tile_other (s : State) (t u : Nat) (p : Plan) (g : GridTile) (hq : tileKind t ≠ .q) (hs : tileKind t ≠ .s)
    (hw : p.warns = []) (hu : u ≠ t) : (afterFiring s t p g).tile u = s.tile u := by
  rw [afterFiring_frame s t p g hq hs hw]
  exact (State.setTile_tile s t u g).trans (if_neg hu)

/-- On a kind that does nothing at park, a counted firing without a jump or warning, whose plan leaves the core to the firing, is one
firing of the core. -/
theorem fired_of_keepsCore {s : State} {t : Fin 1024} {k : Kind} {opc : Nat} {p : Plan} (hstands : Stands s t k opc) (hq : k ≠ .q)
    (hs : k ≠ .s) (hkeep : KeepsCore (s.tile t) p.g) (hcounts : p.counts = true) (hjump : p.jump = none) (hwarns : p.warns = []) :
    Fired s (afterFiring s t p (firedTile s k p (s.tile t).instr (firing s t))) t p.out := by
  have hkind : tileKind t = k := tileKind_of_canFire hstands.canFire
  obtain ⟨hparked, hhalted, hrest, hin⟩ := fireable_of_canFire hstands.canFire
  have hself := afterFiring_tile_self s t p (firedTile s k p (s.tile t).instr (firing s t)) (hkind ▸ hq) (hkind ▸ hs) hwarns
  obtain ⟨hfired, hpark⟩ := firedTile_counted s k p (s.tile t).instr (firing s t) hcounts
  have hcompl : completing p.g = completing (s.tile t) := by rw [completing, completing, hkeep.fired, hkeep.ctxCfg]
  constructor
  case consumed =>
    intro i hi
    rw [hself, firedTile_inb]
    exact consume_heads_inb _ _ _ hin hkeep.inb i hi
  case produced =>
    intro i _
    rw [hself, firedTile_produced _ _ _ _ _ (hkeep.rest.trans hrest), hkeep.pipe]
  case depth =>
    intro i _
    rw [hself, hkind]
    exact firedTile_pipe_length _ _ _ _ _ i
  case counted => rw [hself, hfired, hkeep.fired]
  case parks => rw [hself, hpark, hkeep.parked, hparked, hcompl, Bool.false_or]
  case next =>
    rw [hself, firedTile_next _ _ _ _ _ hjump (hkeep.halted.trans hhalted), hkeep.pc, hkeep.rep]
  case others => exact fun u hu => afterFiring_tile_other s t u p _ (hkind ▸ hq) (hkind ▸ hs) hwarns hu
  case frame => rw [afterFiring_frame s t p _ (hkind ▸ hq) (hkind ▸ hs) hwarns]; rfl

/-- R103: an M tile's firing that flips where its quota's end needs it has no closing fault. -/
theorem closingFaults_m_nil {s : State} {t : Fin 1024} {p : Plan} (h : closesOk s t p.flips) :
    closingFaults .m (s.tile t) p = [] := by
  unfold closingFaults
  split
  · rfl
  · next hdrives =>
    simp only [Bool.or_eq_true, Bool.not_eq_true', not_or, Bool.not_eq_false] at hdrives
    obtain ⟨⟨hcompl, hdrives⟩, -⟩ := hdrives
    simp [h hcompl hdrives]

/-! ## KCTL (R110) -/

/-- A KCTL that stands is one firing of its plan, with no fault. -/
theorem kctlFire_eq {s : State} {t : Fin 1024} (hstands : Stands s t .m 5) (hquota : quotaMet s t) (hcloses : closesOk s t false) :
    let p := kctlPlan s (s.tile t) (s.tile t).instr (firing s t)
    kctlFire s t = afterFiring s t p (firedTile s .m p (s.tile t).instr (firing s t)) := by
  intro p
  rw [kctlFire, fire_ready s t .m 5 _ _ _ hstands.canFire rfl hstands.words]
  exact commitFiring_good s t .m p _ _ hstands.checks (closingFaults_m_nil hcloses) rfl fun _ => hquota

/-- A KCTL produces nothing, and its plan leaves the core to the firing. -/
theorem kctlFire_fired {s : State} {t : Fin 1024} (hstands : Stands s t .m 5) (hquota : quotaMet s t) (hcloses : closesOk s t false) :
    Fired s (kctlFire s t) t [] := by
  rw [kctlFire_eq hstands hquota hcloses]
  exact fired_of_keepsCore hstands (by decide) (by decide) ⟨rfl, rfl, rfl, rfl, rfl, rfl, rfl, rfl, rfl⟩ rfl rfl rfl

/-- What the M tile holds after a KCTL. -/
theorem kctlFire_m {s : State} {t : Fin 1024} (hstands : Stands s t .m 5) (hquota : quotaMet s t) (hcloses : closesOk s t false) :
    let g := s.tile t
    let n := bits (iOpnd g.instr) 0 3
    ((kctlFire s t).tile t).m =
      { g.m with kc := mset 0 g.m.kc n (bits (iOpnd g.instr) 4 8), tag := mset none g.m.tag n none } := by
  intro g n
  have hkind : tileKind t = .m := tileKind_of_canFire hstands.canFire
  rw [kctlFire_eq hstands hquota hcloses, afterFiring_tile_self _ _ _ _ (by simp [hkind]) (by simp [hkind]) rfl, firedTile_m]
  rfl

/-! ## The load check of a KCTL (Table MAC-7) -/

/-- A rule finds nothing in a program just where no instruction breaks it. -/
theorem anyWord_eq_none {prog : List (BitVec 64)} {p : BitVec 64 → Bool} {code : Nat} :
    anyWord prog p code = none ↔ ∀ w ∈ prog, p w = false := by
  simp only [anyWord, Option.map_eq_none_iff, List.find?_eq_none, Bool.not_eq_true]
  rw [← List.forall_mem_map (f := Prod.fst) (P := fun w => p w = false), List.zipIdx_map_fst]

/-- A program that passes Table MAC-7 breaks neither its rule on ports nor its rule on REP. -/
theorem ports_rep_of_checkM {g : GridTile} {prog : List (BitVec 64)} (h : checkM g prog = none) :
    ∀ w ∈ prog, mPortsBad w = false ∧ mRepBad g w = false := by
  simp only [checkM, Option.orElse_eq_orElse, Option.orElse_eq_or, Option.or_eq_none_iff, anyWord_eq_none] at h
  obtain ⟨-, hports, -, -, -, hrep, -⟩ := h
  exact fun w hw => ⟨hports w hw, hrep w hw⟩

theorem mPortsBad_kctl {w : BitVec 64} (h : iOpc w = 5) : mPortsBad w = false ↔ iIn w = 0 ∧ iOut w = 0 := by
  simp [mPortsBad, h]

theorem mRepBad_kctl {g : GridTile} {w : BitVec 64} (h : iOpc w = 5) : mRepBad g w = false ↔ iRep w = 0 := by
  simp [mRepBad, h]

/-! ## The obligation -/

/-- Settles O11: KCTL's plan changes KC and the tag registers of its tile and nothing else, and the load checks of ports and of REP
refuse the other words. -/
theorem kctlSetsCounter : Obligations.KctlSetsCounter := by
  unfold Obligations.KctlSetsCounter
  constructor
  · intro s t hstands _ hquota hcloses g n
    have hm := kctlFire_m hstands hquota hcloses
    refine ⟨kctlFire s t, rfl, kctlFire_fired hstands hquota hcloses, ?_, ?_, ?_⟩
    · intro k
      rw [hm, mget_mset]
    · intro k
      rw [hm, mget_mset]
    · rw [hm]
  · intro g prog w hw hopc hbad hpass
    obtain ⟨hports, hrep⟩ := ports_rep_of_checkM hpass w hw
    obtain ⟨hin, hout⟩ := (mPortsBad_kctl hopc).mp hports
    have hrep0 := (mRepBad_kctl hopc).mp hrep
    simp [hrep0, hin, hout] at hbad

end Sys2Proof.Claims
end

section
/-! SUPPORT. Event numbers (R335): what an event leaves in the event queue and in ESEQ, and what a read of a register without side
effects answers. -/

namespace Sys2Proof.Claims

open Sys2Proof Sys2Proof.Machine

/-! ## The event queue (R336) -/

theorem queueRecord_hq_room {s : State} (r : EventRec) (h : s.hq.evq.length < 256) :
    (queueRecord s r).hq = { s.hq with evq := s.hq.evq ++ [r] } := by
  simp only [queueRecord, h, if_true]
  split
  · rw [raiseSource_hq]
  · rfl

theorem queueRecord_hq_full {s : State} (r : EventRec) (h : 256 ≤ s.hq.evq.length) :
    (queueRecord s r).hq = { s.hq with evlost := satInc s.hq.evlost, lostNow := satInc s.hq.lostNow } := by
  simp only [queueRecord, Nat.not_lt.mpr h, if_false]
  rw [raiseSource_hq]

/-! ## Generating an event (R335) -/

theorem eventBase_hq_room {s : State} (code : Nat) (a : EvArgs) (h : s.hq.evq.length < 256) :
    (eventBase s code a).hq = { s.hq with eseq := s.hq.eseq + 1, evq := s.hq.evq ++ [mkRecord s code a] } := by
  rw [eventBase, raiseSource_hq]
  exact queueRecord_hq_room _ h

theorem eventBase_hq_full {s : State} (code : Nat) (a : EvArgs) (h : 256 ≤ s.hq.evq.length) :
    (eventBase s code a).hq =
      { s.hq with eseq := s.hq.eseq + 1, evlost := satInc s.hq.evlost, lostNow := satInc s.hq.lostNow } := by
  rw [eventBase, raiseSource_hq]
  exact queueRecord_hq_full _ h

/-- R335: an event raises ESEQ by 1, whether its record is written or lost. -/
theorem eventBase_eseq (s : State) (code : Nat) (a : EvArgs) : (eventBase s code a).hq.eseq = s.hq.eseq + 1 := by
  rcases Nat.lt_or_ge s.hq.evq.length 256 with hroom | hfull
  · rw [eventBase_hq_room code a hroom]
  · rw [eventBase_hq_full code a hfull]

/-! ## Reading a register (R434, R437) -/

theorem not_accessEmpty_of_accessValid {x : RegAccess} (h : accessValid x = true) : accessEmpty x = false := by
  simp only [accessValid, Bool.and_eq_true, beq_iff_eq] at h
  obtain ⟨-, hbe⟩ := h
  simp [accessEmpty, hbe]

theorem Reaches.wf {s : State} {x : RegAccess} (h : Reaches s x) : x.wf = true := by
  have hvalid := h.valid
  simp only [accessValid, Bool.and_eq_true, beq_iff_eq] at hvalid
  obtain ⟨⟨-, hndw⟩, -⟩ := hvalid
  simp [RegAccess.wf, RegSpace.size, h.space, h.inside, hndw]

theorem Reaches.rowOpen {s : State} {x : RegAccess} (h : Reaches s x) (write : Bool) : rowOpen s x.offset write = true := by
  simp only [Machine.rowOpen, bootAnswers, bne_iff_ne.mpr h.boot, h.powered, Bool.true_or, Bool.and_self]

/-- A read that reaches a mapped register does what the register's read does. -/
theorem exec_loReadLatch_of_readReg {s s' : State} {x : RegAccess} (h : Reaches s x) (hread : readReg s x.agent x.offset = some s') :
    exec (.loReadLatch x) s = .next s' := by
  have hwf : (Instr.loReadLatch x).wf = true := h.wf
  have hread' : loRead s x = s' := by
    simp [loRead, h.space, h.agent, h.valid, not_accessEmpty_of_accessValid h.valid, h.rowOpen, hread]
  calc exec (.loReadLatch x) s = execLoReadLatch x s := rfl
    _ = .next s' := by rw [execLoReadLatch, if_pos hwf, hread']

theorem readReg_eseq (s : State) (a : Agent) : readReg s a 0x40020 = some { s with answer := .word s.hq.eseq } := by
  have hvalue : regValue s a 0x40020 = some s.hq.eseq := by simp [regValue, hqReg, regOf]
  have hplain : loPair s 0x40020 = none := rfl
  simp [readReg, hvalue, hplain]

/-! ## The obligation -/

/-- Settles O60: power-on and POR reset leave ESEQ 0, an event's record takes ESEQ before it is raised, and the read of HQ_ESEQ latches
nothing. -/
theorem eventNumbers : Obligations.EventNumbers := by
  unfold Obligations.EventNumbers
  refine ⟨rfl, fun s c => ⟨porState s c, rfl, rfl⟩, fun s code a => ⟨eventBase_eseq s code a, fun hroom => ?_, fun hfull => ?_⟩, ?_⟩
  · rw [eventBase_hq_room code a hroom]
    exact ⟨mkRecord s code a, rfl, rfl, rfl⟩
  · rw [eventBase_hq_full code a hfull]
    exact ⟨rfl, rfl⟩
  · intro s x hreaches hoff
    exact exec_loReadLatch_of_readReg hreaches (by rw [hoff]; exact readReg_eseq s x.agent)

end Sys2Proof.Claims
end

section
/-! SUPPORT. The thermal limit (R408): what a tick at or above TTHR, below TTHR - THYS and between them does, and what a change of the
power manager that an event may announce leaves. -/

namespace Sys2Proof.Claims

open Sys2Proof Sys2Proof.Machine

/-! ## A change of the power manager -/

theorem changePwr_hq (s : State) (f : Pwr → Pwr) : (changePwr s f).hq = s.hq := rfl
theorem changePwr_pace (s : State) (f : Pwr → Pwr) : (changePwr s f).pace = s.pace := rfl
theorem changePwr_vtherm (s : State) (f : Pwr → Pwr) : (changePwr s f).pwr.vtherm = (f s.pwr).vtherm := rfl
theorem changePwr_thermT (s : State) (f : Pwr → Pwr) : (changePwr s f).pwr.thermT = (f s.pwr).thermT := rfl

/-- A change of the power manager that raises the event of a code where `edge` holds. -/
def changeTelling (s : State) (f : Pwr → Pwr) (edge : Bool) (code : Nat) : State :=
  if edge then event (changePwr s f) code else changePwr s f

theorem changeTelling_pwr (s : State) (f : Pwr → Pwr) (edge : Bool) (code : Nat) :
    (changeTelling s f edge code).pwr = (changePwr s f).pwr := by
  cases edge with
  | false => rfl
  | true => exact event_pwr _ _ _

theorem changeTelling_pace {s : State} (f : Pwr → Pwr) (edge : Bool) {code : Nat} (hsev : evSev code < 2) :
    (changeTelling s f edge code).pace = s.pace := by
  cases edge with
  | false => rfl
  | true =>
    calc (event (changePwr s f) code).pace = (changePwr s f).pace := by rw [event_low _ _ _ hsev]
      _ = s.pace := changePwr_pace s f

theorem changeTelling_hq_quiet (s : State) (f : Pwr → Pwr) (code : Nat) : (changeTelling s f false code).hq = s.hq := rfl

/-- A minor event that is not logged puts its record next in the queue, where there is room. -/
theorem changeTelling_hq_edge {s : State} (f : Pwr → Pwr) {code : Nat} (hsev : evSev code < 2) (hlog : evLogged code = false)
    (hroom : s.hq.evq.length < 256) :
    (changeTelling s f true code).hq =
      { s.hq with eseq := s.hq.eseq + 1, evq := s.hq.evq ++ [mkRecord (changePwr s f) code {}] } := by
  have hevent : changeTelling s f true code = eventBase (changePwr s f) code {} := event_minor _ _ _ hsev hlog
  rw [hevent, eventBase_hq_room _ _ (by rwa [changePwr_hq]), changePwr_hq]

/-- The event queue has grown by one record, of this code and of the current step. -/
def Tells (s s' : State) (code : Nat) : Prop :=
  ∃ e, s'.hq.evq = s.hq.evq ++ [e] ∧ e.code = BitVec.ofNat 16 code ∧ e.step = s.pace.step

/-- What a change of the power manager leaves of PACE and of the host interface, where the value `edge` of v_therm raises its event. -/
theorem changeTelling_events {s : State} (f : Pwr → Pwr) (edge : BitVec 4) {code : Nat} (hsev : evSev code < 2)
    (hlog : evLogged code = false) :
    let s' := changeTelling s f (s.pwr.vtherm == edge) code
    s'.pace = s.pace ∧ (s.pwr.vtherm ≠ edge → s'.hq = s.hq) ∧
      (s.pwr.vtherm = edge → s.hq.evq.length < 256 → Tells s s' code) := by
  refine ⟨changeTelling_pace f _ hsev, fun hne => ?_, fun heq hroom => ?_⟩
  · rw [beq_eq_false_iff_ne.mpr hne]
    exact changeTelling_hq_quiet s f code
  · rw [beq_iff_eq.mpr heq, Tells, changeTelling_hq_edge f hsev hlog hroom]
    exact ⟨_, rfl, rfl, rfl⟩

/-! ## The three courses of a tick (R408) -/

/-- The reading, in quarters of a degree, at which v_therm falls. -/
def thermHot (s : State) : Int := 4 * (min s.pwr.tthr.toNat (tcrit s - 1) : Nat)

/-- The reading, in quarters of a degree, below which v_therm rises. -/
def thermCool (s : State) : Int := thermHot s - 4 * (max 1 s.pwr.thys.toNat : Nat)

theorem thermCool_lt_thermHot (s : State) : thermCool s < thermHot s := by
  unfold thermCool
  omega

/-- v_therm falls by one step at this time; a fall from 15 is counted. -/
def lowerTherm (now : Nat) (p : Pwr) : Pwr :=
  { p with vtherm := p.vtherm - 1, thermT := now, thrcnt := if p.vtherm == 15 then satInc p.thrcnt else p.thrcnt }

/-- v_therm rises by one step at this time. -/
def raiseTherm (now : Nat) (p : Pwr) : Pwr := { p with vtherm := p.vtherm + 1, thermT := now }

theorem thermalStep_hot {s : State} (h : thermHot s ≤ s.pwr.tj.toInt) :
    thermalStep s =
      if s.pwr.vtherm ≠ 0 ∧ s.pwr.thermT + 100000 ≤ s.devTime then
        changeTelling s (lowerTherm s.devTime) (s.pwr.vtherm == 15) 0x0B03
      else s :=
  if_pos h

theorem bitVec4_succ_eq_15_iff (v : BitVec 4) : v + 1 = 15 ↔ v = 14 := by
  revert v
  decide

theorem thermalStep_cool {s : State} (h : s.pwr.tj.toInt < thermCool s) :
    thermalStep s =
      if s.pwr.vtherm ≠ 15 ∧ s.pwr.thermT + 1000000 ≤ s.devTime then
        changeTelling s (raiseTherm s.devTime) (s.pwr.vtherm == 14) 0x0B04
      else s := by
  have hnothot : ¬ thermHot s ≤ s.pwr.tj.toInt := not_le.mpr (h.trans (thermCool_lt_thermHot s))
  have hback : (changePwr s (raiseTherm s.devTime)).pwr.vtherm = 15 ↔ (s.pwr.vtherm == 14) = true := by
    rw [beq_iff_eq]
    exact bitVec4_succ_eq_15_iff s.pwr.vtherm
  simp only [changeTelling, ← hback]
  exact (if_neg hnothot).trans (if_pos h)

theorem thermalStep_between {s : State} (hlow : thermCool s ≤ s.pwr.tj.toInt) (hhigh : s.pwr.tj.toInt < thermHot s) :
    thermalStep s = s :=
  (if_neg (not_le.mpr hhigh)).trans (if_neg (not_lt.mpr hlow))

theorem thermalStep_hot_early {s : State} (h : thermHot s ≤ s.pwr.tj.toInt)
    (hearly : s.pwr.vtherm = 0 ∨ s.devTime < s.pwr.thermT + 100000) : thermalStep s = s := by
  rw [thermalStep_hot h, if_neg]
  rintro ⟨hne, hdue⟩
  exact hearly.elim hne (not_lt.mpr hdue)

theorem thermalStep_cool_early {s : State} (h : s.pwr.tj.toInt < thermCool s)
    (hearly : s.pwr.vtherm = 15 ∨ s.devTime < s.pwr.thermT + 1000000) : thermalStep s = s := by
  rw [thermalStep_cool h, if_neg]
  rintro ⟨hne, hdue⟩
  exact hearly.elim hne (not_lt.mpr hdue)

theorem exec_thermalLimitStep {s s' : State} (h : thermalStep s = s') : exec .thermalLimitStep s = .next s' :=
  congrArg _ h

/-! ## The obligation -/

/-- Settles O51: by the three courses of a tick. Where v_therm changes, the event of its edge (15 down, 14 up) is told by its record. -/
theorem thermalLimit : Obligations.ThermalLimit := by
  unfold Obligations.ThermalLimit
  refine ⟨rfl, rfl, fun s => ⟨fun hhot hne hdue => ?_, fun hcool hne hdue => ?_, ?_⟩⟩
  · refine ⟨_, exec_thermalLimitStep ((thermalStep_hot hhot).trans (if_pos ⟨hne, hdue⟩)), ?_, ?_,
      changeTelling_events (lowerTherm s.devTime) 15 (by decide) (by decide)⟩
    · rw [changeTelling_pwr, changePwr_vtherm, lowerTherm]
    · rw [changeTelling_pwr, changePwr_thermT, lowerTherm]
  · refine ⟨_, exec_thermalLimitStep ((thermalStep_cool hcool).trans (if_pos ⟨hne, hdue⟩)), ?_, ?_,
      changeTelling_events (raiseTherm s.devTime) 14 (by decide) (by decide)⟩
    · rw [changeTelling_pwr, changePwr_vtherm, raiseTherm]
    · rw [changeTelling_pwr, changePwr_thermT, raiseTherm]
  · rintro (⟨hlow, hhigh⟩ | ⟨hhot, hearly⟩ | ⟨hcool, hearly⟩)
    · exact exec_thermalLimitStep (thermalStep_between hlow hhigh)
    · exact exec_thermalLimitStep (thermalStep_hot_early hhot hearly)
    · exact exec_thermalLimitStep (thermalStep_cool_early hcool hearly)

end Sys2Proof.Claims
end

section
/-! SUPPORT. LPDDR6 and the fuses through every operation of the model: each function that writes neither leaves both as they were, a write of
LPDDR6 keeps its canonical form, and the fuses change by burns, self-checks and POR resets alone. -/

namespace Sys2Proof.Claims

open Sys2Proof Sys2Proof.Machine

/-! ## What leaves both as they were -/

/-- The second state holds the LPDDR6 and the fuses of the first. -/
@[simp] abbrev Keeps (s t : State) : Prop := t.mc.mem = s.mc.mem ∧ t.sec.fuses = s.sec.fuses

@[simp] theorem ite_mem (c : Prop) [Decidable c] (s t : State) :
    (if c then s else t).mc.mem = if c then s.mc.mem else t.mc.mem := by split <;> rfl

@[simp] theorem ite_fuses (c : Prop) [Decidable c] (s t : State) :
    (if c then s else t).sec.fuses = if c then s.sec.fuses else t.sec.fuses := by split <;> rfl

@[simp] theorem foldl_mem {α : Type} (f : State → α → State) (h : ∀ s x, (f s x).mc.mem = s.mc.mem) (l : List α) (s : State) :
    (l.foldl f s).mc.mem = s.mc.mem := by
  induction l generalizing s with
  | nil => rfl
  | cons x r ih => exact (ih _).trans (h s x)

@[simp] theorem foldl_fuses {α : Type} (f : State → α → State) (h : ∀ s x, (f s x).sec.fuses = s.sec.fuses) (l : List α) (s : State) :
    (l.foldl f s).sec.fuses = s.sec.fuses := by
  induction l generalizing s with
  | nil => rfl
  | cons x r ih => exact (ih _).trans (h s x)

theorem foldl_keeps {α : Type} (f : State → α → State) (h : ∀ s x, Keeps s (f s x)) (l : List α) (s : State) :
    Keeps s (l.foldl f s) :=
  ⟨foldl_mem f (fun s x => (h s x).1) l s, foldl_fuses f (fun s x => (h s x).2) l s⟩

@[simp] theorem drawFree_keeps (s : State) : Keeps s s.drawFree.2 := ⟨rfl, rfl⟩

/-! ### Ops -/

@[simp] theorem changePwr_keeps (s : State) (f : Pwr → Pwr) : Keeps s (changePwr s f) := by simp [changePwr]
@[simp] theorem dropHints_keeps (s : State) : Keeps s (dropHints s) := by unfold dropHints; split <;> simp

/-! ### Wire -/

@[simp] theorem sendIdles_keeps (s : State) : Keeps s (sendIdles s) := by simp [sendIdles]

/-! ### Flags -/

@[simp] theorem requestAt_keeps (s : State) (t : Nat) (prio : BitVec 4) : Keeps s (requestAt s t prio) := by simp [requestAt]
@[simp] theorem armHost_keeps (s : State) (k : Nat) : Keeps s (armHost s k) := by
  unfold armHost
  dsimp only
  repeat' split
  all_goals simp
@[simp] theorem armMp_keeps (s : State) (k : Nat) : Keeps s (armMp s k) := by
  unfold armMp
  dsimp only
  repeat' split
  all_goals simp
@[simp] theorem State_setSource_keeps (s : State) (k : Nat) (x : Source) : Keeps s (State.setSource s k x) := by simp [State.setSource]
@[simp] theorem countNonfin_keeps (s : State) (b n : Nat) : Keeps s (countNonfin s b n) := by simp [countNonfin]
@[simp] theorem countSteer_keeps (s : State) (t : Nat) : Keeps s (countSteer s t) := by simp [countSteer]
@[simp] theorem countCecc_keeps (s : State) (t : Nat) : Keeps s (countCecc s t) := by simp [countCecc]

/-! ### Access -/

@[simp] theorem violate_keeps (s : State) (v : Violation) : Keeps s (violate s v) := by simp [violate]
@[simp] theorem violateReg_keeps (s : State) (a : Agent) (code off : Nat) (write : Bool) : Keeps s (violateReg s a code off write) := by
  simp [violateReg]
@[simp] theorem locked_keeps (s : State) (a : Agent) (off : Nat) : Keeps s (locked s a off) := by simp [locked]
@[simp] theorem rowAccess_mem (s : State) (a : Agent) (off : Nat) (w : Bool) (f : State → State) (h : ∀ s, (f s).mc.mem = s.mc.mem) :
    (rowAccess s a off w f).mc.mem = s.mc.mem := by simp [rowAccess, h]
@[simp] theorem rowAccess_fuses (s : State) (a : Agent) (off : Nat) (w : Bool) (f : State → State)
    (h : ∀ s, (f s).sec.fuses = s.sec.fuses) : (rowAccess s a off w f).sec.fuses = s.sec.fuses := by simp [rowAccess, h]
@[simp] theorem rowWrite_mem (s : State) (off : Nat) (f : State → State) (h : ∀ s, (f s).mc.mem = s.mc.mem) :
    (rowWrite s off f).mc.mem = s.mc.mem := by simp [rowWrite, h]
@[simp] theorem rowWrite_fuses (s : State) (off : Nat) (f : State → State)
    (h : ∀ s, (f s).sec.fuses = s.sec.fuses) : (rowWrite s off f).sec.fuses = s.sec.fuses := by simp [rowWrite, h]
@[simp] theorem rowFirmware_mem (s : State) (off : Nat) (f : State → State) (h : ∀ s, (f s).mc.mem = s.mc.mem) :
    (rowFirmware s off f).mc.mem = s.mc.mem := by simp [rowFirmware, h]
@[simp] theorem rowFirmware_fuses (s : State) (off : Nat) (f : State → State)
    (h : ∀ s, (f s).sec.fuses = s.sec.fuses) : (rowFirmware s off f).sec.fuses = s.sec.fuses := by simp [rowFirmware, h]
@[simp] theorem State_latch_keeps (s : State) (a : Agent) (off : Nat) (w : Word) : Keeps s (State.latch s a off w) := by
  simp [State.latch]

/-! ### Commands -/

@[simp] theorem completion_keeps (s : State) (opc seq : BitVec 16) (status : Nat) (dup : Bool) (evt : Nat) (index : Word) :
    Keeps s (completion s opc seq status dup evt index) := by
  simp [completion]
@[simp] theorem refuseCmd_keeps (s : State) (code : Nat) (a : EvArgs) : Keeps s (refuseCmd s code a) := by simp [refuseCmd]
@[simp] theorem wrongState_keeps (s : State) : Keeps s (wrongState s) := by simp [wrongState]
@[simp] theorem malformedCmd_keeps (s : State) : Keeps s (malformedCmd s) := by simp [malformedCmd]
@[simp] theorem twinSend_keeps (s : State) (sub w1 : Nat) (rest : List Nat) : Keeps s (twinSend s sub w1 rest) := by simp [twinSend]

/-! ### Pair -/

@[simp] theorem compareFirst_keeps (s : State) (key : Nat) : Keeps s (compareFirst s key) := by unfold compareFirst; split <;> simp
@[simp] theorem ownFirst_keeps (s : State) (key : Nat) (row : Word) : Keeps s (ownFirst s key row) := by simp [ownFirst]
@[simp] theorem compareEntries_keeps (s : State) (own peer : CheckEntry) : Keeps s (compareEntries s own peer) := by
  unfold compareEntries
  dsimp only
  repeat' split
  all_goals simp
@[simp] theorem ownEntry_keeps (s : State) (e : CheckEntry) : Keeps s (ownEntry s e) := by unfold ownEntry; split <;> simp
@[simp] theorem partnerEntry_keeps (s : State) (e : CheckEntry) : Keeps s (partnerEntry s e) := by unfold partnerEntry; split <;> simp
@[simp] theorem checkEntryOf_keeps (s : State) (i : Nat) (d : CheckDef) (r : ResultRec) : Keeps s (checkEntryOf s i d r) := by
  simp [checkEntryOf]
@[simp] theorem checkRecord_keeps (s : State) (r : ResultRec) : Keeps s (checkRecord s r) := by simp [checkRecord]
@[simp] theorem partnerLost_keeps (s : State) : Keeps s (partnerLost s) := by simp [partnerLost]
@[simp] theorem sendRole_keeps (s : State) : Keeps s (sendRole s) := by simp [sendRole]
@[simp] theorem twinCheckPort_keeps (s : State) : Keeps s (twinCheckPort s) := by simp [twinCheckPort]
@[simp] theorem leaveUp_keeps (s : State) (p : Nat) : Keeps s (leaveUp s p) := by simp [leaveUp]

/-! ### Sensor -/

@[simp] theorem badLine_keeps (s : State) (k : Nat) (p : SensorPort) (view row : Nat) : Keeps s (badLine s k p view row) := by
  simp [badLine]
@[simp] theorem acceptLine_keeps (s : State) (k v n : Nat) (b : List Byte) : Keeps s (acceptLine s k v n b) := by simp [acceptLine]
@[simp] theorem orderLine_keeps (s : State) (k v : Nat) (b : List Byte) : Keeps s (orderLine s k v b) := by
  unfold orderLine
  dsimp only
  repeat' split
  all_goals simp
@[simp] theorem lineBody_keeps (s : State) (k : Nat) (b : List Byte) : Keeps s (lineBody s k b) := by simp [lineBody]
@[simp] theorem lineSync_keeps (s : State) (k : Nat) : Keeps s (lineSync s k) := by simp [lineSync]
@[simp] theorem lineComplete_keeps (s : State) (k : Nat) (ls : List (List Byte)) : Keeps s (lineComplete s k ls) := by
  unfold lineComplete
  dsimp only
  repeat' split
  all_goals simp
@[simp] theorem clockLost_keeps (s : State) (k : Nat) : Keeps s (clockLost s k) := by simp [clockLost]
@[simp] theorem clockReturn_keeps (s : State) (k : Nat) : Keeps s (clockReturn s k) := by simp [clockReturn]
@[simp] theorem spEnable_keeps (s : State) (k : Nat) (cfg : Word) (supplyOk : Bool) : Keeps s (spEnable s k cfg supplyOk) := by
  simp [spEnable]
@[simp] theorem spClrstat_keeps (s : State) : Keeps s (spClrstat s) := by simp [spClrstat]

/-! ### Records -/

@[simp] theorem addRecord_keeps (s : State) (kind : Nat) (bytes : List Byte) (ord : Nat) : Keeps s (addRecord s kind bytes ord) := by
  simp [addRecord]
@[simp] theorem detRecord_keeps (s : State) (x : Candidate × Word) (flags : Nat) : Keeps s (detRecord s x flags) := by simp [detRecord]
@[simp] theorem countOvf_keeps (s : State) (bed dropped items slots : Nat) : Keeps s (countOvf s bed dropped items slots) := by
  simp [countOvf]
@[simp] theorem closeWindow_keeps (s : State) : Keeps s (closeWindow s) := by simp [closeWindow]

/-! ### Firing -/

@[simp] theorem countAdapt_keeps (s : State) (b n : Nat) : Keeps s (countAdapt s b n) := by simp [countAdapt]
@[simp] theorem pointerFault_mem (s : State) (t q i : Nat) (pre : State → State) (h : ∀ s, (pre s).mc.mem = s.mc.mem) :
    (pointerFault s t q i pre).mc.mem = s.mc.mem := by
  unfold pointerFault
  dsimp only
  split <;> simp [h]
@[simp] theorem pointerFault_fuses (s : State) (t q i : Nat) (pre : State → State) (h : ∀ s, (pre s).sec.fuses = s.sec.fuses) :
    (pointerFault s t q i pre).sec.fuses = s.sec.fuses := by
  unfold pointerFault
  dsimp only
  split <;> simp [h]
@[simp] theorem parkS_keeps (s : State) (t : Nat) : Keeps s (parkS s t) := by simp [parkS]
@[simp] theorem raiseFaults_keeps (s : State) (t fired : Nat) (fs : List FireFault) : Keeps s (raiseFaults s t fired fs) := by
  simp [raiseFaults]
@[simp] theorem readWords_keeps (t : Nat) (is : List Nat) (s : State) : Keeps s (readWords s t is).1 := by
  induction is generalizing s with
  | nil => simp [readWords]
  | cons i r ih =>
    unfold readWords
    dsimp only
    split <;> simp [ih]
@[simp] theorem takeWords_keeps (s : State) (t : Nat) (is : List Nat) : Keeps s (takeWords s t is) := by simp [takeWords]
@[simp] theorem parkQ_keeps (s : State) (t instr : Nat) : Keeps s (parkQ s t instr) := by
  unfold parkQ
  dsimp only
  repeat' split
  all_goals simp
@[simp] theorem parkHook_keeps (s : State) (t instr : Nat) : Keeps s (parkHook s t instr) := by unfold parkHook; split <;> simp
@[simp] theorem raiseWarns_keeps (s : State) (t : Nat) (ws : List (Nat × Nat)) : Keeps s (raiseWarns s t ws) := by simp [raiseWarns]
@[simp] theorem afterFiring_keeps (s : State) (t : Nat) (p : Plan) (g1 : GridTile) : Keeps s (afterFiring s t p g1) := by
  simp [afterFiring]
@[simp] theorem commitFiring_keeps (s : State) (t : Nat) (k : Kind) (p : Plan) (w : BitVec 64) (ts : List (Nat × Token))
    (pre : List FireFault) : Keeps s (commitFiring s t k p w ts pre) := by
  simp [commitFiring]
@[simp] theorem fire_keeps (s : State) (t : Nat) (k : Kind) (opc : Nat) (ready : GridTile → BitVec 64 → Bool)
    (consts : GridTile → BitVec 64 → List Nat) (plan : State → GridTile → BitVec 64 → List (Nat × Token) → Plan) :
    Keeps s (fire s t k opc ready consts plan) := by
  simp [fire]

/-! ### Fabric -/

@[simp] theorem setAcked_keeps (s : State) (p : Place) (a : List Dest) : Keeps s (setAcked s p a) := by unfold setAcked; split <;> simp
@[simp] theorem popSlot_keeps (s : State) (p : Place) : Keeps s (popSlot s p) := by unfold popSlot; split <;> simp
@[simp] theorem putDest_keeps (s : State) (d : Dest) (u : Token) : Keeps s (putDest s d u) := by unfold putDest; split <;> simp
@[simp] theorem capture_keeps (s : State) (p : Place) (d : Dest) : Keeps s (capture s p d) := by unfold capture; split <;> simp
@[simp] theorem emitCore_keeps (s : State) (t k : Nat) : Keeps s (emitCore s t k) := by
  unfold emitCore
  dsimp only
  repeat' split
  all_goals simp
@[simp] theorem takeStream_keeps (s : State) (k : Nat) : Keeps s (takeStream s k) := by simp [takeStream]
@[simp] theorem inwardPop_keeps (s : State) (e : Nat) : Keeps s (inwardPop s e) := by unfold inwardPop; split <;> simp
@[simp] theorem pushInward_keeps (s : State) (e : Nat) (u : Token) : Keeps s (pushInward s e u) := by simp [pushInward]
@[simp] theorem inward_keeps (s : State) (e : Nat) : Keeps s (inward s e) := by
  unfold inward
  dsimp only
  repeat' split
  all_goals simp
@[simp] theorem outwardPut_keeps (s : State) (e : Nat) (u : Token) : Keeps s (outwardPut s e u) := by unfold outwardPut; split <;> simp
@[simp] theorem popOutward_keeps (s : State) (e : Nat) (u : Token) : Keeps s (popOutward s e u) := by simp [popOutward]
@[simp] theorem outwardParity_keeps (s : State) (e : Nat) (u : Token) : Keeps s (outwardParity s e u) := by simp [outwardParity]
@[simp] theorem outward_keeps (s : State) (e : Nat) : Keeps s (outward s e) := by
  unfold outward
  dsimp only
  repeat' split
  all_goals simp
@[simp] theorem slotMove_keeps (s : State) (m : Move) : Keeps s (slotMove s m) := by
  unfold slotMove
  split
  · simp
  · split <;> simp

/-! ### STile -/

@[simp] theorem readFault_keeps (s : State) (t : Nat) (x : Nat × Nat) : Keeps s (readFault s t x) := by simp [readFault]
@[simp] theorem nextBeat_keeps (s : State) (t : Nat) : Keeps s (nextBeat s t) := by simp [nextBeat]
@[simp] theorem inBeat_keeps (s : State) (t rank : Nat) (qs : List Nat) : Keeps s (inBeat s t rank qs) := by simp [inBeat]
@[simp] theorem bankDeferred_keeps (s : State) (t : Nat) : Keeps s (bankDeferred s t) := by simp [bankDeferred]
@[simp] theorem portEvent_keeps (s : State) (t k code addr d0 d1 : Nat) : Keeps s (portEvent s t k code addr d0 d1) := by simp [portEvent]
@[simp] theorem portPark_keeps (s : State) (t : Nat) : Keeps s (portPark s t) := by simp [portPark]
@[simp] theorem hardPushOp_keeps (s : State) (t ip : Nat) : Keeps s (hardPushOp s t ip) := by
  unfold hardPushOp
  dsimp only
  repeat' split
  all_goals simp
@[simp] theorem hardPopOp_keeps (s : State) (t op : Nat) : Keeps s (hardPopOp s t op) := by
  unfold hardPopOp
  dsimp only
  repeat' split
  all_goals simp
@[simp] theorem sCore_keeps (s : State) (t opc : Nat) (qs : GridTile → BitVec 64 → List Nat)
    (ready : State → GridTile → BitVec 64 → Bool) (consts : GridTile → BitVec 64 → List Nat)
    (plan : State → GridTile → BitVec 64 → List (Nat × Token) → Plan) :
    Keeps s (sCore s t opc qs ready consts plan) := by
  unfold sCore
  dsimp only
  split
  · split
    · split <;> simp
    · simp
  · simp
@[simp] theorem pushFire_keeps (s : State) (t : Nat) : Keeps s (pushFire s t) := by simp [pushFire]
@[simp] theorem popFire_keeps (s : State) (t : Nat) : Keeps s (popFire s t) := by simp [popFire]
@[simp] theorem runFire_keeps (s : State) (t : Nat) : Keeps s (runFire s t) := by simp [runFire]
@[simp] theorem markFire_keeps (s : State) (t : Nat) : Keeps s (markFire s t) := by simp [markFire]
@[simp] theorem unmarkFire_keeps (s : State) (t : Nat) : Keeps s (unmarkFire s t) := by simp [unmarkFire]
@[simp] theorem rewindFire_keeps (s : State) (t : Nat) : Keeps s (rewindFire s t) := by simp [rewindFire]
@[simp] theorem skipFire_keeps (s : State) (t : Nat) : Keeps s (skipFire s t) := by simp [skipFire]
@[simp] theorem releaseFire_keeps (s : State) (t : Nat) : Keeps s (releaseFire s t) := by simp [releaseFire]
@[simp] theorem qcntFire_keeps (s : State) (t : Nat) : Keeps s (qcntFire s t) := by simp [qcntFire]
@[simp] theorem ldgFire_keeps (s : State) (t : Nat) : Keeps s (ldgFire s t) := by simp [ldgFire]
@[simp] theorem nopFire_keeps (s : State) (t : Nat) : Keeps s (nopFire s t) := by simp [nopFire]

/-! ### Context -/

@[simp] theorem startEngines_keeps (s : State) (x : Nat) : Keeps s (startEngines s x) := by
  refine foldl_keeps _ (fun s k => ?_) (List.range 16) s
  exact ⟨rfl, rfl⟩
@[simp] theorem enterNce_keeps (s : State) (x : BitVec 2) : Keeps s (enterNce s x) := by simp [enterNce]
@[simp] theorem enterPp_keeps (s0 : State) (x : BitVec 2) : Keeps s0 (enterPp s0 x) := by simp [enterPp]
@[simp] theorem resetTiles_keeps (s : State) (x : BitVec 2) : Keeps s (resetTiles s x) := by simp [resetTiles]

/-! ### Pace -/

@[simp] theorem dropBuffers_keeps (s : State) : Keeps s (dropBuffers s) := by simp [dropBuffers]
@[simp] theorem endTaskBlocks_keeps (s0 : State) : Keeps s0 (endTaskBlocks s0) := by simp [endTaskBlocks]
@[simp] theorem beginDecision_keeps (s : State) : Keeps s (beginDecision s) := by simp [beginDecision]
@[simp] theorem bedReport_keeps (s : State) (b : Nat) : Keeps s (bedReport s b) := by simp [bedReport]
@[simp] theorem requestHold_keeps (s : State) (k : Nat) : Keeps s (requestHold s k) := by simp [requestHold]
@[simp] theorem withdrawHold_keeps (s : State) (k : Nat) : Keeps s (withdrawHold s k) := by simp [withdrawHold]
@[simp] theorem holdEntry_keeps (s : State) (k : Nat) : Keeps s (holdEntry s k) := by simp [holdEntry]
@[simp] theorem holdExit_keeps (s : State) (k : Nat) : Keeps s (holdExit s k) := by simp [holdExit]
@[simp] theorem holdLimit_keeps (s : State) : Keeps s (holdLimit s) := by simp [holdLimit]
@[simp] theorem stallFault_keeps (s : State) : Keeps s (stallFault s) := by simp [stallFault]
@[simp] theorem abortBlocks_keeps (s : State) : Keeps s (abortBlocks s) := by simp [abortBlocks]
@[simp] theorem abortReset_keeps (s : State) : Keeps s (abortReset s) := by simp [abortReset]
@[simp] theorem abortCleared_keeps (s : State) : Keeps s (abortCleared s) := by simp [abortCleared]

/-! ### Stream -/

@[simp] theorem noteError_keeps (s : State) (a : Nat) (ue : Bool) : Keeps s (noteError s a ue) := by simp [noteError]
@[simp] theorem corrected1_keeps (s : State) (a : Nat) : Keeps s (corrected1 s a) := by simp [corrected1]
@[simp] theorem uncorrectable1_keeps (s : State) (a : Nat) : Keeps s (uncorrectable1 s a) := by simp [uncorrectable1]
@[simp] theorem badRead_keeps (s : State) (a req : Nat) : Keeps s (badRead s a req) := by simp [badRead]
@[simp] theorem fillEngines_keeps (s : State) : Keeps s (fillEngines s) := by simp [fillEngines]
@[simp] theorem issueRead_keeps (s : State) (k : Nat) : Keeps s (issueRead s k) := by
  unfold issueRead
  dsimp only
  repeat' split
  all_goals simp
@[simp] theorem issueWrite_keeps (s : State) (k : Nat) : Keeps s (issueWrite s k) := by
  unfold issueWrite
  dsimp only
  repeat' split
  all_goals simp
@[simp] theorem grant_keeps (s : State) (r : Requester) : Keeps s (grant s r) := by simp [grant]
@[simp] theorem burstIssue_keeps (s : State) (remote : Bool) : Keeps s (burstIssue s remote) := by
  unfold burstIssue
  dsimp only
  repeat' split
  all_goals simp
@[simp] theorem dropRow_keeps (s : State) (k : Nat) (e : Engine) (d : StreamDesc) : Keeps s (dropRow s k e d) := by simp [dropRow]
@[simp] theorem storeToken_keeps (s : State) (k : Nat) (u : Token) : Keeps s (storeToken s k u) := by
  unfold storeToken
  dsimp only
  repeat' split
  all_goals simp
@[simp] theorem engineReceive_keeps (s : State) (k : Nat) : Keeps s (engineReceive s k) := by
  unfold engineReceive
  dsimp only
  repeat' split
  all_goals simp
@[simp] theorem seClrstat_keeps (s : State) : Keeps s (seClrstat s) := by simp [seClrstat]
@[simp] theorem mcClrcnt_keeps (s : State) : Keeps s (mcClrcnt s) := by simp [mcClrcnt]

/-! ### Power -/

@[simp] theorem requestDomain_keeps (s : State) (w d : Nat) : Keeps s (requestDomain s w d) := by simp [requestDomain]
@[simp] theorem domainRequest_keeps (s : State) (v : BitVec 30) : Keeps s (domainRequest s v) := by simp [domainRequest]
@[simp] theorem loseDomain_keeps (s : State) (d : Nat) : Keeps s (loseDomain s d) := by simp [loseDomain]
@[simp] theorem setDomain_keeps (s : State) (d : Nat) (on : Bool) : Keeps s (setDomain s d on) := by simp [setDomain]
@[simp] theorem domainComplete_keeps (s : State) (d : Nat) : Keeps s (domainComplete s d) := by unfold domainComplete; split <;> simp
@[simp] theorem autofab_keeps (s : State) : Keeps s (autofab s) := by simp [autofab]
@[simp] theorem sendVoltage_keeps (s : State) : Keeps s (sendVoltage s) := by simp [sendVoltage]
@[simp] theorem voltageWrite_keeps (s : State) : Keeps s (voltageWrite s) := by simp [voltageWrite]
@[simp] theorem voltageAck_keeps (s : State) (ok : Bool) : Keeps s (voltageAck s ok) := by unfold voltageAck; split <;> simp
@[simp] theorem avsRetry_keeps (s : State) : Keeps s (avsRetry s) := by unfold avsRetry; split <;> simp
@[simp] theorem warnLate_keeps (s : State) (mv : Nat) : Keeps s (warnLate s mv) := by simp [warnLate]
@[simp] theorem vfabReadback_keeps (s : State) (mv : Option (BitVec 16)) : Keeps s (vfabReadback s mv) := by
  unfold vfabReadback; split <;> simp
@[simp] theorem vsetWrite_keeps (s : State) (keep : Bool) (req : BitVec 4) : Keeps s (vsetWrite s keep req) := by simp [vsetWrite]
@[simp] theorem clockStep_keeps (s : State) (mem mgmt : BitVec 2) : Keeps s (clockStep s mem mgmt) := by simp [clockStep]
@[simp] theorem rateChange_keeps (s : State) : Keeps s (rateChange s) := by unfold rateChange; split <;> simp
@[simp] theorem governor_keeps (s : State) (p : Nat) : Keeps s (governor s p) := by simp [governor]
@[simp] theorem capGovernor_keeps (s : State) (p : BitVec 16) : Keeps s (capGovernor s p) := by simp [capGovernor]
@[simp] theorem memoryOff_keeps (s : State) : Keeps s (memoryOff s) := by simp [memoryOff]
@[simp] theorem thermalShutdown_keeps (s : State) : Keeps s (thermalShutdown s) := by simp [thermalShutdown]
@[simp] theorem excludeSensor_keeps (s : State) (i : Nat) : Keeps s (excludeSensor s i) := by simp [excludeSensor]
@[simp] theorem thermalRead_keeps (s : State) (i : Nat) (t : BitVec 16) : Keeps s (thermalRead s i t) := by simp [thermalRead]
@[simp] theorem thermalStep_keeps (s : State) : Keeps s (thermalStep s) := by simp [thermalStep]
@[simp] theorem memoryOffLimit_keeps (s : State) : Keeps s (memoryOffLimit s) := by unfold memoryOffLimit; split <;> simp
@[simp] theorem pwrClrstat_keeps (s : State) : Keeps s (pwrClrstat s) := by simp [pwrClrstat]
@[simp] theorem beginChangeover_keeps (s : State) (toB : Bool) : Keeps s (beginChangeover s toB) := by simp [beginChangeover]
@[simp] theorem pathRises_keeps (s : State) (b : Bool) : Keeps s (pathRises s b) := by simp [pathRises]
@[simp] theorem pathFalls_keeps (s : State) (b : Bool) : Keeps s (pathFalls s b) := by simp [pathFalls]
@[simp] theorem supplyChange_keeps (s : State) (b level : Bool) : Keeps s (supplyChange s b level) := by simp [supplyChange]
@[simp] theorem changeoverSettle_keeps (s : State) : Keeps s (changeoverSettle s) := by simp [changeoverSettle]
@[simp] theorem autoReturn_keeps (s : State) : Keeps s (autoReturn s) := by simp [autoReturn]
@[simp] theorem sela_keeps (s : State) : Keeps s (sela s) := by simp [sela]
@[simp] theorem aonSwitch_keeps (s : State) (toB : Bool) : Keeps s (aonSwitch s toB) := by simp [aonSwitch]
@[simp] theorem bankSupply_keeps (s : State) (k : Nat) : Keeps s (bankSupply s k) := by simp [bankSupply]
@[simp] theorem railFault_keeps (s : State) (r : Rail) (reading : BitVec 32) : Keeps s (railFault s r reading) := by simp [railFault]
@[simp] theorem clk25Loss_keeps (s : State) : Keeps s (clk25Loss s) := by simp [clk25Loss]
@[simp] theorem pmbusRead_keeps (s : State) (code : Nat) : Keeps s (pmbusRead s code) := by simp [pmbusRead]

/-! ### Irq -/

@[simp] theorem sourceLine_keeps (s : State) (k : Nat) (level : Bool) : Keeps s (sourceLine s k level) := by simp [sourceLine]
@[simp] theorem writeBack_keeps (s : State) : Keeps s (writeBack s) := by simp [writeBack]
@[simp] theorem issueMsix_keeps (s : State) (v : Nat) : Keeps s (issueMsix s v) := by simp [issueMsix]
@[simp] theorem presentMsix_keeps (s : State) (v : Nat) : Keeps s (presentMsix s v) := by simp [presentMsix]
@[simp] theorem interruptSend_keeps (s : State) (t : Nat) : Keeps s (interruptSend s t) := by simp [interruptSend]
@[simp] theorem releasePba_keeps (s : State) (v : Nat) : Keeps s (releasePba s v) := by simp [releasePba]
@[simp] theorem msixControl_keeps (s : State) (en mask : Bool) : Keeps s (msixControl s en mask) := by simp [msixControl]
@[simp] theorem vectorMask_keeps (s : State) (v : Nat) (mask : Bool) : Keeps s (vectorMask s v mask) := by simp [vectorMask]
@[simp] theorem eachBit_keeps (s : State) (k : Nat) (v : Word) (f : Source → Bool → Source) : Keeps s (eachBit s k v f) := by
  simp [eachBit]
@[simp] theorem pendWrite_keeps (s : State) (k : Nat) (v : Word) : Keeps s (pendWrite s k v) := by simp [pendWrite]
@[simp] theorem maskWrite_keeps (s : State) (mpSide : Bool) (k : Nat) (v : Word) : Keeps s (maskWrite s mpSide k v) := by simp [maskWrite]
@[simp] theorem senseChange_keeps (s : State) (k : Nat) (sense : BitVec 2) : Keeps s (senseChange s k sense) := by simp [senseChange]
@[simp] theorem takeCounter_keeps (s : State) (a : Agent) (k : Nat) : Keeps s (takeCounter s a k) := by simp [takeCounter]
@[simp] theorem eoi_keeps (s : State) (a : Agent) (t : Nat) (v : Bool) : Keeps s (eoi s a t v) := by
  unfold eoi
  dsimp only
  repeat' split
  all_goals simp

/-! ### Mailbox -/

@[simp] theorem headArrives_keeps (s : State) (m : Nat) : Keeps s (headArrives s m) := by
  unfold headArrives
  dsimp only
  repeat' split
  all_goals simp
@[simp] theorem refuseMessage_keeps (s : State) (m : Nat) (inb : Bool) (sender : Nat) (h : Word) (skip : Nat) :
    Keeps s (refuseMessage s m inb sender h skip) := by
  simp [refuseMessage]
@[simp] theorem rejectMessage_keeps (s : State) (m : Nat) (inb : Bool) (sender skip : Nat) :
    Keeps s (rejectMessage s m inb sender skip) := by
  simp [rejectMessage]
@[simp] theorem finishMessage_keeps (s : State) (m : Nat) (inb : Bool) (sender : Nat) : Keeps s (finishMessage s m inb sender) := by
  simp [finishMessage]
@[simp] theorem addWord_keeps (s : State) (m : Nat) (inb : Bool) (sender : Nat) (w : Word) (left : Nat) :
    Keeps s (addWord s m inb sender w left) := by
  simp [addWord]
@[simp] theorem putWord_keeps (s : State) (m : Nat) (inb : Bool) (sender : Nat) (allowed : Bool) (w : Word) :
    Keeps s (putWord s m inb sender allowed w) := by
  simp [putWord]
@[simp] theorem mailboxTx_keeps (s : State) (a : Agent) (m : Nat) (w : Word) : Keeps s (mailboxTx s a m w) := by
  unfold mailboxTx; split <;> simp
@[simp] theorem popOut_keeps (s : State) (m : Nat) : Keeps s (popOut s m) := by simp [popOut]
@[simp] theorem popIn_keeps (s : State) (m : Nat) : Keeps s (popIn s m) := by simp [popIn]
@[simp] theorem times_mem (n : Nat) (f : State → State) (s : State) (h : ∀ s, (f s).mc.mem = s.mc.mem) :
    (times n f s).mc.mem = s.mc.mem := by simp [times, h]
@[simp] theorem times_fuses (n : Nat) (f : State → State) (s : State) (h : ∀ s, (f s).sec.fuses = s.sec.fuses) :
    (times n f s).sec.fuses = s.sec.fuses := by simp [times, h]
@[simp] theorem mailboxPop_keeps (s : State) (a : Agent) (m n : Nat) : Keeps s (mailboxPop s a m n) := by
  unfold mailboxPop; split <;> simp
@[simp] theorem peerWrite_keeps (s : State) (m : Nat) (v : BitVec 16) : Keeps s (peerWrite s m v) := by simp [peerWrite]
@[simp] theorem messageForward_keeps (s : State) (m : Nat) : Keeps s (messageForward s m) := by
  unfold messageForward
  dsimp only
  repeat' split
  all_goals simp
@[simp] theorem linkMessage_keeps (s : State) (code : Nat) (ws : List Word) : Keeps s (linkMessage s code ws) := by
  unfold linkMessage
  dsimp only
  repeat' split
  all_goals simp

/-! ### Security -/

@[simp] theorem endRequest_keeps (s : State) (result : Nat) : Keeps s (endRequest s result) := by simp [endRequest]
@[simp] theorem runRequest_keeps (s : State) : Keeps s (runRequest s) := by simp [runRequest]
@[simp] theorem goWith_keeps (s : State) (rop : Nat) : Keeps s (goWith s rop) := by simp [goWith]
@[simp] theorem nonceDraw_keeps (s : State) (a : Agent) : Keeps s (nonceDraw s a) := by simp [nonceDraw]
@[simp] theorem debugClose_keeps (s : State) : Keeps s (debugClose s) := by simp [debugClose]
@[simp] theorem debugHalt_keeps (s : State) (halt : Bool) : Keeps s (debugHalt s halt) := by simp [debugHalt]

/-! ### Boot -/

@[simp] theorem flushMsix_keeps (s : State) : Keeps s (flushMsix s) := by simp [flushMsix]
@[simp] theorem linkDown_keeps (s : State) : Keeps s (linkDown s) := by simp [linkDown]
@[simp] theorem pcieLinkUp_keeps (s : State) : Keeps s (pcieLinkUp s) := by simp [pcieLinkUp]
@[simp] theorem bmeCleared_keeps (s : State) : Keeps s (bmeCleared s) := by simp [bmeCleared]
@[simp] theorem bmeSet_keeps (s : State) : Keeps s (bmeSet s) := by simp [bmeSet]
theorem putSources_keeps (f : Source → Source) (l : List Nat) (s : State) :
    Keeps s (l.foldl (fun s k => s.putSource k (f (s.source k))) s) := by
  refine foldl_keeps _ (fun s k => ?_) l s
  exact ⟨rfl, rfl⟩
theorem funcIc_frame (s : State) : funcIc s =
    { (List.range 128).foldl (fun s k => s.putSource k (funcSource (s.source k))) s with ic := (funcIc s).ic } := rfl
@[simp] theorem funcIc_keeps (s : State) : Keeps s (funcIc s) := by
  rw [funcIc_frame]
  exact putSources_keeps funcSource (List.range 128) s
theorem setMboxes_keeps (f : Mbox → Mbox) (l : List Nat) (s : State) :
    Keeps s (l.foldl (fun s m => s.setMbox m (f (s.mbox m))) s) := by
  refine foldl_keeps _ (fun s m => ?_) l s
  exact ⟨rfl, rfl⟩
@[simp] theorem funcReset_keeps (s : State) (c : FuncCause) : Keeps s (funcReset s c) := by
  simp [funcReset, setMboxes_keeps]
theorem markCause_fuses (x : Sec) (c : SysCause) : (markCause x c).fuses = x.fuses := by cases c <;> rfl
@[simp] theorem sysState_keeps (s : State) (c : SysCause) : Keeps s (sysState s c) := by
  simp [sysState, sysSec, markCause_fuses]
@[simp] theorem sysNow_keeps (s : State) (c : SysCause) : Keeps s (sysNow s c) := by simp [sysNow]
@[simp] theorem sysReset_keeps (s : State) (c : SysCause) : Keeps s (sysReset s c) := by simp [sysReset]
@[simp] theorem sysCommand_keeps (s : State) (c : SysCause) : Keeps s (sysCommand s c) := by simp [sysCommand]
@[simp] theorem secRst_keeps (s : State) (key : BitVec 16) (level : BitVec 2) : Keeps s (secRst s key level) := by simp [secRst]
@[simp] theorem bootRom_keeps (s : State) : Keeps s (bootRom s) := by simp [bootRom]
@[simp] theorem bootFails_keeps (s : State) (cause : Nat) (rej : BitVec 2) : Keeps s (bootFails s cause rej) := by simp [bootFails]
@[simp] theorem startCopy_keeps (s : State) (copy1 : Bool) (flash : List Byte) (rej : BitVec 2) :
    Keeps s (startCopy s copy1 flash rej) := by
  simp [startCopy]
@[simp] theorem chooseCopy_keeps (s : State) (flash : List Byte) : Keeps s (chooseCopy s flash) := by simp [chooseCopy]
@[simp] theorem firmwareVerify_keeps (s : State) (f : FlashView) : Keeps s (firmwareVerify s f) := by
  unfold firmwareVerify
  dsimp only
  repeat' split
  all_goals simp
@[simp] theorem memoryFails_keeps (s : State) (chok : BitVec 8) : Keeps s (memoryFails s chok) := by simp [memoryFails]
@[simp] theorem firmwareReady_keeps (s : State) (t : Option Training) : Keeps s (firmwareReady s t) := by
  unfold firmwareReady
  dsimp only
  repeat' split
  all_goals simp
@[simp] theorem channelLoss_keeps (s : State) (chok : BitVec 8) : Keeps s (channelLoss s chok) := by simp [channelLoss]

/-! ### Commit -/

@[simp] theorem setPending_keeps (s : State) (g : CommitGroup) (b : Bool) : Keeps s (setPending s g b) := by
  unfold setPending; split <;> simp
@[simp] theorem copyGroup_keeps (s : State) (g : CommitGroup) : Keeps s (copyGroup s g) := by
  cases g <;> simp [copyGroup]
@[simp] theorem applyGroup_keeps (s : State) (g : CommitGroup) : Keeps s (applyGroup s g) := by
  unfold applyGroup
  split <;> simp
@[simp] theorem applyBoundary_keeps (s : State) : Keeps s (applyBoundary s) := by simp [applyBoundary]
@[simp] theorem commitWrite_keeps (s : State) (g : CommitGroup) : Keeps s (commitWrite s g) := by simp [commitWrite]
@[simp] theorem commitApply_keeps (s : State) (g : CommitGroup) : Keeps s (commitApply s g) := by simp [commitApply]

/-! ### FabWindow -/

@[simp] theorem State_setSel_keeps (s : State) (a : Agent) (b : Nat) (x : BedSel) : Keeps s (State.setSel s a b x) := by
  simp [State.setSel]
@[simp] theorem qrecSample_keeps (s : State) (a : Agent) (b : Nat) : Keeps s (qrecSample s a b) := by simp [qrecSample]
@[simp] theorem qrecRead_keeps (s : State) (a : Agent) (b : Nat) : Keeps s (qrecRead s a b) := by simp [qrecRead]
@[simp] theorem bedClr_keeps (s : State) (b : Nat) (m : BitVec 5) : Keeps s (bedClr s b m) := by simp [bedClr]
@[simp] theorem bedSatclr_keeps (s : State) (a : Agent) (b : Nat) : Keeps s (bedSatclr s a b) := by unfold bedSatclr; split <;> simp
@[simp] theorem satcRead_keeps (s : State) (a : Agent) (b i : Nat) : Keeps s (satcRead s a b i) := by unfold satcRead; split <;> simp

/-! ### Front -/

@[simp] theorem switchGrid_keeps (s : State) (t : Nat) : Keeps s (switchGrid s t) := by simp [switchGrid]
@[simp] theorem switchEdge_keeps (s : State) (e : Nat) : Keeps s (switchEdge s e) := by simp [switchEdge]
@[simp] theorem tileSwitch_keeps (s : State) (x : Switcher) : Keeps s (tileSwitch s x) := by
  unfold tileSwitch
  dsimp only
  repeat' split
  all_goals simp
@[simp] theorem frontComplete_keeps (s : State) : Keeps s (frontComplete s) := by simp [frontComplete]
@[simp] theorem frontLimit_keeps (s : State) : Keeps s (frontLimit s) := by simp [frontLimit]

/-! ### Link -/

@[simp] theorem enterTrain_keeps (s : State) (p : Nat) : Keeps s (enterTrain s p) := by simp [enterTrain]
@[simp] theorem sendHello_keeps (s : State) (p : Nat) : Keeps s (sendHello s p) := by simp [sendHello]
@[simp] theorem enterHello_keeps (s : State) (p : Nat) : Keeps s (enterHello s p) := by simp [enterHello]
@[simp] theorem enterUp_keeps (s : State) (p : Nat) : Keeps s (enterUp s p) := by simp [enterUp]
@[simp] theorem helloAll_keeps (s : State) : Keeps s (helloAll s) := by simp [helloAll]
@[simp] theorem enterFailed_keeps (s : State) (p : Nat) : Keeps s (enterFailed s p) := by simp [enterFailed]
@[simp] theorem failLinkOn_keeps (s : State) (p : Nat) (seqBad : Bool) : Keeps s (failLinkOn s p seqBad) := by simp [failLinkOn]
@[simp] theorem failLink_keeps (s : State) (p : Nat) : Keeps s (failLink s p) := by simp [failLink]
@[simp] theorem seqDisagrees_keeps (s : State) (p : Nat) : Keeps s (seqDisagrees s p) := by simp [seqDisagrees]
@[simp] theorem badCrc_keeps (s : State) (p : Nat) : Keeps s (badCrc s p) := by simp [badCrc]
@[simp] theorem replay_keeps (s : State) (p : Nat) : Keeps s (replay s p) := by simp [replay]
@[simp] theorem rxHeader_keeps (s : State) (p : Nat) (h : FrameHdr) : Keeps s (rxHeader s p h).1 := by
  unfold rxHeader
  dsimp only
  repeat' split
  all_goals simp
@[simp] theorem rxPlain_keeps (s : State) (p : Nat) (h : FrameHdr) : Keeps s (rxPlain s p h).1 := by
  unfold rxPlain
  dsimp only
  split <;> simp
@[simp] theorem rxSeq_keeps (s : State) (p : Nat) (h : FrameHdr) : Keeps s (rxSeq s p h).1 := by
  unfold rxSeq
  dsimp only
  repeat' split
  all_goals simp
@[simp] theorem rxSequenced_keeps (s : State) (p : Nat) (h : FrameHdr) : Keeps s (rxSequenced s p h).1 := by
  unfold rxSequenced
  dsimp only
  split <;> simp
@[simp] theorem tokenFrame_keeps (s : State) (p : Nat) (h : FrameHdr) (vc : Nat) (toks : List Token) :
    Keeps s (tokenFrame s p h vc toks) := by
  simp [tokenFrame]
@[simp] theorem nakFrame_keeps (s : State) (p : Nat) (h : FrameHdr) : Keeps s (nakFrame s p h) := by simp [nakFrame]
@[simp] theorem idleFrame_keeps (s : State) (p : Nat) (h : FrameHdr) : Keeps s (idleFrame s p h) := by simp [idleFrame]
@[simp] theorem compareHello_keeps (s : State) (p : Nat) (r : HelloRec) : Keeps s (compareHello s p r) := by simp [compareHello]
@[simp] theorem hearHello_keeps (s : State) (p : Nat) (r : HelloRec) : Keeps s (hearHello s p r) := by simp [hearHello]
@[simp] theorem hearProbe_keeps (s : State) (p : Nat) (v : BitVec 64) : Keeps s (hearProbe s p v) := by simp [hearProbe]
@[simp] theorem helloFrame_keeps (s : State) (p : Nat) (h : FrameHdr) (r : HelloRec) (probe : BitVec 64) :
    Keeps s (helloFrame s p h r probe) := by
  simp [helloFrame]
@[simp] theorem helloSend_keeps (s : State) (p : Nat) : Keeps s (helloSend s p) := by simp [helloSend]
@[simp] theorem setEpoch_keeps (s : State) (p : Nat) (v : BitVec 64) (t : Nat) : Keeps s (setEpoch s p v t) := by simp [setEpoch]
@[simp] theorem followSync_keeps (s : State) (p : Nat) (time : BitVec 64) : Keeps s (followSync s p time) := by
  unfold followSync; split <;> simp
@[simp] theorem heartbeat_keeps (s : State) (p : Nat) (step : BitVec 48) : Keeps s (heartbeat s p step) := by simp [heartbeat]
@[simp] theorem checkTime_keeps (s : State) (p : Nat) (time : BitVec 64) (peerRuns : Bool) : Keeps s (checkTime s p time peerRuns) := by
  simp [checkTime]
@[simp] theorem syncFrame_keeps (s : State) (p : Nat) (h : FrameHdr) (peer : PeerStep) (time : BitVec 64) :
    Keeps s (syncFrame s p h peer time) := by
  simp [syncFrame]
@[simp] theorem syncSend_keeps (s : State) (p : Nat) : Keeps s (syncSend s p) := by simp [syncSend]
@[simp] theorem tokenFrameSend_keeps (s : State) (p vc : Nat) : Keeps s (tokenFrameSend s p vc) := by
  unfold tokenFrameSend
  dsimp only
  repeat' split
  all_goals simp
@[simp] theorem twinIntake_keeps (s : State) (p : Nat) (ws : List Word) : Keeps s (twinIntake s p ws) := by simp [twinIntake]
@[simp] theorem msgFrame_keeps (s : State) (p : Nat) (h : FrameHdr) (ws : List Word) : Keeps s (msgFrame s p h ws) := by simp [msgFrame]
@[simp] theorem hearAbort_keeps (s : State) (p : Nat) (origin cause : BitVec 16) (step : BitVec 48) :
    Keeps s (hearAbort s p origin cause step) := by
  simp [hearAbort]
@[simp] theorem abortFrame_keeps (s : State) (p : Nat) (h : FrameHdr) (origin cause : BitVec 16) (step : BitVec 48) :
    Keeps s (abortFrame s p h origin cause step) := by
  simp [abortFrame]
@[simp] theorem replayTimeout_keeps (s : State) (p : Nat) : Keeps s (replayTimeout s p) := by simp [replayTimeout]
@[simp] theorem linkFail_keeps (s : State) (p : Nat) (c : LinkCause) : Keeps s (linkFail s p c) := by simp [linkFail]
@[simp] theorem trainComplete_keeps (s : State) (p : Nat) : Keeps s (trainComplete s p) := by simp [trainComplete]
@[simp] theorem trainTimeout_keeps (s : State) (p : Nat) : Keeps s (trainTimeout s p) := by simp [trainTimeout]
@[simp] theorem failedRetry_keeps (s : State) (p : Nat) : Keeps s (failedRetry s p) := by simp [failedRetry]
@[simp] theorem setPortEn_keeps (s : State) (p : Nat) (en : Bool) : Keeps s (setPortEn s p en) := by simp [setPortEn]
@[simp] theorem portEnable_keeps (s : State) (p : Nat) (en : Bool) : Keeps s (portEnable s p en) := by simp [portEnable]
@[simp] theorem retrain_keeps (s : State) (p : Nat) : Keeps s (retrain s p) := by simp [retrain]
@[simp] theorem lkClrstat_keeps (s : State) : Keeps s (lkClrstat s) := by
  refine foldl_keeps _ (fun s p => ?_) (List.range 4) s
  exact ⟨rfl, rfl⟩

/-! ### Task -/

@[simp] theorem nopCmd_keeps (s : State) : Keeps s (nopCmd s) := by simp [nopCmd]
@[simp] theorem acceptTask_keeps (s : State) (n : BitVec 48) : Keeps s (acceptTask s n) := by simp [acceptTask]
@[simp] theorem leadStart_keeps (s : State) : Keeps s (leadStart s) := by simp [leadStart]
@[simp] theorem beginPair_keeps (s : State) : Keeps s (beginPair s) := by simp [beginPair]
@[simp] theorem taskStart_keeps (s : State) : Keeps s (taskStart s) := by
  unfold taskStart
  dsimp only
  repeat' split
  all_goals simp
@[simp] theorem refusePair_keeps (s : State) : Keeps s (refusePair s) := by simp [refusePair]
@[simp] theorem pairAccept_keeps (s : State) : Keeps s (pairAccept s) := by unfold pairAccept; split <;> simp
@[simp] theorem pairTimeout_keeps (s : State) : Keeps s (pairTimeout s) := by simp [pairTimeout]
@[simp] theorem resume_keeps (s : State) : Keeps s (resume s) := by simp [resume]
@[simp] theorem rake_keeps (s : State) : Keeps s (rake s) := by simp [rake]
@[simp] theorem abortCmd_keeps (s : State) : Keeps s (abortCmd s) := by simp [abortCmd]
@[simp] theorem epoch_keeps (s : State) : Keeps s (epoch s) := by simp [epoch]
@[simp] theorem epochTimeout_keeps (s : State) : Keeps s (epochTimeout s) := by unfold epochTimeout; split <;> simp

/-! ### Twin -/

@[simp] theorem twinMove_keeps (s : State) (was : Bool) : Keeps s (twinMove s was) := by simp [twinMove]
@[simp] theorem twinCfg_keeps (s : State) (v : Word) : Keeps s (twinCfg s v) := by simp [twinCfg]
@[simp] theorem twEnable_keeps (s : State) (v : Word) : Keeps s (twEnable s v) := by simp [twEnable]
@[simp] theorem formPair_keeps (s : State) : Keeps s (formPair s) := by simp [formPair]
theorem takeTwin_keeps {s s1 : State} {sub : Nat} {ws : List Word} (h : takeTwin s sub = some (ws, s1)) : Keeps s s1 := by
  unfold takeTwin at h
  split at h
  · exact absurd h (by simp)
  · split at h
    · obtain ⟨-, rfl⟩ := Prod.mk.inj (Option.some.inj h)
      exact ⟨rfl, rfl⟩
    · exact absurd h (by simp)
@[simp] theorem role_keeps (s : State) : Keeps s (role s) := by
  unfold role
  split
  · simp
  · split
    · simp
    · next h => simp [takeTwin_keeps h]
@[simp] theorem ready_keeps (s : State) : Keeps s (ready s) := by
  unfold ready
  split
  · simp
  · next h => simp [takeTwin_keeps h]
@[simp] theorem start_keeps (s : State) : Keeps s (start s) := by
  unfold start
  split
  · simp
  · next h => simp [takeTwin_keeps h]
@[simp] theorem digest_keeps (s : State) : Keeps s (digest s) := by
  unfold digest
  split
  · simp
  · next h => simp [takeTwin_keeps h]
@[simp] theorem first_keeps (s : State) : Keeps s (first s) := by
  unfold first
  split
  · simp
  · next h => simp [takeTwin_keeps h]
@[simp] theorem checkDue_keeps (s : State) : Keeps s (checkDue s) := by
  unfold checkDue
  split
  · split <;> simp
  · simp
@[simp] theorem heartbeatMiss_keeps (s : State) : Keeps s (heartbeatMiss s) := by simp [heartbeatMiss]
@[simp] theorem fltIdx_keeps (s : State) (a : Agent) (i : BitVec 9) : Keeps s (fltIdx s a i) := by simp [fltIdx]
@[simp] theorem fltClear_keeps (s : State) : Keeps s (fltClear s) := by simp [fltClear]

/-! ### HostIf -/

@[simp] theorem doorbell_keeps (s : State) (n : Nat) (v : Word) : Keeps s (doorbell s n v) := by simp [doorbell]
@[simp] theorem markWb_keeps (s : State) (n : Nat) : Keeps s (markWb s n) := by simp [markWb]
@[simp] theorem ringEnable_keeps (s : State) (n : Nat) (szl : BitVec 5) : Keeps s (ringEnable s n szl) := by simp [ringEnable]
@[simp] theorem ringDisable_keeps (s : State) (n : Nat) : Keeps s (ringDisable s n) := by simp [ringDisable]
@[simp] theorem hqClrstat_keeps (s : State) : Keeps s (hqClrstat s) := by simp [hqClrstat]
@[simp] theorem windowWrite_keeps (s : State) (g : BitVec 6) : Keeps s (windowWrite s g) := by simp [windowWrite]
@[simp] theorem takeCommand_keeps (s : State) (b : List Byte) : Keeps s (takeCommand s b) := by unfold takeCommand; split <;> simp
@[simp] theorem commandFetch_keeps (s : State) (r : HostRead) : Keeps s (commandFetch s r) := by
  unfold commandFetch
  dsimp only
  repeat' split
  all_goals simp
@[simp] theorem putEntry_keeps (s : State) (n : Nat) (b : List Byte) : Keeps s (putEntry s n b) := by simp [putEntry]
@[simp] theorem afterRoom_keeps (s : State) : Keeps s (afterRoom s) := by
  unfold afterRoom
  dsimp only
  repeat' split
  all_goals simp
@[simp] theorem eventWrite_keeps (s : State) : Keeps s (eventWrite s) := by unfold eventWrite; split <;> simp
@[simp] theorem recordWrite_keeps (s : State) : Keeps s (recordWrite s) := by unfold recordWrite; split <;> simp
@[simp] theorem streamFetch_keeps (s : State) (c : Nat) (r : HostRead) : Keeps s (streamFetch s c r) := by
  unfold streamFetch
  dsimp only
  repeat' split
  all_goals simp
@[simp] theorem streamWrite_keeps (s : State) (c : Nat) : Keeps s (streamWrite s c) := by unfold streamWrite; split <;> simp
@[simp] theorem bar2Violates_keeps (s : State) (code off len rid : Nat) (write : Bool) :
    Keeps s (bar2Violates s code off len rid write) := by
  simp [bar2Violates]
@[simp] theorem bar2Read_keeps (s : State) (off len : Nat) (health : UnitHealth) (rid : Nat) :
    Keeps s (bar2Read s off len health rid) := by
  unfold bar2Read
  dsimp only
  repeat' split
  all_goals simp
@[simp] theorem poisonedWrite_keeps (s : State) (addr : Nat) : Keeps s (poisonedWrite s addr) := by simp [poisonedWrite]
@[simp] theorem attest_keeps (s : State) : Keeps s (attest s) := by simp [attest]

/-! ### QTile -/

@[simp] theorem rotFire_keeps (s : State) (t : Nat) : Keeps s (rotFire s t) := by simp [rotFire]
@[simp] theorem kvqFire_keeps (s : State) (t : Nat) : Keeps s (kvqFire s t) := by simp [kvqFire]
@[simp] theorem dscFire_keeps (s : State) (t : Nat) : Keeps s (dscFire s t) := by simp [dscFire]
@[simp] theorem deqFire_keeps (s : State) (t : Nat) : Keeps s (deqFire s t) := by simp [deqFire]
@[simp] theorem scoFire_keeps (s : State) (t : Nat) : Keeps s (scoFire s t) := by simp [scoFire]
@[simp] theorem qntFire_keeps (s : State) (t : Nat) : Keeps s (qntFire s t) := by simp [qntFire]
@[simp] theorem tagFire_keeps (s : State) (t : Nat) : Keeps s (tagFire s t) := by simp [tagFire]

/-! ### FTile -/

@[simp] theorem funFire_keeps (s : State) (t sub : Nat) : Keeps s (funFire s t sub) := by simp [funFire]
@[simp] theorem binFire_keeps (s : State) (t sub : Nat) : Keeps s (binFire s t sub) := by simp [binFire]
@[simp] theorem vecFire_keeps (s : State) (t sub : Nat) : Keeps s (vecFire s t sub) := by simp [vecFire]
@[simp] theorem waccFire_keeps (s : State) (t : Nat) : Keeps s (waccFire s t) := by simp [waccFire]
@[simp] theorem poolFire_keeps (s : State) (t : Nat) (avg : Bool) : Keeps s (poolFire s t avg) := by simp [poolFire]
@[simp] theorem bilFire_keeps (s : State) (t : Nat) : Keeps s (bilFire s t) := by simp [bilFire]

/-! ### Nce -/

@[simp] theorem blockParity_keeps (s : State) (blk : Nat) (x : BlockStore × Nat) : Keeps s (blockParity s blk x) := by simp [blockParity]
@[simp] theorem pushChan_keeps (s : State) (c : Nat) (ts : List Token) : Keeps s (pushChan s c ts) := by simp [pushChan]
@[simp] theorem firstLayer_keeps (s : State) (b : List Byte) (v r : Nat) : Keeps s (firstLayer s b v r) := by
  unfold firstLayer
  dsimp only
  repeat' split
  all_goals simp
@[simp] theorem downscale_keeps (s : State) (b : List Byte) (v : Nat) (row : List Nat) : Keeps s (downscale s b v row) := by
  simp [downscale]
@[simp] theorem trickleOne_keeps (s : State) (b : List Byte) (t : Nat) : Keeps s (trickleOne s b t) := by
  unfold trickleOne; split <;> simp
@[simp] theorem trickleAll_keeps (s : State) (b : List Byte) : Keeps s (trickleAll s b) := by simp [trickleAll]
@[simp] theorem rollWindow_keeps (s : State) : Keeps s (rollWindow s) := by simp [rollWindow]
@[simp] theorem takeLine_keeps (s : State) (b : List Byte) (v n : Nat) : Keeps s (takeLine s b v n) := by simp [takeLine]
@[simp] theorem keepRow_keeps (s : State) (v : Nat) (row : List Nat) : Keeps s (keepRow s v row) := by simp [keepRow]
@[simp] theorem lineIntake_keeps (s : State) : Keeps s (lineIntake s) := by
  unfold lineIntake
  dsimp only
  repeat' split
  all_goals simp
@[simp] theorem requestSlot_keeps (s : State) (b : List Byte) (i : Nat) : Keeps s (requestSlot s b i) := by simp [requestSlot]
@[simp] theorem cropRequest_keeps (s : State) : Keeps s (cropRequest s) := by
  unfold cropRequest
  dsimp only
  repeat' split
  all_goals simp
@[simp] theorem countClip_keeps (s : State) : Keeps s (countClip s) := by simp [countClip]
@[simp] theorem resampleSlot_keeps (s : State) (b : List Byte) (k i : Nat) (ts : List Token) : Keeps s (resampleSlot s b k i ts) := by
  unfold resampleSlot
  dsimp only
  repeat' split
  all_goals simp
@[simp] theorem flushCrops_keeps (b : List Byte) (n : Nat) (s : State) : Keeps s (flushCrops s b n) := by
  induction n generalizing s with
  | zero => simp [flushCrops]
  | succ n ih =>
    unfold flushCrops
    dsimp only
    split
    · simp [ih]
    · simp
@[simp] theorem cropResample_keeps (s : State) (k : Nat) : Keeps s (cropResample s k) := by
  unfold cropResample
  dsimp only
  repeat' split
  all_goals simp
@[simp] theorem ffdataAccess_keeps (s : State) (wr : Option Word) : Keeps s (ffdataAccess s wr) := by unfold ffdataAccess; split <;> simp
@[simp] theorem nceClrstat_keeps (s : State) : Keeps s (nceClrstat s) := by simp [nceClrstat]

/-! ### Pci -/

@[simp] theorem pciRead_keeps (s : State) (x : RegAccess) : Keeps s (pciRead s x) := by simp [pciRead]
@[simp] theorem commandWrite_keeps (s : State) (v : Word) : Keeps s (commandWrite s v) := by simp [commandWrite]
@[simp] theorem configWrite_keeps (s : State) (o : Nat) (v : Word) : Keeps s (configWrite s o v) := by simp [configWrite]
@[simp] theorem deviceControlWrite_keeps (s : State) (v : Word) : Keeps s (deviceControlWrite s v) := by simp [deviceControlWrite]
@[simp] theorem bar4Write_keeps (s : State) (o : Nat) (v : Word) : Keeps s (bar4Write s o v) := by
  unfold bar4Write
  dsimp only
  repeat' split
  all_goals simp
@[simp] theorem pciWrite_keeps (s : State) (x : RegAccess) : Keeps s (pciWrite s x) := by
  unfold pciWrite
  dsimp only
  repeat' split
  all_goals simp

/-! ### RegRead -/

@[simp] theorem accessViolates_keeps (s : State) (x : RegAccess) (code : Nat) (write : Bool) :
    Keeps s (accessViolates s x code write) := by
  simp [accessViolates]

/-! ### FabWindow -/

theorem bedRead_keeps {s s1 : State} {a : Agent} {b o : Nat} (h : bedRead s a b o = some s1) : Keeps s s1 := by
  unfold bedRead at h
  repeat' split at h
  all_goals cases h
  all_goals simp

/-! ### RegRead -/

theorem readReg_keeps {s s1 : State} {a : Agent} {off : Nat} (h : readReg s a off = some s1) : Keeps s s1 := by
  unfold readReg at h
  split at h
  · split at h
    · exact bedRead_keeps h
    · cases h
  · repeat' split at h
    all_goals cases h
    all_goals simp
@[simp] theorem loRead_keeps (s : State) (x : RegAccess) : Keeps s (loRead s x) := by
  unfold loRead
  repeat' split
  all_goals simp
  next h => exact readReg_keeps h

/-! ### Dump -/

@[simp] theorem afterDump_keeps (s : State) : Keeps s (afterDump s) := by simp [afterDump]
@[simp] theorem dumpFails_keeps (s : State) : Keeps s (dumpFails s) := by simp [dumpFails]

/-! ### MTile -/

@[simp] theorem macFire_keeps (s : State) (t : Nat) : Keeps s (macFire s t) := by simp [macFire]
@[simp] theorem seedFire_keeps (s : State) (t : Nat) : Keeps s (seedFire s t) := by simp [seedFire]
@[simp] theorem drainFire_keeps (s : State) (t : Nat) : Keeps s (drainFire s t) := by
  unfold drainFire
  dsimp only
  repeat' split
  all_goals simp
@[simp] theorem ldcFire_keeps (s : State) (t : Nat) : Keeps s (ldcFire s t) := by simp [ldcFire]
@[simp] theorem ldsFire_keeps (s : State) (t : Nat) : Keeps s (ldsFire s t) := by simp [ldsFire]
@[simp] theorem kctlFire_keeps (s : State) (t : Nat) : Keeps s (kctlFire s t) := by simp [kctlFire]

/-! ### WTile -/

@[simp] theorem wFire_keeps (s : State) (t opc : Nat) (plan : State → GridTile → BitVec 64 → List (Nat × Token) → Plan) :
    Keeps s (wFire s t opc plan) := by
  simp [wFire]

/-! ### Pp -/

@[simp] theorem headFronts_keeps (s : State) (b : List Byte) (hn : Nat) : Keeps s (headFronts s b hn) := by simp [headFronts]
@[simp] theorem takeHeads_keeps (s : State) (b : List Byte) : Keeps s (takeHeads s b) := by simp [takeHeads]
@[simp] theorem countQdrop_keeps (s : State) : Keeps s (countQdrop s) := by simp [countQdrop]
@[simp] theorem addCand_keeps (s : State) (c : Candidate) : Keeps s (addCand s c) := by
  unfold addCand
  dsimp only
  repeat' split
  all_goals simp
@[simp] theorem keepAccepted_keeps (s : State) (c : Candidate) : Keeps s (keepAccepted s c) := by
  unfold keepAccepted
  dsimp only
  repeat' split
  all_goals simp
@[simp] theorem expireAccepted_keeps (s : State) (sw : Nat) : Keeps s (expireAccepted s sw) := by simp [expireAccepted]
@[simp] theorem indexToken_keeps (b : List Byte) (s : State) (u : Token) : Keeps s (indexToken b s u) := by simp [indexToken]
@[simp] theorem decodeSlots_keeps (s : State) (b : List Byte) : Keeps s (decodeSlots s b) := by simp [decodeSlots]
@[simp] theorem measRecord_keeps (s : State) (b : List Byte) (vals : List Nat) : Keeps s (measRecord s b vals) := by simp [measRecord]
@[simp] theorem measChannel_keeps (s : State) (b : List Byte) (c : Nat) : Keeps s (measChannel s b c) := by simp [measChannel]
@[simp] theorem measLast_keeps (s : State) (b : List Byte) : Keeps s (measLast s b) := by simp [measLast]
@[simp] theorem measure_keeps (s : State) (b : List Byte) : Keeps s (Machine.measure s b) := by simp [Machine.measure]
@[simp] theorem decideAll_keeps (t : Nat) (l : List Candidate) (s : State) : Keeps s (decideAll t l s).1 := by
  induction l generalizing s with
  | nil => simp [decideAll]
  | cons c r ih =>
    unfold decideAll
    dsimp only
    split <;> simp [ih]
@[simp] theorem recordBoxes_keeps (b : List Byte) (l : List Candidate) (s : State) : Keeps s (recordBoxes b l s) := by
  induction l generalizing s with
  | nil => simp [recordBoxes]
  | cons c r ih => simp [recordBoxes, ih]
@[simp] theorem ppStep_keeps (s : State) : Keeps s (ppStep s) := by
  unfold ppStep
  dsimp only
  repeat' split
  all_goals simp
@[simp] theorem ppClrstat_keeps (s : State) : Keeps s (ppClrstat s) := by simp [ppClrstat]

/-! ### Release -/

@[simp] theorem releaseBlocks_keeps (s : State) : Keeps s (releaseBlocks s) := by simp [releaseBlocks]
theorem setBeds_keeps (f : BedState → BedState) (l : List Nat) (s : State) :
    Keeps s (l.foldl (fun s b => s.setBed b (f (s.bed b))) s) := by
  refine foldl_keeps _ (fun s b => ?_) l s
  exact ⟨rfl, rfl⟩
@[simp] theorem releaseFabric_keeps (s : State) (rank : Marker) : Keeps s (releaseFabric s rank) := by
  simp [releaseFabric, setBeds_keeps]
@[simp] theorem checkDeadline_keeps (s : State) (busy hold : Nat) : Keeps s (checkDeadline s busy hold) := by simp [checkDeadline]
@[simp] theorem enterBarrier_keeps (s : State) : Keeps s (enterBarrier s) := by simp [enterBarrier]
@[simp] theorem endTask_keeps (s : State) : Keeps s (endTask s) := by simp [endTask]
@[simp] theorem completeStep_keeps (s : State) : Keeps s (completeStep s) := by
  unfold completeStep
  dsimp only
  repeat' split
  all_goals simp
@[simp] theorem endDecision_keeps (s : State) : Keeps s (endDecision s) := by simp [endDecision]
@[simp] theorem checkLag_keeps (s : State) : Keeps s (checkLag s) := by simp [checkLag]
@[simp] theorem checkTakeover_keeps (s : State) : Keeps s (checkTakeover s) := by simp [checkTakeover]
@[simp] theorem checkTick_keeps (s : State) : Keeps s (checkTick s) := by simp [checkTick]
@[simp] theorem doRelease_keeps (s : State) (m : BitVec 48) (rank : Marker) : Keeps s (doRelease s m rank) := by simp [doRelease]
@[simp] theorem releaseStep_keeps (s : State) (m : BitVec 48) : Keeps s (releaseStep s m) := by simp [releaseStep]
@[simp] theorem stopTask_keeps (s : State) : Keeps s (stopTask s) := by simp [stopTask]
@[simp] theorem stepRelease_keeps (s : State) : Keeps s (stepRelease s) := by simp [stepRelease]
@[simp] theorem tickBy_keeps (s : State) (d : Nat) : Keeps s (tickBy s d) := by simp [tickBy]
@[simp] theorem frozenTick_keeps (s : State) (d : Nat) : Keeps s (frozenTick s d) := by simp [frozenTick]
@[simp] theorem passTime_keeps (s : State) (d : Nat) : Keeps s (passTime s d) := by simp [passTime]
@[simp] theorem timeIncrement_keeps (s : State) (n : Nat) : Keeps s (timeIncrement s n) := by simp [timeIncrement]

/-! ### Loader -/

@[simp] theorem loadFabric_keeps (s : State) (p : PlcImage) : Keeps s (loadFabric s p) := by simp [loadFabric]
@[simp] theorem loadUnits_keeps (s : State) (p : PlcImage) : Keeps s (loadUnits s p) := by simp [loadUnits]
@[simp] theorem allFabsOn_keeps (s : State) : Keeps s (allFabsOn s) := by simp [allFabsOn]
@[simp] theorem writePlacement_keeps (s : State) (im : LoadedImage) (pos n : Nat) (cmd : Bool) :
    Keeps s (writePlacement s im pos n cmd) := by
  simp [writePlacement]
@[simp] theorem beginWrite_keeps (s : State) (im : LoadedImage) (pos n : Nat) (cmd : Bool) : Keeps s (beginWrite s im pos n cmd) := by
  simp [beginWrite]
@[simp] theorem refuseImage_keeps (s : State) (f : LoadFail) : Keeps s (refuseImage s f) := by simp [refuseImage]
@[simp] theorem noteLoaderRead_keeps (s : State) (h : UnitHealth) (a : Nat) : Keeps s (noteLoaderRead s h a) := by
  unfold noteLoaderRead
  split
  · simp
  · split <;> simp
theorem switchPlc_keeps {s s1 : State} {n : Nat} {cmd : Bool} (h : switchPlc s n cmd = .ok s1) : Keeps s s1 := by
  unfold switchPlc at h
  repeat' split at h
  all_goals cases h
  simp
@[simp] theorem plcSwitch_keeps (s : State) : Keeps s (plcSwitch s) := by
  unfold plcSwitch
  split
  · simp
  · split
    · simp
    · split
      · next h => exact switchPlc_keeps h
      · simp
@[simp] theorem readEntries_keeps (s : State) : Keeps s (readEntries s) := by simp [readEntries]
@[simp] theorem openCores_keeps (s : State) : Keeps s (openCores s) := by simp [openCores]
@[simp] theorem endLoad_mem (s : State) (f : State → State) (h : ∀ s, (f s).mc.mem = s.mc.mem) : (endLoad s f).mc.mem = s.mc.mem := by
  simp [endLoad, h]
@[simp] theorem endLoad_fuses (s : State) (f : State → State) (h : ∀ s, (f s).sec.fuses = s.sec.fuses) :
    (endLoad s f).sec.fuses = s.sec.fuses := by
  simp [endLoad, h]
@[simp] theorem finishLoad_keeps (s : State) : Keeps s (finishLoad s) := by simp [finishLoad]
@[simp] theorem finishStart_keeps (s : State) : Keeps s (finishStart s) := by simp [finishStart]
@[simp] theorem closeStage_keeps (s : State) (p : PendLoad) : Keeps s (closeStage s p) := by simp [closeStage]
@[simp] theorem openStage_keeps (s : State) : Keeps s (openStage s) := by simp [openStage]
@[simp] theorem releaseStage_keeps (s : State) : Keeps s (releaseStage s) := by
  unfold releaseStage
  split
  · simp
  · split <;> simp
@[simp] theorem failStage_keeps (s : State) (n : Nat) : Keeps s (failStage s n) := by simp [failStage]
@[simp] theorem releaseTimeout_keeps (s : State) : Keeps s (releaseTimeout s) := by simp [releaseTimeout]

/-! ### Firmware -/

@[simp] theorem fwWrite_keeps (s : State) (m core dest : Nat) (ws : List Word) : Keeps s (fwWrite s m core dest ws) := by simp [fwWrite]
@[simp] theorem takeMessage_keeps (s : State) (m n : Nat) : Keeps s (takeMessage s m n) := by simp [takeMessage]
@[simp] theorem keepReply_keeps (s : State) (m : Nat) (h : Word) (ws : List Word) : Keeps s (keepReply s m h ws) := by simp [keepReply]
@[simp] theorem answerWith_keeps (s : State) (m core n : Nat) (h : Word) (r : Reply) : Keeps s (answerWith s m core n h r) := by
  simp [answerWith]
@[simp] theorem discardCorrupt_keeps (s : State) (m : Nat) (ws : List MboxWord) : Keeps s (discardCorrupt s m ws) := by
  simp [discardCorrupt]
/-- What firmware does with a message leaves LPDDR6 and the fuses. -/
def ActKeeps (act : Act) : Prop := ∀ s ws s1 r, act s ws = some (s1, r) → Keeps s s1
theorem serve_keeps (s : State) (m core : Nat) (mine : List Word → Bool) {act : Act} (h : ActKeeps act) :
    Keeps s (serve s m core mine act) := by
  unfold serve
  dsimp only
  repeat' split
  all_goals simp
  next h1 _ => exact h _ _ _ _ h1
theorem checkedAct_keeps (senders : List Nat) (len : Nat) (formed : List Word → Bool) {act : Act} (h : ActKeeps act) :
    ActKeeps (checkedAct senders len formed act) := by
  intro s ws s1 r h1
  unfold checkedAct at h1
  split at h1
  · cases h1; simp
  · split at h1
    · cases h1; simp
    · exact h _ _ _ _ h1
theorem checked_keeps (senders : List Nat) (len : Nat) (formed : List Word → Bool) {act : State → List Word → State × Reply}
    (h : ∀ s ws, Keeps s (act s ws).1) : ActKeeps (checked senders len formed act) :=
  checkedAct_keeps _ _ _ fun s ws s1 r h1 => by
    have hs1 : (act s ws).1 = s1 := congrArg Prod.fst (Option.some.inj h1)
    exact hs1 ▸ h s ws
@[simp] theorem ping_keeps (s : State) (m core : Nat) : Keeps s (ping s m core) :=
  serve_keeps _ _ _ _ fun s ws s1 r h => by
    split at h
    · cases h; simp
    · exact checked_keeps _ _ _ (fun _ _ => by simp) _ _ _ _ h
@[simp] theorem version_keeps (s : State) (m core : Nat) : Keeps s (version s m core) :=
  serve_keeps _ _ _ _ (checked_keeps _ _ _ fun _ _ => by simp)
@[simp] theorem faultlog_keeps (s : State) (m core : Nat) : Keeps s (faultlog s m core) :=
  serve_keeps _ _ _ _ (checked_keeps _ _ _ fun _ _ => by simp)
@[simp] theorem dump_keeps (s : State) (m core : Nat) : Keeps s (dump s m core) :=
  serve_keeps _ _ _ _ (checked_keeps _ _ _ fun _ _ => by simp)
@[simp] theorem takeHint_keeps (s : State) (origin : BitVec 16) (step : Word) (v : BitVec 4) (withdraw : Bool) :
    Keeps s (takeHint s origin step v withdraw) := by
  simp [takeHint]
theorem forwardOn_keeps {s s1 : State} {m core q : Nat} {ws : List Word} (h : forwardOn s m core q ws = some s1) : Keeps s s1 := by
  unfold forwardOn at h
  dsimp only at h
  split at h
  · cases h; simp
  · cases h
theorem bindAll_keeps {f : State → Nat → Option State} (hf : ∀ s q s1, f s q = some s1 → Keeps s s1) (l : List Nat) :
    ∀ {s s1 : State}, l.foldl (fun o q => o.bind fun s => f s q) (some s) = some s1 → Keeps s s1 := by
  induction l with
  | nil => intro s s1 h; cases h; exact ⟨rfl, rfl⟩
  | cons q r ih =>
    intro s s1 h
    rw [List.foldl_cons, Option.bind_some] at h
    cases hq : f s q with
    | none =>
      have : r.foldl (fun o q => o.bind fun s => f s q) none = (none : Option State) := by
        clear h ih
        induction r with
        | nil => rfl
        | cons _ _ ih => exact ih
      rw [hq, this] at h
      cases h
    | some s2 =>
      rw [hq] at h
      exact ⟨(ih h).1.trans (hf _ _ _ hq).1, (ih h).2.trans (hf _ _ _ hq).2⟩
theorem forwardAll_keeps {s s1 : State} {m core code : Nat} {ws : List Word} (h : forwardAll s m core code ws = some s1) :
    Keeps s s1 := by
  refine bindAll_keeps (fun s q s1 hq => ?_) _ h
  split at hq
  · exact forwardOn_keeps hq
  · cases hq; simp
theorem pacehintAct_keeps (m core : Nat) : ActKeeps (pacehintAct m core) := by
  intro s ws s1 r h
  unfold pacehintAct at h
  dsimp only at h
  split at h
  · cases h; simp
  · obtain ⟨s2, h2, h3⟩ := Option.map_eq_some_iff.mp h
    cases h3
    have := forwardAll_keeps h2
    simpa using this
@[simp] theorem pacehint_keeps (s : State) (m core : Nat) : Keeps s (pacehint s m core) :=
  serve_keeps _ _ _ _ (checkedAct_keeps _ _ _ (pacehintAct_keeps m core))
theorem plcswBegins_ok_keeps {s s1 : State} {m n x : Nat} (h : plcswBegins s m n x = .ok s1) : Keeps s s1 := by
  unfold plcswBegins at h
  dsimp only at h
  repeat' split at h
  all_goals cases h
  next h => simpa using switchPlc_keeps h
theorem plcswBegins_error_keeps {s s1 : State} {r : Reply} {m n x : Nat} (h : plcswBegins s m n x = .error (s1, r)) : Keeps s s1 := by
  unfold plcswBegins at h
  dsimp only at h
  repeat' split at h
  all_goals cases h
  all_goals simp
theorem plcswAct_keeps (m core : Nat) : ActKeeps (plcswAct m core) := by
  intro s ws s1 r h
  unfold plcswAct at h
  dsimp only at h
  split at h
  · unfold plcswEnds at h
    dsimp only at h
    split at h
    · obtain ⟨s2, h2, h3⟩ := Option.map_eq_some_iff.mp h
      cases h3
      simpa using forwardAll_keeps h2
    · cases h; simp
  · split at h
    · next h2 => cases h; exact plcswBegins_error_keeps h2
    · cases h
theorem plcswGoes_keeps {s s1 : State} {m : Nat} {ws : List Word} (h : plcswGoes s m ws = some s1) : Keeps s s1 := by
  unfold plcswGoes at h
  split at h
  · split at h <;> cases h
    simp
  · cases h2 : plcswBegins s m (bits (msgWord ws 1) 0 8) (bits (msgWord ws 1) 16 16) with
    | error e => rw [h2] at h; cases h
    | ok s2 => rw [h2] at h; cases h; exact plcswBegins_ok_keeps h2
@[simp] theorem plcsw_keeps (s : State) (m core : Nat) : Keeps s (plcsw s m core) := by
  unfold plcsw
  dsimp only
  split
  · next h =>
    obtain ⟨mw, -, h⟩ := Option.bind_eq_some_iff.mp h
    split at h
    · exact plcswGoes_keeps h
    · cases h
  · exact serve_keeps _ _ _ _ (checkedAct_keeps _ _ _ (plcswAct_keeps m core))
@[simp] theorem heartbeatMsg_keeps (s : State) (m core : Nat) : Keeps s (heartbeatMsg s m core) :=
  serve_keeps _ _ _ _ (checked_keeps _ _ _ fun _ _ => by simp)
@[simp] theorem takeover_keeps (s : State) (m core : Nat) : Keeps s (takeover s m core) :=
  serve_keeps _ _ _ _ (checked_keeps _ _ _ fun _ _ => by simp)

/-! ### Security -/

@[simp] theorem openPort_keeps (s : State) (n : BitVec 256) (b : List Byte) : Keeps s (openPort s n b).1 := by
  unfold openPort
  dsimp only
  split <;> simp

/-! ### Firmware -/

@[simp] theorem challenge_keeps (s : State) : Keeps s (challenge s).1 := by
  unfold challenge
  split <;> simp
@[simp] theorem responsePart_keeps (s : State) (part : Nat) (b : List Byte) : Keeps s (responsePart s part b).1 := by
  unfold responsePart
  dsimp only
  split
  · simp
  · split
    · simp
    · split <;> simp
@[simp] theorem dbgChallenge_keeps (s : State) (m core : Nat) : Keeps s (dbgChallenge s m core) :=
  serve_keeps _ _ _ _ (checked_keeps _ _ _ fun s _ => challenge_keeps s)
@[simp] theorem dbgResponse_keeps (s : State) (m core : Nat) : Keeps s (dbgResponse s m core) :=
  serve_keeps _ _ _ _ (checked_keeps _ _ _ fun s _ => responsePart_keeps s _ _)

/-! ### Registers -/

@[simp] theorem onBit_mem (v : Word) (i : Nat) (f : State → State) (s : State) (h : ∀ s, (f s).mc.mem = s.mc.mem) :
    (onBit v i f s).mc.mem = s.mc.mem := by simp [onBit, h]
@[simp] theorem onBit_fuses (v : Word) (i : Nat) (f : State → State) (s : State) (h : ∀ s, (f s).sec.fuses = s.sec.fuses) :
    (onBit v i f s).sec.fuses = s.sec.fuses := by simp [onBit, h]
@[simp] theorem writeCommit_keeps (s : State) (g : CommitGroup) (v : Word) : Keeps s (writeCommit s g v) := by simp [writeCommit]
@[simp] theorem glbClrviol_keeps (s : State) : Keeps s (glbClrviol s) := by simp [glbClrviol]
@[simp] theorem glbWrite_keeps (s : State) (o : Nat) (v : Word) : Keeps s (glbWrite s o v) := by unfold glbWrite; split <;> simp
@[simp] theorem paceClrstat_keeps (s : State) : Keeps s (paceClrstat s) := by simp [paceClrstat]
@[simp] theorem swholdWrite_keeps (s : State) (req : Bool) : Keeps s (swholdWrite s req) := by simp [swholdWrite]
@[simp] theorem paceShadow_keeps (s : State) (f : PaceTiming → PaceTiming) : Keeps s (paceShadow s f) := by simp [paceShadow]
@[simp] theorem stopWrite_keeps (s : State) (a : Agent) (off : Nat) (en : Bool) (step : BitVec 48) :
    Keeps s (stopWrite s a off en step) := by
  simp [stopWrite]
@[simp] theorem paceWrite_keeps (s : State) (a : Agent) (off : Nat) (v : Word) : Keeps s (paceWrite s a off v) := by
  unfold paceWrite; split <;> simp
@[simp] theorem sourceWrite_keeps (s : State) (k o : Nat) (v : Word) : Keeps s (sourceWrite s k o v) := by
  unfold sourceWrite; split <;> simp
@[simp] theorem coalWrite_keeps (s : State) (t : Nat) (v : Word) : Keeps s (coalWrite s t v) := by simp [coalWrite]
@[simp] theorem targetWrite_keeps (s : State) (a : Agent) (t o : Nat) (v : Word) : Keeps s (targetWrite s a t o v) := by
  unfold targetWrite; split <;> simp
@[simp] theorem icWrite_keeps (s : State) (a : Agent) (o : Nat) (v : Word) : Keeps s (icWrite s a o v) := by simp [icWrite]
@[simp] theorem mboxWrite_keeps (s : State) (a : Agent) (o : Nat) (v : Word) : Keeps s (mboxWrite s a o v) := by
  unfold mboxWrite; split <;> simp
@[simp] theorem ringCtrl_keeps (s : State) (a : Agent) (off n : Nat) (v : Word) : Keeps s (ringCtrl s a off n v) := by simp [ringCtrl]
@[simp] theorem ringBase_keeps (s : State) (a : Agent) (off n : Nat) (b : BitVec 64) : Keeps s (ringBase s a off n b) := by
  simp [ringBase]
@[simp] theorem ringWrite_keeps (s : State) (a : Agent) (off n o : Nat) (v : Word) : Keeps s (ringWrite s a off n o v) := by
  unfold ringWrite; split <;> simp
@[simp] theorem hqWrite_keeps (s : State) (a : Agent) (off : Nat) (v : Word) : Keeps s (hqWrite s a off v) := by
  unfold hqWrite
  dsimp only
  repeat' split
  all_goals simp
@[simp] theorem rrpWrite_keeps (s : State) (a : Agent) (k : Nat) (v : Word) : Keeps s (rrpWrite s a k v) := by simp [rrpWrite]
@[simp] theorem engineWrite_keeps (s : State) (a : Agent) (k o : Nat) (v : Word) : Keeps s (engineWrite s a k o v) := by
  unfold engineWrite; split <;> simp
@[simp] theorem splitWrite_keeps (s : State) (v : Word) : Keeps s (splitWrite s v) := by simp [splitWrite]
@[simp] theorem seWrite_keeps (s : State) (a : Agent) (o : Nat) (v : Word) : Keeps s (seWrite s a o v) := by
  unfold seWrite
  dsimp only
  repeat' split
  all_goals simp
@[simp] theorem mcWrite_keeps (s : State) (o : Nat) (v : Word) : Keeps s (mcWrite s o v) := by simp [mcWrite]
@[simp] theorem spCfgWrite_keeps (s : State) (a : Agent) (off k : Nat) (v : Word) : Keeps s (spCfgWrite s a off k v) := by
  simp [spCfgWrite]
@[simp] theorem spFmtWrite_keeps (s : State) (k : Nat) (v : Word) : Keeps s (spFmtWrite s k v) := by simp [spFmtWrite]
@[simp] theorem sportWrite_keeps (s : State) (a : Agent) (off k o : Nat) (v : Word) : Keeps s (sportWrite s a off k o v) := by
  unfold sportWrite; split <;> simp
@[simp] theorem spWrite_keeps (s : State) (a : Agent) (off : Nat) (v : Word) : Keeps s (spWrite s a off v) := by
  unfold spWrite
  dsimp only
  repeat' split
  all_goals simp
@[simp] theorem linkCfg_keeps (s : State) (a : Agent) (off p : Nat) (v : Word) : Keeps s (linkCfg s a off p v) := by simp [linkCfg]
@[simp] theorem lkWrite_keeps (s : State) (a : Agent) (off : Nat) (v : Word) : Keeps s (lkWrite s a off v) := by
  unfold lkWrite
  dsimp only
  repeat' split
  all_goals simp
@[simp] theorem twWrite_keeps (s : State) (a : Agent) (off : Nat) (v : Word) : Keeps s (twWrite s a off v) := by simp [twWrite]
@[simp] theorem fltCtrl_keeps (s : State) (a : Agent) (off : Nat) (v : Word) : Keeps s (fltCtrl s a off v) := by simp [fltCtrl]
@[simp] theorem fltWrite_keeps (s : State) (a : Agent) (off : Nat) (v : Word) : Keeps s (fltWrite s a off v) := by
  unfold fltWrite; split <;> simp
@[simp] theorem pwrWrite_keeps (s : State) (o : Nat) (v : Word) : Keeps s (pwrWrite s o v) := by unfold pwrWrite; split <;> simp
@[simp] theorem secWrite_keeps (s : State) (a : Agent) (off : Nat) (v : Word) : Keeps s (secWrite s a off v) := by
  have hc : (clearCauses s.sec v).fuses = s.sec.fuses := rfl
  unfold secWrite
  dsimp only
  repeat' split
  all_goals simp [hc]
@[simp] theorem nceWrite_keeps (s : State) (o : Nat) (v : Word) : Keeps s (nceWrite s o v) := by unfold nceWrite; split <;> simp
@[simp] theorem ppWrite_keeps (s : State) (o : Nat) (v : Word) : Keeps s (ppWrite s o v) := by simp [ppWrite]
@[simp] theorem blockWrite_keeps (s : State) (a : Agent) (off : Nat) (v : Word) : Keeps s (blockWrite s a off v) := by
  unfold blockWrite; split <;> simp

/-! ### FabWindow -/

theorem bedWrite_keeps {s s1 : State} {a : Agent} {b o : Nat} {v : Word} (h : bedWrite s a b o v = some s1) : Keeps s s1 := by
  unfold bedWrite at h
  repeat' split at h
  all_goals cases h
  all_goals simp

/-! ### Registers -/

theorem writeReg_keeps {s s1 : State} {a : Agent} {off : Nat} {v : Word} (h : writeReg s a off v = some s1) : Keeps s s1 := by
  unfold writeReg at h
  split at h
  · split at h
    · exact bedWrite_keeps h
    · cases h
  · split at h <;> cases h
    simp
@[simp] theorem registerWrite_keeps (s : State) (x : RegAccess) : Keeps s (registerWrite s x) := by
  unfold registerWrite
  repeat' split
  all_goals simp
  next h => exact writeReg_keeps h

/-! ## The rows -/

/-- The rows that write LPDDR6 or the fuses. -/
def writesStores : Instr → Bool
  | .burstComplete .. | .bar2Write .. | .faultDump .. | .imgLoad .. | .porReset .. | .burnComplete .. | .fuseSelfCheck .. => true
  | _ => false

/-- An outcome that goes on keeps them. -/
def KeepsNext (s : State) : Host.Outcome State Fault Refusal → Prop
  | .next t => Keeps s t
  | _ => True

theorem keepsNext_next {s t : State} : KeepsNext s (.next t) ↔ Keeps s t := Iff.rfl

theorem keepsNext_wf {s t : State} {c : Prop} [Decidable c] {r : Fault} :
    KeepsNext s (if c then .next t else .fault r) ↔ (c → Keeps s t) := by
  split <;> simp_all [KeepsNext]

theorem maskWrite_row_keeps (s : State) (mp : Bool) (off k : Nat) (v : Word) :
    Keeps s ((if mp then rowFirmware else rowWrite) s off fun s => maskWrite s mp k v) := by
  cases mp <;> simp

@[simp] theorem msixUnmask_keeps (s : State) (v : Option (Fin 64)) : Keeps s (msixUnmask s v) := by
  cases v <;> simp [msixUnmask]

/-- Every other row leaves LPDDR6 and the fuses as they were. -/
theorem exec_keepsNext (c : Instr) (s : State) : writesStores c = false → KeepsNext s (exec c s) := by
  cases c
  all_goals simp [writesStores, keepsNext_next, keepsNext_wf, maskWrite_row_keeps, exec,
    execLineSync, execLineComplete, execClockLost, execSensorClockReturn, execSpEnable, execSpClrstat, execSlotTransfer,
    execBankDeferredAccess, execHardPush, execHardPop, execPush, execPop, execRun, execMark, execUnmark, execRewind, execSkip,
    execRelease, execQcnt, execLdg, execNop, execBedReport, execHoldEntry, execHoldExit, execHoldLimitExceeded, execStallFault,
    execAbortReset, execAbortCleared, execBurstIssue, execEngineTokenReceive, execSeClrstat, execMcClrcnt, execDomainRequest,
    execDomainSwitchComplete, execAutofabSwitchOff, execVoltageWrite, execVoltageWriteAck, execAvsRetry, execVfabReadback,
    execVsetWrite, execClockStepChange, execRateChange, execCapGovernor, execThermalSensorRead, execThermalLimitStep,
    execMemoryDomainsOffLimit, execPwrClrstat, execSupplyOkChange, execChangeoverSettle, execAutoReturn, execSela,
    execAonSwitch, execBankSupplyOutOfBand, execRailOutOfRange, execSysClk25Loss, execReadTemperature1, execReadPout,
    execStatusByte, execSourceLineChange, execWriteBack, execInterruptSend, execMsixVectorUnmask, execPendWrite, execMaskWrite,
    execSenseChange, execTake, execEoi, execMailboxTxWrite, execMailboxPop, execPeerWrite, execMessageForward, execProg,
    execRevoke, execAdvImg, execAdvFw, execNonceDraw, execDebugClose, execDebugHalt, execLinkDown, execPcieLinkUp,
    execBusMasterEnableCleared, execBusMasterEnableSet, execFuncReset, execSysReset, execSecRstWrite,
    execManagementWatchdogExpiry, execBootRomStart, execFirmwareVerify, execFirmwareReady, execChannelLoss, execCommitWrite,
    execCommitApply, execQrecSample, execBedClr, execBedSatclr, execTileSwitch, execFrontComplete, execFrontLimitExceeded,
    execTokenFrame, execNak, execIdleFrame, execHello, execHelloSend, execSync, execSyncSend, execTokenFrameSend, execMsgFrame,
    execAbortFrame, execReplayTimeout, execLinkFail, execTrainComplete, execTrainTimeout, execFailedRetry, execPortEnable,
    execRetrain, execLkClrstat, execNopCommand, execTaskStart, execPairStartAccept, execPairStartTimeout, execResume, execRake,
    execAbort, execEpoch, execEpochFollowTimeout, execTwEnable, execRole, execReady, execStart, execDigest, execFirst,
    execCheckEntryDue, execHeartbeatMiss, execFltIdxWrite, execFltClear, execDoorbell, execRingEnable, execRingDisable,
    execHqClrstat, execWindowBaseWrite, execCommandFetch, execEventRecordWrite, execRecordWrite, execHostStreamFetch,
    execHostStreamWrite, execBar2Read, execAttest, execRot, execKvq, execDsc, execDeq, execSco, execQnt, execTag, execFunIdn,
    execFunExp, execFunRcp, execFunRsq, execFunSig, execFunTanh, execFunGelu, execBinAdd, execBinSub, execBinMul, execBinMax,
    execBinMin, execBinCgt, execBinCge, execBinCeq, execVecSmax, execVecLnrm, execVecArgmax, execVecStat, execWacc, execPoolMax,
    execPoolAverage, execBil, execNceLineIntake, execCropRequest, execCropResample, execFfdataAccess, execNceClrstat,
    execLoReadLatch, execMac, execSeed, execDrain, execLdc, execLds, execKctl, execGate, execBubg, execSwitch, execSelect,
    execCmp, execSetf, execLoop, execBr, execPpStep, execPpClrstat, execStepRelease, execDeviceTimeIncrement, execPlcSwitch,
    execReleaseStage, execReleaseStageTimeout, execPing, execVersion, execFaultlog, execDump, execPacehint, execPlcsw,
    execHeartbeat, execTakeover, execDbgchalChallenge, execDbgchalResponse, execGlbClrviol, execPaceClrstat, execSwholdWrite,
    execRrpWrite, execRegisterWrite]

theorem exec_keeps {c : Instr} {s t : State} (hc : writesStores c = false) (h : exec c s = .next t) : Keeps s t := by
  have hk := exec_keepsNext c s hc
  rwa [h] at hk

/-! ## What the rows that write do -/

theorem putUnit_mem (s : State) (a : Nat) (pay : BitVec 128) (side : BitVec 5) :
    (putUnit s a pay side).mc.mem = memWrite s.mc.mem a (payBytes pay) := rfl

/-- The second state holds LPDDR6 in its canonical form where the first does, and the same fuses. -/
def KeepsWf (s t : State) : Prop := (memoryWf s.mc.mem = true → memoryWf t.mc.mem = true) ∧ t.sec.fuses = s.sec.fuses

theorem Keeps.wf {s t : State} (h : Keeps s t) : KeepsWf s t := ⟨fun hs => h.1 ▸ hs, h.2⟩

theorem KeepsWf.trans {s t u : State} (h : KeepsWf s t) (k : KeepsWf t u) : KeepsWf s u := ⟨k.1 ∘ h.1, k.2.trans h.2⟩

/-- A write of bytes to LPDDR6 and nothing to the fuses. -/
theorem keepsWf_of_memWrite {s t : State} {a : Nat} {bs : List Byte} (h : t.mc.mem = memWrite s.mc.mem a bs)
    (hf : t.sec.fuses = s.sec.fuses) : KeepsWf s t :=
  ⟨fun hs => h ▸ memWrite_wf bs s.mc.mem a hs, hf⟩

theorem putUnits_keepsWf (us : List WUnit) (s : State) : KeepsWf s (us.foldl (fun s u => putUnit s u.addr u.pay u.side) s) := by
  induction us generalizing s with
  | nil => exact ⟨id, rfl⟩
  | cons u r ih => exact KeepsWf.trans (keepsWf_of_memWrite (putUnit_mem s u.addr u.pay u.side) rfl) (ih _)

theorem acceptUnits_keepsWf (s : State) (us : List WUnit) : KeepsWf s (acceptUnits s us) := by
  unfold acceptUnits
  dsimp only
  split
  · exact putUnits_keepsWf _ s
  · refine (putUnits_keepsWf (us.filter fun u => !memKept s u.addr 16) s).trans ?_
    exact Keeps.wf (by simp)

theorem finishBurst_keepsWf (s : State) (k : Nat) (b : Burst) : KeepsWf s (finishBurst s k b) := by
  unfold finishBurst
  dsimp only
  split
  · exact Keeps.wf (by simp)
  · next us _ =>
    refine (acceptUnits_keepsWf s us).trans ?_
    exact Keeps.wf (by simp)
  · split <;> exact Keeps.wf (by simp)

theorem burstComplete_keepsWf (s : State) (k : Nat) (h : UnitHealth) (a : Nat) : KeepsWf s (burstComplete s k h a) := by
  unfold burstComplete
  dsimp only
  split
  · exact Keeps.wf (by simp)
  · next b r _ =>
    have h1 : KeepsWf s (s.setEngine k { s.engine k with bursts := r }) := Keeps.wf (by simp)
    have hf := h1.trans (finishBurst_keepsWf _ k b)
    split
    · exact hf
    · exact hf
    · exact hf.trans (Keeps.wf (by simp))
    · exact h1.trans (Keeps.wf (by simp))

theorem bar2Write_keepsWf (s : State) (off : Nat) (bs : List Byte) (poisoned : Bool) (rid : Nat) :
    KeepsWf s (bar2Write s off bs poisoned rid) := by
  unfold bar2Write
  dsimp only
  repeat' split
  · exact Keeps.wf (by simp)
  · exact Keeps.wf (by simp)
  · exact Keeps.wf (by simp)
  · exact keepsWf_of_memWrite rfl rfl

theorem faultDump_keepsWf (s : State) (ok : Bool) : KeepsWf s (faultDump s ok) := by
  unfold faultDump
  repeat' split
  · exact Keeps.wf (by simp)
  · exact Keeps.wf (by simp)
  · exact keepsWf_of_memWrite rfl rfl
  · exact keepsWf_of_memWrite rfl rfl
  · refine keepsWf_of_memWrite (a := dumpBase s) (bs := dumpHeader s (satInc s.flt.dumpNum) s.flt.dumpLens) ?_ ?_
    · simp [writeHeader, storeHost]
    · simp [writeHeader]

theorem copyImage_keepsWf (s : State) (b : List Byte) : KeepsWf s (copyImage s b) := by
  unfold copyImage
  split
  · exact ⟨id, rfl⟩
  · exact keepsWf_of_memWrite rfl rfl

theorem loadBytes_keepsWf (s : State) (b : List Byte) : KeepsWf s (loadBytes s b) := by
  refine (copyImage_keepsWf s b).trans (Keeps.wf ?_)
  unfold loadBytes
  dsimp only
  repeat' split
  all_goals simp

theorem imgLoad_keepsWf (s : State) (r : ImageRead) : KeepsWf s (imgLoad s r) := by
  unfold imgLoad
  dsimp only
  repeat' split
  case h_2 b _ =>
    refine KeepsWf.trans ?_ (loadBytes_keepsWf _ b)
    exact Keeps.wf (by simp)
  all_goals exact Keeps.wf (by simp)

theorem fuseCheck_mem (s : State) (l : List Nat) : (fuseCheck s l).mc.mem = s.mc.mem := by
  simp [fuseCheck]

theorem fuseCheck_fuses (s : State) (l : List Nat) :
    (fuseCheck s l).sec.fuses = { s.sec.fuses with shadow := upset s.sec.fuses.shadow l } := by
  simp [fuseCheck]

theorem burnComplete_mem (s : State) (ok : Bool) (n : Nat) : (burnComplete s ok n).mc.mem = s.mc.mem := by
  unfold burnComplete
  split
  · rfl
  · dsimp only
    split <;> simp [burnEnds]

theorem porFuses_banks {s : State} (h : s.sec.burn = none) :
    (porFuses s).bank0 = s.sec.fuses.bank0 ∧ (porFuses s).bank1 = s.sec.fuses.bank1 := by
  simp [porFuses, h, resense]

/-- Every row but those that write the fuses keeps LPDDR6 canonical and the fuses as they were. -/
theorem exec_keepsWf {c : Instr} {s t : State} (hb : ∀ ok n, c ≠ .burnComplete ok n) (hf : ∀ l, c ≠ .fuseSelfCheck l)
    (hp : ∀ p, c ≠ .porReset p) (h : exec c s = .next t) : KeepsWf s t := by
  cases hc : writesStores c with
  | false => exact (exec_keeps hc h).wf
  | true =>
    unfold writesStores at hc
    split at hc
    · cases h; exact burstComplete_keepsWf ..
    · simp only [exec, execBar2Write] at h
      split at h <;> cases h
      exact bar2Write_keepsWf ..
    · cases h; exact faultDump_keepsWf ..
    · cases h; exact imgLoad_keepsWf ..
    · exact absurd rfl (hp _)
    · exact absurd rfl (hb _ _)
    · exact absurd rfl (hf _)
    · cases hc

/-! ## The obligations -/

/-- Settles O2: the rows that write LPDDR6 write whole bytes, which `memWrite_wf` covers, a POR reset empties it, and every other row leaves
it as it was. -/
theorem stepKeepsMemory : Obligations.StepKeepsMemory := by
  unfold Obligations.StepKeepsMemory
  intro s t hs h
  unfold step at h
  split at h
  · cases h; exact hs
  · next c r hc =>
    by_cases hb : ∃ ok n, c = .burnComplete ok n
    · obtain ⟨ok, n, rfl⟩ := hb
      cases h
      exact (burnComplete_mem _ ok n).symm ▸ hs
    · by_cases hf : ∃ l, c = .fuseSelfCheck l
      · obtain ⟨l, rfl⟩ := hf
        cases h
        exact (fuseCheck_mem _ l).symm ▸ hs
      · by_cases hp : ∃ p, c = .porReset p
        · obtain ⟨p, rfl⟩ := hp
          cases h
          rfl
        · push Not at hb hf hp
          exact (exec_keepsWf hb hf hp h).1 hs

/-- Settles O4: beside the end of a burn, the self-check writes the shadow copy alone, and a POR reset finds the banks as they were where no
burn is broken off; no other row writes the fuses. -/
theorem onlyBurnsChangeFuses : Obligations.OnlyBurnsChangeFuses := by
  unfold Obligations.OnlyBurnsChangeFuses
  intro c s t hb h
  by_cases hf : ∃ l, c = .fuseSelfCheck l
  · obtain ⟨l, rfl⟩ := hf
    cases h
    rw [fuseCheck_fuses]
    exact ⟨fun _ => ⟨rfl, rfl⟩, fun _ hl => absurd rfl (hl l)⟩
  · by_cases hp : ∃ p, c = .porReset p
    · obtain ⟨p, rfl⟩ := hp
      cases h
      refine ⟨fun hn => ?_, fun hn => absurd rfl (hn p)⟩
      exact porFuses_banks (hn.resolve_left fun hn => hn p rfl)
    · push Not at hf hp
      have hk := (exec_keepsWf hb hf hp h).2
      exact ⟨fun _ => by rw [hk]; exact ⟨rfl, rfl⟩, fun _ _ => hk⟩

end Sys2Proof.Claims
end

section
/-! SUPPORT. One step of the queue, and the registers after power-on and after a POR reset. -/

namespace Sys2Proof.Claims

open Sys2Proof Sys2Proof.Machine

/-- Settles O1, by the two cases of the queue. -/
theorem stepRunsFront : Obligations.StepRunsFront := by
  unfold Obligations.StepRunsFront
  refine fun s => ⟨fun c r h => ?_, fun h => ?_⟩
  · rw [step, h]
  · rw [step, h]

/-! ## The registers of resetWords -/

/-- The blocks of the registers of `resetWords` stand as at reset; PWR holds beside that what its pins say. -/
structure AtReset (s : State) : Prop where
  pace : s.pace = {}
  ic : s.ic = {}
  se : s.se = {}
  sp : s.sp = {}
  lk : s.lk = {}
  tw : s.tw = {}
  cfg : s.cfg = {}
  pwr : ∃ x r, s.pwr = porPwr x r

/-- These registers read as these words for an agent. -/
def ReadsAs (s : State) (a : Agent) (ws : List (Nat × Word)) : Prop := ∀ x ∈ ws, regValue s a x.1 = some x.2

theorem ReadsAs.append {s : State} {a : Agent} {l r : List (Nat × Word)} (hl : ReadsAs s a l) (hr : ReadsAs s a r) : ReadsAs s a (l ++ r) :=
  List.forall_mem_append.mpr ⟨hl, hr⟩

section

variable {s : State} (h : AtReset s) (a : Agent)
include h

theorem AtReset.source (k : Nat) : s.source k = source0 k := by
  rw [State.source, h.ic]
  rfl

theorem AtReset.engineActive (k : Nat) : engineActive s k = false := by
  simp [Machine.engineActive, State.listOf, State.ctxImage, State.plc, emptyPlc, h.cfg]

theorem AtReset.paceWords :
    ReadsAs s a [(0x10020, 0x7D0), (0x10024, 0x7D0), (0x10028, 0x7D0), (0x10040, 0x10), (0x10044, 0x186A0)] := by
  simp [ReadsAs, regValue, paceReg, paceWord, h.pace]
  decide

theorem AtReset.icWords : ReadsAs s a [(0x20020, 0xFFFFFFFF), (0x2002C, 0xFFFFFFFF), (0x22000, 0x10001)] := by
  simp [ReadsAs, regValue, icReg, sourceBits, h.source, source0, State.target, h.ic, targetReg]
  decide

theorem AtReset.seWords : ReadsAs s a [(0x60000, 0x1000), (0x60004, 1), (0x60008, 0x201808)] := by
  simp [ReadsAs, regValue, seReg, h.se, byDeadline, State.idle, h.pace, h.engineActive]
  decide

theorem AtReset.spWords : ReadsAs s a [(0x80104, 0x4000000), (0x80108, 0x8001800)] := by
  simp [ReadsAs, regValue, spReg, h.sp, State.sport, sportReg, blockAtOff]
  decide

theorem AtReset.lkWords : ReadsAs s a [(0x90000, 0x800), (0x90010, 1000), (0xA0000, 0xA4000)] := by
  simp [ReadsAs, regValue, lkReg, twReg, h.lk, h.tw]
  decide

theorem AtReset.pwrWords : ReadsAs s a [(0xB0000, 2), (0xB0004, 0xFFAA), (0xB0008, 0xA), (0xB0010, 0x5A0), (0xB0030, 0x303),
    (0xB0050, 0x80640028), (0xB0060, 0x3FFFFC3F), (0xB0064, 0x3FFFFC3F)] := by
  obtain ⟨x, r, hp⟩ := h.pwr
  simp [ReadsAs, regValue, pwrReg, regOf, fields, Pwr.veff, Pwr.thr, hp, porPwr]
  decide

theorem AtReset.resetWords : ReadsAs s a resetWords :=
  (h.paceWords a).append <| (h.icWords a).append <| (h.seWords a).append <| (h.spWords a).append <| (h.lkWords a).append (h.pwrWords a)

end

theorem atReset_reset : AtReset State.reset := ⟨rfl, rfl, rfl, rfl, rfl, rfl, rfl, {}, ⟨true, true⟩, rfl⟩

theorem atReset_porState (s : State) (c : PorCause) : AtReset (porState s c) := ⟨rfl, rfl, rfl, rfl, rfl, rfl, rfl, _, _, rfl⟩

/-- Settles O3: both states hold every block as at reset, and the registers read the blocks. -/
theorem resetState : Obligations.ResetState := by
  unfold Obligations.ResetState
  refine ⟨?_, rfl, fun s c => ⟨porState s c, rfl, ?_⟩⟩
  · exact ⟨fun x hx a => atReset_reset.resetWords a x hx, rfl, rfl, rfl, fun _ => rfl, fun _ => rfl, rfl, rfl⟩
  · exact ⟨fun x hx a => (atReset_porState s c).resetWords a x hx, rfl, rfl, rfl, fun _ => rfl, fun _ => rfl, rfl, rfl⟩

end Sys2Proof.Claims
end

section
/-! SUPPORT. A held machine (R30): what each core, hard port and edge path does not do. -/

namespace Sys2Proof.Claims

open Sys2Proof Sys2Proof.Machine

theorem fire_held {s : State} (h : s.holding = true) (t : Nat) (k : Kind) (opc : Nat) (ready : GridTile → BitVec 64 → Bool)
    (consts : GridTile → BitVec 64 → List Nat) (plan : State → GridTile → BitVec 64 → List (Nat × Token) → Plan) :
    fire s t k opc ready consts plan = s :=
  fire_waits s t k opc ready consts plan (.inl (canFire_held s t k opc h))

theorem sCore_held {s : State} (h : s.holding = true) (t opc : Nat) (qs : GridTile → BitVec 64 → List Nat)
    (ready : State → GridTile → BitVec 64 → Bool) (consts : GridTile → BitVec 64 → List Nat)
    (plan : State → GridTile → BitVec 64 → List (Nat × Token) → Plan) : sCore s t opc qs ready consts plan = s := by
  simp [sCore, canFire_held s t .s opc h]

theorem drainFire_held {s : State} (h : s.holding = true) (t : Nat) : drainFire s t = s := by
  unfold drainFire
  dsimp only
  split <;> simp [h]

theorem portLive_held {s : State} (h : s.holding = true) (t k : Nat) : portLive s t k = false := by
  simp [portLive, h]

theorem edgeLive_held {s : State} (h : s.holding = true) (e : Nat) : edgeLive s e = false := by
  simp [edgeLive, h]

theorem hardPushOp_held {s : State} (h : s.holding = true) (t k : Nat) : hardPushOp s t k = s := by
  unfold hardPushOp
  dsimp only
  split <;> simp [portLive_held h]

theorem hardPopOp_held {s : State} (h : s.holding = true) (t k : Nat) : hardPopOp s t k = s := by
  unfold hardPopOp
  dsimp only
  split <;> simp [portLive_held h]

theorem inward_held {s : State} (h : s.holding = true) (e : Nat) : inward s e = s := by
  simp [inward, edgeLive_held h]

theorem outward_held {s : State} (h : s.holding = true) (e : Nat) : outward s e = s := by
  unfold outward
  dsimp only
  split <;> simp [edgeLive_held h]

theorem nopFire_held {s : State} (h : s.holding = true) (t : Nat) : nopFire s t = s := by
  simp [nopFire, sCore_held h, fire_held h]

theorem slotMove_inward (s : State) (e : Fin 128) (h : inward s e = s) : slotMove s (.inward e) = s := by
  simp [slotMove, h]

theorem slotMove_outward (s : State) (e : Fin 128) (h : outward s e = s) : slotMove s (.outward e) = s := by
  simp [slotMove, h]

theorem exec_core_held {s : State} (h : s.holding = true) {c : Instr} {t : Fin 1024} (hc : coreOf c = some t) : exec c s = .next s := by
  unfold coreOf at hc
  split at hc
  case h_56 => cases hc
  case h_1 => exact congrArg _ (nopFire_held h _)
  case h_4 => exact congrArg _ (drainFire_held h _)
  case h_15 | h_16 | h_17 | h_18 | h_19 | h_20 | h_21 | h_22 | h_23 | h_24 => exact congrArg _ (sCore_held h _ _ _ _ _ _)
  all_goals exact congrArg _ (fire_held h _ _ _ _ _ _)

/-- Settles O5: no core can fire, no hard port and no edge tile is live while hold stands. -/
theorem heldFabricStands : Obligations.HeldFabricStands := by
  unfold Obligations.HeldFabricStands
  refine fun s h => ⟨fun c t hc => exec_core_held h hc, fun t k => ?_, fun e => ?_⟩
  · exact ⟨congrArg _ (hardPushOp_held h t k), congrArg _ (hardPopOp_held h t k)⟩
  · exact ⟨congrArg _ (slotMove_inward s e (inward_held h e)), congrArg _ (slotMove_outward s e (outward_held h e))⟩

end Sys2Proof.Claims
end

section
/-! SUPPORT. Firings of every kind: what the park of a Q or S tile leaves, and that a firing whose plan leaves the core's buffers, index and
counts as they were is a firing in the sense of `Fired`. -/

namespace Sys2Proof.Claims

open Sys2Proof Sys2Proof.Machine

/-! ## The park of a Q tile (R122) -/

/-- The second state of a Q tile is the first but for what the adaptive update changes. -/
def Adapted (q q' : QState) : Prop := q' = { q with qs := q'.qs, quietN := q'.quietN, stepsat := q'.stepsat, noisy := q'.noisy }

theorem Adapted.refl (q : QState) : Adapted q q := rfl

theorem Adapted.trans {q r u : QState} (h : Adapted q r) (k : Adapted r u) : Adapted q u := by
  unfold Adapted at *
  rw [k, h]

theorem adaptChannel_adapted (q : QState) (up quiet smin smax c : Nat) : Adapted q (adaptChannel q up quiet smin smax c).1 := rfl

theorem adaptAll_adapted (up quiet smin smax : Nat) (cs : List Nat) (q : QState) : Adapted q (adaptAll q up quiet smin smax cs).1 := by
  induction cs generalizing q with
  | nil => exact .refl q
  | cons c r ih => exact (adaptChannel_adapted q up quiet smin smax c).trans (ih _)

theorem parityFaults_nil {g : GridTile} (h : g.badParity = []) (code : Nat) (es : List (StoreId × Nat)) : parityFaults g code es = [] := by
  simp [parityFaults, h]

/-- Beds, interrupt sources and events may have changed, and nothing else. -/
def Noted (s s' : State) : Prop := s' = { s with beds := s'.beds, ic := s'.ic, hq := s'.hq }

theorem Noted.refl (s : State) : Noted s s := rfl

theorem Noted.trans {s t u : State} (h : Noted s t) (k : Noted t u) : Noted s u := by
  unfold Noted at *
  rw [k, h]

theorem Noted.tile {s s' : State} (h : Noted s s') (u : Nat) : s'.tile u = s.tile u := by
  rw [h]
  rfl

theorem noted_eventMinor (s : State) {c : Nat} (a : EvArgs) (h : evSev c < 2) (hl : evLogged c = false) : Noted s (event s c a) := by
  rw [event_minor s c a h hl, Noted, eventBase_frame]

theorem noted_countAdapt (s : State) (b n : Nat) : Noted s (countAdapt s b n) := by
  unfold countAdapt
  dsimp only
  split
  · exact .refl s
  · split
    · rfl
    · exact Noted.trans (t := s.setBed b { s.bed b with adapt := satAdd (s.bed b).adapt n, adaptStep := true }) rfl
        (noted_eventMinor _ _ (by decide) (by decide))

theorem noted_countNonfin (s : State) (b n : Nat) : Noted s (countNonfin s b n) := countNonfin_frame s b n

theorem noted_countSteer (s : State) (b : Nat) : Noted s (countSteer s b) := countSteer_frame s b

/-- The warnings of a plan are minor events that are not logged. -/
def MinorWarns (ws : List (Nat × Nat)) : Prop := ∀ w ∈ ws, evSev w.1 < 2 ∧ evLogged w.1 = false

theorem noted_raiseWarns (t : Nat) {ws : List (Nat × Nat)} (h : MinorWarns ws) (s : State) : Noted s (raiseWarns s t ws) := by
  induction ws generalizing s with
  | nil => exact .refl s
  | cons w r ih =>
    obtain ⟨hsev, hlog⟩ := h w (by simp)
    exact (noted_eventMinor s _ hsev hlog).trans (ih (fun x hx => h x (by simp [hx])) _)

/-- One tile is set, and beds, sources and events may have changed. -/
structure SetsTile (s s' : State) (t : Nat) (g : GridTile) : Prop where
  self : s'.tile t = g
  others : ∀ u, u ≠ t → s'.tile u = s.tile u
  frame : s' = { s with tiles := s'.tiles, beds := s'.beds, ic := s'.ic, hq := s'.hq }

theorem SetsTile.of_setTile (s : State) (t : Nat) (g : GridTile) : SetsTile s (s.setTile t g) t g :=
  ⟨State.setTile_tile_self s t g, fun u hu => (State.setTile_tile s t u g).trans (if_neg hu), rfl⟩

theorem SetsTile.noted_before {s s1 s' : State} {t : Nat} {g : GridTile} (h : SetsTile s1 s' t g) (k : Noted s s1) : SetsTile s s' t g where
  self := h.self
  others u hu := (h.others u hu).trans (k.tile u)
  frame := by rw [h.frame, k]

theorem SetsTile.noted_after {s s1 s' : State} {t : Nat} {g : GridTile} (h : SetsTile s s1 t g) (k : Noted s1 s') : SetsTile s s' t g where
  self := (k.tile t).trans h.self
  others u hu := (k.tile u).trans (h.others u hu)
  frame := by rw [k, h.frame]

theorem SetsTile.trans {s s1 s' : State} {t : Nat} {g g1 : GridTile} (h : SetsTile s s1 t g1) (k : SetsTile s1 s' t g) :
    SetsTile s s' t g where
  self := k.self
  others u hu := (k.others u hu).trans (h.others u hu)
  frame := by rw [k.frame, h.frame]

/-- What the park of a tile needs so that it raises no fault: right parity in a Q tile, agreeing copies in an S tile. -/
structure ParkClean (k : Kind) (g : GridTile) : Prop where
  parity : k = .q → g.badParity = []
  copies : k = .s → ∀ q, ptrDiff (g.queue q) = none

theorem parkQ_sets {s : State} {t : Nat} (i : Nat) (h : (s.tile t).badParity = []) :
    ∃ q, Adapted (s.tile t).q q ∧ SetsTile s (parkQ s t i) t { s.tile t with q := q } := by
  unfold parkQ
  dsimp only
  split
  · exact ⟨_, .refl _, rfl, fun _ _ => rfl, rfl⟩
  · rw [parityFaults_nil h]
    exact ⟨_, adaptAll_adapted .., (SetsTile.of_setTile s t _).noted_after (noted_countAdapt _ _ _)⟩

theorem pointerFault_copies {s : State} {t q : Nat} (i : Nat) (pre : State → State) (h : ptrDiff ((s.tile t).queue q) = none) :
    pointerFault s t q i pre = s := by
  simp [pointerFault, h]

theorem parkS_copies {s : State} {t : Nat} (h : ∀ q, ptrDiff ((s.tile t).queue q) = none) : parkS s t = s := by
  unfold parkS
  induction List.range 16 with
  | nil => rfl
  | cons q r ih =>
    rw [List.foldl_cons, pointerFault_copies _ _ (h q), ite_self]
    exact ih

theorem parkHook_sets {s : State} {t : Nat} (i : Nat) (h : ParkClean (tileKind t) (s.tile t)) :
    ∃ q, Adapted (s.tile t).q q ∧ SetsTile s (parkHook s t i) t { s.tile t with q := q } := by
  have hsame : ∃ q, Adapted (s.tile t).q q ∧ SetsTile s s t { s.tile t with q := q } := ⟨_, .refl _, rfl, fun _ _ => rfl, rfl⟩
  unfold parkHook
  split
  · next hk => exact parkQ_sets i (h.parity hk)
  · next hk => rw [parkS_copies (h.copies hk)]; exact hsame
  · exact hsame

/-! ## After a firing -/

/-- What follows a firing leaves its tile as the firing left it, but for the adaptive update, and notes what it counts. -/
theorem afterFiring_sets {s : State} {t : Nat} {p : Plan} {g : GridTile} (hw : MinorWarns p.warns) (h : ParkClean (tileKind t) g) :
    ∃ q, Adapted g.q q ∧ SetsTile s (afterFiring s t p g) t { g with q := q } := by
  unfold afterFiring
  dsimp only
  generalize hs1 : (if p.steer then countSteer s t else s) = s1
  have h1 : Noted s s1 := by
    rw [← hs1]
    split
    · exact noted_countSteer s t
    · exact .refl s
  have h2 := h1.trans (noted_raiseWarns t hw s1)
  have h3 := (SetsTile.of_setTile (raiseWarns s1 t p.warns) t g).noted_before h2
  split
  · obtain ⟨q, hq, hset⟩ := parkHook_sets (s := (raiseWarns s1 t p.warns).setTile t g) (s.tile t).pc.toNat (by rwa [h3.self])
    rw [h3.self] at hq hset
    exact ⟨q, hq, (h3.trans hset).noted_after (noted_countNonfin _ _ _)⟩
  · exact ⟨g.q, .refl _, h3.noted_after (noted_countNonfin _ _ _)⟩

/-- What the statements ask of a plan: the core is left to the firing, nothing is wrong, and no jump or warning of weight. -/
structure PlainPlan (g : GridTile) (p : Plan) : Prop where
  core : KeepsCore g p.g
  counts : p.counts = true
  jump : p.jump = none
  warns : MinorWarns p.warns

theorem MinorWarns.nil : MinorWarns [] := fun _ h => absurd h (by simp)

/-- A firing whose plan leaves the core to it is a firing of the core; its tile is the plan's, but for the core and the adaptive update. -/
theorem fired_of_plainPlan {s : State} {t : Fin 1024} {k : Kind} {opc : Nat} {p : Plan} (hstands : Stands s t k opc)
    (hplan : PlainPlan (s.tile t) p) (hpark : ParkClean k p.g) :
    let s' := afterFiring s t p (firedTile s k p (s.tile t).instr (firing s t))
    Fired s s' t p.out ∧ ∃ q, Adapted p.g.q q ∧
      s'.tile t = { firedTile s k p (s.tile t).instr (firing s t) with q := q } := by
  intro s'
  obtain ⟨hkeep, hcounts, hjump, hwarns⟩ := hplan
  have hkind : tileKind t = k := tileKind_of_canFire hstands.canFire
  obtain ⟨hparked, hhalted, hrest, hin⟩ := fireable_of_canFire hstands.canFire
  have hframe := firedTile_frame s k p (s.tile t).instr (firing s t)
  have hclean : ParkClean (tileKind t) (firedTile s k p (s.tile t).instr (firing s t)) := by
    rw [hkind, hframe]
    exact ⟨hpark.parity, hpark.copies⟩
  obtain ⟨q, hq, hself, hothers, hall⟩ := afterFiring_sets (s := s) hwarns hclean
  obtain ⟨hfired, hpk⟩ := firedTile_counted s k p (s.tile t).instr (firing s t) hcounts
  have hcompl : completing p.g = completing (s.tile t) := by rw [completing, completing, hkeep.fired, hkeep.ctxCfg]
  refine ⟨?_, q, by rwa [hframe] at hq, hself⟩
  constructor
  case consumed =>
    intro i hi
    rw [hself]
    exact (congrArg (fun m => mget [] m i) (firedTile_inb s k p _ _)).trans (consume_heads_inb _ _ _ hin hkeep.inb i hi)
  case produced =>
    intro i _
    rw [hself]
    exact (firedTile_produced _ _ _ _ _ (hkeep.rest.trans hrest) i).trans (by rw [hkeep.pipe])
  case depth =>
    intro i _
    rw [hself, hkind]
    exact firedTile_pipe_length _ _ _ _ _ i
  case counted =>
    rw [hself]
    exact hfired.trans (by rw [hkeep.fired])
  case parks =>
    rw [hself]
    exact hpk.trans (by rw [hkeep.parked, hparked, hcompl, Bool.false_or])
  case next =>
    rw [hself]
    exact (firedTile_next _ _ _ _ _ hjump (hkeep.halted.trans hhalted)).trans (by rw [hkeep.pc, hkeep.rep])
  case others => exact fun u hu => hothers u hu
  case frame => exact hall

/-- A core that stands, with a plan that finds nothing wrong, has the firing's whole effect. -/
theorem fire_eq_afterFiring {s : State} {t : Fin 1024} {k : Kind} {opc : Nat} {ready : GridTile → BitVec 64 → Bool}
    {consts : GridTile → BitVec 64 → List Nat} {plan : State → GridTile → BitVec 64 → List (Nat × Token) → Plan} {p : Plan}
    (hp : plan s (s.tile t) (s.tile t).instr (firing s t) = p) (hstands : Stands s t k opc)
    (hready : ready (s.tile t) (s.tile t).instr = true) (hclosing : closingFaults k (s.tile t) p = []) (hfaults : p.faults = [])
    (hquota : p.counts = true → quotaMet s t) :
    fire s t k opc ready consts plan = afterFiring s t p (firedTile s k p (s.tile t).instr (firing s t)) := by
  rw [fire_ready s t k opc _ _ _ hstands.canFire hready hstands.words]
  exact (commitFiring_good s t k _ _ _ hstands.checks (by rw [← hp] at hclosing; exact hclosing) (by rw [← hp] at hfaults; exact hfaults)
    (by rw [← hp] at hquota; exact hquota)).trans (by rw [← hp]; rfl)

end Sys2Proof.Claims
end

section
/-! SUPPORT. The statements about MAC and SEED that fail: a descriptor whose OF is 3, which nothing in their hypotheses excludes, drains 32-bit
lanes where `drainGives` has lanes of 16 bits. -/

namespace Sys2Proof.Claims

open Sys2Proof Sys2Proof.Machine Sys2Proof.Tests

/-- A layer of 8 channels whose output format is the code 3, and whose channel 1 has accumulated 1.0. -/
def reservedFormatCore (w : BitVec 64) (inb : AMap (List Token)) : GridTile :=
  { Tests.core w [(0, layer + 3 * 2 ^ 52)] inb with m := { acc0 := [(1, 0x3F800000)] } }

/-- A MAC with FLIP at its only repeat, of a layer whose output format is the code 3. -/
def reservedFormatMac : State := oneTile 1 (reservedFormatCore (word 1 1 0 0x100) [(0, [ones])])

/-- A SEED with FLIP at its only repeat, of a layer whose output format is the code 3. -/
def reservedFormatSeed : State := oneTile 1 (reservedFormatCore (word 2 4 0 0x100) [(2, [ones])])

/-- The payload of the first token that tile 1 drains, in the machine after the command. -/
def drainedPayload (c : Instr) (s : State) : Nat :=
  match exec c s with
  | .next s' => ((s'.tile 1).m.drain.toks.headD (mkBubble .none 0 0)).payload.toNat
  | _ => 0

/-- The payload of the first token that the statements have tile 1 drain in the machine after the command. -/
def statedPayload (c : Instr) (s : State) : Nat :=
  match exec c s with
  | .next s' =>
    ((drainGives (s.tile 1).m (mDesc (s.tile 1) (s.tile 1).instr) (fun c => mget 0 ((s'.tile 1).m.bank (s.tile 1).m.active) c)
      ((s'.tile 1).m.bub (s.tile 1).m.active) (s.tile 1).cur (bseqOf s 1) (maxMark (toksOf (firing s 1)))).headD
        (mkBubble .none 0 0)).payload.toNat
  | _ => 0

/-- Refutes O8: a drain whose descriptor has OF = 3 gives lanes of 32 bits, where the statement has them of 16 bits. -/
theorem not_macFiring : ¬ Obligations.MacFiring := by
  intro h
  obtain ⟨hstands, hquota, hcloses⟩ := stood reservedFormatMac 1 .m 1 (by decide +kernel) (by decide +kernel)
  obtain ⟨s', hexec, -, -, -, -, -, hdrain, -⟩ := h reservedFormatMac 1 hstands hquota (by decide +kernel) (hcloses _)
  rw [if_pos (by decide +kernel)] at hdrain
  have hdiffer : drainedPayload (.mac 1) reservedFormatMac ≠ statedPayload (.mac 1) reservedFormatMac := by decide +kernel
  rw [drainedPayload, statedPayload, hexec] at hdiffer
  exact hdiffer (congrArg (fun l : List Token => (l.headD (mkBubble .none 0 0)).payload.toNat) hdrain)

/-- Refutes O9: a drain whose descriptor has OF = 3 gives lanes of 32 bits, where the statement has them of 16 bits. -/
theorem not_seedAndDrain : ¬ Obligations.SeedAndDrain := by
  rintro ⟨h, -⟩
  obtain ⟨hstands, hquota, hcloses⟩ := stood reservedFormatSeed 1 .m 2 (by decide +kernel) (by decide +kernel)
  obtain ⟨s', hexec, -, -, -, -, hdrain, -⟩ := h reservedFormatSeed 1 hstands hquota (by decide +kernel) (hcloses _)
  rw [if_pos (by decide +kernel)] at hdrain
  have hdiffer : drainedPayload (.seed 1) reservedFormatSeed ≠ statedPayload (.seed 1) reservedFormatSeed := by decide +kernel
  rw [drainedPayload, statedPayload, hexec] at hdiffer
  exact hdiffer (congrArg (fun l : List Token => (l.headD (mkBubble .none 0 0)).payload.toNat) hdrain)

end Sys2Proof.Claims
end

section
/-! SUPPORT. A firing whose plan finds nothing wrong, and a NOP's (R40). -/

namespace Sys2Proof.Claims

open Sys2Proof Sys2Proof.Machine

theorem closesOk_true (s : State) (t : Fin 1024) : closesOk s t true := fun _ _ => rfl

/-- What the closing rule of a tile's kind asks of a plan (R103, R132, R189). -/
def closingHolds (s : State) (t : Fin 1024) (p : Plan) : Kind → Prop
  | .m => closesOk s t p.flips
  | .q | .f => closesOk s t p.closes
  | _ => True

theorem closingFaults_nil {s : State} {t : Fin 1024} {k : Kind} {p : Plan} (h : closingHolds s t p k) :
    closingFaults k (s.tile t) p = [] := by
  unfold closingFaults
  split
  · rfl
  · next hdrives =>
    simp only [Bool.or_eq_true, Bool.not_eq_true', not_or, Bool.not_eq_false] at hdrives
    obtain ⟨⟨hcompl, hdrives⟩, -⟩ := hdrives
    cases k with
    | m => exact if_pos (h hcompl hdrives)
    | q => exact if_pos (h hcompl hdrives)
    | f => exact if_pos (h hcompl hdrives)
    | s => rfl
    | w => rfl

/-- A core that stands, with a plan that finds nothing wrong and leaves the core to the firing: the whole effect of the firing, on the core
and on the tile. -/
theorem fire_plainPlan {s : State} {t : Fin 1024} {k : Kind} {opc : Nat} {ready : GridTile → BitVec 64 → Bool}
    {consts : GridTile → BitVec 64 → List Nat} {plan : State → GridTile → BitVec 64 → List (Nat × Token) → Plan} {p : Plan}
    (hp : plan s (s.tile t) (s.tile t).instr (firing s t) = p) (hstands : Stands s t k opc)
    (hready : ready (s.tile t) (s.tile t).instr = true) (hclosing : closingHolds s t p k) (hfaults : p.faults = []) (hquota : quotaMet s t)
    (hplan : PlainPlan (s.tile t) p) (hpark : ParkClean k p.g) :
    Fired s (fire s t k opc ready consts plan) t p.out ∧ ∃ q, Adapted p.g.q q ∧
      (fire s t k opc ready consts plan).tile t = { firedTile s k p (s.tile t).instr (firing s t) with q := q } := by
  rw [fire_eq_afterFiring hp hstands hready (closingFaults_nil hclosing) hfaults fun _ => hquota]
  exact fired_of_plainPlan hstands hplan hpark

/-- R40: the plan of a NOP puts one bubble on each port of OUT, and leaves the core and the stores as they are. -/
theorem nopPlan_plain (s : State) (k : Kind) (g : GridTile) (w : BitVec 64) (ts : List (Nat × Token)) : PlainPlan g (nopPlan s k g w ts) where
  core := ⟨rfl, rfl, rfl, rfl, rfl, rfl, rfl, rfl, rfl⟩
  counts := rfl
  jump := rfl
  warns := .nil

theorem nopPlan_out {k : Kind} (h : k ≠ .s) (s : State) (g : GridTile) (w : BitVec 64) (ts : List (Nat × Token)) :
    (nopPlan s k g w ts).out = (maskPorts (iOut w)).map fun p => (p, [mkBubble (nopMark s g w ts) g.cur (copyBseq ts)]) := by
  simp [nopPlan, h]

/-- Settles O7: the NOP's plan, with the closing rule of an M tile, whose firing does not flip, met by the statement's hypothesis. -/
theorem nopGivesBubbles : Obligations.NopGivesBubbles := by
  intro s t hstands hkind hroom hquota hcloses
  refine ⟨nopFire s t, rfl, ?_⟩
  rw [nopFire, if_neg hkind]
  have hclosing : closingHolds s t (nopPlan s (tileKind t) (s.tile t) (s.tile t).instr (firing s t)) (tileKind t) := by
    cases hk : tileKind t with
    | m => exact hcloses hk
    | q => exact closesOk_true s t
    | f => exact closesOk_true s t
    | s => exact trivial
    | w => exact trivial
  have hfired := (fire_plainPlan (consts := fun _ _ => []) (plan := fun s g w ts => nopPlan s (tileKind t) g w ts) rfl hstands hroom hclosing rfl
    hquota (nopPlan_plain ..) ⟨fun _ => hstands.parity, fun h => absurd h hkind⟩).1
  rw [nopPlan_out hkind] at hfired
  exact hfired

end Sys2Proof.Claims
end

section
/-! SUPPORT. What a firing leaves in the stores of its tile, entries written one after another, and the loads of an M tile (R106 to R109). -/

namespace Sys2Proof.Claims

open Sys2Proof Sys2Proof.Machine

/-! ## The stores after a firing -/

section
variable (s : State) (k : Kind) (p : Plan) (w : BitVec 64) (ts : List (Nat × Token))

theorem firedTile_q : (firedTile s k p w ts).q = p.g.q := by rw [firedTile_frame]
theorem firedTile_f : (firedTile s k p w ts).f = p.g.f := by rw [firedTile_frame]
theorem firedTile_w : (firedTile s k p w ts).w = p.g.w := by rw [firedTile_frame]

end

/-! ## Entries written one after another -/

section
variable {α : Type} [DecidableEq α] (d : α)

/-- A map after some entries have been written in turn. -/
def writeAll (m : AMap α) (es : List (Nat × α)) : AMap α := es.foldl (fun m e => mset d m e.1 e.2) m

theorem mget_writeAll_other {es : List (Nat × α)} {a : Nat} (h : ∀ e ∈ es, e.1 ≠ a) (m : AMap α) : mget d (writeAll d m es) a = mget d m a := by
  induction es generalizing m with
  | nil => rfl
  | cons e r ih =>
    have hfirst : mget d (mset d m e.1 e.2) a = mget d m a := mget_mset_other d _ m e.1 a e.2 (h e (by simp)).symm
    exact (ih (fun x hx => h x (by simp [hx])) _).trans hfirst

/-- An entry that is written, with one value only, holds that value. -/
theorem mget_writeAll_mem {es : List (Nat × α)} {a : Nat} {v : α} (h : (a, v) ∈ es) (hone : ∀ u, (a, u) ∈ es → u = v) (m : AMap α) :
    mget d (writeAll d m es) a = v := by
  induction es generalizing m with
  | nil => simp at h
  | cons e r ih =>
    by_cases hr : ∃ u, (a, u) ∈ r
    · obtain ⟨u, hu⟩ := hr
      have hv : u = v := hone u (by simp [hu])
      exact ih (hv ▸ hu) (fun x hx => hone x (by simp [hx])) _
    · have hrest : ∀ x ∈ r, x.1 ≠ a := fun x hx hxa => hr ⟨x.2, by simpa [← hxa] using hx⟩
      have hfirst : e = (a, v) := ((List.mem_cons.mp h).resolve_right fun hmem => hr ⟨v, hmem⟩).symm
      subst hfirst
      exact (mget_writeAll_other d hrest _).trans (mget_mset_self d m a v)

/-- Entries written from a base on, one for each number below n. -/
theorem mget_writeAll_range (m : AMap α) (base n : Nat) (f : Nat → α) (a : Nat) :
    mget d (writeAll d m ((List.range n).map fun l => (base + l, f l))) a = if base ≤ a ∧ a < base + n then f (a - base) else mget d m a := by
  split
  · next hin =>
    refine mget_writeAll_mem d (List.mem_map.mpr ⟨a - base, List.mem_range.mpr (by omega), by simp; omega⟩) ?_ m
    simp only [List.mem_map, List.mem_range, Prod.mk.injEq]
    rintro u ⟨l, -, rfl, rfl⟩
    rw [Nat.add_sub_cancel_left]
  · next hout =>
    refine mget_writeAll_other d ?_ m
    simp only [List.mem_map, List.mem_range]
    rintro e ⟨l, hl, rfl⟩ rfl
    exact hout ⟨by simp, by simpa using hl⟩

end

/-! ## Loads of an M tile (R106 to R109) -/

theorem clean_of_nil {g : GridTile} (h : g.badParity = []) (st : StoreId) (i : Nat) : g.clean st i = g := by
  simp [GridTile.clean, h]

theorem foldl_codes {g : GridTile} (h : g.badParity = []) (es : List (Nat × Byte)) :
    es.foldl (fun g x => ({ g with m := { g.m with code := mset 0 g.m.code x.1 x.2 } } : GridTile).clean .code x.1) g =
      { g with m := { g.m with code := writeAll 0 g.m.code es } } := by
  induction es generalizing g with
  | nil => rfl
  | cons e r ih =>
    have hfirst := clean_of_nil (g := { g with m := { g.m with code := mset 0 g.m.code e.1 e.2 } }) h .code e.1
    rw [List.foldl_cons, hfirst]
    exact ih h

theorem foldl_scales {g : GridTile} (h : g.badParity = []) (es : List (Nat × BitVec 16)) :
    es.foldl (fun g x => ({ g with m := { g.m with scale := mset 0 g.m.scale x.1 x.2 } } : GridTile).clean .scale x.1) g =
      { g with m := { g.m with scale := writeAll 0 g.m.scale es } } := by
  induction es generalizing g with
  | nil => rfl
  | cons e r ih =>
    have hfirst := clean_of_nil (g := { g with m := { g.m with scale := mset 0 g.m.scale e.1 e.2 } }) h .scale e.1
    rw [List.foldl_cons, hfirst]
    exact ih h

/-- A load keeps to its layer's channels, and the tag register is empty or holds the token's BSEQ (R108, R109). -/
def InLayer (g : GridTile) (w : BitVec 64) (d : MDesc) (u : Token) : Prop :=
  loadChannel w = true → mget 0 g.m.kc d.ksel < d.nch ∧ ∀ r, mget none g.m.tag d.ksel = some r → r = u.bseq

/-- The last repeat of a load with ADV. -/
abbrev EndsLoad (g : GridTile) (w : BitVec 64) : Prop := loadAdv w = true ∧ g.rep = iRep w

theorem loadFaults_nil {g : GridTile} {w : BitVec 64} {d : MDesc} {u : Token} (h : InLayer g w d u) (addr : Nat) :
    counterFaults g w d addr ++ tagFaults g w d u = [] := by
  unfold counterFaults tagFaults
  by_cases hchan : loadChannel w = true
  · obtain ⟨hin, htag⟩ := h hchan
    cases hr : mget none g.m.tag d.ksel with
    | none => simp [hchan, hin]
    | some r => simp [hchan, hin, htag r hr]
  · simp [hchan]

/-- The counter and the tag register after a load. -/
theorem loadCounter_counts {g g1 : GridTile} {w : BitVec 64} {d : MDesc} {u : Token} (h : InLayer g w d u) (hrep : g1.rep = g.rep)
    (hkc : g1.m.kc = g.m.kc) (htag : g1.m.tag = g.m.tag) :
    (∀ k, mget 0 (loadCounter g1 w d u).m.kc k =
      if loadChannel w = true ∧ EndsLoad g w ∧ k = d.ksel then min (mget 0 g.m.kc d.ksel + 1) 128 else mget 0 g.m.kc k) ∧
    (∀ k, mget none (loadCounter g1 w d u).m.tag k =
      if loadChannel w = true ∧ k = d.ksel then (if EndsLoad g w then none else some u.bseq) else mget none g.m.tag k) := by
  unfold loadCounter
  by_cases hchan : loadChannel w = true
  · obtain ⟨-, hbseq⟩ := h hchan
    by_cases hend : loadAdv w = true ∧ g.rep = iRep w
    · have hend1 : (loadAdv w && g1.rep == iRep w) = true := by simp [hrep, hend]
      simp only [hchan, hend1, if_true]
      simp [EndsLoad, hend, hkc, htag, mget_mset]
    · have hend1 : ¬ (loadAdv w && g1.rep == iRep w) = true := by simpa [hrep] using hend
      cases hr : mget none g.m.tag d.ksel with
      | none => simp [EndsLoad, hchan, hend, hend1, hkc, htag, hr, mget_mset]
      | some r => simp [EndsLoad, hchan, hend, hend1, hkc, htag, hr, hbseq r hr, mget_mset]
  · simp [hchan, hkc, htag]

theorem loadCounter_frame (g : GridTile) (w : BitVec 64) (d : MDesc) (u : Token) :
    loadCounter g w d u = { g with m := { g.m with kc := (loadCounter g w d u).m.kc, tag := (loadCounter g w d u).m.tag } } := by
  unfold loadCounter
  dsimp only
  split
  · split <;> rfl
  · rfl

/-! ### LDC (R106) -/

/-- The bytes that a firing of an LDC writes, from its first byte on. -/
def ldcBytes (u : Token) (a : Nat) : List (Nat × Byte) := (List.range 16).map fun j => (a + j, BitVec.ofNat 8 (tokElem u 8 j))

/-- Does a load write its token: data, or a bubble that it takes as zero (R108)? -/
abbrev LoadWrites (w : BitVec 64) (u : Token) : Prop := u.bub = false ∨ iBubm w = 1

theorem loadWrites_iff (w : BitVec 64) (u : Token) : (!u.bub || iBubm w == 1) = true ↔ LoadWrites w u := by simp

theorem ldcPlan_g {s : State} {g : GridTile} {w : BitVec 64} {ts : List (Nat × Token)} (h : g.badParity = []) :
    (ldcPlan s g w ts).g = loadCounter
      (if LoadWrites w (tokAt ts 1) then
        { g with m := { g.m with code := writeAll 0 g.m.code (ldcBytes (tokAt ts 1) (ldcAddr g w (mDesc g w))) } } else g)
      w (mDesc g w) (tokAt ts 1) := by
  simp only [ldcPlan, loadWrites_iff, ldcBytes]
  rw [← foldl_codes h, List.foldl_map]

theorem ldcPlan_m {s : State} {g : GridTile} {w : BitVec 64} {ts : List (Nat × Token)} (h : g.badParity = []) :
    (ldcPlan s g w ts).g.m.code =
      (if LoadWrites w (tokAt ts 1) then writeAll 0 g.m.code (ldcBytes (tokAt ts 1) (ldcAddr g w (mDesc g w))) else g.m.code) := by
  rw [ldcPlan_g h, loadCounter_frame]
  split <;> rfl

/-- A load's plan changes the code or scale store, the counters and the tag registers of its tile, and leaves the core to the firing. -/
theorem plainPlan_of_m {g : GridTile} {p : Plan} (hm : p.g = { g with m := p.g.m }) (hcounts : p.counts = true) (hjump : p.jump = none)
    (hwarns : p.warns = []) : PlainPlan g p where
  core := by rw [hm]; exact ⟨rfl, rfl, rfl, rfl, rfl, rfl, rfl, rfl, rfl⟩
  counts := hcounts
  jump := hjump
  warns := hwarns ▸ .nil

theorem loadCounter_of_m {g g1 : GridTile} (h : g1 = { g with m := g1.m }) (w : BitVec 64) (d : MDesc) (u : Token) :
    loadCounter g1 w d u = { g with m := (loadCounter g1 w d u).m } := by
  rw [loadCounter_frame, h]

theorem parkClean_m (g : GridTile) : ParkClean .m g := ⟨fun h => Kind.noConfusion h, fun h => Kind.noConfusion h⟩

/-- A firing of an M tile whose plan finds nothing wrong and changes the tile's stores alone. -/
theorem fire_mPlan {s : State} {t : Fin 1024} {opc : Nat} {ready : GridTile → BitVec 64 → Bool}
    {consts : GridTile → BitVec 64 → List Nat} {plan : State → GridTile → BitVec 64 → List (Nat × Token) → Plan} {p : Plan}
    (hp : plan s (s.tile t) (s.tile t).instr (firing s t) = p) (hstands : Stands s t .m opc)
    (hready : ready (s.tile t) (s.tile t).instr = true) (hclosing : closesOk s t p.flips) (hfaults : p.faults = []) (hquota : quotaMet s t)
    (hplan : PlainPlan (s.tile t) p) :
    Fired s (fire s t .m opc ready consts plan) t p.out ∧ ((fire s t .m opc ready consts plan).tile t).m = p.g.m := by
  obtain ⟨hfired, q, -, htile⟩ := fire_plainPlan (consts := consts) hp hstands hready hclosing hfaults hquota hplan (parkClean_m _)
  exact ⟨hfired, by rw [htile]; exact firedTile_m s .m p _ _⟩

theorem ldcPlan_plain {s : State} {g : GridTile} {w : BitVec 64} {ts : List (Nat × Token)} (h : g.badParity = []) :
    PlainPlan g (ldcPlan s g w ts) := by
  refine plainPlan_of_m ?_ rfl rfl rfl
  rw [ldcPlan_g h]
  refine loadCounter_of_m ?_ _ _ _
  split <;> rfl

theorem ldcFire_effect {s : State} {t : Fin 1024} (hstands : Stands s t .m 3) (hquota : quotaMet s t) (hcloses : closesOk s t false)
    (hin : InLayer (s.tile t) (s.tile t).instr (mDesc (s.tile t) (s.tile t).instr) (tokAt (firing s t) 1)) :
    Fired s (ldcFire s t) t [] ∧ ((ldcFire s t).tile t).m = (ldcPlan s (s.tile t) (s.tile t).instr (firing s t)).g.m :=
  fire_mPlan rfl hstands rfl hcloses (loadFaults_nil hin _) hquota (ldcPlan_plain hstands.parity)

/-! ### LDS (R107) -/

/-- The entries that a firing of an LDS writes, with the elements of its token. -/
def ldsLanes (g : GridTile) (w : BitVec 64) (d : MDesc) (u : Token) : List (Nat × Nat) :=
  (List.range 8).filterMap fun l => (ldsEntry g w d l).map fun e => (e, tokElem u 16 l)

/-- The scale that an element becomes (R72). -/
def scaleOf (x : Nat) : BitVec 16 := BitVec.ofNat 16 (FloatFmt.fp16.finite x)

theorem ldsPlan_g {s : State} {g : GridTile} {w : BitVec 64} {ts : List (Nat × Token)} (h : g.badParity = []) :
    (ldsPlan s g w ts).g = loadCounter
      (if LoadWrites w (tokAt ts 3) then
        { g with m := { g.m with scale := writeAll 0 g.m.scale ((ldsLanes g w (mDesc g w) (tokAt ts 3)).map fun x => (x.1, scaleOf x.2)) } }
       else g)
      w (mDesc g w) (tokAt ts 3) := by
  simp only [ldsPlan, loadWrites_iff, ldsLanes]
  rw [← foldl_scales h, List.foldl_map]
  rfl

theorem ldsPlan_m {s : State} {g : GridTile} {w : BitVec 64} {ts : List (Nat × Token)} (h : g.badParity = []) :
    (ldsPlan s g w ts).g.m.scale =
      (if LoadWrites w (tokAt ts 3) then
        writeAll 0 g.m.scale ((ldsLanes g w (mDesc g w) (tokAt ts 3)).map fun x => (x.1, scaleOf x.2)) else g.m.scale) := by
  rw [ldsPlan_g h, loadCounter_frame]
  split <;> rfl

theorem ldsPlan_plain {s : State} {g : GridTile} {w : BitVec 64} {ts : List (Nat × Token)} (h : g.badParity = []) :
    PlainPlan g (ldsPlan s g w ts) := by
  refine plainPlan_of_m ?_ rfl rfl rfl
  rw [ldsPlan_g h]
  refine loadCounter_of_m ?_ _ _ _
  split <;> rfl

theorem ldsFire_effect {s : State} {t : Fin 1024} (hstands : Stands s t .m 4) (hquota : quotaMet s t) (hcloses : closesOk s t false)
    (hin : InLayer (s.tile t) (s.tile t).instr (mDesc (s.tile t) (s.tile t).instr) (tokAt (firing s t) 3)) :
    Fired s (ldsFire s t) t [] ∧ ((ldsFire s t).tile t).m = (ldsPlan s (s.tile t) (s.tile t).instr (firing s t)).g.m :=
  fire_mPlan rfl hstands rfl hcloses (loadFaults_nil hin _) hquota (ldsPlan_plain hstands.parity)

/-- In linear mode a token's eight lanes go to the entries from the firing's first on (R107). -/
theorem ldsLanes_linear {g : GridTile} {w : BitVec 64} (d : MDesc) (u : Token) (h : loadChannel w = false) :
    (ldsLanes g w d u).map (fun x => (x.1, scaleOf x.2)) =
      (List.range 8).map fun l => (d.sbase + 8 * g.rep + l, scaleOf (tokElem u 16 l)) := by
  simp [ldsLanes, ldsEntry, h, Nat.add_assoc]

/-- In channel mode each lane of a group that the layer has goes to its own entry (R107). -/
theorem mem_ldsLanes_channel {g : GridTile} {w : BitVec 64} (d : MDesc) (u : Token) (h : loadChannel w = true) (e : Nat) (v : BitVec 16) :
    (e, v) ∈ (ldsLanes g w d u).map (fun x => (x.1, scaleOf x.2)) ↔
      ∃ l < 8, 8 * g.rep + l < d.gn ∧ e = d.sbase + (8 * g.rep + l) * d.nch + mget 0 g.m.kc d.ksel ∧ v = scaleOf (tokElem u 16 l) := by
  simp only [ldsLanes, ldsEntry, h, if_true, List.mem_map, List.mem_filterMap, List.mem_range, Option.map_eq_some_iff]
  constructor
  · rintro ⟨x, ⟨l, hl, e', he', rfl⟩, hx⟩
    split at he'
    · next hin => exact ⟨l, hl, hin, by grind, by grind⟩
    · simp at he'
  · rintro ⟨l, hl, hin, rfl, rfl⟩
    exact ⟨_, ⟨l, hl, _, by rw [if_pos hin], rfl⟩, rfl⟩

/-- In channel mode a lane's entry holds its lane after the firing (R107). -/
theorem writeLanes_channel {g : GridTile} {w : BitVec 64} {d : MDesc} {u : Token} (h : loadChannel w = true) (hn : 0 < d.nch) {l : Nat}
    (hl : l < 8) (hin : 8 * g.rep + l < d.gn) (m : AMap (BitVec 16)) :
    mget 0 (writeAll 0 m ((ldsLanes g w d u).map fun x => (x.1, scaleOf x.2)))
      (d.sbase + (8 * g.rep + l) * d.nch + mget 0 g.m.kc d.ksel) = scaleOf (tokElem u 16 l) := by
  refine mget_writeAll_mem 0 ((mem_ldsLanes_channel d u h _ _).mpr ⟨l, hl, hin, rfl, rfl⟩) ?_ m
  intro v hv
  obtain ⟨l', -, -, haddr, rfl⟩ := (mem_ldsLanes_channel d u h _ _).mp hv
  have hlane : 8 * g.rep + l = 8 * g.rep + l' := Nat.eq_of_mul_eq_mul_right hn (by omega)
  rw [Nat.add_left_cancel hlane]

/-- In channel mode no other entry changes (R107). -/
theorem writeLanes_channel_other {g : GridTile} {w : BitVec 64} {d : MDesc} {u : Token} (h : loadChannel w = true) {a : Nat}
    (ha : ∀ l < 8, 8 * g.rep + l < d.gn → a ≠ d.sbase + (8 * g.rep + l) * d.nch + mget 0 g.m.kc d.ksel) (m : AMap (BitVec 16)) :
    mget 0 (writeAll 0 m ((ldsLanes g w d u).map fun x => (x.1, scaleOf x.2))) a = mget 0 m a := by
  refine mget_writeAll_other 0 ?_ m
  rintro ⟨e, v⟩ he rfl
  obtain ⟨l, hl, hin, haddr, -⟩ := (mem_ldsLanes_channel d u h _ _).mp he
  exact ha l hl hin haddr

/-- Settles O10: an LDC writes its sixteen bytes one after another, an LDS the entries of its lanes, and the counter of the channel mode
follows R108 and R109. -/
theorem linearLoads : Obligations.LinearLoads := by
  intro s t hquota hcloses g w d kc bound ends counted
  constructor
  · intro hstands u a0 hbound
    obtain ⟨hfired, hm⟩ := ldcFire_effect hstands hquota hcloses hbound
    refine ⟨ldcFire s t, rfl, hfired, ?_, ?_, ?_⟩
    · intro a
      rw [hm, ldcPlan_m hstands.parity]
      by_cases hwrites : LoadWrites w u
      · rw [if_pos hwrites, ldcBytes, mget_writeAll_range]
        exact if_congr (by simp [hwrites, a0, ldcAddr, kc, w, g, d]) rfl rfl
      · rw [if_neg hwrites, if_neg fun h => hwrites h.1]
    · rw [hm, ldcPlan_g hstands.parity]
      refine loadCounter_counts hbound ?_ ?_ ?_ <;> split <;> rfl
    · rw [hm, ldcPlan_g hstands.parity, loadCounter_frame]
      split <;> rfl
  · intro hstands u lane hbound
    obtain ⟨hfired, hm⟩ := ldsFire_effect hstands hquota hcloses hbound
    refine ⟨ldsFire s t, rfl, hfired, ?_, ?_, ?_, ?_⟩
    · rw [hm, ldsPlan_g hstands.parity]
      refine loadCounter_counts hbound ?_ ?_ ?_ <;> split <;> rfl
    · intro hlinear a
      rw [hm, ldsPlan_m hstands.parity]
      by_cases hwrites : LoadWrites w u
      · rw [if_pos hwrites, ldsLanes_linear _ _ hlinear, mget_writeAll_range]
        exact if_congr (by simp [hwrites]; rfl) rfl rfl
      · rw [if_neg hwrites, if_neg fun h => hwrites h.1]
    · intro hchan
      obtain ⟨hkc, -⟩ := hbound hchan
      rw [hm, ldsPlan_m hstands.parity]
      constructor
      · intro l hl hin hwrites
        rw [if_pos hwrites]
        exact writeLanes_channel hchan (Nat.zero_lt_of_lt hkc) hl hin _
      · rintro a (⟨hbub, hbubm⟩ | hother)
        · rw [if_neg fun h => h.elim (fun hdata => Bool.noConfusion (hdata.symm.trans hbub)) hbubm]
        · split
          · exact writeLanes_channel_other hchan hother _
          · rfl
    · rw [hm, ldsPlan_g hstands.parity, loadCounter_frame]
      split <;> rfl

end Sys2Proof.Claims
end

section
/-! SUPPORT. Firings of a Q tile (R115 to R134). -/

namespace Sys2Proof.Claims

open Sys2Proof Sys2Proof.Machine

/-! ## A firing of a Q tile -/

section
variable {q q' : QState} (h : Adapted q q')
include h

theorem Adapted.buf : q'.buf = q.buf := by rw [h]
theorem Adapted.codes : q'.codes = q.codes := by rw [h]
theorem Adapted.ds : q'.ds = q.ds := by rw [h]
theorem Adapted.rt : q'.rt = q.rt := by rw [h]
theorem Adapted.bt : q'.bt = q.bt := by rw [h]
theorem Adapted.scales : q'.scales = q.scales := by rw [h]

end

/-- A plan of a Q tile changes the tile's Q state and the marker it keeps, and nothing else of it. -/
def ChangesQ (g g' : GridTile) : Prop := g' = { g with q := g'.q, closeMark := g'.closeMark }

/-- A firing of a Q tile whose plan finds nothing wrong and changes its Q state: the adaptive update apart, that is what it leaves. -/
theorem fire_qPlan {s : State} {t : Fin 1024} {opc : Nat} {ready : GridTile → BitVec 64 → Bool}
    {consts : GridTile → BitVec 64 → List Nat} {plan : State → GridTile → BitVec 64 → List (Nat × Token) → Plan} {p : Plan}
    (hp : plan s (s.tile t) (s.tile t).instr (firing s t) = p) (hstands : Stands s t .q opc)
    (hready : ready (s.tile t) (s.tile t).instr = true) (hclosing : closesOk s t p.closes) (hfaults : p.faults = []) (hquota : quotaMet s t)
    (hq : ChangesQ (s.tile t) p.g) (hcounts : p.counts = true) (hjump : p.jump = none) (hwarns : MinorWarns p.warns) :
    Fired s (fire s t .q opc ready consts plan) t p.out ∧ Adapted p.g.q ((fire s t .q opc ready consts plan).tile t).q := by
  have hplan : PlainPlan (s.tile t) p := ⟨by rw [hq]; exact ⟨rfl, rfl, rfl, rfl, rfl, rfl, rfl, rfl, rfl⟩, hcounts, hjump, hwarns⟩
  have hpark : ParkClean .q p.g := ⟨fun _ => by rw [hq]; exact hstands.parity, fun h => Kind.noConfusion h⟩
  obtain ⟨hfired, q, hadapted, htile⟩ := fire_plainPlan (consts := consts) hp hstands hready hclosing hfaults hquota hplan hpark
  exact ⟨hfired, by rw [htile]; exact hadapted⟩

theorem keepMark_changesQ {g g' : GridTile} (h : ChangesQ g g') (closing : Bool) (ts : List (Nat × Token)) :
    ChangesQ g (keepMark g' closing ts) := by
  unfold ChangesQ at *
  rw [h]
  rfl

theorem changesQ_setQ (g : GridTile) (q : QState) : ChangesQ g { g with q := q } := rfl

theorem cleanAll_of_nil {g : GridTile} (h : g.badParity = []) (st : StoreId) (is : List Nat) : g.cleanAll st is = g := by
  simp [GridTile.cleanAll, h]

/-! ## The block buffer (R117, R131) -/

theorem mget_bufWrite (f : FloatFmt) (per base : Nat) (u : Token) (buf : AMap Word) (k : Nat) :
    mget 0 (bufWrite f per base u buf) k =
      if base ≤ k ∧ k < base + per then BitVec.ofNat 32 (convert f .fp32 (f.finite (tokElem u f.width (k - base)))) else mget 0 buf k := by
  rw [← mget_writeAll_range 0 buf base per fun l => BitVec.ofNat 32 (convert f .fp32 (f.finite (tokElem u f.width l))), writeAll,
    List.foldl_map]
  rfl

/-- The Q state after one more token of a block. -/
def filledQ (g : GridTile) (w : BitVec 64) (d : QDesc) (u : Token) : QState :=
  { g.q with buf := bufWrite d.af d.per (g.rep % blockFirings d * d.per) u g.q.buf
             bufBub := (g.rep % blockFirings d == 0 || g.q.bufBub) && u.bub && iBubm w == 0 }

/-- With no wrong parity a block is filled in the Q state alone. -/
theorem fillBlock_of_nil {g : GridTile} (h : g.badParity = []) (w : BitVec 64) (d : QDesc) (u : Token) :
    fillBlock g w d u = { g with q := filledQ g w d u } :=
  cleanAll_of_nil (g := { g with q := filledQ g w d u }) h _ _

theorem fillBlock_parity {g : GridTile} (h : g.badParity = []) (w : BitVec 64) (d : QDesc) (u : Token) : (fillBlock g w d u).badParity = [] := by
  rw [fillBlock_of_nil h]
  exact h

/-! ## ROT -/

theorem rotPlan_faults {s : State} {g : GridTile} {w : BitVec 64} {ts : List (Nat × Token)} (h : g.badParity = []) :
    (rotPlan s g w ts).faults = [] := by
  simp only [rotPlan, blockParityFaults, parityFaults_nil (fillBlock_parity h _ _ _), ite_self]

/-- Settles O12: the plan of a ROT fills its token's part of the buffer and gives the rotated block where it closes it. -/
theorem rotFiring : Obligations.RotFiring := by
  intro s t hstands hquota hready hcloses g d q
  have hq : ChangesQ g (rotPlan s g g.instr (firing s t)).g :=
    keepMark_changesQ (by rw [fillBlock_of_nil hstands.parity]; exact changesQ_setQ g _) _ _
  obtain ⟨hfired, hadapted⟩ := fire_qPlan (plan := rotPlan) (consts := qConsts) rfl hstands hready hcloses (rotPlan_faults hstands.parity)
    hquota hq rfl rfl .nil
  refine ⟨rotFire s t, rfl, hfired, fun k => ?_⟩
  have hbuf : ((rotFire s t).tile t).q.buf = q.buf := hadapted.buf
  rw [hbuf, show q = filledQ g g.instr d _ from congrArg GridTile.q (fillBlock_of_nil hstands.parity g.instr d _), filledQ, mget_bufWrite,
    Nat.add_mul, Nat.one_mul]

/-! ## Saturation counters (R127, R128) -/

/-- Counting saturations changes the counters, the thresholds passed and the adaptive counts alone, and warns with 0x0602. -/
def CountsOnly (q q' : QState) : Prop := q' = { q with satc := q'.satc, fired := q'.fired, stepsat := q'.stepsat }

theorem countSats_only (d : QDesc) (cs : List Nat) (q : QState) : CountsOnly q (countSats q d cs).1 := by
  induction cs generalizing q with
  | nil => rfl
  | cons c r ih =>
    have hrest : CountsOnly (countSat q d c).1 (countSats q d (c :: r)).1 := ih _
    unfold CountsOnly at *
    rw [hrest]
    rfl

theorem countSats_warns (d : QDesc) (cs : List Nat) (q : QState) : MinorWarns (countSats q d cs).2 := by
  induction cs generalizing q with
  | nil => exact .nil
  | cons c r ih =>
    have hrest := ih (countSat q d c).1
    simp only [countSats]
    split
    · exact List.forall_mem_cons.mpr ⟨show evSev 0x0602 < 2 ∧ evLogged 0x0602 = false by decide, hrest⟩
    · exact hrest

theorem satFaults_nil {g : GridTile} (h : g.badParity = []) (cs : List Nat) : satFaults g cs = [] := parityFaults_nil h _ _

/-! ## KVQ -/

/-- The Q state of a KVQ's plan after the counting of saturations. -/
def kvqCounted (q : QState) (d : QDesc) (ls : List (Int × Bool)) : QState × List (Nat × Nat) :=
  if q.bufBub then (q, []) else countSats q d (satPlaces ls)

theorem kvqCounted_only (q : QState) (d : QDesc) (ls : List (Int × Bool)) : CountsOnly q (kvqCounted q d ls).1 := by
  unfold kvqCounted
  split
  · rfl
  · exact countSats_only d _ q

theorem kvqCounted_warns (q : QState) (d : QDesc) (ls : List (Int × Bool)) : MinorWarns (kvqCounted q d ls).2 := by
  unfold kvqCounted
  split
  · exact .nil
  · exact countSats_warns d _ q


section
variable {s : State} {g : GridTile} {w : BitVec 64} {ts : List (Nat × Token)}

/-- The block that a closing KVQ quantises, rotated where the descriptor asks for it. -/
def kvqBlock (g : GridTile) (w : BitVec 64) (ts : List (Nat × Token)) : List Nat :=
  let d := qDesc g w
  let xs := bufRead (fillBlock g w d (tokAt ts 0)).q.buf d.n
  if d.rote then rotateBlock d.n d.norm xs else xs

/-- The scales of a vector up to a closing KVQ's block. -/
def kvqScales (g : GridTile) (w : BitVec 64) (ts : List (Nat × Token)) : List (BitVec 16 × Bool) :=
  let q := (fillBlock g w (qDesc g w) (tokAt ts 0)).q
  q.scales ++ [if q.bufBub then (0, true) else (BitVec.ofNat 16 (kvScale (kvqBlock g w ts)), false)]

/-- A KVQ that does not close its block fills the buffer and gives nothing. -/
theorem kvqPlan_open (h : blockCloses g (qDesc g w) = false) :
    kvqPlan s g w ts =
      { g := keepMark (fillBlock g w (qDesc g w) (tokAt ts 0)) false ts
        nonfin := qNonfin (qDesc g w).af (tokAt ts 0) (qDesc g w).per
        closes := false } := by
  simp [kvqPlan, h]

/-- A KVQ that closes its block gives levels, and at a vector's end the vector's scales. -/
theorem kvqPlan_closing (h : blockCloses g (qDesc g w) = true) :
    let d := qDesc g w
    let gf := fillBlock g w d (tokAt ts 0)
    let ls := kvLevels (kvqBlock g w ts) (kvScale (kvqBlock g w ts))
    let q1 := (kvqCounted gf.q d ls).1
    let m := lastMark s.pace.rank g w ts
    kvqPlan s g w ts =
      { g := keepMark { gf with q := { q1 with scales := if vectorEnds g d then [] else kvqScales g w ts
                                               bt := if vectorEnds g d then q1.bt + 1 else q1.bt } } true ts
        faults := blockParityFaults gf d ++ (if gf.q.bufBub then [] else satFaults gf (satPlaces ls))
        out := (0, markLast m (if gf.q.bufBub then bubbles (d.n / 32) g.cur gf.q.bt else levelTokens g.cur gf.q.bt ls)) ::
          (if vectorEnds g d then [(1, markLast m (scaleTokens g.cur gf.q.bt (kvqScales g w ts)))] else [])
        nonfin := qNonfin d.af (tokAt ts 0) d.per
        warns := (kvqCounted gf.q d ls).2 } := by
  simp only [kvqPlan, h, if_true]
  rfl

theorem kvqPlan_closes : (kvqPlan s g w ts).closes = blockCloses g (qDesc g w) := by
  cases h : blockCloses g (qDesc g w)
  · rw [kvqPlan_open h]
  · rw [kvqPlan_closing h]

theorem kvqPlan_faults (h : g.badParity = []) : (kvqPlan s g w ts).faults = [] := by
  cases hc : blockCloses g (qDesc g w)
  · rw [kvqPlan_open hc]
  · have hparity := fillBlock_parity h w (qDesc g w) (tokAt ts 0)
    rw [kvqPlan_closing hc]
    simp only [blockParityFaults, parityFaults_nil hparity, satFaults_nil hparity, ite_self, List.nil_append]

theorem kvqPlan_changesQ (h : g.badParity = []) : ChangesQ g (kvqPlan s g w ts).g := by
  cases hc : blockCloses g (qDesc g w)
  · rw [kvqPlan_open hc, fillBlock_of_nil h]
    exact keepMark_changesQ (changesQ_setQ g _) _ _
  · rw [kvqPlan_closing hc, fillBlock_of_nil h]
    exact keepMark_changesQ (changesQ_setQ g _) _ _

theorem kvqPlan_rest : (kvqPlan s g w ts).counts = true ∧ (kvqPlan s g w ts).jump = none ∧ MinorWarns (kvqPlan s g w ts).warns := by
  cases hc : blockCloses g (qDesc g w)
  · rw [kvqPlan_open hc]
    exact ⟨rfl, rfl, .nil⟩
  · rw [kvqPlan_closing hc]
    exact ⟨rfl, rfl, kvqCounted_warns _ _ _⟩

end

theorem vectorEnds_of_open {g : GridTile} {d : QDesc} (h : blockCloses g d = false) : vectorEnds g d = false := by
  simp [vectorEnds, h]

/-- Settles O13: the plan of a KVQ gives nothing before its block closes, and then the block's levels and the vector's scales. -/
theorem kvqFiring : Obligations.KvqFiring := by
  intro s t hstands hquota hready hcloses g d q xs ys sc lv scs
  obtain ⟨hcounts, hjump, hwarns⟩ := kvqPlan_rest (s := s) (g := g) (w := g.instr) (ts := firing s t)
  obtain ⟨hfired, hadapted⟩ := fire_qPlan (plan := kvqPlan) (consts := qConsts) rfl hstands hready (by rwa [kvqPlan_closes])
    (kvqPlan_faults hstands.parity) hquota (kvqPlan_changesQ hstands.parity) hcounts hjump hwarns
  obtain ⟨hbt, hscales, hds, hrt⟩ : q.bt = g.q.bt ∧ q.scales = g.q.scales ∧ q.ds = g.q.ds ∧ q.rt = g.q.rt := by
    rw [show q = filledQ g g.instr d _ from congrArg GridTile.q (fillBlock_of_nil hstands.parity g.instr d _)]
    exact ⟨rfl, rfl, rfl, rfl⟩
  refine ⟨kvqFire s t, rfl, ?_⟩
  cases hc : blockCloses g d
  · rw [kvqPlan_open hc] at hfired hadapted
    rw [vectorEnds_of_open hc]
    exact ⟨hfired, hadapted.bt.trans hbt, hadapted.scales.trans hscales, hadapted.ds.trans hds, hadapted.rt.trans hrt⟩
  · rw [kvqPlan_closing hc] at hfired hadapted
    have hcount := kvqCounted_only q d lv
    rw [← hbt]
    refine ⟨hfired, hadapted.bt.trans ?_, hadapted.scales, hadapted.ds.trans ?_, hadapted.rt.trans ?_⟩
    · have hkept : (kvqCounted q d lv).1.bt = q.bt := by rw [hcount]
      exact congrArg (fun b => if vectorEnds g d then b + 1 else b) hkept
    · exact (show (kvqCounted q d lv).1.ds = q.ds by rw [hcount]).trans hds
    · exact (show (kvqCounted q d lv).1.rt = q.rt by rw [hcount]).trans hrt

end Sys2Proof.Claims
end

section
/-! SUPPORT. DSC, DEQ, SCO, QNT and TAG of a Q tile (R120 to R126). -/

namespace Sys2Proof.Claims

open Sys2Proof Sys2Proof.Machine

/-! ## DSC -/

theorem foldl_putDs {g : GridTile} (h : g.badParity = []) (v : Nat → Nat) (ls : List Nat) :
    ls.foldl (fun g l => putDs g (8 * g.rep + l) (v l)) g =
      { g with q := { g.q with ds := writeAll 0 g.q.ds (ls.map fun l => (8 * g.rep + l, BitVec.ofNat 16 (v l))) } } := by
  induction ls generalizing g with
  | nil => rfl
  | cons l r ih =>
    have hfirst : putDs g (8 * g.rep + l) (v l) = { g with q := { g.q with ds := mset 0 g.q.ds (8 * g.rep + l) (BitVec.ofNat 16 (v l)) } } :=
      clean_of_nil (g := { g with q := { g.q with ds := mset 0 g.q.ds (8 * g.rep + l) (BitVec.ofNat 16 (v l)) } }) h _ _
    rw [List.foldl_cons, hfirst]
    exact ih h

/-- The scales that a DSC writes: the lanes of its token below the count n. -/
def dscEntries (g : GridTile) (n : Nat) (u : Token) : List (Nat × BitVec 16) :=
  ((List.range 8).filter fun l => 8 * g.rep + l < n).map fun l =>
    (8 * g.rep + l, BitVec.ofNat 16 (FloatFmt.fp16.finite (tokElem u 16 l)))

theorem mget_dscEntries (g : GridTile) (n : Nat) (u : Token) (m : AMap (BitVec 16)) (i : Nat) :
    mget 0 (writeAll 0 m (dscEntries g n u)) i =
      if 8 * g.rep ≤ i ∧ i < 8 * g.rep + 8 ∧ i < n then
        BitVec.ofNat 16 (FloatFmt.fp16.finite (tokElem u 16 (i - 8 * g.rep)))
      else mget 0 m i := by
  split
  · next hin =>
    obtain ⟨hlow, hhigh, hcount⟩ := hin
    refine mget_writeAll_mem 0 ?_ ?_ m
    · simp only [dscEntries, List.mem_map, List.mem_filter, List.mem_range, decide_eq_true_eq]
      exact ⟨i - 8 * g.rep, ⟨by omega, by rwa [Nat.add_sub_cancel' hlow]⟩, by simp [Nat.add_sub_cancel' hlow]⟩
    · simp only [dscEntries, List.mem_map, Prod.mk.injEq]
      rintro v ⟨l, -, rfl, rfl⟩
      rw [Nat.add_sub_cancel_left]
  · next hout =>
    refine mget_writeAll_other 0 ?_ m
    simp only [dscEntries, List.mem_map, List.mem_filter, List.mem_range, decide_eq_true_eq]
    rintro e ⟨l, ⟨hl, hcount⟩, rfl⟩ rfl
    exact hout ⟨Nat.le_add_right _ _, Nat.add_lt_add_left hl _, hcount⟩

section
variable {s : State} {g : GridTile} {w : BitVec 64} {ts : List (Nat × Token)}

/-- The scales that a descriptor counts: one for each channel of a transport format, for each block of K4 or V4. -/
def scaleCount (d : QDesc) : Nat := if d.transport then d.nch else d.nb

theorem dscPlan_g (h : g.badParity = []) :
    (dscPlan s g w ts).g = keepMark { g with
      q := { g.q with
        ds := if LoadWrites w (tokAt ts 1) then
            writeAll 0 g.q.ds (dscEntries g (scaleCount (qDesc g w)) (tokAt ts 1)) else g.q.ds
        rt := if g.rep = 0 then some (tokAt ts 1).bseq else g.q.rt } } true ts := by
  have hfold := foldl_putDs h (fun l => FloatFmt.fp16.finite (tokElem (tokAt ts 1) 16 l))
  simp only [dscPlan, loadWrites_iff, hfold]
  split <;> rfl

theorem skewFault_same {rt : Option (BitVec 4)} {b : BitVec 4} (h : rt = some b) : skewFault rt b = [] := by
  simp [skewFault, h]

theorem dscPlan_faults (h : g.rep = 0 ∨ g.q.rt = some (tokAt ts 1).bseq) : (dscPlan s g w ts).faults = [] := by
  simp only [dscPlan]
  split
  · rfl
  · next hrep => exact skewFault_same (h.resolve_left hrep)

end

theorem dscFire_effect {s : State} {t : Fin 1024} (hstands : Stands s t .q 3) (hquota : quotaMet s t)
    (hrt : (s.tile t).rep = 0 ∨ (s.tile t).q.rt = some (tokAt (firing s t) 1).bseq) :
    Fired s (dscFire s t) t [] ∧ Adapted (dscPlan s (s.tile t) (s.tile t).instr (firing s t)).g.q ((dscFire s t).tile t).q :=
  fire_qPlan (plan := dscPlan) (consts := qConsts) rfl hstands rfl (closesOk_true s t) (dscPlan_faults hrt) hquota
    (by rw [dscPlan_g hstands.parity]; exact keepMark_changesQ (changesQ_setQ _ _) _ _) rfl rfl .nil

/-! ## DEQ -/

section
variable {s : State} {g : GridTile} {w : BitVec 64} {ts : List (Nat × Token)}

theorem deqPlan_faults (h : g.badParity = []) (hrt : g.q.rt = some (tokAt ts 0).bseq) : (deqPlan s g w ts).faults = [] := by
  simp only [deqPlan, skewFault_same hrt, parityFaults_nil h, ite_self, List.nil_append]
  split <;> rfl

theorem deqPlan_changesQ : ChangesQ g (deqPlan s g w ts).g := by
  simp only [deqPlan]
  split <;> exact keepMark_changesQ (changesQ_setQ _ _) _ _

theorem deqPlan_rest : (deqPlan s g w ts).counts = true ∧ (deqPlan s g w ts).jump = none ∧ (deqPlan s g w ts).warns = [] := by
  simp only [deqPlan]
  split <;> exact ⟨rfl, rfl, rfl⟩

theorem deqPlan_closes : (deqPlan s g w ts).closes = deqCloses g (qDesc g w) := by
  simp only [deqPlan, deqCloses]
  split
  · next h => simp [h]
  · rfl

/-- A transport format's codes, each with its channel's scale, or bubbles for a bubble (R126). -/
theorem deqPlan_transport (h : (qDesc g w).transport = true) :
    let d := qDesc g w
    let u := tokAt ts 0
    (deqPlan s g w ts).out = [(0, markLast (lastMark s.pace.rank g w ts)
      (if u.bub = true ∧ iBubm w = 0 then bubbles (16 * d.of_.width / 128) g.cur (copyBseq ts)
       else valueTokens d.of_ g.cur (copyBseq ts) ((List.range 16).map fun k => d.of_.round (deqCode g d u k))))] ∧
    (deqPlan s g w ts).g.q = { g.q with rt := if g.rep = iRep w then none else g.q.rt } := by
  simp only [deqPlan, h, if_true, tokensOf, Bool.and_eq_true, beq_iff_eq, keepMark, and_true]

/-- The codes of a K4 or V4 block up to a firing's token. -/
def deqCodes (g : GridTile) (d : QDesc) (u : Token) : List Byte :=
  (if g.rep % (d.n / 32) = 0 then [] else g.q.codes) ++ payBytes (if u.bub then 0 else u.payload)

/-- A block of K4 or V4 is gathered, and given by the firing that closes it (R126). -/
theorem deqPlan_block (h : (qDesc g w).transport = false) :
    let d := qDesc g w
    let u := tokAt ts 0
    let xs := deqLevels (deqCodes g d u) d.n (mget 0 g.q.ds (g.rep / (d.n / 32))).toNat
    (deqPlan s g w ts).out = (if (g.rep + 1) % (d.n / 32) = 0 then [(0, markLast (lastMark s.pace.rank g w ts)
        (if (g.rep % (d.n / 32) = 0 ∨ g.q.codesBub = true) ∧ u.bub = true ∧ iBubm w = 0 then
          bubbles (d.n * d.of_.width / 128) g.cur (copyBseq ts)
         else valueTokens d.of_ g.cur (copyBseq ts)
          ((if d.rote then rotateBlock d.n d.norm xs else xs).map fun y => if d.of_ = .fp32 then y else convert .fp32 d.of_ y)))] else []) ∧
    (deqPlan s g w ts).g.q.codes = deqCodes g d u ∧ (deqPlan s g w ts).g.q.ds = g.q.ds ∧
    (deqPlan s g w ts).g.q.rt = (if g.rep = iRep w then none else g.q.rt) := by
  simp only [deqPlan, deqCloses, deqCodes, h, Bool.false_or, tokensOf, Bool.and_eq_true, Bool.or_eq_true, beq_iff_eq, keepMark, and_assoc]
  simp

theorem deqFire_effect {s : State} {t : Fin 1024} (hstands : Stands s t .q 4) (hquota : quotaMet s t)
    (hready : deqReady s (s.tile t) (s.tile t).instr = true) (hcloses : closesOk s t (deqCloses (s.tile t) (qDesc (s.tile t) (s.tile t).instr)))
    (hrt : (s.tile t).q.rt = some (tokAt (firing s t) 0).bseq) :
    let p := deqPlan s (s.tile t) (s.tile t).instr (firing s t)
    Fired s (deqFire s t) t p.out ∧ Adapted p.g.q ((deqFire s t).tile t).q := by
  obtain ⟨hcounts, hjump, hwarns⟩ := deqPlan_rest (s := s) (g := s.tile t) (w := (s.tile t).instr) (ts := firing s t)
  exact fire_qPlan (plan := deqPlan) (consts := qConsts) rfl hstands hready (by rwa [deqPlan_closes]) (deqPlan_faults hstands.parity hrt)
    hquota deqPlan_changesQ hcounts hjump (hwarns ▸ .nil)

end

/-- Settles O14: DSC's plan writes the lanes below its count; DEQ's plan gives a token's products, or those of the block it closes. -/
theorem scalesAndDeq : Obligations.ScalesAndDeq := by
  constructor
  · intro s t hstands hquota g d u hrt
    obtain ⟨hfired, hadapted⟩ := dscFire_effect hstands hquota hrt
    rw [dscPlan_g hstands.parity] at hadapted
    refine ⟨dscFire s t, rfl, hfired, fun i => ?_, hadapted.rt.trans ?_, hadapted.bt⟩
    · rw [hadapted.ds]
      by_cases hwrites : LoadWrites g.instr u
      · simp only [keepMark, hwrites, u, g, if_true, true_and, mget_dscEntries]
        rfl
      · simp only [keepMark, hwrites, u, g, if_false, false_and]
    · simp only [keepMark]
      split
      · rfl
      · next hrep => exact hrt.resolve_left hrep
  · intro s t hstands hquota hready g d u hcloses hrt
    obtain ⟨hfired, hadapted⟩ := deqFire_effect hstands hquota hready hcloses hrt
    constructor
    · intro hblock f b codes bub xs
      obtain ⟨hout, hcodes, hds, hrt'⟩ := deqPlan_block (s := s) (ts := firing s t) hblock
      exact ⟨deqFire s t, rfl, hadapted.codes.trans hcodes, hout ▸ hfired, hadapted.rt.trans hrt', hadapted.ds.trans hds⟩
    · intro htransport
      obtain ⟨hout, hq⟩ := deqPlan_transport (s := s) (ts := firing s t) htransport
      rw [hq] at hadapted
      exact ⟨deqFire s t, rfl, hout ▸ hfired, hadapted.rt, hadapted.ds⟩

/-! ## SCO, QNT and TAG -/

theorem scoFire_effect {s : State} {t : Fin 1024} (hstands : Stands s t .q 5) (hquota : quotaMet s t)
    (hroom : roomAll s.adr .q (s.tile t) (iOut (s.tile t).instr) = true) :
    Fired s (scoFire s t) t (scoPlan s (s.tile t) (s.tile t).instr (firing s t)).out :=
  (fire_qPlan (plan := scoPlan) (consts := qConsts) (ready := fun g w => roomAll s.adr .q g (iOut w)) rfl hstands hroom (closesOk_true s t)
    (parityFaults_nil hstands.parity _ _) hquota (keepMark_changesQ (changesQ_setQ _ _) _ _) rfl rfl .nil).1

section
variable {s : State} {g : GridTile} {w : BitVec 64} {ts : List (Nat × Token)}

/-- The channel of lane l of a QNT's firing. -/
def qntChannel (g : GridTile) (d : QDesc) (l : Nat) : Nat := (d.per * g.rep + l) % d.nch

/-- The code of lane l of a QNT's token. -/
def qntLane (g : GridTile) (d : QDesc) (u : Token) (l : Nat) : Nat × Bool :=
  qntCode d (d.af.operand (tokElem u d.af.width l)) (FloatFmt.fp16.value (mget 0 g.q.qs (qntChannel g d l)).toNat)

/-- The codes of an output token up to a firing's. -/
def qntCodes (g : GridTile) (d : QDesc) (u : Token) : List Byte :=
  (if g.rep % qntFirings d = 0 then [] else g.q.codes) ++ (List.range d.per).map fun l => BitVec.ofNat 8 (qntLane g d u l).1

/-- What the plan of a QNT gives and keeps of its Q state (R120). -/
theorem qntPlan_effect :
    let d := qDesc g w
    let u := tokAt ts 0
    let m := lastMark s.pace.rank g w ts
    (qntPlan s g w ts).out = (if qntProduces g d then
      [(0, [if (g.rep % qntFirings d == 0 || g.q.codesBub) && u.bub && iBubm w == 0 then mkBubble m g.cur g.q.bt
            else mkToken (mkPayload 8 ((qntCodes g d u).map fun b => b.toNat)) m g.cur g.q.bt])] else []) ∧
    (qntPlan s g w ts).g.q.codes = qntCodes g d u ∧
    (qntPlan s g w ts).g.q.bt = (if bitAt (iOpnd w) 8 = true ∧ g.rep = iRep w then g.q.bt + 1 else g.q.bt) := by
  intro d u m
  refine ⟨?_, ?_, ?_⟩
  · simp only [qntPlan, qntCodes, qntLane, qntChannel, List.map_map, Function.comp_def, d, u, m]
  · simp only [qntPlan, keepMark, qntCodes, qntLane, qntChannel, List.map_map, Function.comp_def, d, u]
  · simp only [qntPlan, keepMark, Bool.and_eq_true, beq_iff_eq]
    rw [countSats_only]

theorem qntPlan_faults (h : g.badParity = []) : (qntPlan s g w ts).faults = [] := by
  simp only [qntPlan, satFaults_nil h, parityFaults_nil h, List.append_nil]

end

theorem qntFire_effect {s : State} {t : Fin 1024} (hstands : Stands s t .q 6) (hquota : quotaMet s t)
    (hready : qntReady s (s.tile t) (s.tile t).instr = true) :
    let p := qntPlan s (s.tile t) (s.tile t).instr (firing s t)
    Fired s (qntFire s t) t p.out ∧ Adapted p.g.q ((qntFire s t).tile t).q :=
  fire_qPlan (plan := qntPlan) (consts := qConsts) rfl hstands hready (closesOk_true s t) (qntPlan_faults hstands.parity) hquota
    (keepMark_changesQ (changesQ_setQ _ _) _ _) rfl rfl (countSats_warns _ _ _)

theorem tagFire_effect {s : State} {t : Fin 1024} (hstands : Stands s t .q 7) (hquota : quotaMet s t) :
    let p := tagPlan s (s.tile t) (s.tile t).instr (firing s t)
    Fired s (tagFire s t) t [] ∧ Adapted p.g.q ((tagFire s t).tile t).q :=
  fire_qPlan (plan := tagPlan) (consts := fun _ _ => []) rfl hstands rfl (closesOk_true s t) rfl hquota (changesQ_setQ _ _) rfl rfl .nil

/-- Settles O15: the plans of SCO, QNT and TAG, each a firing of its core. -/
theorem quantOut : Obligations.QuantOut := by
  intro s t hquota g d
  refine ⟨fun hstands hroom => ⟨scoFire s t, rfl, scoFire_effect hstands hquota hroom⟩, ?_, ?_⟩
  · intro hstands hready u code codes bub
    obtain ⟨hfired, hadapted⟩ := qntFire_effect hstands hquota hready
    obtain ⟨hout, hcodes, hbt⟩ := qntPlan_effect (s := s) (g := g) (w := g.instr) (ts := firing s t)
    exact ⟨qntFire s t, rfl, hout ▸ hfired, hadapted.codes.trans hcodes, hadapted.bt.trans hbt⟩
  · intro hstands
    obtain ⟨hfired, hadapted⟩ := tagFire_effect hstands hquota
    exact ⟨tagFire s t, rfl, hfired, hadapted.bt⟩

end Sys2Proof.Claims
end

section
/-! SUPPORT. The beats of an S tile with no access left over (R139), and the firings of its core. -/

namespace Sys2Proof.Claims

open Sys2Proof Sys2Proof.Machine

/-! ## Beats (R139) -/

/-- The tiles may have changed, and nothing else. -/
def TilesOnly (s s' : State) : Prop := s' = { s with tiles := s'.tiles }

/-- An S tile as a new beat finds it. -/
def newBeat (g : GridTile) : GridTile := { g with s := { g.s with bankUse := [], pushedNow := [], freed := [], beatRank := 0 } }

theorem nextBeat_of_served {s : State} {t : Nat} (h : (s.tile t).s.deferred = []) : nextBeat s t = s.setTile t (newBeat (s.tile t)) := by
  have hkept : (newBeat (s.tile t)) =
      { s.tile t with s := { (s.tile t).s with bankUse := [], pushedNow := [], freed := [], deferred := [], beatRank := 0 } } := by
    rw [newBeat, ← h]
  rw [hkept, nextBeat, h]
  rfl

/-- What an operation's place in a beat may change of its tile: the bank accesses, the pushes and the room counted, and the rank. -/
structure SameBut (g g' : GridTile) : Prop where
  frame : g' = { g with s := { g.s with bankUse := g'.s.bankUse, pushedNow := g'.s.pushedNow, freed := g'.s.freed, beatRank := g'.s.beatRank } }

/-- A new beat begins where the rank has passed or a queue that is read was pushed. -/
def beginsBeat (g : GridTile) (rank : Nat) (qs : List Nat) : Bool :=
  rank ≤ g.s.beatRank || qs.any (fun q => g.s.pushedNow.contains q)

theorem inBeat_of_served {s : State} {t rank : Nat} {qs : List Nat} (h : (s.tile t).s.deferred = []) :
    inBeat s t rank qs = if beginsBeat (s.tile t) rank qs then s.setTile t (newBeat (s.tile t)) else s := by
  simp only [inBeat, beginsBeat, h, List.any_nil, Bool.or_false, nextBeat_of_served h]
  rfl

theorem atBeat_of_served {s : State} {t : Fin 1024} {rank : Nat} {qs : List Nat} (h : (s.tile t).s.deferred = []) :
    atBeat s t rank qs = if beginsBeat (s.tile t) rank qs then newBeat (s.tile t) else s.tile t := by
  rw [atBeat, inBeat_of_served h]
  split
  · exact State.setTile_tile_self s t _
  · rfl

theorem atBeat_sameBut {s : State} {t : Fin 1024} {rank : Nat} {qs : List Nat} (h : (s.tile t).s.deferred = []) :
    SameBut (s.tile t) (atBeat s t rank qs) := by
  rw [atBeat_of_served h]
  split <;> exact ⟨rfl⟩

theorem SameBut.noteRank {g g' : GridTile} (h : SameBut g g') (rank : Nat) : SameBut g (noteRank g' rank) :=
  ⟨by rw [Machine.noteRank, h.frame]⟩

theorem inBeat_tilesOnly {s : State} {t rank : Nat} {qs : List Nat} (h : (s.tile t).s.deferred = []) : TilesOnly s (inBeat s t rank qs) := by
  rw [inBeat_of_served h]
  split <;> rfl

/-- The tile set after its beat was placed: as if it had been set in the state before. -/
theorem setTile_inBeat {s : State} {t rank : Nat} {qs : List Nat} (h : (s.tile t).s.deferred = []) (g : GridTile) :
    ∀ u, ((inBeat s t rank qs).setTile t g).tile u = (s.setTile t g).tile u := by
  intro u
  rw [State.setTile_tile, State.setTile_tile]
  split
  · rfl
  · next hu =>
    rw [inBeat_of_served h]
    split
    · exact (State.setTile_tile s t u _).trans (if_neg hu)
    · rfl

section
variable {g g' : GridTile} (h : SameBut g g')
include h

theorem SameBut.queue (q : Nat) : g'.queue q = g.queue q := by rw [h.frame]; rfl
theorem SameBut.qdesc (q : Nat) : g'.qdesc q = g.qdesc q := by rw [h.frame]; rfl
theorem SameBut.slotAt (i : Nat) : Machine.slotAt g' i = Machine.slotAt g i := by rw [h.frame]; rfl
theorem SameBut.instr : g'.instr = g.instr := by rw [h.frame]; rfl
theorem SameBut.heads (w : BitVec 64) : Machine.heads g' w = Machine.heads g w := by rw [h.frame]; rfl
theorem SameBut.completing : Machine.completing g' = Machine.completing g := by rw [h.frame]; rfl
theorem SameBut.deferred : g'.s.deferred = g.s.deferred := by rw [h.frame]

end

/-! ## A firing in its beat -/

/-- A firing after its tile took its place in the beat is a firing of the state before. -/
theorem Fired.of_beat {s s1 s' : State} {t : Fin 1024} {out : List (Nat × List Token)} (h : Fired s1 s' t out)
    (htile : SameBut (s.tile t) (s1.tile t)) (hothers : ∀ u, u ≠ t.val → s1.tile u = s.tile u) (hframe : TilesOnly s s1) :
    Fired s s' t out := by
  have hinstr := htile.instr
  have hcore : (s1.tile t).inb = (s.tile t).inb ∧ (s1.tile t).pipe = (s.tile t).pipe ∧ (s1.tile t).fired = (s.tile t).fired ∧
      (s1.tile t).pc = (s.tile t).pc ∧ (s1.tile t).rep = (s.tile t).rep := by
    rw [htile.frame]
    exact ⟨rfl, rfl, rfl, rfl, rfl⟩
  obtain ⟨hinb, hpipe, hfired, hpc, hrep⟩ := hcore
  have hfiring : firing s1 t = firing s t := by rw [firing, firing, hinstr, htile.heads]
  constructor
  case consumed => intro p hp; rw [h.consumed p hp, hinstr, hinb]
  case produced => intro p hp; rw [h.produced p hp, hpipe]
  case depth =>
    intro p hp
    have hdepth := h.depth p hp
    rwa [hframe] at hdepth
  case counted => rw [h.counted, hfired]
  case parks => rw [h.parks, htile.completing]
  case next => rw [h.next, hpc, hrep, hinstr, hfiring]
  case others => exact fun u hu => (h.others u hu).trans (hothers u hu)
  case frame => rw [h.frame, hframe]

/-! ## Core firings (R139, R150) -/

/-- The state in which a core operation of tile t acts on some queues. -/
def coreState (s : State) (t : Fin 1024) (qs : List Nat) : State := (inBeat s t 5 qs).setTile t (noteRank (atBeat s t 5 qs) 5)

theorem coreState_tile {s : State} {t : Fin 1024} (qs : List Nat) : (coreState s t qs).tile t = noteRank (atBeat s t 5 qs) 5 :=
  State.setTile_tile_self _ _ _

section
variable {s : State} {t : Fin 1024} {qs : List Nat} (h : (s.tile t).s.deferred = [])
include h

theorem coreState_sameBut : SameBut (s.tile t) ((coreState s t qs).tile t) := by
  rw [coreState_tile]
  exact (atBeat_sameBut h).noteRank 5

theorem coreState_others (u : Nat) (hu : u ≠ t.val) : (coreState s t qs).tile u = s.tile u :=
  (setTile_inBeat h _ u).trans ((State.setTile_tile s t u _).trans (if_neg hu))

theorem coreState_tilesOnly : TilesOnly s (coreState s t qs) := by
  unfold TilesOnly coreState
  rw [inBeat_tilesOnly h]
  rfl

theorem coreState_firing : firing (coreState s t qs) t = firing s t := by
  rw [firing, firing, (coreState_sameBut h).instr, (coreState_sameBut h).heads]

theorem coreState_canFire (k : Kind) (opc : Nat) : canFire (coreState s t qs) t k opc = canFire s t k opc := by
  have hholding : (coreState s t qs).holding = s.holding := by
    rw [coreState_tilesOnly h]
    rfl
  unfold canFire
  rw [hholding, (coreState_sameBut h).frame]
  rfl

theorem coreState_stands {k : Kind} {opc : Nat} (hstands : Stands s t k opc) : Stands (coreState s t qs) t k opc := by
  have htile := (coreState_sameBut h (qs := qs)).frame
  refine ⟨(coreState_canFire h k opc).trans hstands.canFire, ?_, ?_, ?_⟩
  · intro i
    rw [htile]
    exact hstands.words i
  · rw [htile]
    exact hstands.parity
  · rw [coreState_firing h, (coreState_sameBut h).instr, htile]
    exact hstands.checks

theorem coreState_quota (hquota : quotaMet s t) : quotaMet (coreState s t qs) t := by
  unfold quotaMet
  rw [coreState_firing h, (coreState_sameBut h).frame]
  exact hquota

end

/-- A core operation on whole queues that is ready is a firing in its beat. -/
theorem sCore_eq_fire {s : State} {t : Fin 1024} {opc : Nat} {qs : GridTile → BitVec 64 → List Nat}
    {ready : State → GridTile → BitVec 64 → Bool} (consts : GridTile → BitVec 64 → List Nat)
    (plan : State → GridTile → BitVec 64 → List (Nat × Token) → Plan) (hcan : canFire s t .s opc = true) (hwhole : QueuesWhole (s.tile t))
    (hready : ready (inBeat s t 5 (qs (s.tile t) (s.tile t).instr)) (atBeat s t 5 (qs (s.tile t) (s.tile t).instr)) (s.tile t).instr = true) :
    sCore s t opc qs ready consts plan =
      fire (coreState s t (qs (s.tile t) (s.tile t).instr)) t .s opc (fun _ _ => true) consts plan := by
  have hbeat := atBeat_sameBut hwhole.served (s := s) (rank := 5) (qs := qs (s.tile t) (s.tile t).instr)
  have hthawed : (qs (s.tile t) (s.tile t).instr).all (fun q => !((s.tile t).queue q).froz) = true := by simp [hwhole.thawed]
  have hserved : stillDeferred (atBeat s t 5 (qs (s.tile t) (s.tile t).instr)) 5 = false := by
    simp [stillDeferred, hbeat.deferred, hwhole.served]
  have hcopies : (qs (s.tile t) (s.tile t).instr).find? (fun q => (ptrDiff ((s.tile t).queue q)).isSome) = none := by simp [hwhole.copies]
  have hcond : (ready (inBeat s t 5 (qs (s.tile t) (s.tile t).instr)) (atBeat s t 5 (qs (s.tile t) (s.tile t).instr))
      (atBeat s t 5 (qs (s.tile t) (s.tile t).instr)).instr && !stillDeferred (atBeat s t 5 (qs (s.tile t) (s.tile t).instr)) 5) = true := by
    rw [hbeat.instr, hready, hserved]
    rfl
  unfold sCore
  dsimp only
  rw [if_pos (by rw [hcan, hthawed]; rfl), hcopies]
  exact if_pos hcond

theorem consume_setPipe (ts : List (Nat × Token)) (π : AMap (List Token)) (g : GridTile) :
    consume { g with pipe := π } ts = { consume g ts with pipe := π } := by
  induction ts generalizing g with
  | nil => rfl
  | cons x r ih => exact ih (consume g [x])

theorem consume_pipe (ts : List (Nat × Token)) (g : GridTile) : (consume g ts).pipe = g.pipe := by rw [consume_frame]

/-- Tokens are taken and given in either order. -/
theorem consume_produce (ts : List (Nat × Token)) (out : List (Nat × List Token)) (g : GridTile) :
    consume (produce g out) ts = produce (consume g ts) out := by
  induction out generalizing g with
  | nil => rfl
  | cons x r ih =>
    refine (ih { g with pipe := mset [] g.pipe x.1 (mget [] g.pipe x.1 ++ x.2) }).trans ?_
    rw [consume_setPipe, ← consume_pipe ts g]
    rfl

theorem produce_append (g : GridTile) (a b : List (Nat × List Token)) : produce (produce g a) b = produce g (a ++ b) :=
  (List.foldl_append ..).symm

/-- What a plan gives may stand in its pipeline already: the firing is the same. -/
theorem firedTile_produce (s : State) (k : Kind) (p : Plan) (g : GridTile) (out : List (Nat × List Token)) (w : BitVec 64)
    (ts : List (Nat × Token)) (h : p.g = produce g out) :
    firedTile s k p w ts = firedTile s k { p with g := g, out := out ++ p.out } w ts := by
  simp only [firedTile, h, consume_produce, produce_append]

theorem firedTile_s (s : State) (k : Kind) (p : Plan) (w : BitVec 64) (ts : List (Nat × Token)) : (firedTile s k p w ts).s = p.g.s := by
  rw [firedTile_frame]

/-- What the core's plan of an S tile does: it leaves the core to the firing but for the tokens that its slot access gives, and both copies
of every queue's pointers agree. -/
structure SPlan (g : GridTile) (p : Plan) (out : List (Nat × List Token)) : Prop where
  given : ∃ g1, p.g = produce g1 out ∧ KeepsCore g g1 ∧ (∀ q, ptrDiff (g1.queue q) = none)
  faults : p.faults = []
  counts : p.counts = true
  jump : p.jump = none
  warns : p.warns = []

/-- A core operation of an S tile on whole queues that is ready and whose plan finds nothing wrong: its whole effect. -/
theorem sCore_sPlan {s : State} {t : Fin 1024} {opc : Nat} {qs : GridTile → BitVec 64 → List Nat}
    {ready : State → GridTile → BitVec 64 → Bool} {consts : GridTile → BitVec 64 → List Nat}
    {plan : State → GridTile → BitVec 64 → List (Nat × Token) → Plan} {p : Plan} {out : List (Nat × List Token)}
    (hstands : Stands s t .s opc) (hquota : quotaMet s t) (hwhole : QueuesWhole (s.tile t))
    (hready : ready (inBeat s t 5 (qs (s.tile t) (s.tile t).instr)) (atBeat s t 5 (qs (s.tile t) (s.tile t).instr)) (s.tile t).instr = true)
    (hp : plan (coreState s t (qs (s.tile t) (s.tile t).instr)) (noteRank (atBeat s t 5 (qs (s.tile t) (s.tile t).instr)) 5)
      (s.tile t).instr (firing s t) = p)
    (hplan : SPlan (noteRank (atBeat s t 5 (qs (s.tile t) (s.tile t).instr)) 5) p out) :
    Fired s (sCore s t opc qs ready consts plan) t (out ++ p.out) ∧ ((sCore s t opc qs ready consts plan).tile t).s = p.g.s := by
  have hserved := hwhole.served
  obtain ⟨⟨g1, hg, hkeep, hcopies⟩, hfaults, hcounts, hjump, hwarns⟩ := hplan
  rw [sCore_eq_fire consts plan hstands.canFire hwhole hready]
  generalize hs1 : coreState s t (qs (s.tile t) (s.tile t).instr) = s1 at hp
  have hbeat : SameBut (s.tile t) (s1.tile t) := hs1 ▸ coreState_sameBut hserved
  have hstands1 : Stands s1 t .s opc := hs1 ▸ coreState_stands hserved hstands
  have hquota1 : quotaMet s1 t := hs1 ▸ coreState_quota hserved hquota
  have hfiring : firing s1 t = firing s t := hs1 ▸ coreState_firing hserved
  have htile : s1.tile t = noteRank (atBeat s t 5 (qs (s.tile t) (s.tile t).instr)) 5 := hs1 ▸ coreState_tile _
  rw [← htile, ← hbeat.instr, ← hfiring] at hp
  rw [← htile] at hkeep
  rw [fire_eq_afterFiring hp hstands1 rfl (closingFaults_nil trivial) hfaults fun _ => hquota1]
  have hsame : afterFiring s1 t p (firedTile s1 .s p (s1.tile t).instr (firing s1 t)) =
      afterFiring s1 t { p with g := g1, out := out ++ p.out }
        (firedTile s1 .s { p with g := g1, out := out ++ p.out } (s1.tile t).instr (firing s1 t)) := by
    rw [firedTile_produce s1 .s p g1 out _ _ hg]
    rfl
  obtain ⟨hfired, q, -, hleft⟩ := fired_of_plainPlan (p := { p with g := g1, out := out ++ p.out }) hstands1
    ⟨hkeep, hcounts, hjump, hwarns ▸ .nil⟩ ⟨fun h => Kind.noConfusion h, fun _ => hcopies⟩
  rw [← hsame] at hfired hleft
  refine ⟨hfired.of_beat hbeat (fun u hu => hs1 ▸ coreState_others hserved u hu) (hs1 ▸ coreState_tilesOnly hserved), ?_⟩
  rw [hleft, hg, produce_frame]
  exact firedTile_s ..

/-! ## Queues and slots -/

theorem ptrDiff_eq_none {x : Queue} : ptrDiff x = none ↔ x.a = x.b := by
  cases x with
  | mk a b froz hwm =>
    cases a
    cases b
    simp only [ptrDiff, Ptrs.mk.injEq]
    grind

theorem ptrDiff_bothPtrs {x : Queue} (h : ptrDiff x = none) (f : Ptrs → Ptrs) : ptrDiff (bothPtrs x f) = none :=
  ptrDiff_eq_none.mpr (congrArg f (ptrDiff_eq_none.mp h))

theorem ptrDiff_pushPtrs {x : Queue} (h : ptrDiff x = none) : ptrDiff (pushPtrs x) = none :=
  ptrDiff_eq_none.mpr (congrArg (fun p : Ptrs => { p with wp := p.wp + 1 }) (ptrDiff_eq_none.mp h))

theorem setQueue_queue (g : GridTile) (q r : Nat) (x : Queue) : (g.setQueue q x).queue r = if r = q then x else g.queue r :=
  mget_mset _ _ _ _ _

/-- Queues whose copies agree still agree when one of them is replaced by one whose copies agree. -/
theorem copies_setQueue {g : GridTile} {q : Nat} {x : Queue} (h : ∀ r, ptrDiff (g.queue r) = none) (hx : ptrDiff x = none) (r : Nat) :
    ptrDiff ((g.setQueue q x).queue r) = none := by
  rw [setQueue_queue]
  split
  · exact hx
  · exact h r

/-- A plan that changes the S state alone leaves the core to the firing. -/
theorem keepsCore_of_s {g g' : GridTile} (h : g' = { g with s := g'.s }) : KeepsCore g g' := by
  rw [h]
  exact ⟨rfl, rfl, rfl, rfl, rfl, rfl, rfl, rfl, rfl⟩

theorem KeepsCore.setS {g g' : GridTile} (h : KeepsCore g g') (x : SState) : KeepsCore g { g' with s := x } :=
  ⟨h.inb, h.pipe, h.rest, h.pc, h.rep, h.halted, h.fired, h.parked, h.ctxCfg⟩

theorem produce_setS (g : GridTile) (x : SState) (out : List (Nat × List Token)) : produce { g with s := x } out = { produce g out with s := x } := by
  induction out generalizing g with
  | nil => rfl
  | cons y r ih => exact ih (produce g [y])

theorem produce_s (g : GridTile) (out : List (Nat × List Token)) : (produce g out).s = g.s := by rw [produce_frame]

/-- Tokens are given and a queue is set in either order. -/
theorem setQueue_produce (g : GridTile) (out : List (Nat × List Token)) (q : Nat) (x : Queue) :
    (produce g out).setQueue q x = produce (g.setQueue q x) out := by
  rw [GridTile.setQueue, produce_s]
  exact (produce_setS g _ out).symm

/-! ### Slot accesses (R139) -/

/-- A tile whose bank has served one more access. -/
def useBank (g : GridTile) (i : Nat) : GridTile :=
  { g with s := { g.s with bankUse := mset 0 g.s.bankUse (slotBank i) (mget 0 g.s.bankUse (slotBank i) + 1) } }

/-- A tile that leaves an access over to the next beat. -/
def leaveOver (g : GridTile) (who : Nat) (a : SlotAccess) : GridTile :=
  { g with s := { g.s with deferred := g.s.deferred ++ [(who, a)], deferPc := if who = 5 then g.pc.toNat else g.s.deferPc } }

theorem claim_write_free {g : GridTile} {i : Nat} (h : bankFree g i) (who : Nat) (u : Token) :
    claim g who (.write i u) = (putSlot (useBank g i) i u, none) := if_pos h

theorem claim_busy {g : GridTile} {a : SlotAccess} (h : ¬ bankFree g (accessSlot a)) (who : Nat) : claim g who a = (leaveOver g who a, none) :=
  if_neg h

theorem claim_read_free {g : GridTile} {i : Nat} (h : bankFree g i) (hok : slotOk (slotAt g i) = true) (who k : Nat) (m : Marker) :
    claim g who (.read i k m) = (produce (useBank g i) [(k, [{ (slotAt g i).tok with ctx := g.cur, mark := m }])], none) :=
  (if_pos h).trans (if_pos hok)

theorem slotAt_putSlot (g : GridTile) (i j : Nat) (u : Token) :
    slotAt (putSlot g i u) j = if j = i then { tok := u, chk := sideParity u } else slotAt g j := mget_mset _ _ _ _ _

/-- A write takes place or is left over; neither touches the queues. -/
theorem claim_write_frame (g : GridTile) (who i : Nat) (u : Token) :
    (claim g who (.write i u)).1 = { g with s := (claim g who (.write i u)).1.s } ∧ (claim g who (.write i u)).1.s.queues = g.s.queues ∧
      (claim g who (.write i u)).2 = none := by
  by_cases h : bankFree g i
  · rw [claim_write_free h]
    exact ⟨rfl, rfl, rfl⟩
  · rw [claim_busy (a := .write i u) h]
    exact ⟨rfl, rfl, rfl⟩

/-! ### PUSH (R143) -/

/-- The tile of a push before its slot access: WP has advanced, and the queue counts as pushed in the beat. -/
def pushedTile (g : GridTile) (q : Nat) : GridTile :=
  { g with s := { g.s with queues := mset {} g.s.queues q (pushPtrs (g.queue q)), pushedNow := q :: g.s.pushedNow } }

theorem pushQueue_eq (g : GridTile) (rank q : Nat) (u : Token) :
    pushQueue g rank q u = (claim (pushedTile g q) rank (.write (qSlot (g.qdesc q) (g.queue q).a.wp) u)).1 := rfl

theorem pushQueue_queue (g : GridTile) (rank q : Nat) (u : Token) (r : Nat) :
    (pushQueue g rank q u).queue r = if r = q then pushPtrs (g.queue q) else g.queue r := by
  obtain ⟨-, hqueues, -⟩ := claim_write_frame (pushedTile g q) rank (qSlot (g.qdesc q) (g.queue q).a.wp) u
  rw [pushQueue_eq, GridTile.queue, hqueues]
  exact mget_mset _ _ _ _ _

theorem pushQueue_frame (g : GridTile) (rank q : Nat) (u : Token) : pushQueue g rank q u = { g with s := (pushQueue g rank q u).s } :=
  (claim_write_frame (pushedTile g q) rank _ u).1

section
variable {g : GridTile} {q : Nat} (rank : Nat) (u : Token)

theorem pushQueue_free (h : bankFree g (qSlot (g.qdesc q) (g.queue q).a.wp)) :
    pushQueue g rank q u = putSlot (useBank (pushedTile g q) (qSlot (g.qdesc q) (g.queue q).a.wp)) (qSlot (g.qdesc q) (g.queue q).a.wp) u :=
  congrArg Prod.fst (claim_write_free (g := pushedTile g q) h rank u)

theorem pushQueue_busy (h : ¬ bankFree g (qSlot (g.qdesc q) (g.queue q).a.wp)) :
    pushQueue g rank q u = leaveOver (pushedTile g q) rank (.write (qSlot (g.qdesc q) (g.queue q).a.wp) u) :=
  congrArg Prod.fst (claim_busy (g := pushedTile g q) (a := .write _ u) h rank)

end

/-- A PUSH that is ready fires with the push of its token. -/
theorem pushFire_effect {s : State} {t : Fin 1024} (h : StandsS s t 1) (hstage : 2 ≤ s.cfg.stage.toNat)
    (hfree : 0 < ((s.tile t).queue (instrQueue (s.tile t).instr)).free ((s.tile t).qdesc (instrQueue (s.tile t).instr))) :
    let w := (s.tile t).instr
    let p := pushQueue (noteRank (atBeat s t 5 [instrQueue w]) 5) 5 (instrQueue w) (storedTok w (tokAt (firing s t) (onePort (iIn w))))
    Fired s (pushFire s t) t [] ∧ ((pushFire s t).tile t).s = p.s := by
  intro w p
  obtain ⟨hstands, hquota, hwhole⟩ := h
  have hbeat := atBeat_sameBut hwhole.served (s := s) (rank := 5) (qs := [instrQueue w])
  have hready : (canPush (atBeat s t 5 [instrQueue w]) (instrQueue w) &&
      decide (2 ≤ (inBeat s t 5 [instrQueue w]).cfg.stage.toNat)) = true := by
    have hpush : canPush (atBeat s t 5 [instrQueue w]) (instrQueue w) = true := by
      rw [canPush, hbeat.queue, hwhole.thawed, hbeat.qdesc, decide_eq_true hfree]
      rfl
    rw [hpush, inBeat_tilesOnly hwhole.served]
    simpa using hstage
  refine sCore_sPlan (qs := oneQueue) (plan := pushPlan) (p := { g := p }) (out := []) hstands hquota hwhole hready rfl
    ⟨⟨p, rfl, keepsCore_of_s (pushQueue_frame _ _ _ _), fun r => ?_⟩, rfl, rfl, rfl, rfl⟩
  have hcopies : ∀ r, ptrDiff ((noteRank (atBeat s t 5 [instrQueue w]) 5).queue r) = none := by
    intro r
    rw [(hbeat.noteRank 5).queue]
    exact hwhole.copies r
  rw [pushQueue_queue]
  split
  · exact ptrDiff_pushPtrs (hcopies _)
  · exact hcopies r

/-! ### Plans that claim one slot access -/

section
variable {g : GridTile} (f : GridTile → GridTile)

theorem accessPlan_write (i : Nat) (u : Token) : accessPlan g (.write i u) f = { g := f (claim g 5 (.write i u)).1 } := by
  obtain ⟨-, -, hnone⟩ := claim_write_frame g 5 i u
  simp only [accessPlan, hnone]

theorem accessPlan_busy {a : SlotAccess} (h : ¬ bankFree g (accessSlot a)) : accessPlan g a f = { g := f (leaveOver g 5 a) } := by
  simp only [accessPlan, claim_busy h]

theorem accessPlan_read {i k : Nat} {m : Marker} (h : bankFree g i) (hok : slotOk (slotAt g i) = true) :
    accessPlan g (.read i k m) f = { g := f (produce (useBank g i) [(k, [{ (slotAt g i).tok with ctx := g.cur, mark := m }])]) } := by
  simp only [accessPlan, claim_read_free h hok]

end

/-! ### POP (R144) -/

/-- A POP that is ready fires with its plan. -/
theorem popFire_effect {s : State} {t : Fin 1024} {p : Plan} {out : List (Nat × List Token)} (h : StandsS s t 2)
    (havl : 0 < ((s.tile t).queue (instrQueue (s.tile t).instr)).avl) (hroom : sRoom s (s.tile t) (s.tile t).instr = true)
    (hp : popPlan (coreState s t [instrQueue (s.tile t).instr]) (noteRank (atBeat s t 5 [instrQueue (s.tile t).instr]) 5) (s.tile t).instr
      (firing s t) = p)
    (hplan : SPlan (noteRank (atBeat s t 5 [instrQueue (s.tile t).instr]) 5) p out) :
    Fired s (popFire s t) t (out ++ p.out) ∧ ((popFire s t).tile t).s = p.g.s := by
  obtain ⟨hstands, hquota, hwhole⟩ := h
  have hbeat := atBeat_sameBut hwhole.served (s := s) (rank := 5) (qs := [instrQueue (s.tile t).instr])
  have hready : (canPop (atBeat s t 5 [instrQueue (s.tile t).instr]) (instrQueue (s.tile t).instr) &&
      sRoom (inBeat s t 5 [instrQueue (s.tile t).instr]) (atBeat s t 5 [instrQueue (s.tile t).instr]) (s.tile t).instr) = true := by
    have hpop : canPop (atBeat s t 5 [instrQueue (s.tile t).instr]) (instrQueue (s.tile t).instr) = true := by
      rw [canPop, hbeat.queue, hwhole.thawed, decide_eq_true havl]
      rfl
    rw [hpop, inBeat_tilesOnly hwhole.served, hbeat.frame]
    exact hroom
  exact sCore_sPlan (qs := oneQueue) (plan := popPlan) hstands hquota hwhole hready hp hplan

/-- The copies of a tile's queues agree in its beat. -/
theorem copies_atBeat {s : State} {t : Fin 1024} (h : QueuesWhole (s.tile t)) (qs : List Nat) (r : Nat) :
    ptrDiff ((noteRank (atBeat s t 5 qs) 5).queue r) = none := by
  rw [((atBeat_sameBut h.served).noteRank 5).queue]
  exact h.copies r

/-- Settles O16: a push is a write at WP, a pop a read at RP, each now or left over as its bank is free or not. -/
theorem pushPop : Obligations.PushPop := by
  constructor
  · intro s t h hstage w q x g i u hfree
    obtain ⟨hfired, hs⟩ := pushFire_effect h hstage hfree
    have hbeat : SameBut (s.tile t) (noteRank g 5) := (atBeat_sameBut h.whole.served).noteRank 5
    have hqueue : ∀ r, ((pushFire s t).tile t).queue r = if r = q then pushPtrs x else (s.tile t).queue r := by
      intro r
      rw [GridTile.queue, hs]
      exact (pushQueue_queue _ _ _ _ r).trans (by rw [hbeat.queue, hbeat.queue])
    have hplace : qSlot ((noteRank g 5).qdesc q) ((noteRank g 5).queue q).a.wp = i := by rw [hbeat.qdesc, hbeat.queue]
    have hstore : ∀ j, slotAt ((pushFire s t).tile t) j = slotAt (pushQueue (noteRank g 5) 5 q u) j := by
      intro j
      rw [slotAt, hs]
      rfl
    have hslots : ∀ j, slotAt (pushedTile (noteRank g 5) q) j = slotAt (s.tile t) j := fun j => hbeat.slotAt j
    have hleft : (noteRank g 5).s.deferred = [] := hbeat.deferred.trans h.whole.served
    have hfree' : bankFree g i → pushQueue (noteRank g 5) 5 q u = putSlot (useBank (pushedTile (noteRank g 5) q) i) i u := by
      intro hbank
      rw [pushQueue_free 5 u (by rw [hplace]; exact hbank), hplace]
    have hbusy : ¬ bankFree g i → pushQueue (noteRank g 5) 5 q u = leaveOver (pushedTile (noteRank g 5) q) 5 (.write i u) := by
      intro hbank
      rw [pushQueue_busy 5 u (by rw [hplace]; exact hbank), hplace]
    refine ⟨pushFire s t, rfl, hfired, ?_, ?_, fun r hr => (hqueue r).trans (if_neg hr), fun hbank => ?_, fun hbank => ?_, fun j hj => ?_⟩
    · rw [hqueue, if_pos rfl]
      rfl
    · rw [hqueue, if_pos rfl]
      rfl
    · rw [hstore, hs, hfree' hbank, slotAt_putSlot, if_pos rfl]
      exact ⟨rfl, hleft⟩
    · rw [hstore, hs, hbusy hbank]
      exact ⟨hslots i, congrArg (fun l => l ++ [(5, SlotAccess.write i u)]) hleft⟩
    · rw [hstore]
      by_cases hbank : bankFree g i
      · rw [hfree' hbank, slotAt_putSlot, if_neg hj]
        exact hslots j
      · rw [hbusy hbank]
        exact hslots j
  · intro s t h w q d x i m gives havl hroom
    have hbeat : SameBut (s.tile t) (noteRank (atBeat s t 5 [q]) 5) := (atBeat_sameBut h.whole.served).noteRank 5
    have hplan : popPlan (coreState s t [q]) (noteRank (atBeat s t 5 [q]) 5) w (firing s t) =
        accessPlan (noteRank (atBeat s t 5 [q]) 5) (.read i (onePort (iOut w)) m) fun g1 => g1.setQueue q (popPtrs (qRet d) 1 x) := by
      have hmark : coreMark (coreState s t [q]) (noteRank (atBeat s t 5 [q]) 5) (firing s t) = m := by
        rw [hbeat.frame, coreState_tilesOnly h.whole.served]
        rfl
      simp only [popPlan, hmark, hbeat.qdesc, hbeat.queue, q, d, x, i]
    have hleft : (noteRank (atBeat s t 5 [q]) 5).s.deferred = [] := hbeat.deferred.trans h.whole.served
    have hcopies : ∀ g1 : GridTile, g1.s.queues = (noteRank (atBeat s t 5 [q]) 5).s.queues → ∀ r,
        ptrDiff ((g1.setQueue q (popPtrs (qRet d) 1 x)).queue r) = none := by
      intro g1 hg1
      refine copies_setQueue (fun r => ?_) (ptrDiff_bothPtrs (h.whole.copies q) _)
      rw [GridTile.queue, hg1]
      exact copies_atBeat h.whole [q] r
    have heffect : ∀ (g1 : GridTile) (out : List (Nat × List Token)), g1.s.queues = (noteRank (atBeat s t 5 [q]) 5).s.queues →
        g1.s.store = (s.tile t).s.store → KeepsCore (noteRank (atBeat s t 5 [q]) 5) g1 →
        popPlan (coreState s t [q]) (noteRank (atBeat s t 5 [q]) 5) w (firing s t) =
          { g := (produce g1 out).setQueue q (popPtrs (qRet d) 1 x) } → gives out g1.s.deferred := by
      intro g1 out hqueues hstore hkeep hp
      obtain ⟨hfired, hs⟩ := popFire_effect (out := out) h havl hroom hp
        ⟨⟨g1.setQueue q (popPtrs (qRet d) 1 x), setQueue_produce _ _ _ _, hkeep.setS _, hcopies g1 hqueues⟩,
          rfl, rfl, rfl, rfl⟩
      have hqueue : ∀ r, ((popFire s t).tile t).queue r = if r = q then popPtrs (qRet d) 1 x else (s.tile t).queue r := by
        intro r
        rw [GridTile.queue, hs, produce_frame]
        refine (setQueue_queue g1 q r _).trans ?_
        rw [GridTile.queue, hqueues, hbeat.frame]
        rfl
      rw [List.append_nil] at hfired
      refine ⟨popFire s t, rfl, hfired, ?_, fun r hr => (hqueue r).trans (if_neg hr), ?_, ?_⟩
      · rw [hqueue, if_pos rfl]
        rfl
      · rw [hs, produce_frame]
        exact hstore
      · rw [hs, produce_frame]
        rfl
    constructor
    · intro hbank hok
      have hp := accessPlan_read (g := noteRank (atBeat s t 5 [q]) 5) (fun g1 => g1.setQueue q (popPtrs (qRet d) 1 x)) (k := onePort (iOut w))
        (m := m) hbank ((congrArg slotOk (hbeat.slotAt i)).trans hok)
      rw [hbeat.slotAt, show (noteRank (atBeat s t 5 [q]) 5).cur = (s.tile t).cur by rw [hbeat.frame]] at hp
      have hgives := heffect (useBank (noteRank (atBeat s t 5 [q]) 5) i) _ rfl ?_ (keepsCore_of_s rfl) (hplan.trans hp)
      · rwa [show (useBank (noteRank (atBeat s t 5 [q]) 5) i).s.deferred = [] from hleft] at hgives
      · rw [hbeat.frame]
        rfl
    · intro hbank
      have hp := accessPlan_busy (g := noteRank (atBeat s t 5 [q]) 5) (a := .read i (onePort (iOut w)) m)
        (fun g1 => g1.setQueue q (popPtrs (qRet d) 1 x)) hbank
      have hgives := heffect (leaveOver (noteRank (atBeat s t 5 [q]) 5) 5 (.read i (onePort (iOut w)) m)) [] rfl ?_ (keepsCore_of_s rfl)
        (hplan.trans hp)
      · rwa [show (leaveOver (noteRank (atBeat s t 5 [q]) 5) 5 (.read i (onePort (iOut w)) m)).s.deferred =
          [(5, .read i (onePort (iOut w)) m)] from congrArg (fun l => l ++ [(5, SlotAccess.read i (onePort (iOut w)) m)]) hleft] at hgives
      · rw [hbeat.frame]
        rfl

end Sys2Proof.Claims
end

section
/-! SUPPORT. Queue control, RUN, QCNT and LDG of an S tile (R147, R152 to R156). -/

namespace Sys2Proof.Claims

open Sys2Proof Sys2Proof.Machine

/-! ## Control operations (R147) -/

section
variable (f : Queue → Queue) (s : State) (g : GridTile) (w : BitVec 64) (ts : List (Nat × Token))

theorem ctlPlan_s : (ctlPlan f s g w ts).g = { g with s := (ctlPlan f s g w ts).g.s } := by
  simp only [ctlPlan]
  split <;> rfl

theorem ctlPlan_store : (ctlPlan f s g w ts).g.s.store = g.s.store := by
  simp only [ctlPlan]
  split <;> rfl

theorem ctlPlan_queue (r : Nat) :
    (ctlPlan f s g w ts).g.queue r = if r = instrQueue w then f (g.queue (instrQueue w)) else g.queue r := by
  have hset := setQueue_queue g (instrQueue w) r (f (g.queue (instrQueue w)))
  simp only [ctlPlan]
  split <;> exact hset

end

/-- A control operation moves its queue's pointers, both copies alike, and touches nothing else. -/
theorem ctl_moves {s : State} {t : Fin 1024} {opc : Nat} {ready : State → GridTile → BitVec 64 → Bool}
    {plan : State → GridTile → BitVec 64 → List (Nat × Token) → Plan} (f : Ptrs → Ptrs) (hstands : Stands s t .s opc) (hquota : quotaMet s t)
    (hwhole : QueuesWhole (s.tile t))
    (hready : ∀ s1 g1, SameBut (s.tile t) g1 → ready s1 g1 (s.tile t).instr = true)
    (hp : ∀ s1 g1 ts, SameBut (s.tile t) g1 →
      plan s1 g1 (s.tile t).instr ts = ctlPlan (fun x => bothPtrs x f) s1 g1 (s.tile t).instr ts) :
    let q := instrQueue (s.tile t).instr
    let s' := sCore s t opc oneQueue ready queueConst plan
    Fired s s' t [] ∧ ((s'.tile t).queue q).a = f ((s.tile t).queue q).a ∧ ((s'.tile t).queue q).b = f ((s.tile t).queue q).b ∧
      (∀ r, r ≠ q → (s'.tile t).queue r = (s.tile t).queue r) ∧ (s'.tile t).s.store = (s.tile t).s.store := by
  intro q s'
  have hbeat := atBeat_sameBut hwhole.served (s := s) (rank := 5) (qs := oneQueue (s.tile t) (s.tile t).instr)
  have hnoted := hbeat.noteRank 5
  have hplan := hp (coreState s t (oneQueue (s.tile t) (s.tile t).instr)) _ (firing s t) hnoted
  have hqueue := ctlPlan_queue (fun x => bothPtrs x f) (coreState s t (oneQueue (s.tile t) (s.tile t).instr))
    (noteRank (atBeat s t 5 (oneQueue (s.tile t) (s.tile t).instr)) 5) (s.tile t).instr (firing s t)
  obtain ⟨hfired, hs⟩ := sCore_sPlan (consts := queueConst) (out := []) hstands hquota hwhole (hready _ _ hbeat) hplan
    ⟨⟨_, rfl, keepsCore_of_s (ctlPlan_s _ _ _ _ _), fun r => by
      rw [hqueue]
      split
      · exact ptrDiff_bothPtrs (copies_atBeat hwhole _ _) f
      · exact copies_atBeat hwhole _ r⟩, rfl, rfl, rfl, rfl⟩
  have hafter : ∀ r, (s'.tile t).queue r = if r = q then bothPtrs ((s.tile t).queue q) f else (s.tile t).queue r := by
    intro r
    rw [GridTile.queue, hs]
    exact (hqueue r).trans (by rw [hnoted.queue, hnoted.queue])
  refine ⟨hfired, ?_, ?_, fun r hr => (hafter r).trans (if_neg hr), ?_⟩
  · rw [hafter, if_pos rfl]
    rfl
  · rw [hafter, if_pos rfl]
    rfl
  · rw [hs, ctlPlan_store, hnoted.frame]

/-! ## RUN (R152 to R155) -/

section
variable {g g' : GridTile} (h : SameBut g g') (w : BitVec 64)
include h

theorem SameBut.agWords : Machine.agWords g' w = Machine.agWords g w := by rw [h.frame]; rfl
theorem SameBut.runIdx : Machine.runIdx g' w = Machine.runIdx g w := by rw [h.frame]; rfl
theorem SameBut.agSlot (x : Ag) (off : Int) : Machine.agSlot g' x off = Machine.agSlot g x off := by rw [h.frame]; rfl
theorem SameBut.cur : g'.cur = g.cur := by rw [h.frame]
theorem SameBut.queues : g'.s.queues = g.s.queues := by rw [h.frame]

theorem SameBut.coreMark {s s1 : State} (hs : TilesOnly s s1) (ts : List (Nat × Token)) : Machine.coreMark s1 g' ts = Machine.coreMark s g ts := by
  rw [hs, h.frame]
  rfl

theorem SameBut.sRoom {s s1 : State} (hs : TilesOnly s s1) : Machine.sRoom s1 g' w = Machine.sRoom s g w := by
  rw [hs, h.frame]
  rfl

theorem SameBut.runReady {s s1 : State} (hs : TilesOnly s s1) : Machine.runReady s1 g' w = Machine.runReady s g w := by
  rw [hs, h.frame]
  rfl

end

/-- The nest advances and the tokens are given in either order. -/
theorem runAdvance_produce (w : BitVec 64) (idx : List Nat) (x : Ag) (g : GridTile) (out : List (Nat × List Token)) :
    runAdvance w idx x (produce g out) = produce (runAdvance w idx x g) out := by
  rw [runAdvance, produce_s]
  exact (produce_setS g _ out).symm

/-- A RUN that is ready and whose plan accesses its slot: the firing, and the S state of the plan. -/
theorem runFire_effect {s : State} {t : Fin 1024} {g1 : GridTile} {out out' : List (Nat × List Token)} {idx : List Nat} {x : Ag}
    (hstands : Stands s t .s 3) (hquota : quotaMet s t) (hwhole : QueuesWhole (s.tile t))
    (hready : runReady s (s.tile t) (s.tile t).instr = true)
    (hp : runPlan (coreState s t (runQueues (s.tile t) (s.tile t).instr)) (noteRank (atBeat s t 5 (runQueues (s.tile t) (s.tile t).instr)) 5)
      (s.tile t).instr (firing s t) = { g := runAdvance (s.tile t).instr idx x (produce g1 out), out := out' })
    (hkeep : KeepsCore (noteRank (atBeat s t 5 (runQueues (s.tile t) (s.tile t).instr)) 5) g1) (hqueues : g1.s.queues = (s.tile t).s.queues) :
    Fired s (runFire s t) t (out ++ out') ∧ ((runFire s t).tile t).s = (runAdvance (s.tile t).instr idx x g1).s := by
  have hbeat := atBeat_sameBut hwhole.served (s := s) (rank := 5) (qs := runQueues (s.tile t) (s.tile t).instr)
  obtain ⟨hfired, hs⟩ := sCore_sPlan (qs := runQueues) (plan := runPlan) (ready := runReady) (consts := runConsts) (out := out) hstands hquota
    hwhole ((hbeat.runReady _ (inBeat_tilesOnly hwhole.served)).trans hready) hp
    ⟨⟨runAdvance (s.tile t).instr idx x g1, runAdvance_produce _ _ _ _ _, hkeep.setS _, fun r => by
      have hq : (runAdvance (s.tile t).instr idx x g1).queue r = (s.tile t).queue r := by
        rw [GridTile.queue, GridTile.queue, ← hqueues]
        rfl
      rw [hq]
      exact hwhole.copies r⟩, rfl, rfl, rfl, rfl⟩
  refine ⟨hfired, hs.trans ?_⟩
  rw [runAdvance_produce, produce_s]

section
variable {s s1 : State} {g0 g : GridTile} {w : BitVec 64} {l : List Nat} {ts : List (Nat × Token)} (hbeat : SameBut g0 g) (hs : TilesOnly s s1)
  (hl : agWords g0 w = some l) (hok : agRefused w (Ag.ofWords l) = false)
include hbeat hs hl hok

/-- The plan of a RUN outside its extent. -/
theorem runPlan_outside (hoff : agOffset (Ag.ofWords l) (runIdx g0 w) = none) :
    runPlan s1 g w ts = { g := runAdvance w (runIdx g0 w) (Ag.ofWords l) g
                          out := if (Ag.ofWords l).wr then [] else [(onePort (iOut w), [mkToken 0 (coreMark s g0 ts) g0.cur 0])] } := by
  simp only [runPlan, hbeat.agWords, hl, hok, hbeat.runIdx, hbeat.coreMark hs, hbeat.cur, hoff]
  rfl

/-- The plan of a RUN that addresses its slot. -/
theorem runPlan_inside {off : Int} {i : Nat} (hoff : agOffset (Ag.ofWords l) (runIdx g0 w) = some off)
    (hslot : agSlot g0 (Ag.ofWords l) off = .ok i) :
    runPlan s1 g w ts =
      if (Ag.ofWords l).wr then
        accessPlan g (.write i (storedTok w (tokAt ts (onePort (iIn w))))) (runAdvance w (runIdx g0 w) (Ag.ofWords l))
      else accessPlan g (.read i (onePort (iOut w)) (coreMark s g0 ts)) (runAdvance w (runIdx g0 w) (Ag.ofWords l)) := by
  simp only [runPlan, hbeat.agWords, hl, hok, hbeat.runIdx, hbeat.coreMark hs, hbeat.agSlot, hoff, hslot]
  rfl

end

/-! ## QCNT and LDG (R155, R156) -/

theorem copies_of_queues {g g' : GridTile} (h : g'.s.queues = g.s.queues) (hcopies : ∀ r, ptrDiff (g.queue r) = none) (r : Nat) :
    ptrDiff (g'.queue r) = none := by
  rw [GridTile.queue, h]
  exact hcopies r

theorem ldgPlan_s (s : State) (g : GridTile) (w : BitVec 64) (ts : List (Nat × Token)) :
    (ldgPlan s g w ts).g = { g with s := (ldgPlan s g w ts).g.s } ∧ (ldgPlan s g w ts).g.s.queues = g.s.queues := by
  simp only [ldgPlan]
  exact ⟨trivial, by split <;> rfl⟩

theorem qcntFire_effect {s : State} {t : Fin 1024} (hstands : Stands s t .s 9) (hquota : quotaMet s t) (hwhole : QueuesWhole (s.tile t))
    (hroom : sRoom s (s.tile t) (s.tile t).instr = true) :
    let w := (s.tile t).instr
    Fired s (qcntFire s t) t [(onePort (iOut w), [mkToken (mkPayload 16 (qcntLanes ((s.tile t).queue (instrQueue w)) ((s.tile t).qdesc
      (instrQueue w)))) (coreMark s (s.tile t) (firing s t)) (s.tile t).cur 0])] := by
  intro w
  have hbeat := atBeat_sameBut hwhole.served (s := s) (rank := 5) (qs := [instrQueue w])
  have hnoted := hbeat.noteRank 5
  have hready := (hbeat.sRoom w (inBeat_tilesOnly hwhole.served (rank := 5) (qs := [instrQueue w]))).trans hroom
  have hp : qcntPlan (coreState s t [instrQueue w]) (noteRank (atBeat s t 5 [instrQueue w]) 5) w (firing s t) =
      { g := noteRank (atBeat s t 5 [instrQueue w]) 5
        out := [(onePort (iOut w), [mkToken (mkPayload 16 (qcntLanes ((s.tile t).queue (instrQueue w)) ((s.tile t).qdesc (instrQueue w))))
          (coreMark s (s.tile t) (firing s t)) (s.tile t).cur 0])] } := by
    simp only [qcntPlan, hnoted.coreMark (coreState_tilesOnly hwhole.served), hnoted.queue, hnoted.qdesc, hnoted.cur]
  exact (sCore_sPlan (qs := oneQueue) (plan := qcntPlan) (consts := queueConst) (ready := sRoom) (out := []) hstands hquota hwhole hready hp
    ⟨⟨_, rfl, keepsCore_of_s rfl, copies_atBeat hwhole _⟩, rfl, rfl, rfl, rfl⟩).1

theorem ldgFire_effect {s : State} {t : Fin 1024} (hstands : Stands s t .s 10) (hquota : quotaMet s t) (hwhole : QueuesWhole (s.tile t)) :
    Fired s (ldgFire s t) t [] ∧
      ((ldgFire s t).tile t).s = (ldgPlan s (noteRank (atBeat s t 5 []) 5) (s.tile t).instr (firing s t)).g.s := by
  obtain ⟨hframe, hqueues⟩ := ldgPlan_s s (noteRank (atBeat s t 5 []) 5) (s.tile t).instr (firing s t)
  refine sCore_sPlan (qs := noQueue) (plan := ldgPlan) (consts := fun _ _ => []) (ready := always) (out := []) hstands hquota hwhole rfl rfl
    ⟨⟨_, rfl, keepsCore_of_s hframe, fun r => ?_⟩, rfl, rfl, rfl, rfl⟩
  exact copies_of_queues hqueues (copies_atBeat hwhole []) r

/-- Settles O17: each control operation moves its queue's pointers, a RUN accesses its slot or lies outside its extent, QCNT reads the counts
and LDG stages its words. -/
theorem queueControl : Obligations.QueueControl := by
  constructor
  · intro s t hquota hwhole w q x d moves
    have hctl : ∀ (c : Instr) (opc : Nat) (ready : State → GridTile → BitVec 64 → Bool)
        (plan : State → GridTile → BitVec 64 → List (Nat × Token) → Plan) (f : Ptrs → Ptrs), Stands s t .s opc →
        exec c s = .next (sCore s t opc oneQueue ready queueConst plan) →
        (∀ s1 g1, SameBut (s.tile t) g1 → ready s1 g1 w = true) →
        (∀ s1 g1 ts, SameBut (s.tile t) g1 → plan s1 g1 w ts = ctlPlan (fun x => bothPtrs x f) s1 g1 w ts) → moves c f := by
      intro c opc ready plan f hstands hexec hready hp
      exact ⟨_, hexec, ctl_moves f hstands hquota hwhole hready hp⟩
    refine ⟨fun h => hctl _ 4 always _ (fun p => { p with mp := p.rp, mv := true }) h rfl (fun _ _ _ => rfl) fun _ _ _ _ => rfl,
      fun h => hctl _ 5 always _ (fun p => { p with mv := false }) h rfl (fun _ _ _ => rfl) fun _ _ _ _ => rfl,
      fun h hmv => hctl _ 6 always rewindPlan (fun p => { p with rp := p.mp }) h rfl (fun _ _ _ => rfl) fun s1 g1 ts hb => ?_,
      fun h hn => hctl _ 7 _ skipPlan
        (fun p => { p with rp := p.rp + BitVec.ofNat 24 (instrN w), fp := if qRet d then p.fp else p.rp + BitVec.ofNat 24 (instrN w) }) h rfl (fun s1 g1 hb => ?_) fun s1 g1 ts hb => ?_,
      fun h hn => hctl _ 8 always releasePlan (fun p => { p with fp := if p.mv then p.mp else p.rp }) h rfl (fun _ _ _ => rfl) fun s1 g1 ts hb => ?_,
      fun h hn hlim => hctl _ 8 always releasePlan (fun p => { p with fp := p.fp + BitVec.ofNat 24 (instrN w) }) h rfl (fun _ _ _ => rfl) fun s1 g1 ts hb => ?_⟩
    · exact if_pos (by rw [hb.queue]; exact hmv)
    · rw [hb.queue]
      exact decide_eq_true hn
    · rw [skipPlan, hb.qdesc]
      rfl
    · exact if_pos hn
    · have hlim' : instrN w ≤ dist (releaseLimit (g1.queue (instrQueue w)).a) (g1.queue (instrQueue w)).a.fp := by
        rw [hb.queue]
        exact hlim
      simp only [releasePlan, if_neg hn, if_pos hlim']
  · intro s t hquota hwhole g w
    refine ⟨?_, fun hstands hroom => ⟨qcntFire s t, rfl, qcntFire_effect hstands hquota hwhole hroom⟩, ?_⟩
    · intro hstands hready l hl hok x idx m free u gives
      have hbeat : SameBut g (noteRank (atBeat s t 5 (runQueues g w)) 5) := (atBeat_sameBut hwhole.served).noteRank 5
      have hs : TilesOnly s (coreState s t (runQueues g w)) := coreState_tilesOnly hwhole.served
      have hleft : (noteRank (atBeat s t 5 (runQueues g w)) 5).s.deferred = [] := hbeat.deferred.trans hwhole.served
      have hgives : ∀ (g1 : GridTile) (out out' : List (Nat × List Token)) (left : List (Nat × SlotAccess)) (st : Nat → Slot),
          runPlan (coreState s t (runQueues g w)) (noteRank (atBeat s t 5 (runQueues g w)) 5) w (firing s t) =
            { g := runAdvance w idx x (produce g1 out), out := out' } →
          KeepsCore (noteRank (atBeat s t 5 (runQueues g w)) 5) g1 → g1.s.queues = g.s.queues → g1.s.deferred = left →
          (∀ j, slotAt g1 j = st j) → gives (out ++ out') left st := by
        intro g1 out out' left st hp hkeep hqueues hdeferred hst
        obtain ⟨hfired, hrun⟩ := runFire_effect hstands hquota hwhole hready hp hkeep hqueues
        refine ⟨runFire s t, rfl, hfired, ?_⟩
        have hslot : ∀ j, slotAt ((runFire s t).tile t) j = st j := by
          intro j
          rw [slotAt, hrun]
          exact hst j
        rw [hrun]
        exact ⟨rfl, rfl, hqueues, hdeferred, hslot⟩
      constructor
      · intro hoff
        exact hgives (noteRank (atBeat s t 5 (runQueues g w)) 5) [] _ [] _ (runPlan_outside hbeat hs hl hok hoff) (keepsCore_of_s rfl)
          hbeat.queues hleft hbeat.slotAt
      · intro off i hoff hslot
        have hp := runPlan_inside (ts := firing s t) hbeat hs hl hok hoff hslot
        have hlater : ∀ a : SlotAccess, ¬ bankFree (atBeat s t 5 (runQueues g w)) (accessSlot a) →
            runPlan (coreState s t (runQueues g w)) (noteRank (atBeat s t 5 (runQueues g w)) 5) w (firing s t) =
              accessPlan (noteRank (atBeat s t 5 (runQueues g w)) 5) a (runAdvance w idx x) → gives [] [(5, a)] (slotAt g) := by
          intro a hbusy hpa
          exact hgives (leaveOver (noteRank (atBeat s t 5 (runQueues g w)) 5) 5 a) [] [] _ _
            (hpa.trans (accessPlan_busy (runAdvance w idx x) hbusy)) (keepsCore_of_s rfl) hbeat.queues
            (congrArg (fun l => l ++ [(5, a)]) hleft) hbeat.slotAt
        refine ⟨fun hwr hfree hslotOk => ?_, fun hwr hbusy => ?_, fun hwr hfree => ?_, fun hwr hbusy => ?_⟩
        · have hread := accessPlan_read (g := noteRank (atBeat s t 5 (runQueues g w)) 5) (k := onePort (iOut w)) (m := m) (runAdvance w idx x) hfree
            ((congrArg slotOk (hbeat.slotAt i)).trans hslotOk)
          rw [hbeat.slotAt, hbeat.cur] at hread
          exact hgives (useBank (noteRank (atBeat s t 5 (runQueues g w)) 5) i) _ [] [] _ ((hp.trans (if_neg (Bool.eq_false_iff.mp hwr))).trans hread)
            (keepsCore_of_s rfl) hbeat.queues hleft hbeat.slotAt
        · exact hlater _ hbusy (hp.trans (if_neg (Bool.eq_false_iff.mp hwr)))
        · have hwrite := accessPlan_write (g := noteRank (atBeat s t 5 (runQueues g w)) 5) (runAdvance w idx x) i u
          rw [claim_write_free (g := noteRank (atBeat s t 5 (runQueues g w)) 5) hfree] at hwrite
          refine hgives (putSlot (useBank (noteRank (atBeat s t 5 (runQueues g w)) 5) i) i u) [] [] [] _ ((hp.trans (if_pos hwr)).trans hwrite)
            (keepsCore_of_s rfl) hbeat.queues hleft fun j => (slotAt_putSlot _ i j u).trans ?_
          rw [← hbeat.slotAt j]
          rfl
        · exact hlater _ hbusy (hp.trans (if_pos hwr))
    · intro hstands u st
      obtain ⟨hfired, hs⟩ := ldgFire_effect hstands hquota hwhole
      have hbeat : SameBut g (noteRank (atBeat s t 5 []) 5) := (atBeat_sameBut hwhole.served).noteRank 5
      have hcore : (noteRank (atBeat s t 5 []) 5).rep = g.rep ∧ (noteRank (atBeat s t 5 []) 5).s.staging = g.s.staging ∧
          (noteRank (atBeat s t 5 []) 5).s.streamed = g.s.streamed := by
        rw [hbeat.frame]
        exact ⟨rfl, rfl, rfl⟩
      obtain ⟨hsame, hstaging, hstreamed⟩ := hcore
      refine ⟨ldgFire s t, rfl, hfired, fun hrep => ?_, fun hrep => ?_⟩
      · rw [hs]
        simp only [ldgPlan, hsame, hstaging, hrep, if_true, st, u, g, w]
        exact ⟨trivial, trivial, trivial⟩
      · rw [hs]
        simp only [ldgPlan, hsame, hstaging, hrep, if_false, hstreamed, st, u, g, w]
        exact ⟨trivial, trivial⟩

end Sys2Proof.Claims
end

section
/-! SUPPORT. Faults of a firing that abort the task (R58, R160). -/

namespace Sys2Proof.Claims

open Sys2Proof Sys2Proof.Machine

/-! ## Faults of weight -/

theorem event_keeps_aborted {s : State} (h : s.pace.state = .aborted) (c : Nat) (a : EvArgs) : (event s c a).pace.state = .aborted := by
  rcases Nat.lt_or_ge (evSev c) 2 with hlow | hhigh
  · rw [event_low s c a hlow]
    exact h
  · exact event_aborts s c a hhigh

theorem mem_insertBy {α : Type} (key : α → Nat) (x y : α) (l : List α) : y ∈ insertBy key x l ↔ y = x ∨ y ∈ l := by
  induction l with
  | nil => simp [insertBy]
  | cons z r ih =>
    simp only [insertBy]
    split <;> simp [ih, or_left_comm]

theorem mem_sortBy {α : Type} (key : α → Nat) (y : α) (l : List α) : y ∈ sortBy key l ↔ y ∈ l := by
  induction l with
  | nil => simp [sortBy]
  | cons x r ih => simp [sortBy, mem_insertBy, ih]

theorem foldl_tileEvents_aborts {fs : List FireFault} (t n : Nat) {s : State}
    (h : s.pace.state = .aborted ∨ ∃ f ∈ fs, 2 ≤ evSev f.code) :
    (fs.foldl (fun s f => tileEvent s t f.code f.addr f.d0 f.d1 (faultCount (s.tile t) n f.code) f.more) s).pace.state = .aborted := by
  induction fs generalizing s with
  | nil => exact h.resolve_right (by simp)
  | cons f r ih =>
    refine ih ?_
    rcases h with hs | ⟨x, hx, hsev⟩
    · exact .inl (event_keeps_aborted hs _ _)
    · rcases List.mem_cons.mp hx with rfl | hr
      · exact .inl (event_aborts _ _ _ hsev)
      · exact .inr ⟨x, hr, hsev⟩

/-- A firing with a fault of weight among its faults aborts the task. -/
theorem raiseFaults_aborts {fs : List FireFault} (h : ∃ f ∈ fs, 2 ≤ evSev f.code) (s : State) (t n : Nat) :
    (raiseFaults s t n fs).pace.state = .aborted := by
  obtain ⟨f, hf, hsev⟩ := h
  exact foldl_tileEvents_aborts t n (.inr ⟨f, (mem_sortBy _ f fs).mpr hf, hsev⟩)

/-- A core that can fire and whose plan finds a fault of weight aborts the task, with every tile as it was. -/
theorem fire_aborts {s : State} {t : Nat} {k : Kind} {opc : Nat} {ready : GridTile → BitVec 64 → Bool}
    {consts : GridTile → BitVec 64 → List Nat} {plan : State → GridTile → BitVec 64 → List (Nat × Token) → Plan}
    (hcan : canFire s t k opc = true) (hready : ready (s.tile t) (s.tile t).instr = true) (hwords : ∀ i, mget 0 (s.tile t).health i = 0)
    (hfault : ∃ f ∈ (plan s (s.tile t) (s.tile t).instr (heads (s.tile t) (s.tile t).instr)).faults, 2 ≤ evSev f.code) :
    (fire s t k opc ready consts plan).pace.state = .aborted ∧ (fire s t k opc ready consts plan).tiles = s.tiles := by
  obtain ⟨f, hf, hsev⟩ := hfault
  rw [fire_ready s t k opc ready consts plan hcan hready hwords]
  unfold commitFiring
  dsimp only
  rw [if_neg (by simp only [List.isEmpty_iff]; exact List.ne_nil_of_mem (a := f) (by simp [hf]))]
  exact ⟨raiseFaults_aborts ⟨f, by simp [hf], hsev⟩ _ _ _, raiseFaults_tiles _ _ _ _⟩

/-! ## Loads and scales (R108, R109, R124) -/

theorem iOpc_of_canFire {s : State} {t : Fin 1024} {k : Kind} {opc : Nat} (h : canFire s t k opc = true) : iOpc (s.tile t).instr = opc := by
  simp only [canFire, Bool.and_eq_true, beq_iff_eq] at h
  exact h.1.2

/-- A channel-mode load beyond its channels, or with a token of another tag, has a fault of weight. -/
theorem loadFault_of_outside {g : GridTile} {w : BitVec 64} {d : MDesc} {u : Token} (hchan : loadChannel w = true)
    (h : d.nch ≤ mget 0 g.m.kc d.ksel ∨ ∃ r, mget none g.m.tag d.ksel = some r ∧ r ≠ u.bseq) (addr : Nat) :
    ∃ f ∈ counterFaults g w d addr ++ tagFaults g w d u, 2 ≤ evSev f.code := by
  rcases h with hcount | ⟨r, hr, hne⟩
  · refine ⟨{ code := 0x0408, addr := addr, d0 := d.ksel, d1 := mget 0 g.m.kc d.ksel }, ?_, show 2 ≤ evSev 0x0408 by decide⟩
    simp [counterFaults, hchan, hcount]
  · refine ⟨{ code := 0x0601, d0 := r.toNat, d1 := u.bseq.toNat }, ?_, show 2 ≤ evSev 0x0601 by decide⟩
    simp [tagFaults, hchan, hr, hne]

theorem skewFault_of_other {rt : Option (BitVec 4)} {b : BitVec 4} (h : rt ≠ some b) : ∃ f ∈ skewFault rt b, 2 ≤ evSev f.code := by
  cases rt with
  | none => exact ⟨_, List.mem_singleton.mpr rfl, show 2 ≤ evSev 0x0601 by decide⟩
  | some r =>
    have hne : r ≠ b := fun hrb => h (congrArg some hrb)
    exact ⟨{ code := 0x0601, d0 := r.toNat, d1 := b.toNat }, by simp [skewFault, hne], show 2 ≤ evSev 0x0601 by decide⟩

/-! ## S tiles (R137, R147, R154, R155) -/

/-- A core operation on whole queues whose plan finds a fault of weight aborts the task; its tile keeps all but what its beat changed. -/
theorem sCore_aborts {s : State} {t : Fin 1024} {opc : Nat} {qs : GridTile → BitVec 64 → List Nat}
    {ready : State → GridTile → BitVec 64 → Bool} {consts : GridTile → BitVec 64 → List Nat}
    {plan : State → GridTile → BitVec 64 → List (Nat × Token) → Plan} (hstands : Stands s t .s opc) (hwhole : QueuesWhole (s.tile t))
    (hready : ready (inBeat s t 5 (qs (s.tile t) (s.tile t).instr)) (atBeat s t 5 (qs (s.tile t) (s.tile t).instr)) (s.tile t).instr = true)
    (hfault : ∀ s1 g1, SameBut (s.tile t) g1 → g1 = noteRank (atBeat s t 5 (qs (s.tile t) (s.tile t).instr)) 5 →
      ∃ f ∈ (plan s1 g1 (s.tile t).instr (firing s t)).faults, 2 ≤ evSev f.code) :
    (sCore s t opc qs ready consts plan).pace.state = .aborted ∧ SameBut (s.tile t) ((sCore s t opc qs ready consts plan).tile t) := by
  have hserved := hwhole.served
  rw [sCore_eq_fire consts plan hstands.canFire hwhole hready]
  generalize hs1 : coreState s t (qs (s.tile t) (s.tile t).instr) = s1
  have hbeat : SameBut (s.tile t) (s1.tile t) := hs1 ▸ coreState_sameBut hserved
  have hstands1 : Stands s1 t .s opc := hs1 ▸ coreState_stands hserved hstands
  have htile : s1.tile t = noteRank (atBeat s t 5 (qs (s.tile t) (s.tile t).instr)) 5 := hs1 ▸ coreState_tile _
  obtain ⟨haborted, htiles⟩ := fire_aborts (ready := fun _ _ => true) (consts := consts) (plan := plan) hstands1.canFire rfl hstands1.words (by
    rw [hbeat.instr, hbeat.heads]
    exact hfault s1 _ hbeat htile)
  have hsame : (fire s1 t .s opc (fun _ _ => true) consts plan).tile t = s1.tile t := by
    unfold State.tile
    rw [htiles]
  exact ⟨haborted, hsame ▸ hbeat⟩

/-- A read of a slot that fails its check is a fault of weight. -/
theorem accessPlan_badSlot {g : GridTile} (f : GridTile → GridTile) {i k : Nat} {m : Marker} (h : bankFree g i) (hbad : slotOk (slotAt g i) = false) :
    accessPlan g (.read i k m) f = { g := g, faults := [{ code := 0x0501, addr := i, d0 := i, d1 := slotBank i }] } := by
  have hclaim : claim g 5 (.read i k m) = (useBank g i, some i) := (if_pos h).trans (if_neg (Bool.eq_false_iff.mp hbad))
  simp only [accessPlan, hclaim]

/-- A RUN whose descriptor is absent or malformed, or whose slot lies beyond its bounds, has a fault of weight. -/
theorem runPlan_faulty (s : State) {g0 g : GridTile} (hbeat : SameBut g0 g) {w : BitVec 64} (ts : List (Nat × Token))
    (h : agWords g0 w = none ∨ ∃ l, agWords g0 w = some l ∧ (agRefused w (Ag.ofWords l) = true ∨
      ∃ off o, agOffset (Ag.ofWords l) (runIdx g0 w) = some off ∧ agSlot g0 (Ag.ofWords l) off = .error o)) :
    ∃ f ∈ (runPlan s g w ts).faults, 2 ≤ evSev f.code := by
  rcases h with hnone | ⟨l, hl, hrefused | ⟨off, o, hoff, hslot⟩⟩
  · refine ⟨{ code := 0x0503 }, ?_, show 2 ≤ evSev 0x0503 by decide⟩
    simp [runPlan, hbeat.agWords, hnone]
  · refine ⟨{ code := 0x0503, d0 := (Ag.ofWords l).a, d1 := (Ag.ofWords l).b, more := l }, ?_, show 2 ≤ evSev 0x0503 by decide⟩
    simp [runPlan, hbeat.agWords, hl, hrefused]
  · by_cases hrefused : agRefused w (Ag.ofWords l) = true
    · refine ⟨{ code := 0x0503, d0 := (Ag.ofWords l).a, d1 := (Ag.ofWords l).b, more := l }, ?_, show 2 ≤ evSev 0x0503 by decide⟩
      simp [runPlan, hbeat.agWords, hl, hrefused]
    · refine ⟨agFault (runDesc w) o (runIdx g0 w), ?_, show 2 ≤ evSev 0x0506 by decide⟩
      simp [runPlan, hbeat.agWords, hbeat.runIdx, hbeat.agSlot, hl, hrefused, hoff, hslot]

/-- A RELEASE beyond its limit has a fault of weight. -/
theorem releasePlan_faulty (s : State) {g : GridTile} {w : BitVec 64}
    (h : dist (releaseLimit (g.queue (instrQueue w)).a) (g.queue (instrQueue w)).a.fp < instrN w) (ts : List (Nat × Token)) :
    ∃ f ∈ (releasePlan s g w ts).faults, 2 ≤ evSev f.code := by
  have hn : instrN w ≠ 0 := Nat.ne_zero_of_lt h
  simp only [releasePlan, if_neg hn, if_neg (Nat.not_le.mpr h)]
  exact ⟨_, List.mem_singleton.mpr rfl, show 2 ≤ evSev 0x0505 by decide⟩

/-- Settles O18: each of these finds a fault of weight in its plan, which aborts the task before anything is written. -/
theorem fabricFaults : Obligations.FabricFaults := by
  refine ⟨?_, ?_, ?_, ?_⟩
  · intro s t hchan hwords g d b houtside
    refine ⟨fun hcan => ⟨ldcFire s t, rfl, ?_⟩, fun hcan => ⟨ldsFire s t, rfl, ?_⟩⟩
    · have hport : b = tokAt (firing s t) 1 := by rw [show b = tokAt (firing s t) _ from rfl, if_pos (iOpc_of_canFire hcan)]
      exact fire_aborts hcan rfl hwords (loadFault_of_outside hchan (hport ▸ houtside) _)
    · have hport : b = tokAt (firing s t) 3 := by
        rw [show b = tokAt (firing s t) _ from rfl, if_neg (by rw [iOpc_of_canFire hcan]; decide)]
      exact fire_aborts hcan rfl hwords (loadFault_of_outside hchan (hport ▸ houtside) _)
  · intro s t hwords g
    refine ⟨fun hcan hrep hrt => ⟨dscFire s t, rfl, ?_⟩, fun hcan hready hrt => ⟨deqFire s t, rfl, ?_⟩⟩
    · refine fire_aborts hcan rfl hwords ?_
      rw [show (dscPlan s g g.instr (heads g g.instr)).faults = skewFault g.q.rt _ from if_neg hrep]
      exact skewFault_of_other hrt
    · refine fire_aborts hcan hready hwords ?_
      obtain ⟨f, hf, hsev⟩ := skewFault_of_other hrt
      refine ⟨f, ?_, hsev⟩
      simp only [deqPlan]
      split <;> exact List.mem_append_left _ hf
  · intro s t h w q i havl hroom hbad hfree
    obtain ⟨hstands, hquota, hwhole⟩ := h
    have hbeat := atBeat_sameBut hwhole.served (s := s) (rank := 5) (qs := [q])
    have hpop : canPop (atBeat s t 5 [q]) q = true := by
      rw [canPop, hbeat.queue, hwhole.thawed, decide_eq_true havl]
      rfl
    have hready : (canPop (atBeat s t 5 [q]) q && Machine.sRoom (inBeat s t 5 [q]) (atBeat s t 5 [q]) w) = true := by
      rw [hpop, hbeat.sRoom w (inBeat_tilesOnly hwhole.served), hroom]
      rfl
    have hfault : ∀ s1 g1, SameBut (s.tile t) g1 → g1 = noteRank (atBeat s t 5 [q]) 5 →
        ∃ f ∈ (popPlan s1 g1 w (firing s t)).faults, 2 ≤ evSev f.code := by
      intro s1 g1 hg1 hat
      have hplace : qSlot (g1.qdesc q) (g1.queue q).a.rp = i := by rw [hg1.qdesc, hg1.queue]
      have hslot : slotOk (slotAt g1 i) = false := by rw [hg1.slotAt, hbad]
      have hbank : bankFree g1 i := by
        rw [hat]
        exact hfree
      refine ⟨{ code := 0x0501, addr := i, d0 := i, d1 := slotBank i }, ?_, show 2 ≤ evSev 0x0501 by decide⟩
      simp only [popPlan, show instrQueue w = q from rfl, hplace]
      rw [accessPlan_badSlot _ hbank hslot]
      exact List.mem_singleton.mpr rfl
    obtain ⟨haborted, hsame⟩ := sCore_aborts (qs := oneQueue) (consts := queueConst) (plan := popPlan)
      (ready := fun s g w => canPop g (instrQueue w) && Machine.sRoom s g w) hstands hwhole hready hfault
    refine ⟨popFire s t, rfl, haborted, ?_⟩
    rw [show (popFire s t).tile t = _ from hsame.frame]
    exact ⟨rfl, rfl, rfl⟩
  · intro s t hquota hwhole w x
    refine ⟨fun hstands hready hbad => ⟨runFire s t, rfl, ?_⟩, fun hstands hmv => ⟨rewindFire s t, rfl, ?_⟩,
      fun hstands hlim => ⟨releaseFire s t, rfl, ?_⟩⟩
    · have hbeat := atBeat_sameBut hwhole.served (s := s) (rank := 5) (qs := runQueues (s.tile t) w)
      obtain ⟨haborted, hsame⟩ := sCore_aborts (qs := runQueues) (consts := runConsts) (plan := runPlan) (ready := runReady) hstands hwhole
        ((hbeat.runReady w (inBeat_tilesOnly hwhole.served)).trans hready) fun s1 g1 hg1 _ => runPlan_faulty s1 hg1 _ hbad
      refine ⟨haborted, ?_⟩
      rw [show (runFire s t).tile t = _ from hsame.frame]
      exact ⟨rfl, rfl, rfl, rfl⟩
    · obtain ⟨haborted, hsame⟩ := sCore_aborts (qs := oneQueue) (consts := queueConst) (plan := rewindPlan) (ready := always) hstands hwhole rfl
        fun s1 g1 hg1 _ => ⟨{ code := 0x0504, d0 := instrQueue w }, by
          rw [rewindPlan, if_neg (by rw [hg1.queue]; exact Bool.eq_false_iff.mp hmv)]
          exact List.mem_singleton.mpr rfl, show 2 ≤ evSev 0x0504 by decide⟩
      refine ⟨haborted, ?_⟩
      rw [show (rewindFire s t).tile t = _ from hsame.frame]
    · obtain ⟨haborted, hsame⟩ := sCore_aborts (qs := oneQueue) (consts := queueConst) (plan := releasePlan) (ready := always) hstands hwhole rfl
        fun s1 g1 hg1 _ => releasePlan_faulty s1 (by rw [hg1.queue]; exact hlim) _
      refine ⟨haborted, ?_⟩
      rw [show (releaseFire s t).tile t = _ from hsame.frame]

end Sys2Proof.Claims
end

section
/-! SUPPORT. The accesses that an S tile's beat leaves over (R139). -/

namespace Sys2Proof.Claims

open Sys2Proof Sys2Proof.Machine

/-! ## Accesses one after another -/

/-- How many of some accesses are to a bank. -/
def bankCount (l : List (Nat × SlotAccess)) (b : Nat) : Nat := (l.filter fun y => slotBank (accessSlot y.2) == b).length

theorem bankCount_append (l r : List (Nat × SlotAccess)) (b : Nat) : bankCount (l ++ r) b = bankCount l b + bankCount r b := by
  simp [bankCount]

theorem bankCount_singleton (x : Nat × SlotAccess) (b : Nat) : bankCount [x] b = if slotBank (accessSlot x.2) = b then 1 else 0 := by
  simp only [bankCount, List.filter_cons, List.filter_nil, beq_iff_eq]
  split <;> rfl

section
variable {α β : Type}

/-- What the elements of a list give, each seen with the elements before it. -/
def prefixMap (f : List α → α → Option β) (l : List α) : List β := l.zipIdx.filterMap fun y => f (l.take y.2) y.1

theorem prefixMap_concat (f : List α → α → Option β) (l : List α) (x : α) : prefixMap f (l ++ [x]) = prefixMap f l ++ (f l x).toList := by
  unfold prefixMap
  rw [List.zipIdx_append, List.filterMap_append]
  congr 1
  · refine List.filterMap_congr fun y hy => ?_
    have hlt : y.2 < l.length := by simpa using List.snd_lt_of_mem_zipIdx hy
    rw [List.take_append_of_le_length hlt.le]
  · have htake : (l ++ [x]).take l.length = l := List.take_left
    simp only [List.zipIdx_cons, List.zipIdx_nil, Nat.zero_add, List.filterMap_cons, htake, List.filterMap_nil]
    cases f l x <;> rfl

theorem map_filter_zipIdx (p : List α → α → Bool) (l : List α) :
    ((l.zipIdx.filter fun y => p (l.take y.2) y.1).map (·.1)) = prefixMap (fun pre x => if p pre x then some x else none) l := by
  unfold prefixMap
  induction l.zipIdx with
  | nil => rfl
  | cons y r ih =>
    simp only [List.filter_cons, List.filterMap_cons]
    split
    · simp [*]
    · simp [*]

end

/-- The accesses that a beat serves, and those it leaves over, one access later. -/
theorem served_concat (l : List (Nat × SlotAccess)) (x : Nat × SlotAccess) :
    served (l ++ [x]) = served l ++ (if bankCount l (slotBank (accessSlot x.2)) < 2 then [x] else []) := by
  have h := fun l => map_filter_zipIdx (fun pre x : _ => decide (bankCount pre (slotBank (accessSlot x.2)) < 2)) l
  unfold served
  refine (h (l ++ [x])).trans ?_
  rw [prefixMap_concat]
  refine congrArg₂ _ (h l).symm ?_
  by_cases hc : bankCount l (slotBank (accessSlot x.2)) < 2 <;> simp [hc]

theorem leftOver_concat (l : List (Nat × SlotAccess)) (x : Nat × SlotAccess) :
    leftOver (l ++ [x]) = leftOver l ++ (if bankCount l (slotBank (accessSlot x.2)) < 2 then [] else [x]) := by
  have h := fun l => map_filter_zipIdx (fun pre x : _ => decide (2 ≤ bankCount pre (slotBank (accessSlot x.2)))) l
  unfold leftOver
  refine (h (l ++ [x])).trans ?_
  rw [prefixMap_concat]
  refine congrArg₂ _ (h l).symm ?_
  by_cases hc : bankCount l (slotBank (accessSlot x.2)) < 2
  · simp [hc, Nat.not_le.mpr hc]
  · simp [hc, Nat.le_of_not_lt hc]

/-- A bank serves all of its accesses, but no more than two (R139). -/
theorem bankCount_served (l : List (Nat × SlotAccess)) (b : Nat) : bankCount (served l) b = min 2 (bankCount l b) := by
  induction l using List.reverseRecOn with
  | nil => rfl
  | append_singleton l x ih =>
    rw [served_concat, bankCount_append, bankCount_append, bankCount_singleton, ih]
    by_cases hb : slotBank (accessSlot x.2) = b
    · subst hb
      split
      · rw [bankCount_singleton, if_pos rfl]
        omega
      · rw [show bankCount [] (slotBank (accessSlot x.2)) = 0 from rfl, if_pos rfl]
        omega
    · rw [if_neg hb]
      split
      · rw [bankCount_singleton, if_neg hb]
        rfl
      · rfl

theorem seenAt_nil (g : GridTile) (i : Nat) : seenAt g [] i = slotAt g i := rfl

theorem seenAt_read (g : GridTile) (l : List (Nat × SlotAccess)) (who i k : Nat) (m : Marker) (j : Nat) :
    seenAt g (l ++ [(who, .read i k m)]) j = seenAt g l j := by
  simp [seenAt]

theorem seenAt_write (g : GridTile) (l : List (Nat × SlotAccess)) (who i : Nat) (u : Token) (j : Nat) :
    seenAt g (l ++ [(who, .write i u)]) j = if j = i then { tok := u, chk := sideParity u } else seenAt g l j := by
  by_cases h : i = j
  · subst h
    simp [seenAt]
  · simp [seenAt, h, Ne.symm h]

theorem readTokens_write (g : GridTile) (l : List (Nat × SlotAccess)) (who i : Nat) (u : Token) (p : Nat) :
    readTokens g (l ++ [(who, .write i u)]) p = readTokens g l p := by
  have h := prefixMap_concat (fun pre (x : Nat × SlotAccess) => match x.2 with
    | .read i k m => if k = p then some { (seenAt g pre i).tok with ctx := g.cur, mark := m } else none
    | .write _ _ => none) l (who, .write i u)
  exact h.trans (List.append_nil _)

theorem readTokens_read (g : GridTile) (l : List (Nat × SlotAccess)) (who i k : Nat) (m : Marker) (p : Nat) :
    readTokens g (l ++ [(who, .read i k m)]) p =
      readTokens g l p ++ (if k = p then [{ (seenAt g l i).tok with ctx := g.cur, mark := m }] else []) := by
  have h := prefixMap_concat (fun pre (x : Nat × SlotAccess) => match x.2 with
    | .read i k m => if k = p then some { (seenAt g pre i).tok with ctx := g.cur, mark := m } else none
    | .write _ _ => none) l (who, .read i k m)
  refine h.trans (congrArg _ ?_)
  by_cases hk : k = p <;> simp [hk]

/-! ## The accesses served (R139) -/

/-- How a tile stands after the accesses of a list, those of them that its beat serves having taken place. -/
structure AfterAccesses (g g1 : GridTile) (l : List (Nat × SlotAccess)) : Prop where
  left : g1.s.deferred = leftOver l
  slots : ∀ i, slotAt g1 i = seenAt g (served l) i
  pipes : ∀ p, mget [] g1.pipe p = mget [] g.pipe p ++ readTokens g (served l) p
  banks : ∀ b, mget 0 g1.s.bankUse b = bankCount (served l) b
  queues : g1.s.queues = g.s.queues
  rank : g1.s.beatRank = 0
  cur : g1.cur = g.cur

/-- A beat that has served nothing yet. -/
theorem afterAccesses_nil (g : GridTile) :
    AfterAccesses g { g with s := { g.s with bankUse := [], pushedNow := [], freed := [], deferred := [], beatRank := 0 } } [] :=
  ⟨rfl, fun _ => rfl, fun _ => (List.append_nil _).symm, fun _ => rfl, rfl, rfl, rfl⟩

/-- One access more, whose slot, if it is read, passes its check. -/
theorem AfterAccesses.claim {g g1 : GridTile} {l : List (Nat × SlotAccess)} (h : AfterAccesses g g1 l) (who : Nat) (a : SlotAccess)
    (hok : bankCount l (slotBank (accessSlot a)) < 2 → ∀ i k m, a = .read i k m → slotOk (seenAt g (served l) i) = true) :
    AfterAccesses g (Machine.claim g1 who a).1 (l ++ [(who, a)]) ∧ (Machine.claim g1 who a).2 = none := by
  have hbank : bankFree g1 (accessSlot a) ↔ bankCount l (slotBank (accessSlot a)) < 2 := by
    rw [bankFree, h.banks, bankCount_served]
    omega
  by_cases hfree : bankCount l (slotBank (accessSlot a)) < 2
  · have hserved : served (l ++ [(who, a)]) = served l ++ [(who, a)] := by rw [served_concat, if_pos hfree]
    have hleft : leftOver (l ++ [(who, a)]) = leftOver l := by rw [leftOver_concat, if_pos hfree, List.append_nil]
    have huse : ∀ b, mget 0 (mset 0 g1.s.bankUse (slotBank (accessSlot a)) (mget 0 g1.s.bankUse (slotBank (accessSlot a)) + 1)) b =
        bankCount (served l ++ [(who, a)]) b := by
      intro b
      rw [mget_mset, bankCount_append, bankCount_singleton, h.banks, h.banks]
      by_cases hb : b = slotBank (accessSlot a)
      · simp [hb]
      · simp [hb, Ne.symm hb]
    cases a with
    | write i u =>
      rw [claim_write_free (i := i) (hbank.mpr hfree)]
      refine ⟨⟨hleft ▸ h.left, fun j => ?_, fun p => ?_, hserved ▸ huse, h.queues, h.rank, h.cur⟩, rfl⟩
      · rw [slotAt_putSlot, hserved, seenAt_write, ← h.slots]
        rfl
      · rw [hserved, readTokens_write]
        exact h.pipes p
    | read i k m =>
      have hslot : slotOk (slotAt g1 i) = true := by rw [h.slots, hok hfree i k m rfl]
      rw [claim_read_free (i := i) (hbank.mpr hfree) hslot]
      refine ⟨⟨hleft ▸ h.left, fun j => ?_, fun p => ?_, hserved ▸ huse, h.queues, h.rank, h.cur⟩, rfl⟩
      · rw [hserved, seenAt_read, ← h.slots]
        rfl
      · rw [produce_pipe, hserved, readTokens_read, show (useBank g1 i).pipe = g1.pipe from rfl, h.pipes p, h.slots, h.cur]
        by_cases hk : k = p <;> simp [hk]
  · have hserved : served (l ++ [(who, a)]) = served l := by rw [served_concat, if_neg hfree, List.append_nil]
    have hleft : leftOver (l ++ [(who, a)]) = leftOver l ++ [(who, a)] := by rw [leftOver_concat, if_neg hfree]
    rw [claim_busy fun hb => hfree (hbank.mp hb)]
    refine ⟨⟨?_, fun j => ?_, fun p => ?_, fun b => ?_, h.queues, h.rank, h.cur⟩, rfl⟩
    · rw [hleft, ← h.left]
      rfl
    · rw [hserved, ← h.slots]
      rfl
    · rw [hserved]
      exact h.pipes p
    · rw [hserved]
      exact h.banks b

theorem served_append (l r : List (Nat × SlotAccess)) : ∃ r', served (l ++ r) = served l ++ r' := by
  induction r using List.reverseRecOn with
  | nil => exact ⟨[], by simp⟩
  | append_singleton r x ih =>
    obtain ⟨r', hr⟩ := ih
    exact ⟨_, by rw [← List.append_assoc, served_concat, hr, List.append_assoc]⟩

/-- Every read that the beat serves finds its slot in order. -/
def ReadsPass (g : GridTile) (l : List (Nat × SlotAccess)) : Prop :=
  ∀ j who i k m, (served l)[j]? = some (who, .read i k m) → slotOk (seenAt g ((served l).take j) i) = true

/-- The accesses left over, served one after another. -/
theorem AfterAccesses.serveAll {g : GridTile} (r : List (Nat × SlotAccess)) {g1 : GridTile} {l : List (Nat × SlotAccess)}
    (h : AfterAccesses g g1 l) (hok : ReadsPass g (l ++ r)) :
    AfterAccesses g (Machine.serveAll g1 r).1 (l ++ r) ∧ (Machine.serveAll g1 r).2 = [] := by
  induction r generalizing g1 l with
  | nil => exact ⟨by rwa [List.append_nil], rfl⟩
  | cons x r ih =>
    obtain ⟨who, a⟩ := x
    have hassoc : l ++ (who, a) :: r = (l ++ [(who, a)]) ++ r := by simp
    obtain ⟨hnext, hnone⟩ := h.claim who a fun hfree i k m ha => by
      obtain ⟨r', hr⟩ := served_append (l ++ [(who, a)]) r
      rw [served_concat, if_pos hfree, ← hassoc] at hr
      have hread := hok (served l).length who i k m (by rw [hr, ha]; simp)
      rwa [hr, List.append_assoc, List.take_left] at hread
    rw [hassoc] at hok ⊢
    obtain ⟨hafter, hnil⟩ := ih hnext hok
    exact ⟨hafter, by simp only [Machine.serveAll, hnone, hnil]; rfl⟩

/-- A tile at the beginning of a beat that has served nothing yet. -/
def clearedBeat (g : GridTile) : GridTile :=
  { g with s := { g.s with bankUse := [], pushedNow := [], freed := [], deferred := [], beatRank := 0 } }

/-- A tile once its beat has served what was left over. -/
def servedBeat (g : GridTile) : GridTile :=
  { (serveAll (clearedBeat g) g.s.deferred).1 with s := { (serveAll (clearedBeat g) g.s.deferred).1.s with deferPc := g.s.deferPc } }

/-- A beat whose reads all pass raises nothing. -/
theorem nextBeat_eq {s : State} {t : Nat} (h : (serveAll (clearedBeat (s.tile t)) (s.tile t).s.deferred).2 = []) :
    nextBeat s t = s.setTile t (servedBeat (s.tile t)) := by
  have hfold : nextBeat s t = (serveAll (clearedBeat (s.tile t)) (s.tile t).s.deferred).2.foldl (fun s i => readFault s t i)
      (s.setTile t (servedBeat (s.tile t))) := rfl
  rw [hfold, h]
  rfl

/-- A beat whose reads all pass serves what was left over. -/
theorem servedBeat_after {g : GridTile} (hok : ReadsPass g g.s.deferred) :
    AfterAccesses g (servedBeat g) g.s.deferred ∧ (serveAll (clearedBeat g) g.s.deferred).2 = [] := by
  obtain ⟨h, hnil⟩ := (afterAccesses_nil g).serveAll g.s.deferred hok
  exact ⟨⟨h.left, h.slots, h.pipes, h.banks, h.queues, h.rank, h.cur⟩, hnil⟩

/-- The accesses left over come first in the next beat. -/
theorem bankDeferred_serves {s : State} {t : Fin 1024} (hkind : tileKind t = .s) (hleft : (s.tile t).s.deferred ≠ [])
    (hok : ReadsPass (s.tile t) (s.tile t).s.deferred) :
    bankDeferred s t = s.setTile t (servedBeat (s.tile t)) ∧ AfterAccesses (s.tile t) (servedBeat (s.tile t)) (s.tile t).s.deferred := by
  obtain ⟨hafter, hnil⟩ := servedBeat_after hok
  refine ⟨?_, hafter⟩
  have hserves : (tileKind t == .s && !(s.tile t).s.deferred.isEmpty) = true := by simp [hkind, hleft]
  exact (if_pos hserves).trans (nextBeat_eq hnil)

/-! ## Hard ports (R140, R144, R145) -/

/-- A tile whose queues' copies agree parks with nothing changed. -/
theorem portPark_copies {s : State} {t : Nat} (h : ∀ q, ptrDiff ((s.tile t).queue q) = none) : portPark s t = s := by
  unfold portPark
  split
  · exact parkS_copies h
  · rfl

/-- A tile that has set its hard port's count one up. -/
def countPort (g : GridTile) (k : Nat) : GridTile := { g with s := { g.s with portCnt := mset 0 g.s.portCnt k (mget 0 g.s.portCnt k + 1) } }

theorem countPort_portCnt (g : GridTile) (k : Nat) : mget 0 (countPort g k).s.portCnt k = mget 0 g.s.portCnt k + 1 := by
  simp [countPort]

theorem useBank_bankUse (g : GridTile) (i : Nat) :
    mget 0 (useBank g i).s.bankUse (slotBank i) = mget 0 g.s.bankUse (slotBank i) + 1 := by
  simp [useBank]

theorem useBank_pipe (g : GridTile) (i : Nat) : (useBank g i).pipe = g.pipe := rfl

/-- The tile of a hard push: the token at the head of its port enters the queue. -/
def hardPushed (g : GridTile) (place k q : Nat) (u : Token) : GridTile :=
  countPort (consume (pushQueue (noteRank g place) (k + 1) q u) [(k, u)]) k

theorem hardPushed_queue (g : GridTile) (place k q : Nat) (u : Token) (r : Nat) :
    (hardPushed g place k q u).queue r = if r = q then pushPtrs (g.queue q) else g.queue r :=
  pushQueue_queue (noteRank g place) (k + 1) q u r

section
variable {g g' : GridTile} (h : SameBut g g')
include h

theorem SameBut.pushFaults (k : Nat) (u : Token) : Machine.pushFaults g' k u = Machine.pushFaults g k u := by rw [h.frame]; rfl
theorem SameBut.canPush (q : Nat) : Machine.canPush g' q = Machine.canPush g q := by rw [h.frame]; rfl
theorem SameBut.canPop (q : Nat) : Machine.canPop g' q = Machine.canPop g q := by rw [h.frame]; rfl
theorem SameBut.stillDeferred (rank : Nat) : Machine.stillDeferred g' rank = Machine.stillDeferred g rank := by rw [h.frame]; rfl

end

/-- A hard push that nothing stops puts its token into the queue. -/
theorem hardPushOp_pushes {s : State} {t : Fin 1024} {k q : Nat} {u : Token} {r : List Token} (hwhole : QueuesWhole (s.tile t))
    (hbind : (s.tile t).binding k = some q) (hhead : mget [] (s.tile t).inb k = u :: r) (hlive : portLive s t k = true)
    (hstage : 2 ≤ s.cfg.stage.toNat) (hfree : 0 < ((s.tile t).queue q).free ((s.tile t).qdesc q)) (hgood : pushFaults (s.tile t) k u = []) :
    let now := pushFreed (s.tile t) q
    let s1 := if now then s else inBeat s t (k + 1) []
    hardPushOp s t k = s1.setTile t (hardPushed (s1.tile t) (if now then 5 else k + 1) k q u) := by
  intro now s1
  have hbeat : SameBut (s.tile t) (s1.tile t) := by
    by_cases hnow : now = true
    · rw [show s1 = s from if_pos hnow]
      exact ⟨rfl⟩
    · rw [show s1 = inBeat s t (k + 1) [] from if_neg hnow]
      exact atBeat_sameBut hwhole.served
  have hpush : (canPush (s1.tile t) q && !stillDeferred (s1.tile t) (k + 1)) = true := by
    rw [hbeat.canPush, hbeat.stillDeferred]
    simp [canPush, stillDeferred, hwhole.thawed, hwhole.served, hfree]
  have hcopies : ∀ r, ptrDiff ((hardPushed (s1.tile t) (if now then 5 else k + 1) k q u).queue r) = none := by
    intro r
    rw [hardPushed_queue, hbeat.queue, hbeat.queue]
    split
    · exact ptrDiff_pushPtrs (hwhole.copies q)
    · exact hwhole.copies r
  have hlive' : (portLive s t k && decide (2 ≤ s.cfg.stage.toNat) && !((s.tile t).queue q).froz) = true := by
    simp [hlive, hstage, hwhole.thawed]
  have hop : hardPushOp s t k = portPark (s1.setTile t (hardPushed (s1.tile t) (if now then 5 else k + 1) k q u)) t := by
    unfold hardPushOp
    simp only [hbind, hhead, List.head?_cons, hlive', if_true]
    rw [if_pos hpush, hwhole.copies q, hbeat.pushFaults, hgood]
    rfl
  rw [hop, portPark_copies]
  intro r
  rw [State.setTile_tile_self]
  exact hcopies r

/-- The tile of a hard pop, from the tile g1 that its read left: RP has advanced, and the port has counted. -/
def hardPopped (g1 : GridTile) (k q : Nat) (ret : Bool) (x : Queue) : GridTile := countPort (g1.setQueue q (popPtrs ret 1 x)) (4 + k)

theorem hardPopped_queue (g1 : GridTile) (k q : Nat) (ret : Bool) (x : Queue) (r : Nat) :
    (hardPopped g1 k q ret x).queue r = if r = q then popPtrs ret 1 x else g1.queue r := setQueue_queue g1 q r _

/-- The marker of a hard pop (R146). -/
def popMark (s : State) (g : GridTile) (k : Nat) : Marker :=
  if mget 0 g.s.portCnt (4 + k) + 1 == g.ctxCfg.quota (4 + k) then endMarker s.pace.rank g else .none

/-- A hard pop that nothing stops, and whose read finds its slot in order or is left over. -/
theorem hardPopOp_pops {s : State} {t : Fin 1024} {k q : Nat} {g1 : GridTile} (hwhole : QueuesWhole (s.tile t))
    (hbind : (s.tile t).binding (4 + k) = some q) (hlive : portLive s t (4 + k) = true) (havl : 0 < ((s.tile t).queue q).avl)
    (hroom : (mget [] (s.tile t).pipe k).length < 3)
    (hend : (mget 0 (s.tile t).s.portCnt (4 + k) + 1 == (s.tile t).ctxCfg.quota (4 + k)) = true → popMayEnd (s.tile t) = true)
    (hread : claim (noteRank (atBeat s t (k + 6) [q]) (k + 6)) (k + 6)
      (.read (qSlot ((s.tile t).qdesc q) ((s.tile t).queue q).a.rp) k (popMark s (s.tile t) k)) = (g1, none))
    (hqueues : g1.s.queues = (s.tile t).s.queues) :
    hardPopOp s t k = (inBeat s t (k + 6) [q]).setTile t (hardPopped g1 k q (qRet ((s.tile t).qdesc q)) ((s.tile t).queue q)) := by
  have hbeat : SameBut (s.tile t) ((inBeat s t (k + 6) [q]).tile t) := atBeat_sameBut hwhole.served
  have hports : mget 0 ((inBeat s t (k + 6) [q]).tile t).s.portCnt (4 + k) = mget 0 (s.tile t).s.portCnt (4 + k) ∧
      ((inBeat s t (k + 6) [q]).tile t).ctxCfg = (s.tile t).ctxCfg ∧ ((inBeat s t (k + 6) [q]).tile t).pipe = (s.tile t).pipe ∧
      popMayEnd ((inBeat s t (k + 6) [q]).tile t) = popMayEnd (s.tile t) ∧
      endMarker s.pace.rank ((inBeat s t (k + 6) [q]).tile t) = endMarker s.pace.rank (s.tile t) := by
    rw [hbeat.frame]
    exact ⟨rfl, rfl, rfl, rfl, rfl⟩
  obtain ⟨hcnt, hcfg, hpipe, hmay, hmarker⟩ := hports
  have hmay' : (!(mget 0 (s.tile t).s.portCnt (4 + k) + 1 == (s.tile t).ctxCfg.quota (4 + k)) || popMayEnd (s.tile t)) = true := by
    cases he : mget 0 (s.tile t).s.portCnt (4 + k) + 1 == (s.tile t).ctxCfg.quota (4 + k)
    · rfl
    · exact hend he
  have hpop : (canPop (s.tile t) q && !stillDeferred (s.tile t) (k + 6)) = true := by
    simp [canPop, stillDeferred, hwhole.thawed, hwhole.served, havl]
  have hcopies : ∀ r, ptrDiff ((hardPopped g1 k q (qRet ((s.tile t).qdesc q)) ((s.tile t).queue q)).queue r) = none := by
    intro r
    rw [hardPopped_queue]
    split
    · exact ptrDiff_bothPtrs (hwhole.copies q) _
    · exact copies_of_queues hqueues hwhole.copies r
  have hop : hardPopOp s t k = portPark
      ((inBeat s t (k + 6) [q]).setTile t (hardPopped g1 k q (qRet ((s.tile t).qdesc q)) ((s.tile t).queue q))) t := by
    have hread' : claim (noteRank ((inBeat s t (k + 6) [q]).tile t) (k + 6)) (k + 6)
      (.read (qSlot ((s.tile t).qdesc q) ((s.tile t).queue q).a.rp) k
        (if mget 0 (s.tile t).s.portCnt (4 + k) + 1 == (s.tile t).ctxCfg.quota (4 + k) then endMarker s.pace.rank (s.tile t) else .none)) =
        (g1, none) := hread
    unfold hardPopOp
    simp only [hbind, hlive, hwhole.thawed, hbeat.canPop, hbeat.stillDeferred, hcnt, hcfg, hpipe, hmay, hmay', hpop, hroom, hwhole.copies q,
      hbeat.qdesc, hbeat.queue, hmarker, hread']
    rfl
  rw [hop, portPark_copies]
  intro r
  rw [State.setTile_tile_self]
  exact hcopies r

/-! ## The obligation -/

theorem beginsBeat_iff (g : GridTile) (rank : Nat) (qs : List Nat) :
    beginsBeat g rank qs = true ↔ rank ≤ g.s.beatRank ∨ ∃ q ∈ qs, q ∈ g.s.pushedNow := by
  simp [beginsBeat]

/-- What a push leaves in the slots, the banks and the accesses left over. -/
theorem pushQueue_access {g : GridTile} {q : Nat} (rank : Nat) (u : Token) (hserved : g.s.deferred = []) :
    let i := qSlot (g.qdesc q) (g.queue q).a.wp
    let g1 := pushQueue g rank q u
    (bankFree g i → slotAt g1 i = { tok := u, chk := sideParity u } ∧ g1.s.deferred = [] ∧
      mget 0 g1.s.bankUse (slotBank i) = mget 0 g.s.bankUse (slotBank i) + 1) ∧
    (¬ bankFree g i → slotAt g1 i = slotAt g i ∧ g1.s.deferred = [(rank, .write i u)]) ∧
    (∀ j, j ≠ i → slotAt g1 j = slotAt g j) := by
  intro i g1
  by_cases hbank : bankFree g i
  · have hg1 : g1 = putSlot (useBank (pushedTile g q) i) i u := pushQueue_free rank u hbank
    rw [hg1]
    refine ⟨fun _ => ⟨by rw [slotAt_putSlot, if_pos rfl], hserved, by simp [putSlot, useBank, pushedTile]⟩, fun h => absurd hbank h, fun j hj => ?_⟩
    rw [slotAt_putSlot, if_neg hj]
    rfl
  · have hg1 : g1 = leaveOver (pushedTile g q) rank (.write i u) := pushQueue_busy rank u hbank
    rw [hg1]
    exact ⟨fun h => absurd h hbank, fun _ => ⟨rfl, congrArg (fun l => l ++ [(rank, SlotAccess.write i u)]) hserved⟩, fun _ _ => rfl⟩

theorem pushQueue_rank (g : GridTile) (rank q : Nat) (u : Token) :
    (pushQueue g rank q u).s.beatRank = g.s.beatRank ∧ (pushQueue g rank q u).s.portCnt = g.s.portCnt ∧
      (pushQueue g rank q u).inb = g.inb := by
  by_cases hbank : bankFree g (qSlot (g.qdesc q) (g.queue q).a.wp)
  · rw [pushQueue_free rank u hbank]
    simp only [putSlot, useBank, pushedTile, and_self]
  · rw [pushQueue_busy rank u hbank]
    simp only [leaveOver, pushedTile, and_self]

/-- The first part: a hard push. -/
theorem hardPush_moves {s : State} {t : Fin 1024} {k : Fin 4} {q : Nat} {u : Token} {r : List Token} (hwhole : QueuesWhole (s.tile t))
    (hbind : (s.tile t).binding k = some q) (hhead : mget [] (s.tile t).inb k = u :: r) (hlive : portLive s t k = true)
    (hstage : 2 ≤ s.cfg.stage.toNat) (hfree : 0 < ((s.tile t).queue q).free ((s.tile t).qdesc q)) (hgood : pushFaults (s.tile t) k u = []) :
    let g := s.tile t
    let x := g.queue q
    let now := pushFreed g q
    let b := if now then g else atBeat s t (k.val + 1) []
    let i := qSlot (g.qdesc q) x.a.wp
    ∃ s', exec (.hardPush t k) s = .next s' ∧ mget [] (s'.tile t).inb k = r ∧
      mget 0 (s'.tile t).s.portCnt k = mget 0 g.s.portCnt k + 1 ∧
      ((s'.tile t).queue q).a = { x.a with wp := x.a.wp + 1 } ∧ ((s'.tile t).queue q).b = { x.b with wp := x.b.wp + 1 } ∧
      (∀ p, p ≠ q → (s'.tile t).queue p = g.queue p) ∧ (s'.tile t).s.beatRank = (if now then 5 else k.val + 1) ∧
      (bankFree b i → slotAt (s'.tile t) i = { tok := u, chk := sideParity u } ∧ (s'.tile t).s.deferred = [] ∧
        mget 0 (s'.tile t).s.bankUse (slotBank i) = mget 0 b.s.bankUse (slotBank i) + 1) ∧
      (¬ bankFree b i → slotAt (s'.tile t) i = slotAt g i ∧ (s'.tile t).s.deferred = [(k.val + 1, .write i u)]) ∧
      (∀ j, j ≠ i → slotAt (s'.tile t) j = slotAt g j) ∧
      (∀ i, i ≠ t.val → s'.tile i = s.tile i) ∧ s' = { s with tiles := s'.tiles } := by
  intro g x now b i
  have hb : SameBut g b := by
    by_cases hnow : now = true
    · rw [show b = g from if_pos hnow]
      exact ⟨rfl⟩
    · rw [show b = atBeat s t (k.val + 1) [] from if_neg hnow]
      exact atBeat_sameBut hwhole.served
  have hop : ∃ s1, hardPushOp s t k = s1.setTile t (hardPushed b (if now then 5 else k.val + 1) k q u) ∧ TilesOnly s s1 ∧
      ∀ i, i ≠ t.val → s1.tile i = s.tile i := by
    have h := hardPushOp_pushes hwhole hbind hhead hlive hstage hfree hgood
    by_cases hnow : now = true
    · simp only [show pushFreed (s.tile t) q = true from hnow, if_true] at h
      refine ⟨s, ?_, rfl, fun _ _ => rfl⟩
      rw [h, show b = g from if_pos hnow, hnow]
      rfl
    · simp only [show pushFreed (s.tile t) q = false from Bool.eq_false_iff.mpr hnow] at h
      refine ⟨inBeat s t (k.val + 1) [], ?_, inBeat_tilesOnly hwhole.served, fun i hi => ?_⟩
      · rw [show b = atBeat s t (k.val + 1) [] from if_neg hnow, if_neg hnow]
        exact h
      · have hset := setTile_inBeat hwhole.served (s.tile t) (rank := k.val + 1) (qs := []) i
        rwa [State.setTile_tile, State.setTile_tile, if_neg hi, if_neg hi] at hset
  obtain ⟨s1, hop, hall, hothers⟩ := hop
  have hself : (hardPushOp s t k).tile t = hardPushed b (if now then 5 else k.val + 1) k q u := by
    rw [hop]
    exact State.setTile_tile_self _ _ _
  obtain ⟨hrank, hcnt, hinb⟩ := pushQueue_rank (noteRank b (if now then 5 else k.val + 1)) (k.val + 1) q u
  have hplace : qSlot ((noteRank b (if now then 5 else k.val + 1)).qdesc q) ((noteRank b (if now then 5 else k.val + 1)).queue q).a.wp = i := by
    rw [(hb.noteRank _).qdesc, (hb.noteRank _).queue]
  obtain ⟨hnow, hlater, hother⟩ := pushQueue_access (g := noteRank b (if now then 5 else k.val + 1)) (q := q) (k.val + 1) u
    ((hb.noteRank _).deferred.trans hwhole.served)
  simp only [hplace] at hnow hlater hother
  have hqueue : ∀ p, ((hardPushOp s t k).tile t).queue p = if p = q then pushPtrs x else g.queue p := by
    intro p
    rw [hself, hardPushed_queue, hb.queue, hb.queue]
  have hport : b.s.portCnt = g.s.portCnt ∧ b.inb = g.inb := by
    rw [hb.frame]
    exact ⟨rfl, rfl⟩
  obtain ⟨hcnt0, hinb0⟩ := hport
  have hs : ((hardPushOp s t k).tile t).s = { (pushQueue (noteRank b (if now then 5 else k.val + 1)) (k.val + 1) q u).s with
      portCnt := mset 0 g.s.portCnt k (mget 0 g.s.portCnt k + 1) } := by
    rw [hself, hardPushed, countPort, consume_frame]
    simp only [hcnt]
    rw [← hcnt0]
    rfl
  have hslot : ∀ j, slotAt ((hardPushOp s t k).tile t) j = slotAt (pushQueue (noteRank b (if now then 5 else k.val + 1)) (k.val + 1) q u) j := by
    intro j
    rw [slotAt, hs]
    rfl
  refine ⟨hardPushOp s t k, rfl, ?_, ?_, ?_, ?_, fun p hp => (hqueue p).trans (if_neg hp), ?_, fun hbank => ?_, fun hbank => ?_, fun j hj => ?_,
    fun j hj => ?_, ?_⟩
  · have htaken := consume_inb [((k : Nat), u)] k ⟨_, List.mem_singleton.mpr rfl, rfl⟩ (by simp)
      (pushQueue (noteRank b (if now then 5 else k.val + 1)) (k.val + 1) q u)
    rw [hself]
    refine htaken.trans ?_
    rw [hinb.trans hinb0, hhead]
    rfl
  · rw [hs]
    simp
  · rw [hqueue, if_pos rfl]
    rfl
  · rw [hqueue, if_pos rfl]
    rfl
  · rw [hs]
    exact hrank
  · obtain ⟨hput, hserved, huse⟩ := hnow hbank
    rw [hslot, hs]
    exact ⟨hput, hserved, huse⟩
  · obtain ⟨hput, hserved⟩ := hlater hbank
    rw [hslot, hs]
    exact ⟨hput.trans (hb.slotAt i), hserved⟩
  · rw [hslot, hother j hj]
    exact hb.slotAt j
  · rw [hop, State.setTile_tile, if_neg hj, hothers j hj]
  · rw [hop, hall]
    rfl

/-- The second part: a hard pop. -/
theorem hardPop_moves {s : State} {t : Fin 1024} {k : Fin 4} {q : Nat} (hwhole : QueuesWhole (s.tile t))
    (hbind : (s.tile t).binding (4 + k) = some q) (hlive : portLive s t (4 + k) = true) (havl : 0 < ((s.tile t).queue q).avl)
    (hroom : (mget [] (s.tile t).pipe k).length < 3)
    (hend : (mget 0 (s.tile t).s.portCnt (4 + k) + 1 == (s.tile t).ctxCfg.quota (4 + k)) = true → popMayEnd (s.tile t) = true) :
    let g := s.tile t
    let x := g.queue q
    let d := g.qdesc q
    let i := qSlot d x.a.rp
    let m := popMark s g k
    let b := atBeat s t (k.val + 6) [q]
    (bankFree b i → slotOk (slotAt g i) = true) →
    ∃ s', exec (.hardPop t k) s = .next s' ∧
      (bankFree b i → (s'.tile t).s.deferred = [] ∧ mget 0 (s'.tile t).s.bankUse (slotBank i) = mget 0 b.s.bankUse (slotBank i) + 1 ∧
        mget [] (s'.tile t).pipe k = mget [] g.pipe k ++ [{ (slotAt g i).tok with ctx := g.cur, mark := m }]) ∧
      (¬ bankFree b i → mget [] (s'.tile t).pipe k = mget [] g.pipe k ∧ (s'.tile t).s.deferred = [(k.val + 6, .read i k m)]) ∧
      mget 0 (s'.tile t).s.portCnt (4 + k) = mget 0 g.s.portCnt (4 + k) + 1 ∧ (s'.tile t).s.beatRank = k.val + 6 ∧
      ((s'.tile t).queue q).a = { x.a with rp := x.a.rp + 1, fp := if qRet d then x.a.fp else x.a.rp + 1 } ∧
      (s'.tile t).s.store = g.s.store ∧ (∀ p, p ≠ q → (s'.tile t).queue p = g.queue p) ∧
      (∀ i, i ≠ t.val → s'.tile i = s.tile i) ∧ s' = { s with tiles := s'.tiles } := by
  intro g x d i m b hok
  have hb : SameBut g (noteRank b (k.val + 6)) := (atBeat_sameBut hwhole.served).noteRank _
  have hkept : (noteRank b (k.val + 6)).s.portCnt = g.s.portCnt ∧ (noteRank b (k.val + 6)).s.store = g.s.store ∧
      (noteRank b (k.val + 6)).pipe = g.pipe := by
    rw [hb.frame]
    exact ⟨rfl, rfl, rfl⟩
  obtain ⟨hcnt, hstore, hpipe⟩ := hkept
  have hleft : (noteRank b (k.val + 6)).s.deferred = [] := hb.deferred.trans hwhole.served
  have heffect : ∀ g1, claim (noteRank b (k.val + 6)) (k.val + 6) (.read i k m) = (g1, none) → g1.s.queues = g.s.queues →
      g1.s.portCnt = g.s.portCnt → g1.s.store = g.s.store → g1.s.beatRank = k.val + 6 → ∃ s', exec (.hardPop t k) s = .next s' ∧
      (s'.tile t).s.deferred = g1.s.deferred ∧ (s'.tile t).s.bankUse = g1.s.bankUse ∧ (s'.tile t).pipe = g1.pipe ∧
      mget 0 (s'.tile t).s.portCnt (4 + k) = mget 0 g.s.portCnt (4 + k) + 1 ∧ (s'.tile t).s.beatRank = k.val + 6 ∧
      ((s'.tile t).queue q).a = { x.a with rp := x.a.rp + 1, fp := if qRet d then x.a.fp else x.a.rp + 1 } ∧
      (s'.tile t).s.store = g.s.store ∧ (∀ p, p ≠ q → (s'.tile t).queue p = g.queue p) ∧
      (∀ i, i ≠ t.val → s'.tile i = s.tile i) ∧ s' = { s with tiles := s'.tiles } := by
    intro g1 hread hqueues hcnt1 hstore1 hrank1
    have hop := hardPopOp_pops hwhole hbind hlive havl hroom hend hread hqueues
    have hself : (hardPopOp s t k).tile t = hardPopped g1 k q (qRet d) x := by
      rw [hop]
      exact State.setTile_tile_self _ _ _
    have hqueue : ∀ p, ((hardPopOp s t k).tile t).queue p = if p = q then popPtrs (qRet d) 1 x else g.queue p := by
      intro p
      rw [hself, hardPopped_queue, GridTile.queue, GridTile.queue, hqueues]
    refine ⟨hardPopOp s t k, rfl, ?_, ?_, ?_, ?_, ?_, ?_, ?_, fun p hp => (hqueue p).trans (if_neg hp), fun j hj => ?_, ?_⟩
    · rw [hself]; rfl
    · rw [hself]; rfl
    · rw [hself]; rfl
    · rw [hself, ← hcnt1]
      exact countPort_portCnt (g1.setQueue q (popPtrs (qRet d) 1 x)) (4 + k)
    · rw [hself]
      exact hrank1
    · rw [hqueue, if_pos rfl]
      rfl
    · rw [hself]
      exact hstore1
    · rw [hop, setTile_inBeat hwhole.served, State.setTile_tile, if_neg hj]
    · rw [hop, inBeat_tilesOnly hwhole.served]
      rfl
  by_cases hbank : bankFree b i
  · have hslot : slotOk (slotAt (noteRank b (k.val + 6)) i) = true := by
      rw [hb.slotAt]
      exact hok hbank
    have hread := claim_read_free (g := noteRank b (k.val + 6)) hbank hslot (k.val + 6) k m
    obtain ⟨s', hexec, hdef, huse, hpipe', hrest⟩ := heffect _ hread (by rw [produce_s]; exact hb.queues)
      (by rw [produce_s]; exact hcnt) (by rw [produce_s]; exact hstore) (by rw [produce_s]; rfl)
    refine ⟨s', hexec, fun _ => ⟨hdef.trans ?_, ?_, ?_⟩, fun h => absurd hbank h, hrest⟩
    · rw [produce_s]
      exact hleft
    · rw [huse, produce_s]
      exact useBank_bankUse (noteRank b (k.val + 6)) i
    · rw [hpipe', produce_pipe, useBank_pipe, hpipe, hb.slotAt, hb.cur]
      simp [g]
  · have hread := claim_busy (g := noteRank b (k.val + 6)) (a := .read i k m) hbank (k.val + 6)
    obtain ⟨s', hexec, hdef, huse, hpipe', hrest⟩ := heffect _ hread hb.queues hcnt hstore rfl
    refine ⟨s', hexec, fun h => absurd h hbank, fun _ => ⟨?_, hdef.trans ?_⟩, hrest⟩
    · rw [hpipe']
      exact congrArg (fun p => mget [] p k.val) hpipe
    · exact congrArg (fun l => l ++ [(k.val + 6, SlotAccess.read i k m)]) hleft

/-- Settles O19: a hard push and a hard pop move one token and one pointer, a beat begins where a rank has passed or a queue read was pushed,
and the accesses left over are served in their order. -/
theorem hardPortsAndBanks : Obligations.HardPortsAndBanks := by
  refine ⟨?_, ?_, ?_⟩
  · intro s t k q hwhole g x d
    refine ⟨fun u r hbind hhead hlive hstage hfree hgood => ?_, fun hbind hlive havl hroom => ?_⟩
    · exact hardPush_moves hwhole hbind hhead hlive hstage hfree hgood
    · exact hardPop_moves hwhole hbind hlive havl hroom
  · intro s t rank qs hserved g
    have hbeat := atBeat_of_served (rank := rank) (qs := qs) hserved
    refine ⟨fun h => ?_, fun hrank hqs => ?_⟩
    · rw [hbeat, if_pos ((beginsBeat_iff _ rank qs).mpr h)]
      rfl
    · refine hbeat.trans (if_neg fun h => ?_)
      rcases (beginsBeat_iff _ rank qs).mp h with hpassed | ⟨q, hq, hpushed⟩
      · exact absurd hpassed (Nat.not_le.mpr hrank)
      · exact hqs q hq hpushed
  · intro s t hkind hleft g done hok
    obtain ⟨hserves, hafter⟩ := bankDeferred_serves hkind hleft hok
    refine ⟨bankDeferred s t, rfl, ?_⟩
    rw [hserves, State.setTile_tile_self]
    exact ⟨hafter.left, hafter.slots, hafter.pipes, hafter.banks, hafter.queues, hafter.rank,
      fun i hi => (State.setTile_tile s t i _).trans (if_neg hi), rfl⟩

end Sys2Proof.Claims
end

section
/-! SUPPORT. Slot transfers (R27, R28, R34, R258, R267, R339, R365, R367). -/

namespace Sys2Proof.Claims

open Sys2Proof Sys2Proof.Machine

/-! ## A slot and its destinations (R28) -/

/-- The tokens in a capturing slot. -/
def destToks (s : State) : Dest → List Token
  | .ip t k => mget [] (s.tile t).inb k
  | .latch t x => mget [] (s.tile t).latch x
  | .edgeOut e => (s.edge e).outSlots

/-- Grid tiles and edge tiles may have changed, and nothing else. -/
def FabricOnly (s s' : State) : Prop := s' = { s with tiles := s'.tiles, edges := s'.edges }

theorem FabricOnly.trans {s t u : State} (h : FabricOnly s t) (k : FabricOnly t u) : FabricOnly s u := by
  unfold FabricOnly at *
  rw [k, h]

/-- A slot that captures is not the slot that it captures from: it has room, and the other is full. -/
def Apart (p : Place) (d : Dest) : Prop := ∀ t x, p = .latch t x → d ≠ .latch t x

theorem apart_of_room {s : State} {p : Place} {d : Dest} (hp : slotToks s p ≠ []) (hd : destRoom s d = true) : Apart p d := by
  rintro t x rfl rfl
  exact hp (by simpa [destRoom, slotToks] using hd)

section
variable (s : State) (p : Place) (d : Dest)

theorem setAcked_fabricOnly (a : List Dest) : FabricOnly s (setAcked s p a) := by
  cases p <;> rfl

theorem popSlot_fabricOnly : FabricOnly s (popSlot s p) := by
  cases p <;> rfl

theorem putDest_fabricOnly (u : Token) : FabricOnly s (putDest s d u) := by
  cases d <;> rfl

theorem setAcked_acked (a : List Dest) : slotAcked (setAcked s p a) p = a := by
  cases p with
  | op t k => exact (congrArg (fun g : GridTile => mget [] g.acked _) (State.setTile_tile_self _ _ _)).trans (mget_mset_self _ _ _ _)
  | latch t x => exact (congrArg (fun g : GridTile => mget [] g.acked _) (State.setTile_tile_self _ _ _)).trans (mget_mset_self _ _ _ _)
  | edgeIn e => exact congrArg EdgeTile.acked (State.setEdge_edge_self _ _ _)

theorem setAcked_slotToks (a : List Dest) : slotToks (setAcked s p a) p = slotToks s p := by
  cases p <;> simp [setAcked, slotToks]

theorem popSlot_slotToks : slotToks (popSlot s p) p = (slotToks s p).drop 1 := by
  cases p <;> simp [popSlot, slotToks]

theorem setAcked_destToks (a : List Dest) : destToks (setAcked s p a) d = destToks s d := by
  cases p <;> cases d <;> simp only [setAcked, destToks, State.setTile_tile, State.setTile_edge, State.setEdge_tile, State.setEdge_edge] <;>
    split <;> simp_all

theorem popSlot_destToks (h : Apart p d) : destToks (popSlot s p) d = destToks s d := by
  cases p with
  | op t k =>
    cases d <;> simp only [popSlot, destToks, State.setTile_tile, State.setTile_edge]
    all_goals split <;> simp_all
  | latch t x =>
    cases d with
    | ip t' k =>
      simp only [popSlot, destToks, State.setTile_tile]
      split <;> simp_all
    | latch t' y =>
      simp only [popSlot, destToks, State.setTile_tile]
      split
      · next ht =>
        have hxy : y.val ≠ x.val := fun hyx => h t x rfl (by rw [Fin.ext ht, Fin.ext hyx])
        rw [ht]
        exact mget_mset_other (α := List Token) [] _ _ _ _ _ hxy
      · rfl
    | edgeOut e => rfl
  | edgeIn e =>
    cases d with
    | ip t k => rfl
    | latch t x => rfl
    | edgeOut e' =>
      simp only [popSlot, destToks, State.setEdge_edge]
      split <;> simp_all

theorem putDest_destToks (u : Token) (h : destRoom s d = true) : destToks (putDest s d u) d = destToks s d ++ [u] := by
  cases d with
  | ip t k => simp [putDest, destToks]
  | latch t x =>
    have hempty : mget [] (s.tile t).latch x = [] := by simpa [destRoom] using h
    simp [putDest, destToks, hempty]
  | edgeOut e => simp [putDest, destToks]

theorem putDest_slotToks (u : Token) (h : Apart p d) : slotToks (putDest s d u) p = slotToks s p := by
  cases d with
  | ip t k =>
    cases p <;> simp only [putDest, slotToks, State.setTile_tile, State.setTile_edge]
    all_goals split <;> simp_all
  | latch t x =>
    cases p with
    | op t' k =>
      simp only [putDest, slotToks, State.setTile_tile]
      split <;> simp_all
    | latch t' y =>
      simp only [putDest, slotToks, State.setTile_tile]
      split
      · next ht =>
        have hxy : y.val ≠ x.val := fun hyx => h t' y rfl (by rw [Fin.ext ht, Fin.ext hyx])
        rw [ht]
        exact mget_mset_other [] [] (s.tile t).latch x y [u] hxy
      · rfl
    | edgeIn e => rfl
  | edgeOut e =>
    cases p with
    | op t k => rfl
    | latch t x => rfl
    | edgeIn e' =>
      simp only [putDest, slotToks, State.setEdge_edge]
      split <;> simp_all

end

/-- What a transfer puts where, in the words of the statement. -/
theorem destToks_iff {s : State} {d : Dest} {s' : State} {u : Token} (hroom : destRoom s d = true)
    (h : destToks s' d = destToks s d ++ [u]) :
    match (generalizing := false) d with
     | .ip t k => mget [] (s'.tile t).inb k = mget [] (s.tile t).inb k ++ [u]
     | .latch t x => mget [] (s'.tile t).latch x = [u]
     | .edgeOut e => (s'.edge e).outSlots = (s.edge e).outSlots ++ [u] := by
  cases d with
  | ip t k => exact h
  | latch t x =>
    have hempty : mget [] (s.tile t).latch x = [] := by simpa [destRoom] using hroom
    simpa [destToks, hempty] using h
  | edgeOut e => exact h

/-- A capture that has room takes the head token; the slot empties with the last of its destinations. -/
theorem capture_moves {s : State} {p : Place} {d : Dest} {u : Token} {r : List Token} (hhead : slotToks s p = u :: r) (hd : d ∈ destsOf s p)
    (hnew : d ∉ slotAcked s p) (hroom : destRoom s d = true) :
    ((∀ x ∈ destsOf s p, x = d ∨ x ∈ slotAcked s p) → slotToks (capture s p d) p = r ∧ slotAcked (capture s p d) p = []) ∧
    ((∃ x ∈ destsOf s p, x ≠ d ∧ x ∉ slotAcked s p) →
      slotToks (capture s p d) p = u :: r ∧ slotAcked (capture s p d) p = d :: slotAcked s p) ∧
    destToks (capture s p d) d = destToks s d ++ [u] ∧ FabricOnly s (capture s p d) := by
  have hapart : Apart p d := apart_of_room (by simp [hhead]) hroom
  have hcond : ((destsOf s p).contains d && !(slotAcked s p).contains d && destRoom s d) = true := by simp [hd, hnew, hroom]
  have hcap : capture s p d = if (destsOf s p).all (fun x => (d :: slotAcked s p).contains x) then
      setAcked (popSlot (putDest s d u) p) p [] else setAcked (putDest s d u) p (d :: slotAcked s p) := by
    rw [capture, hhead]
    exact if_pos hcond
  by_cases hall : ∀ x ∈ destsOf s p, x = d ∨ x ∈ slotAcked s p
  · rw [if_pos (by simpa using hall)] at hcap
    rw [hcap]
    refine ⟨fun _ => ⟨?_, setAcked_acked _ _ _⟩, fun ⟨x, hx, hxd, hxa⟩ => absurd (hall x hx) (by simp [hxd, hxa]), ?_, ?_⟩
    · rw [setAcked_slotToks, popSlot_slotToks, putDest_slotToks _ _ _ _ hapart, hhead]
      rfl
    · rw [setAcked_destToks, popSlot_destToks _ _ _ hapart, putDest_destToks _ _ _ hroom]
    · exact (putDest_fabricOnly s d u).trans ((popSlot_fabricOnly _ _).trans (setAcked_fabricOnly _ _ _))
  · rw [if_neg (by simpa using hall)] at hcap
    rw [hcap]
    refine ⟨fun h => absurd h hall, fun _ => ⟨?_, setAcked_acked _ _ _⟩, ?_, ?_⟩
    · rw [setAcked_slotToks, putDest_slotToks _ _ _ _ hapart, hhead]
    · rw [setAcked_destToks, putDest_destToks _ _ _ hroom]
    · exact (putDest_fabricOnly s d u).trans (setAcked_fabricOnly _ _ _)

/-- R34: the oldest token of a pipeline enters an empty output buffer, and the next of its firing the pipeline. -/
theorem emitCore_moves {s : State} {t : Fin 1024} {k : Fin 4} {u : Token} {r : List Token} (hpipe : mget [] (s.tile t).pipe k = u :: r)
    (hempty : mget [] (s.tile t).outb k = []) :
    emitCore s t k = s.setTile t { s.tile t with
      pipe := mset [] (s.tile t).pipe k (r ++ (mget [] (s.tile t).rest k).take 1)
      rest := mset [] (s.tile t).rest k ((mget [] (s.tile t).rest k).drop 1), outb := mset [] (s.tile t).outb k [u] } := by
  simp [emitCore, hpipe, hempty]

/-! ## Events that abort (R58) -/

theorem logEntry_firstCode (s : State) (e : LogEntry) : (logEntry s e).flt.firstCode = s.flt.firstCode := by
  unfold logEntry
  split
  · rw [raiseSource_flt]
  · split
    · rw [raiseSource_flt]
    · rw [eventBase_frame]

theorem recordEvent_firstCode (s : State) (c : Nat) (a : EvArgs) : (recordEvent s c a).flt.firstCode = s.flt.firstCode := by
  unfold recordEvent
  dsimp only
  split
  · rw [logEntry_firstCode, eventBase_frame]
  · rw [eventBase_frame]

/-- The first event of weight gives its code to the fault record (R393). -/
theorem event_firstCode {s : State} {c : Nat} {a : EvArgs} (h : 2 ≤ evSev c) (hrunning : s.pace.state ≠ .aborted) (hfirst : s.flt.firstCode = 0) :
    (event s c a).flt.firstCode = BitVec.ofNat 16 c := by
  have hnone : (noteDump (recordEvent s c a) (evSev c)).flt.firstCode = 0 := (recordEvent_firstCode s c a).trans hfirst
  have hstate : (noteDump (recordEvent s c a) (evSev c)).pace.state ≠ .aborted := by
    rw [noteDump_frame, recordEvent_pace]
    exact hrunning
  unfold event
  dsimp only
  rw [if_neg (Nat.not_lt.mpr h)]
  unfold abortWith
  dsimp only
  rw [if_neg hstate, hnone]
  rfl

/-! ## Inward edge paths (R258, R267, R367) -/

/-- The edge tile after a token more on its inward path. -/
theorem pushInward_edge {s : State} {e : Fin 128} (u : Token) (hparked : (s.edge e).parked = false)
    (hquota : (s.edge e).inCnt < (s.edge e).ctxCfg.quota 0) :
    let g := s.edge e
    let g' := (pushInward s e u).edge e
    g'.inSlots = g.inSlots ++ [u] ∧ g'.inCnt = g.inCnt + 1 ∧ g'.lastBseq = u.bseq ∧
      g'.parked = decide (g.inCnt + 1 = g.ctxCfg.quota 0 ∧ g.ctxCfg.quota 4 ≤ g.outCnt) := by
  intro g g'
  have hself : g' = parkEdge { g with inSlots := g.inSlots ++ [u], inCnt := g.inCnt + 1, lastBseq := u.bseq
                                      inMarked := g.inMarked || u.mark != .none } := State.setEdge_edge_self _ _ _
  have hend : (s.edge e).ctxCfg.quota 0 ≤ (s.edge e).inCnt + 1 ↔ (s.edge e).inCnt + 1 = (s.edge e).ctxCfg.quota 0 := by omega
  rw [hself]
  unfold parkEdge
  split
  · next hpark => exact ⟨rfl, rfl, rfl, (decide_eq_true ⟨hend.mp hpark.1, hpark.2⟩).symm⟩
  · next hpark => exact ⟨rfl, rfl, rfl, hparked.trans (decide_eq_false fun h => hpark ⟨hend.mpr h.1, h.2⟩).symm⟩

theorem pushInward_edgesOnly (s : State) (e : Nat) (u : Token) :
    pushInward s e u = { s with edges := (pushInward s e u).edges } ∧ ∀ i, i ≠ e → (pushInward s e u).edge i = s.edge i :=
  ⟨rfl, fun i hi => (State.setEdge_edge s e i _).trans (if_neg hi)⟩

/-- What takes a token off a block leaves the fabric and PACE as they were. -/
theorem inwardPop_fabric (s : State) (e : Nat) :
    (inwardPop s e).edges = s.edges ∧ (inwardPop s e).tiles = s.tiles ∧ (inwardPop s e).pace = s.pace := by
  unfold inwardPop
  split
  · exact ⟨rfl, rfl, rfl⟩
  · split
    · simp only [raiseSource_edges, raiseSource_tiles, raiseSource_pace]
      exact ⟨rfl, rfl, rfl⟩
    · exact ⟨rfl, rfl, rfl⟩
  · exact ⟨rfl, rfl, rfl⟩
  · exact ⟨rfl, rfl, rfl⟩

theorem eq_cons_drop {α : Type} {l : List α} {u : α} (h : l.head? = some u) : l = u :: l.drop 1 := by
  cases l with
  | nil => simp at h
  | cons x xs => simpa using h

theorem streamHead_first {s : State} {k : Nat} {u : Token} (h : streamHead s k = some u) :
    (s.engine (feeder s k)).rbuf = u :: (s.engine (feeder s k)).rbuf.drop 1 := by
  have hhead : (s.engine (feeder s k)).rbuf.head? = some u := by
    unfold streamHead at h
    exact (Option.ite_none_left_eq_some.mp h).2
  exact eq_cons_drop hhead

/-- A stream tile that takes its engine's head: the engine's buffer loses it with the last of its recipients (R280). -/
theorem takeStream_engine {s : State} {k : Nat} {u : Token} (h : streamHead s k = some u) :
    let j := feeder s k
    let s' := takeStream s k
    (s'.engine j).delivered = (s.engine j).delivered + (if k = j then 1 else 0) ∧
    (if ∀ i ∈ recipients s j, i = k ∨ i ∈ (s.engine j).captured then
      (s.engine j).rbuf = u :: (s'.engine j).rbuf ∧ (s'.engine j).captured = []
     else (s'.engine j).rbuf = (s.engine j).rbuf ∧ (s'.engine j).captured = k :: (s.engine j).captured) := by
  intro j s'
  have hself : s'.engine j = { s.engine j with
      rbuf := if (recipients s j).all (fun i => (k :: (s.engine j).captured).contains i) then (s.engine j).rbuf.drop 1 else (s.engine j).rbuf
      captured := if (recipients s j).all (fun i => (k :: (s.engine j).captured).contains i) then [] else k :: (s.engine j).captured
      delivered := if k = j then (s.engine j).delivered + 1 else (s.engine j).delivered } := State.setEngine_engine_self _ _ _
  have hall : (recipients s j).all (fun i => (k :: (s.engine j).captured).contains i) = true ↔
      ∀ i ∈ recipients s j, i = k ∨ i ∈ (s.engine j).captured := by simp
  rw [hself]
  refine ⟨by split <;> rfl, ?_⟩
  split
  · next hlast =>
    rw [if_pos (hall.mpr hlast), if_pos (hall.mpr hlast)]
    exact ⟨streamHead_first h, rfl⟩
  · next hmore =>
    rw [if_neg (fun hc => hmore (hall.mp hc)), if_neg (fun hc => hmore (hall.mp hc))]
    exact ⟨rfl, rfl⟩

theorem inwardPop_channel {s : State} {e c : Nat} (hc : e % 32 - 16 = c) (hside : e / 32 = 1) (hk : e % 32 < 24) :
    ((inwardPop s e).chan c).buf = (s.chan c).buf.drop 1 ∧ ((inwardPop s e).ring (10 + c)).ci = (s.ring (10 + c)).ci + 1 := by
  subst hc
  have hpop : (inwardPop s e).hq =
      ((s.setChan (e % 32 - 16) { s.chan (e % 32 - 16) with buf := (s.chan (e % 32 - 16)).buf.drop 1 }).setRing (10 + (e % 32 - 16))
        { s.ring (10 + (e % 32 - 16)) with ci := (s.ring (10 + (e % 32 - 16))).ci + 1 }).hq := by
    simp only [inwardPop, hside, if_pos hk, raiseSource_hq]
  unfold State.chan State.ring at *
  rw [hpop]
  exact ⟨congrArg StreamChan.buf (mget_mset_self _ _ _ _), congrArg Ring.ci (mget_mset_self _ _ _ _)⟩

/-- The block whose head token was taken holds the others. -/
theorem inwardPop_givesHead {s : State} {e : Fin 128} {u : Token} (h : inwardHead s e = some u) : givesHead s (inwardPop s e) e u := by
  obtain hside | hside | hside | hside : e.val / 32 = 0 ∨ e.val / 32 = 1 ∨ e.val / 32 = 2 ∨ e.val / 32 = 3 := by omega
  · simp only [inwardHead, hside] at h
    simp only [givesHead, inwardPop, hside, mget_mset_self]
    exact eq_cons_drop h
  · simp only [inwardHead, hside] at h
    simp only [givesHead, hside]
    split at h
    · cases h
    · split at h
      · next hk =>
        rw [if_pos hk]
        obtain ⟨hbuf, hci⟩ := inwardPop_channel (s := s) rfl hside hk
        exact ⟨(eq_cons_drop h).trans (congrArg _ hbuf.symm), hci⟩
      · next hk =>
        rw [if_neg hk]
        simp only [inwardPop, hside, if_neg hk, mget_mset_self]
        exact eq_cons_drop h
  · simp only [inwardHead, hside] at h
    simp only [givesHead, hside]
    have hpop : inwardPop s e = takeStream s (e % 32 / 2) := by simp only [inwardPop, hside]
    rw [hpop]
    split at h
    · exact takeStream_engine h
    · cases h
  · simp only [inwardHead, hside] at h
    have hmod : e.val % 32 % 8 = e.val % 8 := by omega
    obtain ⟨x, hx, rfl⟩ := Option.map_eq_some_iff.mp h
    simp only [givesHead, inwardPop, hside, hmod, State.setPort_port_self, mget_mset_self]
    exact ⟨⟨x.2, eq_cons_drop hx⟩, trivial⟩

/-- What givesHead compares lies outside the edge tiles. -/
theorem givesHead_pushInward {s s' : State} {e : Fin 128} {u v : Token} (h : givesHead s s' e u) :
    givesHead s (pushInward s' e v) e u := h

/-- An edge tile that moves tokens: its path is claimed, it has not parked, and the machine is not held. -/
theorem edgeLive_of {s : State} {e : Nat} (hhold : s.holding = false) (hclaimed : (s.edge e).ctxCfg.claimed = true)
    (hparked : (s.edge e).parked = false) : edgeLive s e = true := by
  simp [edgeLive, hhold, hclaimed, hparked]

theorem edge_of_edges {s t : State} (h : t.edges = s.edges) (e : Nat) : t.edge e = s.edge e := by
  unfold State.edge
  rw [h]

/-- A slot transfer in a fabric that is open. -/
def openMove (s : State) : Move → State
  | .emit t k => emitCore s t k
  | .capture p d => capture s p d
  | .inward e => inward s e
  | .outward e => outward s e

theorem exec_slotTransfer {s : State} {m : Move} (hz : s.cfg.stage ≠ 0) (hf : s.cfg.stage ≠ 15) :
    exec (.slotTransfer m) s = .next (openMove s m) := by
  show Host.Outcome.next (slotMove s m) = _
  have hopen : ¬ (decide (s.cfg.stage = 0) || decide (s.cfg.stage = 15)) = true := by simpa using ⟨hz, hf⟩
  refine congrArg Host.Outcome.next ?_
  unfold slotMove
  rw [if_neg hopen]
  cases m <;> rfl

/-- The token that an inward path takes of its block: the link's frames carry their own CTX and marker (R23, R258). -/
def inwardToken (s : State) (e : Nat) (u : Token) : Token :=
  let last := (s.edge e).inCnt + 1 == (s.edge e).ctxCfg.quota 0
  if e / 32 = 3 then { u with mark := if last then s.pace.rank else u.mark }
  else { u with ctx := (s.edge e).cur, mark := if last then s.pace.rank else .none }

theorem inwardToken_bseq (s : State) (e : Nat) (u : Token) : (inwardToken s e u).bseq = u.bseq := by
  unfold inwardToken
  dsimp only
  split <;> rfl

section
variable {s : State} {e : Fin 128} (hhold : s.holding = false) (hclaimed : (s.edge e).ctxCfg.claimed = true) (hparked : (s.edge e).parked = false)
include hhold hclaimed hparked

section
variable (hquota : (s.edge e).inCnt < (s.edge e).ctxCfg.quota 0) (hroom : (s.edge e).inSlots.length < 2)
include hquota hroom

theorem inward_rakes (hrake : s.pace.rakeAct = true) :
    inward s e = pushInward s e (mkBubble (if (s.edge e).inCnt + 1 = (s.edge e).ctxCfg.quota 0 then s.pace.rank else .none) (s.edge e).cur
      (s.edge e).lastBseq) := by
  simp [inward, edgeLive_of hhold hclaimed hparked, hquota, hroom, hrake]

theorem inward_takes {u : Token} (hrake : s.pace.rakeAct = false) (hhead : inwardHead s e = some u) (hskew : westSkew s e = none) :
    inward s e = pushInward (inwardPop s e) e (inwardToken s e u) := by
  simp [inward, inwardToken, edgeLive_of hhold hclaimed hparked, hquota, hroom, hrake, hhead, hskew]

theorem inward_skews {u : Token} {st : BitVec 32} (hrake : s.pace.rakeAct = false) (hhead : inwardHead s e = some u)
    (hskew : westSkew s e = some st) : ∃ a, inward s e = event s 0x0907 a := by
  simp [inward, edgeLive_of hhold hclaimed hparked, hquota, hroom, hrake, hhead, hskew]

end

variable {u : Token} {r : List Token} (hquota : (s.edge e).outCnt < (s.edge e).ctxCfg.quota 4) (hhead : (s.edge e).outSlots = u :: r)
include hquota hhead

theorem outward_gives (hroom : outwardRoom s e = true) (hpar : tokParOk u = true) :
    outward s e = popOutward (outwardPut s e u) e u := by
  simp [outward, edgeLive_of hhold hclaimed hparked, hquota, hhead, hroom, hpar]

theorem outward_badParity (hroom : outwardRoom s e = true) (hpar : tokParOk u = false) : ∃ a, outward s e = event s 0x0401 a := by
  simp [outward, outwardParity, edgeLive_of hhold hclaimed hparked, hquota, hhead, hroom, hpar]

theorem outward_drops (hside : e.val / 32 = 3) (hroom : outwardRoom s e = false) (hrake : s.pace.rakeAct = true)
    (hdrop : s.pace.rakeDrop = true) (hpar : tokParOk u = true) :
    outward s e = popOutward { s with pace := { s.pace with rakeDropCnt := satInc s.pace.rakeDropCnt } } e u := by
  simp [outward, edgeLive_of hhold hclaimed hparked, hquota, hhead, hroom, hside, hrake, hdrop, hpar]

theorem outward_stands (hroom : outwardRoom s e = false) (hrake : s.pace.rakeAct = false ∨ s.pace.rakeDrop = false) :
    outward s e = s := by
  rcases hrake with hrake | hrake <;> simp [outward, edgeLive_of hhold hclaimed hparked, hquota, hhead, hroom, hrake]

end

/-! ## Outward edge paths (R267, R365) -/

/-- The edge tile after the head of its outward path has left. -/
theorem popOutward_edge {s : State} {e : Fin 128} (u : Token) {r : List Token} (hparked : (s.edge e).parked = false)
    (hquota : (s.edge e).outCnt < (s.edge e).ctxCfg.quota 4) (hhead : (s.edge e).outSlots = u :: r) :
    let g := s.edge e
    let g' := (popOutward s e u).edge e
    g'.outSlots = r ∧ g'.outCnt = g.outCnt + 1 ∧ g'.hiMark = markMax g.hiMark u.mark ∧
      g'.parked = decide (g.ctxCfg.quota 0 ≤ g.inCnt ∧ g.outCnt + 1 = g.ctxCfg.quota 4) := by
  intro g g'
  have hself : g' = parkEdge { g with outSlots := g.outSlots.drop 1, outCnt := g.outCnt + 1
                                      outMarked := g.outMarked || u.mark != .none, hiMark := markMax g.hiMark u.mark } :=
    State.setEdge_edge_self _ _ _
  have hend : (s.edge e).ctxCfg.quota 4 ≤ (s.edge e).outCnt + 1 ↔ (s.edge e).outCnt + 1 = (s.edge e).ctxCfg.quota 4 := by omega
  have hrest : g.outSlots.drop 1 = r := by
    show (s.edge e).outSlots.drop 1 = r
    rw [hhead]
    rfl
  rw [hself]
  unfold parkEdge
  split
  · next hpark => exact ⟨hrest, rfl, rfl, (decide_eq_true ⟨hpark.1, hend.mp hpark.2⟩).symm⟩
  · next hpark => exact ⟨hrest, rfl, rfl, hparked.trans (decide_eq_false fun h => hpark ⟨h.1, hend.mpr h.2⟩).symm⟩

theorem popOutward_others (s : State) (e : Nat) (u : Token) : ∀ i, i ≠ e → (popOutward s e u).edge i = s.edge i :=
  fun i hi => (State.setEdge_edge s e i _).trans (if_neg hi)

/-- Only the stream engines' tiles and links without credit never have room. -/
theorem outwardRoom_side {s : State} {e : Nat} (h : outwardRoom s e = true) : e / 32 ≠ 2 := by
  intro hside
  simp [outwardRoom, hside] at h

theorem outwardRoom_of_noCredit {s : State} {e : Nat} (hside : e / 32 = 3) (hcred : mget 0 (s.port (e % 32 / 8)).cred (e % 8) = 0) :
    outwardRoom s e = false := by
  simp [outwardRoom, hside, hcred]

/-- What gives a token to a block leaves the fabric and PACE as they were. -/
theorem outwardPut_fabric (s : State) (e : Nat) (u : Token) :
    (outwardPut s e u).edges = s.edges ∧ (outwardPut s e u).tiles = s.tiles ∧ (outwardPut s e u).pace = s.pace := by
  unfold outwardPut
  split
  · exact ⟨rfl, rfl, rfl⟩
  · split
    · exact ⟨rfl, rfl, rfl⟩
    · split <;> exact ⟨rfl, rfl, rfl⟩
  · exact ⟨rfl, rfl, rfl⟩
  · exact ⟨rfl, rfl, rfl⟩

theorem outwardPut_takesToken {s : State} {e : Fin 128} (u : Token) (hroom : outwardRoom s e = true) :
    takesToken s (outwardPut s e u) e u := by
  obtain hside | hside | hside : e.val / 32 = 0 ∨ e.val / 32 = 1 ∨ e.val / 32 = 3 := by
    have := outwardRoom_side hroom
    omega
  · simp only [takesToken, outwardPut, hside, mget_mset_self]
  · simp only [takesToken, outwardPut, hside]
    split
    · exact mget_mset_self _ _ _ _
    · split
      · exact congrArg StreamChan.outq (State.setChan_chan_self _ _ _)
      · exact mget_mset_self _ _ _ _
  · have hmod : e.val % 32 % 8 = e.val % 8 := by omega
    simp only [takesToken, outwardPut, hside, hmod, State.setPort_port_self, mget_mset_self, and_self]

/-- Settles O6: a capture passes the head token on and the last one empties the slot; pipelines advance in order; edge paths move one token
between block and fabric, and a failed check stops the task before it. -/
theorem slotTransfers : Obligations.SlotTransfers := by
  refine ⟨?capture, ?emit, ?inward, ?outward⟩
  case capture =>
    intro s p d u r hz hf hhead hd hnew hroom
    obtain ⟨hlast, hmore, hdest, honly⟩ := capture_moves hhead hd hnew hroom
    exact ⟨capture s p d, exec_slotTransfer hz hf, hlast, hmore, destToks_iff hroom hdest, honly⟩
  case emit =>
    intro s t k u r hz hf hpipe hempty
    refine ⟨_, (exec_slotTransfer hz hf).trans (congrArg _ (emitCore_moves hpipe hempty)), ?_, ?_, ?_, ?_, rfl⟩
    · simp
    · simp
    · simp
    · intro i hi
      exact (State.setTile_tile s t i _).trans (if_neg hi)
  case inward =>
    intro s e hz hf hhold g hclaimed hparked hquota hroom last moved
    have hrun := exec_slotTransfer (m := .inward e) hz hf
    refine ⟨fun hrake => ?_, fun hrake u hhead => ⟨fun hskew => ?_, fun st hskew hstate => ?_⟩⟩
    · obtain ⟨hslots, hcnt, hbseq, hpark⟩ := pushInward_edge (mkBubble (if last then s.pace.rank else .none) g.cur g.lastBseq) hparked hquota
      obtain ⟨honly, hothers⟩ := pushInward_edgesOnly s e (mkBubble (if last then s.pace.rank else .none) g.cur g.lastBseq)
      exact ⟨_, hrun.trans (congrArg _ (inward_rakes hhold hclaimed hparked hquota hroom hrake)), honly, hslots, hcnt, hbseq, hpark, hothers, rfl, rfl⟩
    · obtain ⟨hedges, htiles, hpace⟩ := inwardPop_fabric s e
      have hedge : ∀ i, (inwardPop s e).edge i = s.edge i := fun i => edge_of_edges hedges i
      have htoken : inwardToken s e u = if e.val / 32 = 3 then { u with mark := if last then s.pace.rank else u.mark }
          else { u with ctx := g.cur, mark := if last then s.pace.rank else .none } := by
        simp only [inwardToken, beq_iff_eq]
        rfl
      have hbseq := inwardToken_bseq s e u
      rw [htoken] at hbseq
      obtain ⟨hslots, hcnt, hlast, hpark⟩ := pushInward_edge (s := inwardPop s e) (inwardToken s e u) (by rw [hedge]; exact hparked)
        (by rw [hedge]; exact hquota)
      obtain ⟨-, hothers⟩ := pushInward_edgesOnly (inwardPop s e) e (inwardToken s e u)
      rw [hedge] at hslots hcnt hpark
      refine ⟨_, hrun.trans (congrArg _ (inward_takes hhold hclaimed hparked hquota hroom hrake hhead hskew)),
        givesHead_pushInward (inwardPop_givesHead hhead), ?_, hcnt, ?_, hpark, fun i hi => (hothers i hi).trans (hedge i), htiles, hpace⟩
      · rw [← htoken]
        exact hslots
      · rw [← htoken]
        exact hlast
    · obtain ⟨a, ha⟩ := inward_skews hhold hclaimed hparked hquota hroom hrake hhead hskew
      exact ⟨_, hrun.trans (congrArg _ ha), event_aborts _ _ _ (by decide), event_firstCode (by decide) hstate, event_edges _ _ _,
        event_tiles _ _ _⟩
  case outward =>
    intro s e u r hz hf hhold g hclaimed hparked hquota hhead moved
    have hrun := exec_slotTransfer (m := .outward e) hz hf
    refine ⟨fun hroom hpar => ?_, fun hroom hpar hstate => ?_, fun hside hcred => ⟨fun hrake hdrop hpar => ?_, fun hrake => ?_⟩⟩
    · obtain ⟨hedges, htiles, hpace⟩ := outwardPut_fabric s e u
      have hedge : ∀ i, (outwardPut s e u).edge i = s.edge i := fun i => edge_of_edges hedges i
      obtain ⟨hslots, hcnt, hmark, hpark⟩ := popOutward_edge (s := outwardPut s e u) u (r := r) (by rw [hedge]; exact hparked)
        (by rw [hedge]; exact hquota) (by rw [hedge]; exact hhead)
      rw [hedge] at hcnt hmark hpark
      exact ⟨_, hrun.trans (congrArg _ (outward_gives hhold hclaimed hparked hquota hhead hroom hpar)), outwardPut_takesToken u hroom,
        ⟨hslots, hcnt, hmark, hpark, fun i hi => (popOutward_others _ _ _ i hi).trans (hedge i), htiles⟩, hpace⟩
    · obtain ⟨a, ha⟩ := outward_badParity hhold hclaimed hparked hquota hhead hroom hpar
      exact ⟨_, hrun.trans (congrArg _ ha), event_aborts _ _ _ (by decide), event_firstCode (by decide) hstate, event_edges _ _ _⟩
    · have hroom := outwardRoom_of_noCredit hside hcred
      obtain ⟨hslots, hcnt, hmark, hpark⟩ := popOutward_edge (s := { s with pace := { s.pace with rakeDropCnt := satInc s.pace.rakeDropCnt } }) u
        hparked hquota hhead
      exact ⟨_, hrun.trans (congrArg _ (outward_drops hhold hclaimed hparked hquota hhead hside hroom hrake hdrop hpar)),
        ⟨hslots, hcnt, hmark, hpark, popOutward_others _ _ _, rfl⟩, rfl, rfl⟩
    · exact hrun.trans (congrArg _ (outward_stands hhold hclaimed hparked hquota hhead (outwardRoom_of_noCredit hside hcred) hrake))

end Sys2Proof.Claims
end

section
/-! SUPPORT. Firings of an F tile: FUN, BIN, POOL and BIL (R175 to R178, R182, R183, R187). -/

namespace Sys2Proof.Claims

open Sys2Proof Sys2Proof.Machine

/-! ## A firing of an F tile -/

/-- A plan of an F tile changes the tile's F state and the marker it keeps, and nothing else of it. -/
def ChangesF (g g' : GridTile) : Prop := g' = { g with f := g'.f, closeMark := g'.closeMark }

theorem changesF_setF (g : GridTile) (f : FState) : ChangesF g { g with f := f } := rfl

theorem ChangesF.refl (g : GridTile) : ChangesF g g := rfl

theorem keepMark_changesF {g g' : GridTile} (h : ChangesF g g') (closing : Bool) (ts : List (Nat × Token)) :
    ChangesF g (keepMark g' closing ts) := by
  unfold ChangesF at *
  rw [h]
  rfl

theorem clean_changesF {g g' : GridTile} (h : g.badParity = []) (hc : ChangesF g g') (st : StoreId) (i : Nat) : ChangesF g (g'.clean st i) := by
  have hparity : g'.badParity = [] := by
    rw [hc]
    exact h
  rw [clean_of_nil hparity]
  exact hc

theorem clean_f (g : GridTile) (st : StoreId) (i : Nat) : (g.clean st i).f = g.f := by
  unfold GridTile.clean
  split <;> rfl

/-- A firing of an F tile whose plan finds nothing wrong and changes its F state: that state is what it leaves. -/
theorem fire_fPlan {s : State} {t : Fin 1024} {opc : Nat} {ready : GridTile → BitVec 64 → Bool}
    {consts : GridTile → BitVec 64 → List Nat} {plan : State → GridTile → BitVec 64 → List (Nat × Token) → Plan} {p : Plan}
    (hp : plan s (s.tile t) (s.tile t).instr (firing s t) = p) (hstands : Stands s t .f opc)
    (hready : ready (s.tile t) (s.tile t).instr = true) (hclosing : closesOk s t p.closes) (hfaults : p.faults = []) (hquota : quotaMet s t)
    (hf : ChangesF (s.tile t) p.g) (hcounts : p.counts = true) (hjump : p.jump = none) (hwarns : p.warns = []) :
    Fired s (fire s t .f opc ready consts plan) t p.out ∧ ((fire s t .f opc ready consts plan).tile t).f = p.g.f := by
  have hplan : PlainPlan (s.tile t) p :=
    ⟨by rw [hf]; exact ⟨rfl, rfl, rfl, rfl, rfl, rfl, rfl, rfl, rfl⟩, hcounts, hjump, by rw [hwarns]; exact .nil⟩
  have hpark : ParkClean .f p.g := ⟨fun h => Kind.noConfusion h, fun h => Kind.noConfusion h⟩
  obtain ⟨hfired, q, -, htile⟩ := fire_plainPlan (consts := consts) hp hstands hready hclosing hfaults hquota hplan hpark
  exact ⟨hfired, by rw [htile]; exact firedTile_f s .f p _ _⟩

/-! ## FUN and BIN (R182) -/

theorem exec_funOf {t : Fin 1024} {c : Instr} {f : Nat} (h : funOf t c = some f) (s : State) : exec c s = .next (funFire s t f) := by
  unfold funOf at h
  split at h
  case h_8 => cases h
  all_goals
    obtain ⟨rfl, heq⟩ := Option.ite_none_right_eq_some.mp h
    cases heq
    rfl

theorem funPlan_changesF (sub : Nat) (s : State) (g : GridTile) (w : BitVec 64) (ts : List (Nat × Token)) :
    ChangesF g (funPlan sub s g w ts).g := by
  refine keepMark_changesF ?_ _ _
  split
  · exact changesF_setF g _
  · exact .refl g

/-- FUN may hold a token, and leaves the rest of the F state. -/
theorem funPlan_f (sub : Nat) (s : State) (g : GridTile) (w : BitVec 64) (ts : List (Nat × Token)) :
    (funPlan sub s g w ts).g.f = { g.f with held := (funPlan sub s g w ts).g.f.held } := by
  simp only [funPlan, keepMark]
  split <;> rfl

theorem exec_binOf {t : Fin 1024} {c : Instr} {n : Nat} {op : FloatFmt → FloatFmt → Nat → Nat → Nat} (h : binOf t c = some (n, op)) (s : State) :
    exec c s = .next (binFire s t n) ∧ ∀ f o a b, binElem n f o a b = op f o a b := by
  unfold binOf at h
  split at h
  case h_9 => cases h
  all_goals
    obtain ⟨rfl, heq⟩ := Option.ite_none_right_eq_some.mp h
    cases heq
    exact ⟨rfl, fun _ _ _ _ => rfl⟩

/-- A BIN gives one token on a port. -/
theorem fReady_bin {s : State} {t : Fin 1024} (hopc : iOpc (s.tile t).instr = 2)
    (hroom : roomAll s.adr .f (s.tile t) (iOut (s.tile t).instr) = true) :
    fReady (fun _ _ => true) s (s.tile t) (s.tile t).instr = true := by
  simpa [fReady, fGives, hopc, roomAll, roomFor] using hroom

/-- Settles O20: the plans of FUN and BIN are what the statement has them give. -/
theorem funBinFirings : Obligations.FunBinFirings := by
  constructor
  · intro s t c f hc hstands hquota g w hsub hready hcloses us ys
    have hfun : (fSub w == f && fReady funCloses s g w) = true := by simp [hsub, hready]
    obtain ⟨hfired, hf⟩ := fire_fPlan (ready := fun g w => fSub w == f && fReady funCloses s g w) (consts := oneConst) (plan := funPlan f) rfl
      hstands hfun hcloses rfl hquota (funPlan_changesF ..) rfl rfl rfl
    rw [funPlan_f] at hf
    exact ⟨_, exec_funOf hc s, hfired, (congrArg FState.vb hf :), (congrArg FState.pos hf :), (congrArg FState.phase hf :)⟩
  · intro s t c n op hc hstands hquota g w hsub hroom ys
    obtain ⟨hexec, hop⟩ := exec_binOf hc s
    have hready : (fSub w == n && fReady (fun _ _ => true) s g w) = true := by
      simp only [hsub, beq_self_eq_true, Bool.true_and]
      exact fReady_bin (iOpc_of_canFire hstands.canFire) hroom
    obtain ⟨hfired, hf⟩ := fire_fPlan (ready := fun g w => fSub w == n && fReady (fun _ _ => true) s g w) (consts := binConsts) (plan := binPlan n)
      rfl hstands hready (closesOk_true s t) rfl hquota (keepMark_changesF (.refl g) _ _) rfl rfl rfl
    simp only [binPlan, hop] at hfired
    exact ⟨_, hexec, hfired, hf⟩

/-! ## POOL (R175 to R178) and BIL (R187) -/

theorem poolAdvance_of_nil {g : GridTile} (h : g.badParity = []) :
    ∃ pos fill, poolAdvance g = { g with f := { g.f with pos := pos, fill := fill } } := by
  unfold poolAdvance
  dsimp only
  split
  · exact ⟨_, _, clean_of_nil (g := { g with f := { g.f with fill := 0, pos := _ } }) h _ _⟩
  · exact ⟨g.f.pos, _, rfl⟩

/-- With no wrong parity a POOL changes its F state alone; the tokens held are let go where a window closes. -/
theorem poolPlan_g (avg : Bool) (s : State) {g : GridTile} (w : BitVec 64) (ts : List (Nat × Token)) (h : g.badParity = []) :
    ChangesF g (poolPlan avg s g w ts).g ∧
      (poolPlan avg s g w ts).g.f.held = if poolCloses g w then [] else fHeld g (tokAt ts 0) := by
  simp only [poolPlan]
  split
  · next hcloses =>
    obtain ⟨pos, fill, hg⟩ := poolAdvance_of_nil (g := keepMark (keepHeld g true (fHeld g (tokAt ts 0))) true ts) h
    rw [hcloses, hg]
    exact ⟨rfl, rfl⟩
  · next hcloses => exact ⟨rfl, by simp [keepMark, keepHeld, hcloses]⟩

theorem poolFire_effect {s : State} {t : Fin 1024} {avg : Bool} (hstands : Stands s t .f 5) (hquota : quotaMet s t)
    (hsub : fSub (s.tile t).instr = b2n avg) (hready : fReady poolCloses s (s.tile t) (s.tile t).instr = true)
    (hcloses : closesOk s t (poolCloses (s.tile t) (s.tile t).instr)) :
    Fired s (poolFire s t avg) t (poolPlan avg s (s.tile t) (s.tile t).instr (firing s t)).out ∧
      ((poolFire s t avg).tile t).f.held =
        if poolCloses (s.tile t) (s.tile t).instr then [] else fHeld (s.tile t) (tokAt (firing s t) 0) := by
  obtain ⟨hchanges, hheld⟩ := poolPlan_g avg s (s.tile t).instr (firing s t) hstands.parity
  obtain ⟨hfired, hf⟩ := fire_fPlan (ready := fun g w => fSub w == b2n avg && fReady poolCloses s g w) (consts := fun _ _ => [])
    (plan := poolPlan avg) rfl hstands (by simp [hsub, hready]) hcloses (parityFaults_nil hstands.parity _ _) hquota hchanges rfl rfl rfl
  exact ⟨hfired, (congrArg FState.held hf).trans hheld⟩

theorem bilPlan_g (s : State) {g : GridTile} (w : BitVec 64) (ts : List (Nat × Token)) (h : g.badParity = []) :
    ChangesF g (bilPlan s g w ts).g ∧
      (bilPlan s g w ts).g.f.phase = if bilCloses g w then (if g.f.phase.toNat < fSub w then g.f.phase + 1 else 0) else g.f.phase := by
  simp only [bilPlan]
  split
  · refine ⟨clean_changesF h ?_ _ _, congrArg FState.phase (clean_f _ _ _)⟩
    rfl
  · exact ⟨rfl, rfl⟩

/-- Settles O22: the plans of POOL and BIL are what the statement has them give. -/
theorem poolBilFiring : Obligations.PoolBilFiring := by
  intro s t hquota g w us pool
  refine ⟨fun hstands hsub hready hcloses => ?_, fun hstands hsub hready hcloses => ?_, fun hstands hready hcloses => ?_⟩
  · exact ⟨_, rfl, poolFire_effect (avg := false) hstands hquota hsub hready hcloses⟩
  · exact ⟨_, rfl, poolFire_effect (avg := true) hstands hquota hsub hready hcloses⟩
  · obtain ⟨hchanges, hphase⟩ := bilPlan_g s w (firing s t) hstands.parity
    obtain ⟨hfired, hf⟩ := fire_fPlan (ready := fReady bilCloses s) (consts := bilConsts) (plan := bilPlan) rfl hstands hready hcloses
      (parityFaults_nil hstands.parity _ _) hquota hchanges rfl rfl rfl
    exact ⟨_, rfl, hfired, (congrArg FState.phase hf).trans hphase⟩

end Sys2Proof.Claims
end

section
/-! SUPPORT. Vector firings of an F tile: the order of FP32 patterns, VEC and WACC (R184, R185). -/

namespace Sys2Proof.Claims

open Sys2Proof Sys2Proof.Machine

/-! ## The order of FP32 patterns -/

/-- The number that a fraction stands for. -/
def ratOf (x : Frac) : ℚ := (x.num : ℚ) / (x.den : ℚ)

theorem lt_iff_ratOf {x y : Frac} (hx : 0 < x.den) (hy : 0 < y.den) : x.lt y = true ↔ ratOf x < ratOf y := by
  unfold Frac.lt ratOf
  rw [decide_eq_true_eq, div_lt_div_iff₀ (by exact_mod_cast hx) (by exact_mod_cast hy)]
  exact_mod_cast Iff.rfl

theorem pow2_den (e : Int) : 0 < (pow2 e).den := by
  unfold pow2
  split
  · exact Nat.one_pos
  · exact Nat.two_pow_pos _

theorem value_den (f : FloatFmt) (w : Nat) : 0 < (f.value w).den := by
  have hpos : ∀ (e : Int) (n : Nat), 0 < ((pow2 e).mul (Frac.ofInt n)).den := fun e n => by
    simpa [Frac.mul, Frac.ofInt] using pow2_den e
  unfold FloatFmt.value
  dsimp only
  split
  · exact hpos _ _
  · exact hpos _ _

theorem fp32Lt_iff (x y : Nat) : fp32Lt x y = true ↔ ratOf (FloatFmt.fp32.value x) < ratOf (FloatFmt.fp32.value y) :=
  lt_iff_ratOf (value_den _ _) (value_den _ _)

theorem fp32Lt_eq_false_iff (x y : Nat) : fp32Lt x y = false ↔ ratOf (FloatFmt.fp32.value y) ≤ ratOf (FloatFmt.fp32.value x) := by
  rw [← not_lt, ← fp32Lt_iff, Bool.not_eq_true]

/-- The greatest of some patterns is one of them, and none is above it. -/
theorem maxOf_greatest (m : Nat) (xs : List Nat) : maxOf m xs ∈ m :: xs ∧ ∀ x ∈ m :: xs, fp32Lt (maxOf m xs) x = false := by
  induction xs generalizing m with
  | nil => simp [maxOf, fp32Lt_eq_false_iff]
  | cons x r ih =>
    obtain ⟨hmem, hmax⟩ := ih (if fp32Lt m x then x else m)
    simp only [fp32Lt_eq_false_iff, List.forall_mem_cons] at hmax ⊢
    obtain ⟨hfirst, hrest⟩ := hmax
    rw [maxOf]
    by_cases hlt : fp32Lt m x = true
    · rw [if_pos hlt] at hmem hfirst hrest ⊢
      exact ⟨List.mem_cons_of_mem _ hmem, ((fp32Lt_iff m x).mp hlt).le.trans hfirst, hfirst, hrest⟩
    · rw [if_neg hlt] at hmem hfirst hrest ⊢
      have hle := (fp32Lt_eq_false_iff m x).mp (by simpa using hlt)
      refine ⟨?_, hfirst, hle.trans hfirst, hrest⟩
      rcases List.mem_cons.mp hmem with h | h
      · rw [h]
        exact List.mem_cons_self
      · exact List.mem_cons_of_mem _ (List.mem_cons_of_mem _ h)

/-- Of equal greatest elements ARGMAX names the first. -/
theorem argmax_first {xs : List Nat} (h : xs ≠ []) :
    argmax xs < xs.length ∧ (∀ x ∈ xs, fp32Lt (lget 0 xs (argmax xs)) x = false) ∧
      ∀ k < argmax xs, ∃ x ∈ xs, fp32Lt (lget 0 xs k) x = true := by
  obtain ⟨x, r, rfl⟩ := List.exists_cons_of_ne_nil h
  obtain ⟨hmem, hmax⟩ := maxOf_greatest x r
  have hlt : argmax (x :: r) < (x :: r).length := List.findIdx_lt_length_of_exists ⟨_, hmem, by
    simpa using hmax _ hmem⟩
  have hget : ∀ k (hk : k < (x :: r).length), lget 0 (x :: r) k = (x :: r)[k] := fun k hk => List.getD_eq_getElem _ _ hk
  refine ⟨hlt, fun y hy => ?_, fun k hk => ⟨_, hmem, ?_⟩⟩
  · have hfound : (!fp32Lt (x :: r)[argmax (x :: r)] (maxOf x r)) = true := List.findIdx_getElem (w := hlt)
    rw [Bool.not_eq_true', fp32Lt_eq_false_iff] at hfound
    rw [hget _ hlt, fp32Lt_eq_false_iff]
    exact ((fp32Lt_eq_false_iff _ _).mp (hmax y hy)).trans hfound
  · have hbefore := List.not_of_lt_findIdx hk
    rw [hget _ (hk.trans hlt)]
    simpa using hbefore

/-! ## What a VEC gives -/

/-- The greatest of the elements that SMAX does not leave out. -/
theorem greatestLive {neg x : Nat} {xs r : List Nat} (h : (xs.filter fun x => x != neg) = x :: r) :
    maxOf x r ∈ xs ∧ maxOf x r ≠ neg ∧ ∀ y ∈ xs, y ≠ neg → fp32Lt (maxOf x r) y = false := by
  obtain ⟨hmem, hmax⟩ := maxOf_greatest x r
  have hlive : ∀ y, y ∈ x :: r ↔ y ∈ xs ∧ y ≠ neg := fun y => by rw [← h]; simp
  obtain ⟨hin, hne⟩ := (hlive _).mp hmem
  exact ⟨hin, hne, fun y hy hyn => hmax y ((hlive y).mpr ⟨hy, hyn⟩)⟩

theorem vecSmax_gives (g : GridTile) (w : BitVec 64) (xs : List Nat) : vecGives 0 g w xs (vecResult 0 g w xs).y (vecResult 0 g w xs).stat := by
  cases hlive : xs.filter fun x => x != FloatFmt.fp32.signBit + convert (fAf w) .fp32 (fAf w).maxBits with
  | nil =>
    refine ⟨(Config.emptyMax (vecN g w)).toNat, fun ⟨x, hx, hne⟩ => absurd (List.filter_eq_nil_iff.mp hlive x hx) (by simpa using hne), ?_⟩
    simp [vecResult, vecSmax, vecAlpha, hlive]
  | cons x r =>
    refine ⟨maxOf x r, fun _ => greatestLive hlive, ?_⟩
    simp [vecResult, vecSmax, vecAlpha, hlive]

/-- The result of a vector that is not empty is what R184 states of its operation. -/
theorem vecResult_gives {g : GridTile} {w : BitVec 64} {xs : List Nat} {n : Nat} (hn : n < 4) (h : xs ≠ []) :
    vecGives n g w xs (vecResult n g w xs).y (vecResult n g w xs).stat := by
  obtain rfl | rfl | rfl | rfl : n = 0 ∨ n = 1 ∨ n = 2 ∨ n = 3 := by omega
  · exact vecSmax_gives g w xs
  · exact ⟨rfl, rfl⟩
  · obtain ⟨hlt, hmax, hfirst⟩ := argmax_first h
    refine ⟨argmax xs, hlt, hmax, hfirst, ?_, rfl⟩
    simp [vecResult, vecArgmax, truth]
  · obtain ⟨x, r, rfl⟩ := List.exists_cons_of_ne_nil h
    obtain ⟨hmem, hmax⟩ := maxOf_greatest x r
    exact ⟨rfl, maxOf x r, hmem, hmax, rfl⟩

/-! ## VB -/

theorem mget_fill (m : AMap Word) (base n lim : Nat) (f : Nat → Word) (a : Nat) :
    mget 0 (writeAll 0 m (((List.range n).filter fun l => base + l < lim).map fun l => (base + l, f l))) a =
      if base ≤ a ∧ a < base + n ∧ a < lim then f (a - base) else mget 0 m a := by
  split
  · next hin =>
    refine mget_writeAll_mem 0 (List.mem_map.mpr ⟨a - base, ?_, by simp; omega⟩) ?_ m
    · simp only [List.mem_filter, List.mem_range, decide_eq_true_eq]
      omega
    · simp only [List.mem_map, List.mem_filter, List.mem_range, Prod.mk.injEq]
      rintro u ⟨l, -, rfl, rfl⟩
      rw [Nat.add_sub_cancel_left]
  · next hout =>
    refine mget_writeAll_other 0 ?_ m
    simp only [List.mem_map, List.mem_filter, List.mem_range, decide_eq_true_eq]
    rintro e ⟨l, ⟨hl, hlim⟩, rfl⟩ rfl
    exact hout ⟨Nat.le_add_right _ _, Nat.add_lt_add_left hl _, hlim⟩

/-- The elements of VB that a VEC firing writes. -/
def vbEntries (g : GridTile) (w : BitVec 64) (u : Token) : List (Nat × Word) :=
  ((List.range 8).filter fun l => 8 * g.rep + l < vecN g w).map fun l =>
    (8 * g.rep + l, BitVec.ofNat 32 (convert (fAf w) .fp32 ((fAf w).finite (tokElem u 16 l))))

theorem foldl_vb {g : GridTile} (h : g.badParity = []) (place : Nat → Nat) (v : Nat → Word) (ls : List Nat) :
    ls.foldl (fun x l => ({ x with f := { x.f with vb := mset 0 x.f.vb (place l) (v l) } } : GridTile).clean .vb (place l)) g =
      { g with f := { g.f with vb := writeAll 0 g.f.vb (ls.map fun l => (place l, v l)) } } := by
  induction ls generalizing g with
  | nil => rfl
  | cons l r ih =>
    have hfirst := clean_of_nil (g := { g with f := { g.f with vb := mset 0 g.f.vb (place l) (v l) } }) h .vb (place l)
    rw [List.foldl_cons, hfirst]
    exact ih h

theorem vbFill_of_nil {g : GridTile} (h : g.badParity = []) (w : BitVec 64) (u : Token) :
    vbFill g w u = { g with f := { g.f with vb := writeAll 0 g.f.vb (vbEntries g w u) } } := foldl_vb h _ _ _

/-! ## The tokens of a vector (log entry 81) -/

theorem perTok_of (c : Nat) : 0 < perTok (fmtOfCode c) ∧ perTok (fmtOfCode c) ≤ 8 := by
  unfold fmtOfCode
  split
  · decide
  · split <;> decide

/-- The first tokens of some elements are those of as many elements as they hold. -/
theorem take_valueTokens {f : FloatFmt} (hper : 0 < perTok f) {c : BitVec 2} {b : BitVec 4} {vs : List Nat} {r n : Nat} (hr : perTok f * r ≤ n)
    (hn : n ≤ vs.length) : (valueTokens f c b vs).take r = (valueTokens f c b (vs.take n)).take r := by
  have hper' : 0 < 128 / f.width := hper
  have hr' : 128 / f.width * r ≤ n := hr
  have hcount : ∀ m, n ≤ m → r ≤ (m + 128 / f.width - 1) / (128 / f.width) := fun m hm => by
    rw [Nat.le_div_iff_mul_le hper', Nat.mul_comm]
    omega
  have hlen : (vs.take n).length = n := List.length_take_of_le hn
  simp only [valueTokens, ← List.map_take, List.take_range, hlen, Nat.min_eq_left (hcount _ hn), Nat.min_eq_left (hcount _ le_rfl)]
  refine List.map_congr_left fun t ht => ?_
  have hin : 128 / f.width * t + 128 / f.width ≤ n := by
    have hmul : 128 / f.width * (t + 1) ≤ 128 / f.width * r := Nat.mul_le_mul_left _ (List.mem_range.mp ht)
    rw [Nat.mul_add, Nat.mul_one] at hmul
    omega
  rw [List.drop_take, List.take_take, Nat.min_eq_left (by omega)]

theorem take_padTo (n : Nat) (ys : List Nat) : (padTo n ys).take n = (List.range n).map fun k => lget 0 ys k := by
  refine List.ext_getElem (by simp [padTo]; omega) fun k hk _ => ?_
  simp only [List.getElem_take, List.getElem_map, List.getElem_range, lget, padTo]
  rw [List.getElem_append]
  split
  · next hlt => exact (List.getD_eq_getElem _ _ hlt).symm
  · next hge =>
    rw [List.getElem_replicate]
    exact (List.getD_eq_default _ _ (by omega)).symm

theorem vecTokens_padTo (w : BitVec 64) (c : BitVec 2) (b : BitVec 4) (ys : List Nat) :
    vecTokens (fOf w) (iRep w) c b (padTo (8 * (iRep w + 1)) ys) =
      (valueTokens (fOf w) c b ((List.range (8 * (iRep w + 1))).map fun k => lget 0 ys k)).take (iRep w + 1) := by
  obtain ⟨hpos, hle⟩ : 0 < perTok (fOf w) ∧ perTok (fOf w) ≤ 8 := perTok_of _
  rw [vecTokens, take_valueTokens hpos (Nat.mul_le_mul_right _ hle) (by simp [padTo]; omega), take_padTo]

/-! ## VEC -/

theorem exec_vecOf {t : Fin 1024} {c : Instr} {n : Nat} (h : vecOf t c = some n) (s : State) : exec c s = .next (vecFire s t n) ∧ n < 4 := by
  unfold vecOf at h
  split at h
  case h_5 => cases h
  all_goals
    obtain ⟨rfl, heq⟩ := Option.ite_none_right_eq_some.mp h
    cases heq
    exact ⟨rfl, by decide⟩

/-- The vector of a VEC firing, with the elements that it writes. -/
def vecElems (g : GridTile) (w : BitVec 64) (u : Token) : List Nat :=
  (List.range (vecN g w)).map fun k => (mget 0 (writeAll 0 g.f.vb (vbEntries g w u)) k).toNat

section
variable (n : Nat) (s : State) {g : GridTile} (w : BitVec 64) (ts : List (Nat × Token)) (h : g.badParity = [])
include h

theorem vecPlan_g : ChangesF g (vecPlan n s g w ts).g ∧ (vecPlan n s g w ts).g.f.vb = writeAll 0 g.f.vb (vbEntries g w (tokAt ts 0)) := by
  simp only [vecPlan, vbFill_of_nil h]
  exact ⟨rfl, rfl⟩

theorem vecPlan_faults : (vecPlan n s g w ts).faults = [] := by
  have hparity : (vbFill g w (tokAt ts 0)).badParity = [] := by
    rw [vbFill_of_nil h]
    exact h
  simp only [vecPlan, parityFaults_nil hparity, ite_self]

theorem vecPlan_out :
    let r := vecResult n g w (vecElems g w (tokAt ts 0))
    let m := lastMark s.pace.rank g w ts
    let bub := (g.rep == 0 || g.f.allBub) && (tokAt ts 0).bub && iBubm w == 0
    (vecPlan n s g w ts).out = if lastRep g w then
        (if bitAt (iOut w) 0 && n != 3 then [(0, markLast m (if bub then bubbles (iRep w + 1) g.cur (copyBseq ts)
          else (valueTokens (fOf w) g.cur (copyBseq ts)
            ((List.range (8 * (iRep w + 1))).map fun k => lget 0 r.y k)).take (iRep w + 1)))] else []) ++
        (if bitAt (iOut w) 1 then [(1, markLast m (if bub then bubbles 1 g.cur (copyBseq ts)
          else [mkToken (mkPayload (if n = 2 then 16 else 32) r.stat) .none g.cur (copyBseq ts)]))] else []) else [] := by
  simp only [vecPlan, vbFill_of_nil h, vecTokens_padTo]
  rfl

end

/-- The firing of a WACC lane by lane: VB[base + l] goes to new l of what it held. -/
theorem foldl_lanes {g : GridTile} (h : g.badParity = []) (base : Nat) (new : Nat → Word → Word) (n : Nat) :
    ∃ vb, (List.range n).foldl (fun x l =>
        ({ x with f := { x.f with vb := mset 0 x.f.vb (base + l) (new l (mget 0 x.f.vb (base + l))) } } : GridTile).clean .vb (base + l)) g =
      { g with f := { g.f with vb := vb } } ∧
    ∀ k, mget 0 vb k = if base ≤ k ∧ k < base + n then new (k - base) (mget 0 g.f.vb k) else mget 0 g.f.vb k := by
  induction n with
  | zero => exact ⟨g.f.vb, rfl, fun k => (if_neg (by omega)).symm⟩
  | succ n ih =>
    obtain ⟨vb, hfold, hvb⟩ := ih
    refine ⟨mset 0 vb (base + n) (new n (mget 0 vb (base + n))), ?_, fun k => ?_⟩
    · rw [List.range_succ, List.foldl_append, hfold]
      exact clean_of_nil (g := { g with f := { g.f with vb := mset 0 vb (base + n) (new n (mget 0 vb (base + n))) } }) h .vb (base + n)
    · by_cases hk : k = base + n
      · subst hk
        rw [mget_mset_self 0 vb, hvb, if_neg (by omega), if_pos (by omega), Nat.add_sub_cancel_left]
      · rw [mget_mset_other 0 _ vb _ _ _ hk, hvb]
        exact if_congr (by omega) rfl rfl

/-! ## WACC -/

/-- The tile whose VB a WACC firing adds to: the first repeat clears it. -/
def waccOld (g : GridTile) : GridTile := if g.rep = 0 then vbClear g else g

theorem waccOld_of_nil {g : GridTile} (h : g.badParity = []) :
    waccOld g = { g with f := { g.f with vb := (waccOld g).f.vb } } ∧ (waccOld g).badParity = [] ∧
      ∀ k, mget 0 (waccOld g).f.vb k = if g.rep = 0 then 0 else mget 0 g.f.vb k := by
  unfold waccOld
  split
  · have hnil : g.badParity.filter (fun p => p.1 != .vb) = g.badParity := by rw [h]; rfl
    refine ⟨by simp only [vbClear, hnil], hnil.trans h, fun k => rfl⟩
  · exact ⟨rfl, h, fun k => rfl⟩

/-- Lane l of VB after a WACC firing adds its product. -/
def waccNew (g : GridTile) (w : BitVec 64) (ts : List (Nat × Token)) (l : Nat) (x : Word) : Word :=
  BitVec.ofNat 32 (fadd32 x.toNat (FloatFmt.fp32.round
    (((fAf w).operand (tokElem (tokAt ts 1) 16 (g.rep / (fSub w + 1) % 8))).mul ((fAf w).operand (tokElem (tokAt ts 0) 16 l)))))

section
variable (s : State) {g : GridTile} (w : BitVec 64) (ts : List (Nat × Token)) (h : g.badParity = [])
include h

theorem waccPlan_effect :
    ∃ vb, ChangesF g (waccPlan s g w ts).g ∧ (waccPlan s g w ts).g.f.vb = vb ∧
      (∀ k, mget 0 vb k = if 8 * (g.rep % (fSub w + 1)) ≤ k ∧ k < 8 * (g.rep % (fSub w + 1)) + 8 then
        waccNew g w ts (k - 8 * (g.rep % (fSub w + 1))) (mget 0 (waccOld g).f.vb k) else mget 0 (waccOld g).f.vb k) ∧
      (waccPlan s g w ts).out = if lastRep g w then [(0, markLast (lastMark s.pace.rank g w ts)
        (if (g.rep == 0 || g.f.allBub) && (toksOf ts).all (fun u => u.bub) && iBubm w == 0 then
           bubbles (8 * (fSub w + 1) / perTok (fOf w)) g.cur (copyBseq ts)
         else valueTokens (fOf w) g.cur (copyBseq ts)
           ((List.range (8 * (fSub w + 1))).map fun k => convert .fp32 (fOf w) (mget 0 vb k).toNat)))] else [] := by
  obtain ⟨hold, hparity, -⟩ := waccOld_of_nil h
  obtain ⟨vb, hfold, hvb⟩ := foldl_lanes hparity (8 * (g.rep % (fSub w + 1))) (waccNew g w ts) 8
  have hlanes : (List.range 8).foldl (fun x l => waccLane (fAf w) (tokElem (tokAt ts 1) 16 (g.rep / (fSub w + 1) % 8))
      (tokElem (tokAt ts 0) 16 l) (8 * (g.rep % (fSub w + 1)) + l) x) (if g.rep = 0 then vbClear g else g) =
      { waccOld g with f := { (waccOld g).f with vb := vb } } := hfold
  refine ⟨vb, ?_, ?_, hvb, ?_⟩
  · simp only [waccPlan, hlanes]
    refine keepMark_changesF ?_ _ _
    rw [ChangesF, hold]
  · simp only [waccPlan, hlanes]
    rfl
  · simp only [waccPlan, hlanes]
    rfl

theorem waccPlan_faults : (waccPlan s g w ts).faults = [] := parityFaults_nil (waccOld_of_nil h).2.1 _ _

end

/-- Settles O21: the plans of VEC and WACC are what the statement has them write and give. -/
theorem vecWaccFirings : Obligations.VecWaccFirings := by
  constructor
  · intro s t c n hc hstands hquota g w u hsub hsome hready hcloses vb bub
    obtain ⟨hexec, hlt⟩ := exec_vecOf hc s
    obtain ⟨hchanges, hwrites⟩ := vecPlan_g n s w (firing s t) hstands.parity
    have hvb : ∀ k, mget 0 (writeAll 0 g.f.vb (vbEntries g w u)) k = vb k := fun k => mget_fill _ _ _ _ _ _
    have helems : vecElems g w u = (List.range (vecN g w)).map fun k => (vb k).toNat := by simp only [vecElems, hvb]
    have hne : ((List.range (vecN g w)).map fun k => (vb k).toNat) ≠ [] := by simpa using Nat.one_le_iff_ne_zero.mp hsome
    have hgo : (fSub w == n && fReady lastRep s g w) = true := by simp [hsub, hready]
    obtain ⟨hfired, hf⟩ := fire_fPlan (ready := fun g w => fSub w == n && fReady lastRep s g w) (consts := oneConst) (plan := vecPlan n) rfl
      hstands hgo hcloses (vecPlan_faults n s w _ hstands.parity) hquota hchanges rfl
      rfl rfl
    rw [vecPlan_out n s w _ hstands.parity] at hfired
    refine ⟨_, _, _, hexec, vecResult_gives hlt hne, ?_, fun k => ?_⟩
    · rw [← helems]
      exact hfired
    · exact (congrArg (fun f : FState => mget 0 f.vb k) hf).trans ((congrArg (fun m => mget 0 m k) hwrites).trans (hvb k))
  · intro s t hstands hquota g w j p hready hcloses old vb
    obtain ⟨m, hchanges, hwrites, hm, hout⟩ := waccPlan_effect s w (firing s t) hstands.parity
    have hvb : ∀ k, mget 0 m k = vb k := fun k => by
      rw [hm, (waccOld_of_nil hstands.parity).2.2]
      rfl
    obtain ⟨hfired, hf⟩ := fire_fPlan (ready := fReady lastRep s) (consts := fun _ _ => []) (plan := waccPlan) rfl hstands hready hcloses
      (waccPlan_faults s w _ hstands.parity) hquota hchanges rfl rfl rfl
    rw [show (waccPlan s (s.tile t) (s.tile t).instr (firing s t)).out = _ from hout] at hfired
    simp only [hvb] at hfired
    exact ⟨_, rfl, fun k => (congrArg (fun f : FState => mget 0 f.vb k) hf).trans ((congrArg (fun m => mget 0 m k) hwrites).trans (hvb k)),
      hfired⟩

end Sys2Proof.Claims
end

section
/-! SUPPORT. Firings of a W tile (R192 to R197). -/

namespace Sys2Proof.Claims

open Sys2Proof Sys2Proof.Machine

/-! ## A firing that produces or sets a flag -/

/-- A firing of a W tile whose plan finds nothing wrong and changes its W state at most: that state is what it leaves. -/
theorem wFire_effect {s : State} {t : Fin 1024} {opc : Nat} {plan : State → GridTile → BitVec 64 → List (Nat × Token) → Plan} {p : Plan}
    (hp : plan s (s.tile t) (s.tile t).instr (firing s t) = p) (hstands : Stands s t .w opc)
    (hready : wReady s (s.tile t) (s.tile t).instr = true) (hfaults : p.faults = []) (hquota : quotaMet s t)
    (hw : p.g = { s.tile t with w := p.g.w }) (hcounts : p.counts = true) (hjump : p.jump = none) (hwarns : p.warns = []) :
    Fired s (wFire s t opc plan) t p.out ∧ ((wFire s t opc plan).tile t).w = p.g.w := by
  have hplan : PlainPlan (s.tile t) p :=
    ⟨by rw [hw]; exact ⟨rfl, rfl, rfl, rfl, rfl, rfl, rfl, rfl, rfl⟩, hcounts, hjump, by rw [hwarns]; exact .nil⟩
  have hpark : ParkClean .w p.g := ⟨fun h => Kind.noConfusion h, fun h => Kind.noConfusion h⟩
  obtain ⟨hfired, q, -, htile⟩ := fire_plainPlan (ready := wReady s) (consts := fun _ _ => []) hp hstands hready trivial hfaults hquota hplan hpark
  exact ⟨hfired, (congrArg GridTile.w htile).trans (firedTile_w s .w p _ _)⟩

/-- A firing of a W tile that produces leaves its flags and counters. -/
theorem wFire_gives {s : State} {t : Fin 1024} {opc : Nat} {plan : State → GridTile → BitVec 64 → List (Nat × Token) → Plan}
    {out : List (Nat × List Token)} (hstands : Stands s t .w opc) (hready : wReady s (s.tile t) (s.tile t).instr = true)
    (hquota : quotaMet s t) (hp : ∃ steer, plan s (s.tile t) (s.tile t).instr (firing s t) = wPlan (s.tile t) (s.tile t).instr out steer) :
    Fired s (wFire s t opc plan) t out ∧ ((wFire s t opc plan).tile t).w = (s.tile t).w :=
  wFire_effect hp.choose_spec hstands hready (parityFaults_nil hstands.parity _ _) hquota rfl rfl rfl rfl

/-- SWITCH passes its token to the port that its control token names, where OUT has it. -/
theorem switchTo_eq_some_iff {w : BitVec 64} {u c : Token} {p : Nat} (hp : p ∈ maskPorts (iOut w)) :
    switchTo w u c = some p ↔ u.bub = false ∧ c.bub = false ∧ lane0 c = p := by
  have hport : p ≤ 3 ∧ bitAt (iOut w) p = true := by
    simp only [maskPorts, List.mem_filter, List.mem_range] at hp
    exact ⟨Nat.le_of_lt_succ hp.1, hp.2⟩
  unfold switchTo
  rw [Option.ite_none_right_eq_some]
  simp only [Bool.and_eq_true, Bool.not_eq_true', decide_eq_true_eq, Option.some.injEq]
  constructor
  · rintro ⟨⟨⟨⟨hu, hc⟩, -⟩, -⟩, hlane⟩
    exact ⟨hu, hc, hlane⟩
  · rintro ⟨hu, hc, hlane⟩
    rw [hlane]
    exact ⟨⟨⟨⟨hu, hc⟩, hport.1⟩, hport.2⟩, rfl⟩

section
variable (s : State) (g : GridTile) (w : BitVec 64) (ts : List (Nat × Token))

/-- A plan gives each port of OUT the tokens stated for it. -/
theorem wPlan_gives {f : Nat → List Token} {h : Nat → Token} {steer : Bool} (hf : ∀ p ∈ maskPorts (iOut w), [h p] = f p) :
    ∃ b, wPlan g w (onOuts w h) steer = wPlan g w ((maskPorts (iOut w)).map fun p => (p, f p)) b :=
  ⟨steer, congrArg (fun out => wPlan g w out steer) (List.map_congr_left fun p hp => congrArg (Prod.mk p) (hf p hp))⟩

theorem gatePlan_gives : ∃ b, gatePlan s g w ts = wPlan g w ((maskPorts (iOut w)).map fun p => (p,
    [if wPred g (iPred w) (tokAt ts 3) then passTok g (wMark s g w ts) (tokAt ts 0)
     else mkBubble (wMark s g w ts) g.cur (tokAt ts 0).bseq])) b :=
  wPlan_gives g w fun _ _ => rfl

theorem switchPlan_gives : ∃ b, switchPlan s g w ts = wPlan g w ((maskPorts (iOut w)).map fun p => (p,
    [if wPred g (iPred w) (tokAt ts 3) = true ∧ (tokAt ts 0).bub = false ∧ (tokAt ts 3).bub = false ∧ lane0 (tokAt ts 3) = p then
      passTok g (wMark s g w ts) (tokAt ts 0) else mkBubble (wMark s g w ts) g.cur (tokAt ts 0).bseq])) b := by
  refine wPlan_gives g w fun p hp => congrArg (fun u => [u]) (if_congr ?_ rfl rfl)
  rw [Option.ite_none_right_eq_some, switchTo_eq_some_iff hp]
  rfl

theorem selectPlan_gives : ∃ b, selectPlan s g w ts = wPlan g w ((maskPorts (iOut w)).map fun p => (p,
    [if wPred g (iPred w) (tokAt ts 3) = true ∧ selectOk w ts = true then passTok g (wMark s g w ts) (tokAt ts (selectFrom w ts))
     else mkBubble (wMark s g w ts) g.cur (selectBseq w ts)])) b :=
  wPlan_gives g w fun _ _ => congrArg (fun u => [u]) (if_congr (Bool.and_eq_true _ _ ▸ Iff.rfl) rfl rfl)

theorem cmpPlan_gives : ∃ b, cmpPlan s g w ts = wPlan g w ((maskPorts (iOut w)).map fun p => (p,
    [if wPred g (iPred w) (tokAt ts 3) = true ∧ (tokAt ts (((List.range 3).find? fun p => bitAt (iIn w) p).getD 0)).bub = false then
      mkToken (mkPayload 16 [b2n (cmpHolds (bits (iOpnd w) 16 2)
        (tokElem (tokAt ts (((List.range 3).find? fun p => bitAt (iIn w) p).getD 0)) 16 (bits (iOpnd w) 13 3)) (bits (iOpnd w) 0 12))])
        (wMark s g w ts) g.cur (copyBseq ts)
     else mkBubble (wMark s g w ts) g.cur (copyBseq ts)])) b := by
  refine wPlan_gives g w fun p hp => congrArg (fun u => [u]) (if_congr ?_ rfl rfl)
  rw [Bool.and_eq_true, Bool.not_eq_true']
  rfl

theorem loopPlan_g (h : g.badParity = []) :
    (loopPlan s g w ts).g = { g with w := { g.w with
      lc0 := if bitAt (iOpnd w) 17 then g.w.lc0 else loopNext w g.w.lc0
      lc1 := if bitAt (iOpnd w) 17 then loopNext w g.w.lc1 else g.w.lc1 } } := by
  simp only [loopPlan]
  cases bitAt (iOpnd w) 17 with
  | true => exact clean_of_nil (g := { g with w := { g.w with lc1 := loopNext w g.w.lc1 } }) h _ _
  | false => exact clean_of_nil (g := { g with w := { g.w with lc0 := loopNext w g.w.lc0 } }) h _ _

end

theorem setfPlan_g (s : State) {g : GridTile} (w : BitVec 64) (ts : List (Nat × Token)) (h : g.badParity = []) :
    let ok := wHolds g w ts
    let v := (tokAt ts 3).bub || lane0 (tokAt ts 3) != 0
    (setfPlan s g w ts).g = { g with w := { g.w with
      fl0 := if ok && !bitAt (iOpnd w) 0 then v else g.w.fl0, fl1 := if ok && bitAt (iOpnd w) 0 then v else g.w.fl1 } } := by
  intro ok v
  have hset : ∀ one, setFlag g one v = if one then { g with w := { g.w with fl1 := v } } else { g with w := { g.w with fl0 := v } } := by
    intro one
    refine clean_of_nil ?_ _ _
    cases one <;> exact h
  show (if ok then setFlag g (bitAt (iOpnd w) 0) v else g) = _
  rw [hset]
  cases ok <;> cases bitAt (iOpnd w) 0 <;> rfl

/-! ## LOOP and BR -/

/-- A plan that only jumps, of a core that consumes and produces nothing: the index moves, and the tokens of the pipeline stay in order. -/
theorem wFire_jumps {s : State} {t : Fin 1024} {opc : Nat} {plan : State → GridTile → BitVec 64 → List (Nat × Token) → Plan} {p : Plan}
    {x : WState} {pc : BitVec 8} (hp : plan s (s.tile t) (s.tile t).instr (firing s t) = p) (hstands : Stands s t .w opc)
    (hin : iIn (s.tile t).instr = 0) (hout : iOut (s.tile t).instr = 0) (hg : p.g = { s.tile t with w := x }) (hfaults : p.faults = [])
    (hnone : p.out = []) (hcounts : p.counts = false) (hjump : p.jump = some pc) (hwarns : p.warns = []) (hsteer : p.steer = false)
    (hnonfin : p.nonfin = 0) :
    let s' := wFire s t opc plan
    s'.tile t = { s.tile t with w := x, pc := pc, rep := 0, pipe := (s'.tile t).pipe, rest := (s'.tile t).rest } ∧
      (∀ i, mget [] (s'.tile t).pipe i ++ mget [] (s'.tile t).rest i = mget [] (s.tile t).pipe i) ∧
      (∀ i, i ≠ t.val → s'.tile i = s.tile i) ∧ s' = { s with tiles := s'.tiles } := by
  intro s'
  have hready : wReady s (s.tile t) (s.tile t).instr = true := by
    rw [wReady, hout]
    rfl
  have hheads : firing s t = [] := by
    rw [firing, heads, hin]
    rfl
  have hfire : s' = afterFiring s t p (firedTile s .w p (s.tile t).instr (firing s t)) :=
    fire_eq_afterFiring (ready := wReady s) (consts := fun _ _ => []) hp hstands hready
      (closingFaults_nil trivial) hfaults fun h => absurd h (by simp [hcounts])
  have hset : s' = s.setTile t (firedTile s .w p (s.tile t).instr (firing s t)) := by
    rw [hfire]
    simp [afterFiring, hsteer, hwarns, hcounts, hnonfin, raiseWarns, countNonfin]
  have htile : firedTile s .w p (s.tile t).instr (firing s t) =
      { spill (coreDepth s.adr .w) { s.tile t with w := x } with pc := pc, rep := 0 } := by
    rw [hheads]
    simp [firedTile, hnone, hcounts, hjump, hg, consume, produce, advance, countFiring]
  obtain ⟨-, -, hrest, -⟩ := fireable_of_canFire hstands.canFire
  have hself : s'.tile t = { spill (coreDepth s.adr .w) { s.tile t with w := x } with pc := pc, rep := 0 } := by
    rw [hset, htile]
    exact State.setTile_tile_self _ _ _
  refine ⟨?_, fun i => ?_, fun i hi => ?_, ?_⟩
  · rw [hself, spill_frame]
  · rw [hself]
    exact spill_pipe_append_rest _ { s.tile t with w := x } hrest i
  · rw [hset]
    exact (State.setTile_tile _ _ _ _).trans (if_neg hi)
  · rw [hset]
    rfl

/-- Settles O23: each instruction's plan gives what the statement has, and leaves the rest to the firing or, with LOOP and BR, to the jump. -/
theorem steeringFirings : Obligations.SteeringFirings := by
  constructor
  · intro s t hquota g w ts m ok u gives hready
    refine ⟨fun hstands => ?gate, fun hstands => ?bubg, fun hstands => ?switch, fun hstands => ?select, fun hstands => ?cmp, fun hstands => ?setf⟩
    case gate => exact ⟨_, rfl, wFire_gives hstands hready hquota (gatePlan_gives ..)⟩
    case bubg => exact ⟨_, rfl, wFire_gives hstands hready hquota ⟨_, rfl⟩⟩
    case switch => exact ⟨_, rfl, wFire_gives hstands hready hquota (switchPlan_gives ..)⟩
    case select => exact ⟨_, rfl, wFire_gives hstands hready hquota (selectPlan_gives ..)⟩
    case cmp => exact ⟨_, rfl, wFire_gives hstands hready hquota (cmpPlan_gives ..)⟩
    case setf =>
      obtain ⟨hfired, hw⟩ := wFire_effect (plan := setfPlan) rfl hstands hready (parityFaults_nil hstands.parity _ _) hquota
        (by rw [setfPlan_g _ _ _ hstands.parity]) rfl rfl rfl
      rw [setfPlan_g _ _ _ hstands.parity] at hw
      exact ⟨_, rfl, hfired, (congrArg WState.fl0 hw :), (congrArg WState.fl1 hw :), (congrArg WState.lc0 hw :), (congrArg WState.lc1 hw :)⟩
  · intro s t g w one c goes hin hout
    refine ⟨fun hstands => ?_, fun hstands => ?_⟩
    · exact ⟨_, rfl, wFire_jumps (plan := loopPlan) rfl hstands hin hout (loopPlan_g _ _ _ _ hstands.parity)
        (parityFaults_nil hstands.parity _ _) rfl rfl rfl rfl rfl rfl⟩
    · exact ⟨_, rfl, wFire_jumps (plan := brPlan) rfl hstands hin hout rfl (parityFaults_nil hstands.parity _ _) rfl rfl rfl rfl rfl rfl⟩

end Sys2Proof.Claims
end

section
/-! SUPPORT. Hold requests and the passing of device time (R50 to R53). -/

namespace Sys2Proof.Claims

open Sys2Proof Sys2Proof.Machine

/-! ## The idle frames of the links (R360) -/

/-- The link ports may have changed, and nothing else. -/
def LinksOnly (s s' : State) : Prop := s' = { s with lk := s'.lk }

theorem LinksOnly.refl (s : State) : LinksOnly s s := rfl

theorem LinksOnly.trans {s t u : State} (h : LinksOnly s t) (k : LinksOnly t u) : LinksOnly s u := by
  unfold LinksOnly at *
  rw [k, h]

/-- A port that carries frames sends one IDLE frame. -/
def idled (x : LinkPort) : LinkPort := if x.receives then sendPlain x .idle else x

theorem foldl_idles (ps : List Nat) (hps : ps.Nodup) (s : State) :
    let s' := ps.foldl (fun s p => if (s.port p).receives then s.setPort p (sendPlain (s.port p) .idle) else s) s
    LinksOnly s s' ∧ ∀ q, s'.port q = if q ∈ ps then idled (s.port q) else s.port q := by
  induction ps generalizing s with
  | nil => exact ⟨rfl, fun q => rfl⟩
  | cons p r ih =>
    obtain ⟨hp, hr⟩ := List.nodup_cons.mp hps
    have hfirst : LinksOnly s (if (s.port p).receives then s.setPort p (sendPlain (s.port p) .idle) else s) ∧
        ∀ q, (if (s.port p).receives then s.setPort p (sendPlain (s.port p) .idle) else s).port q =
          if q = p then idled (s.port q) else s.port q := by
      unfold idled
      split
      · refine ⟨rfl, fun q => ?_⟩
        rw [State.setPort_port]
        split
        · next hq => simp_all
        · rfl
      · refine ⟨rfl, fun q => ?_⟩
        split
        · next hq => simp_all
        · rfl
    obtain ⟨hlinks, hports⟩ := ih hr (if (s.port p).receives then s.setPort p (sendPlain (s.port p) .idle) else s)
    refine ⟨hfirst.1.trans hlinks, fun q => ?_⟩
    rw [List.foldl_cons, hports, hfirst.2]
    by_cases hq : q = p
    · subst hq
      simp [hp]
    · simp [hq]

theorem sendIdles_linksOnly (s : State) : LinksOnly s (sendIdles s) := (foldl_idles _ List.nodup_range s).1

theorem sendIdles_port (s : State) {p : Nat} (hp : p < 4) : (sendIdles s).port p = idled (s.port p) :=
  ((foldl_idles _ List.nodup_range s).2 p).trans (if_pos (List.mem_range.mpr hp))

theorem sendsIdle_sendIdles {s t : State} (h : t.lk = s.lk) : sendsIdle s (sendIdles t) := by
  intro p hp
  have hport : t.port p = s.port p := by
    unfold State.port
    rw [h]
  rw [sendIdles_port t hp, hport, idled]
  split
  · exact ⟨_, rfl, rfl, rfl, rfl, rfl⟩
  · rfl

/-! ## Hold requests (R51, R52) -/

theorem putBit_ne_self : ∀ (req : BitVec 7) (k : Fin 7), bitAt req.toNat k = false → putBit req k true ≠ req := by decide +kernel

theorem putBit_eq_self : ∀ (req : BitVec 7) (k : Fin 7), bitAt req.toNat k = true → putBit req k true = req := by decide +kernel

theorem holding_eq_false_iff (s : State) : s.holding = false ↔ s.pace.req = 0 ∧ s.pace.state ≠ .aborted := by
  simp [State.holding]

theorem idle_iff (s : State) : s.idle = true ↔ s.pace.state = .idle := by
  simp [State.idle]

/-- PACE after a request has joined (R51, R52). -/
def joinedPace (p : Pace) (i : Nat) : Pace :=
  let req := p.req ||| BitVec.ofNat 7 (2 ^ i)
  let entry := p.req = 0 ∧ p.state ≠ .aborted
  if p.state = .idle then { p with req := req, standT := 0 }
  else { p with
    req := req
    standT := if entry then 0 else p.standT
    holdCount := if entry then satInc p.holdCount else p.holdCount
    holdLast := packW [(8, p.step.toNat % 2 ^ 24), (0, req.toNat)]
    state := if p.state = .running then .held else p.state }

/-- PACE after a request has gone (R51). -/
def leftPace (p : Pace) (i : Nat) : Pace :=
  let req := p.req &&& ~~~ BitVec.ofNat 7 (2 ^ i)
  { p with req := req, standT := if req = 0 then 0 else p.standT
           state := if req = 0 ∧ p.state = .held then .running else p.state }

theorem requestHold_joins {s : State} {k : Fin 7} (h : bitAt s.pace.req.toNat k = false) :
    requestHold s k = { s with pace := joinedPace s.pace k } := by
  have hne := putBit_ne_self s.pace.req k h
  simp only [requestHold, if_neg hne, idle_iff, Bool.not_eq_true', holding_eq_false_iff]
  unfold joinedPace
  dsimp only
  split
  · rfl
  · rfl

theorem requestHold_stands {s : State} {k : Fin 7} (h : bitAt s.pace.req.toNat k = true) : requestHold s k = s :=
  if_pos (putBit_eq_self s.pace.req k h)

theorem withdrawHold_leaves (s : State) (k : Nat) : withdrawHold s k = { s with pace := leftPace s.pace k } := by
  simp only [withdrawHold, leftPace, putBit, Bool.and_eq_true, decide_eq_true_eq, beq_iff_eq, Bool.false_eq_true, if_false]

/-! ## Device time (R50, R52, R53) -/

theorem tickBy_timed (s : State) (d : Nat) : tickBy s d = { s with devTime := s.devTime + d, pace := timed s d } := by
  have hheld : (s.holding && !s.idle) = true ↔ s.pace.state ≠ .idle ∧ (s.pace.req ≠ 0 ∨ s.pace.state = .aborted) := by
    simp [State.holding, State.idle, and_comm]
  have hstand : (s.pace.req != 0 && !s.idle) = true ↔ s.pace.req ≠ 0 ∧ s.pace.state ≠ .idle := by simp [State.idle]
  have hruns : (s.pace.req != 0 && stepRuns s) = true ↔ s.pace.req ≠ 0 ∧ stepRuns s = true := by simp
  simp only [tickBy, timed, hheld, hstand, hruns]

theorem exec_deviceTimeIncrement (s : State) (n : Nat) :
    exec (.deviceTimeIncrement n) s = .next (sendIdles (passTime s (nsOf s n))) := rfl

theorem passTime_frozen {s : State} (h : s.dbgHold = true) (d : Nat) : passTime s d = { s with devTime := s.devTime + d, pace := { s.pace with
    holdNs := if s.pace.state = .idle then s.pace.holdNs else s.pace.holdNs + BitVec.ofNat 64 d } } := by
  simp only [passTime, if_pos h, frozenTick, idle_iff]

theorem passTime_ticks {s : State} {d : Nat} (h : s.dbgHold = false) (hdec : s.pace.deciding = false ∨ d < s.pace.decLeft) :
    passTime s d = { s with devTime := s.devTime + d, pace := timed s d } := by
  have hnot : ¬ (s.pace.deciding && decide (s.pace.decLeft ≤ d)) = true := by
    rcases hdec with hd | hd <;> simp [hd]
  rw [passTime, h, if_neg Bool.false_ne_true, if_neg hnot, tickBy_timed]

/-- Settles O24: requests by the equations of `requestHold` and `withdrawHold`, time by those of `passTime` and `sendIdles`. -/
theorem holdsAndTime : Obligations.HoldsAndTime := by
  constructor
  · intro s k joined left
    refine ⟨fun hstands hbit => ?_, fun hstands hbit => ?_, fun hopen hbit => ?_, fun hopen hbit => ?_, fun hopen => ?_, fun hopen => ?_⟩
    · show Host.Outcome.next (holdEntry s k) = _
      rw [holdEntry, hstands, hbit]
      exact congrArg _ (requestHold_joins hbit)
    · show Host.Outcome.next (holdExit s k) = _
      rw [holdExit, hstands, hbit]
      exact congrArg _ (withdrawHold_leaves s k)
    · show Host.Outcome.next (rowWrite s 0x1004C fun s => swholdWrite s true) = _
      rw [rowWrite_open _ _ _ hopen]
      exact congrArg _ (requestHold_joins (s := { s with pace := { s.pace with swhold := true } }) (k := 6) hbit)
    · show Host.Outcome.next (rowWrite s 0x1004C fun s => swholdWrite s true) = _
      rw [rowWrite_open _ _ _ hopen]
      exact congrArg _ (requestHold_stands (s := { s with pace := { s.pace with swhold := true } }) (k := 6) hbit)
    · show Host.Outcome.next (rowWrite s 0x1004C fun s => swholdWrite s false) = _
      rw [rowWrite_open _ _ _ hopen]
      exact congrArg _ (withdrawHold_leaves { s with pace := { s.pace with swhold := false } } 6)
    · show Host.Outcome.next (rowWrite s 0x10000 paceClrstat) = _
      rw [rowWrite_open _ _ _ hopen]
      rfl
  · intro s n d
    refine ⟨fun hdbg => ?_, fun hdbg hdec => ?_⟩
    · have hpass := passTime_frozen hdbg d
      refine ⟨_, exec_deviceTimeIncrement s n, sendsIdle_sendIdles ?_, ?_⟩
      · rw [hpass]
      · rw [hpass]
        exact sendIdles_linksOnly _
    · have hpass := passTime_ticks hdbg hdec
      refine ⟨_, exec_deviceTimeIncrement s n, sendsIdle_sendIdles ?_, ?_⟩
      · rw [hpass]
      · rw [hpass]
        exact sendIdles_linksOnly _

end Sys2Proof.Claims
end

section
/-! SUPPORT. What an abort does to PACE and leaves elsewhere (R52, R58, R393), and the limits of hold, step and front (R54, R63, R265). -/

namespace Sys2Proof.Claims

open Sys2Proof Sys2Proof.Machine

/-! ## Aborts -/

theorem abortPace_congr {s t : State} (h : t.pace = s.pace) (fatal por : Bool) (n : Snapshot) : abortPace t fatal por n = abortPace s fatal por n := by
  unfold abortPace holdLastOf
  rw [h]

section
variable {s : State} (h : s.pace.state ≠ .aborted) (v c : Nat) (n : Snapshot) (ok : Nat → Bool) (f : FrameBody)
include h

/-- The freeze phase: PACE enters ABORTED (R58). -/
theorem abortWith_pace : (abortWith s v c n ok f).pace = abortPace s (s.pace.fatal || v == 3) (s.pace.needPor || c == 0x0C09) n := by
  unfold abortWith
  dsimp only
  rw [if_neg (show (noteDump s v).pace.state ≠ .aborted from h)]
  refine abortPace_congr ?_ _ _ _
  rw [announce_frame, noteDump_frame]

theorem abortWith_firstCode (hfirst : s.flt.firstCode = 0) : (abortWith s v c n ok f).flt.firstCode = BitVec.ofNat 16 c := by
  have hnone : (noteDump s v).flt.firstCode = 0 := hfirst
  unfold abortWith
  dsimp only
  rw [if_neg (show (noteDump s v).pace.state ≠ .aborted from h), hnone]
  rfl

end

theorem abortWith_cfg (s : State) (v c : Nat) (n : Snapshot) (ok : Nat → Bool) (f : FrameBody) : (abortWith s v c n ok f).cfg = s.cfg := by
  unfold abortWith
  dsimp only
  split
  · rfl
  · rw [announce_frame]
    rfl

theorem event_cfg (s : State) (c : Nat) (a : EvArgs) : (event s c a).cfg = s.cfg := by
  unfold event
  dsimp only
  split
  · rw [recordEvent_frame]
  · rw [abortWith_cfg, recordEvent_frame]

/-- From s, where no abort is under way, to s': PACE enters ABORTED with a snapshot and a code; the fabric, the configuration and memory
stand. -/
structure AbortedBy (s s' : State) (code : Nat) (n : Snapshot) : Prop where
  pace : ∃ fatal por, s'.pace = abortPace s fatal por n
  fatal : s.pace.fatal = true ∨ evSev code = 3 → s'.pace.fatal = true
  firstCode : s.flt.firstCode = 0 → s'.flt.firstCode = BitVec.ofNat 16 code
  frame : s' = { s with lk := s'.lk, pace := s'.pace, flt := s'.flt, ic := s'.ic, hq := s'.hq }

/-- A fault recorded and its abort carried out. -/
theorem abortedBy_of_record {s : State} (h : s.pace.state ≠ .aborted) (c : Nat) (a : EvArgs) (n : Snapshot) :
    AbortedBy s (abortWith (recordEvent s c a) (evSev c) c n (fun _ => true) (abortFrameOf (recordEvent s c a) c)) c n := by
  have hstate : (recordEvent s c a).pace.state ≠ .aborted := by
    rw [recordEvent_pace]
    exact h
  have hpace := abortWith_pace hstate (evSev c) c n (fun _ => true) (abortFrameOf (recordEvent s c a) c)
  rw [abortPace_congr (recordEvent_pace s c a)] at hpace
  constructor
  case pace => exact ⟨_, _, hpace⟩
  case fatal =>
    intro hfatal
    rw [hpace]
    simpa [abortPace] using hfatal
  case firstCode =>
    intro hfirst
    exact abortWith_firstCode hstate _ _ _ _ _ ((recordEvent_firstCode s c a).trans hfirst)
  case frame =>
    rw [abortWith_frame, abortWith_cfg, recordEvent_frame]

/-- An event of weight aborts the task (R58, R461). -/
theorem abortedBy_event {s : State} (h : s.pace.state ≠ .aborted) {c : Nat} (hsev : 2 ≤ evSev c) (a : EvArgs) :
    AbortedBy s (event s c a) c (takeSnapshot (recordEvent s c a)) := by
  have hevent : event s c a = abortWith (recordEvent s c a) (evSev c) c (takeSnapshot (recordEvent s c a)) (fun _ => true)
      (abortFrameOf (recordEvent s c a) c) := if_neg (Nat.not_lt.mpr hsev)
  rw [hevent]
  exact abortedBy_of_record h c a _

section
variable {s s' : State} {code : Nat} {n : Snapshot} (h : AbortedBy s s' code n)
include h

theorem AbortedBy.tiles : s'.tiles = s.tiles := by rw [h.frame]
theorem AbortedBy.edges : s'.edges = s.edges := by rw [h.frame]
theorem AbortedBy.mc : s'.mc = s.mc := by rw [h.frame]
theorem AbortedBy.cfg : s'.cfg = s.cfg := by rw [h.frame]
theorem AbortedBy.devTime : s'.devTime = s.devTime := by rw [h.frame]

theorem AbortedBy.state : s'.pace.state = .aborted := by
  obtain ⟨fatal, por, hpace⟩ := h.pace
  rw [hpace]
  rfl

/-- What an abort leaves, with what its snapshot names. -/
theorem AbortedBy.stands {q : Snapshot → Prop} (hq : q n) : s'.pace.state = .aborted ∧ s'.pace.abort = .announced ∧ q s'.pace.snap ∧
    (s.flt.firstCode = 0 → s'.flt.firstCode = BitVec.ofNat 16 code) ∧
    s'.pace.holdCount = (if s.pace.req = 0 then satInc s.pace.holdCount else s.pace.holdCount) ∧ s'.pace.deciding = false ∧
    s'.cfg = s.cfg ∧ s'.tiles = s.tiles ∧ s'.edges = s.edges ∧ s'.mc = s.mc := by
  obtain ⟨fatal, por, hpace⟩ := h.pace
  refine ⟨h.state, ?_, ?_, h.firstCode, ?_, ?_, h.cfg, h.tiles, h.edges, h.mc⟩
  · rw [hpace]
    rfl
  · rw [hpace]
    exact hq
  · rw [hpace]
    simp [abortPace]
  · rw [hpace]
    rfl

end

/-! ## The limits -/

theorem atBarrier_iff (s : State) : atBarrier s = true ↔ s.cfg.front ≠ .none := by
  simp [atBarrier]

theorem holdLimit_aborts {s : State} (hrunning : s.pace.state ≠ .aborted) (hreq : s.pace.req ≠ 0) (hidle : s.pace.state ≠ .idle)
    (hlim : s.pace.holdlim ≠ 0) (hover : s.pace.holdlim.toNat * 1000 < s.pace.standT) :
    ∃ n, AbortedBy s (holdLimit s) 0x0D06 n ∧ n.step = s.pace.step.toNat := by
  have hlimit : holdLimit s = event s 0x0D06 { detail := two s.pace.req.toNat 0 } := by
    refine if_pos ?_
    simp only [State.idle, Bool.and_eq_true, bne_iff_ne, Bool.not_eq_true', beq_eq_false_iff_ne, decide_eq_true_eq]
    exact ⟨⟨⟨⟨hreq, hidle⟩, hrunning⟩, hlim⟩, hover⟩
  rw [hlimit]
  refine ⟨_, abortedBy_event hrunning (by decide) _, ?_⟩
  simp [takeSnapshot]

theorem not_aborted_of_stepRuns {s : State} (h : stepRuns s = true) : s.pace.state ≠ .aborted := by
  simp only [stepRuns, Bool.and_eq_true, bne_iff_ne] at h
  exact h.2

theorem stallFault_aborts {s : State} (hruns : stepRuns s = true) (hover : wdogLimit s < busyNow s) :
    AbortedBy s (stallFault s) 0x0D05 (stallSnapshot s) := by
  have hstall : (stepRuns s && decide (wdogLimit s < busyNow s)) = true := by simp [hruns, hover]
  rw [stallFault, if_pos hstall]
  exact abortedBy_of_record (not_aborted_of_stepRuns hruns) 0x0D05 _ _

/-- What the snapshot of a stall names (R63). -/
def NamesStall (s : State) (x : Snapshot) : Prop := x.step = s.pace.step.toNat ∧
  (match namedQueue s with
   | some (t, q) => x.namedTile = BitVec.ofNat 16 t ∧ x.namedQueue = BitVec.ofNat 8 q
   | none => x.namedTile = BitVec.ofNat 16 ((namedTile s).getD 0xFFFF))

theorem stallSnapshot_names (s : State) : NamesStall s (stallSnapshot s) := by
  unfold NamesStall
  cases hqueue : namedQueue s with
  | none =>
    rw [stallSnapshot, hqueue]
    exact ⟨rfl, rfl⟩
  | some x =>
    rw [stallSnapshot, hqueue]
    exact ⟨rfl, rfl, rfl⟩

theorem frontLimit_aborts {s : State} (hrunning : s.pace.state ≠ .aborted) (hfront : s.cfg.front ≠ .none) (hidle : s.pace.state ≠ .idle)
    (hover : wdogLimit s < s.pace.clock - s.pace.barrierT) :
    ∃ n, AbortedBy s (frontLimit s) 0x0D0B n ∧ n.namedTile = BitVec.ofNat 16 ((unswitched s).head?.getD 0xFFFF) := by
  have hlimit : (atBarrier s && s.pace.state != .aborted && s.pace.state != .idle && decide (wdogLimit s < s.pace.clock - s.pace.barrierT)) =
      true := by simp [(atBarrier_iff s).mpr hfront, hrunning, hidle, hover]
  rw [frontLimit, if_pos hlimit]
  exact ⟨_, abortedBy_of_record hrunning 0x0D0B _ _, rfl⟩

/-- Settles O27: each limit aborts with its snapshot, and an abort leaves the fabric, a front and memory. -/
theorem limitsAbort : Obligations.LimitsAbort := by
  intro s hrunning aborts
  refine ⟨fun hreq hidle hlim hover => ?_, fun hruns hover => ?_, fun hfront hidle hover => ?_⟩
  · obtain ⟨n, h, hn⟩ := holdLimit_aborts hrunning hreq hidle hlim hover
    exact ⟨_, rfl, h.stands (q := fun x => x.step = s.pace.step.toNat) hn⟩
  · exact ⟨_, rfl, (stallFault_aborts hruns hover).stands (q := NamesStall s) (stallSnapshot_names s)⟩
  · obtain ⟨n, h, hn⟩ := frontLimit_aborts hrunning hfront hidle hover
    exact ⟨_, rfl, h.stands (q := fun x => x.namedTile = BitVec.ofNat 16 ((unswitched s).head?.getD 0xFFFF)) hn⟩

end Sys2Proof.Claims
end

section
/-! SUPPORT. Bed reports and the end of the release decision (R47, R52, R61, R63, R260). -/

namespace Sys2Proof.Claims

open Sys2Proof Sys2Proof.Machine

/-! ## Bed reports (R47, R260) -/

theorem bedReport_reports {s : State} {b : Nat} (hruns : stepRuns s = true) (hbed : b ∈ s.bedIds) (hnew : (s.bed b).reported = false)
    (hparked : bedParked s b = true) :
    let s1 := s.setBed b { s.bed b with reported := true, report := bedMark s b, firing := false }
    bedReport s b = if ∀ k ∈ s.bedIds, k ≠ b → (s.bed k).reported = true then beginDecision s1 else s1 := by
  intro s1
  have hcond : (stepRuns s && s.bedIds.contains b && !(s.bed b).reported && bedParked s b) = true := by simp [hruns, hbed, hnew, hparked]
  have hall : (s1.bedIds.all fun k => (s1.bed k).reported) = true ↔ ∀ k ∈ s.bedIds, k ≠ b → (s.bed k).reported = true := by
    show ((s.bedIds.all fun k => (s1.bed k).reported) = true ↔ _)
    rw [List.all_eq_true]
    refine forall₂_congr fun k _ => ?_
    rw [State.setBed_bed]
    split <;> simp_all
  rw [bedReport, if_pos hcond]
  exact if_congr hall rfl rfl

theorem bedReport_comes {s : State} {b : Nat} (hruns : stepRuns s = true) (hbed : b ∈ s.bedIds) (hnew : (s.bed b).reported = false)
    (hparked : bedParked s b = true) :
    let last := ∀ k ∈ s.bedIds, k ≠ b → (s.bed k).reported = true
    let s' := bedReport s b
    s'.bed b = { s.bed b with reported := true, report := bedMark s b, firing := false } ∧ (∀ k, k ≠ b → s'.bed k = s.bed k) ∧
      (¬ last → s' = { s with beds := s'.beds }) ∧
      (last → s' = { s with beds := s'.beds, pace := { s.pace with deciding := true, decLeft := 10 } }) := by
  intro last s'
  have hothers : ∀ k, k ≠ b →
      (s.setBed b { s.bed b with reported := true, report := bedMark s b, firing := false }).bed k = s.bed k := fun k hk => by
    rw [State.setBed_bed, if_neg hk]
  have hs' : s' = _ := bedReport_reports hruns hbed hnew hparked
  rw [hs']
  by_cases hlast : last
  · rw [if_pos hlast]
    exact ⟨State.setBed_bed_self _ _ _, hothers, fun h => absurd hlast h, fun _ => rfl⟩
  · rw [if_neg hlast]
    exact ⟨State.setBed_bed_self _ _ _, hothers, fun _ => rfl, fun h => absurd h hlast⟩

/-! ## The end of the decision -/

/-- The machine at the instant in which the release decision ends. -/
def decisionEnd (s : State) : State :=
  { s with devTime := s.devTime + s.pace.decLeft, pace := { timed s s.pace.decLeft with deciding := false, decLeft := 0 } }

theorem endDecision_at (s : State) : endDecision (tickBy s s.pace.decLeft) =
    if wdogLimit s < busyNow (decisionEnd s) then stallFault (decisionEnd s) else completeStep (decisionEnd s) := by
  rw [tickBy_timed]
  rfl

theorem stepRuns_decisionEnd (s : State) : stepRuns (decisionEnd s) = stepRuns s := rfl

/-- The hold time of the step at the end of the decision. -/
def holdAtEnd (s : State) : Nat := s.pace.stepHold + (if s.pace.req = 0 then 0 else s.pace.decLeft)

theorem stepHold_decisionEnd {s : State} (hruns : stepRuns s = true) : (decisionEnd s).pace.stepHold = holdAtEnd s := by
  show (if s.pace.req ≠ 0 ∧ stepRuns s = true then s.pace.stepHold + s.pace.decLeft else s.pace.stepHold) = _
  unfold holdAtEnd
  by_cases hreq : s.pace.req = 0
  · rw [if_neg (fun h => h.1 hreq), if_pos hreq]
    rfl
  · rw [if_pos ⟨hreq, hruns⟩, if_neg hreq]

theorem busyNow_decisionEnd {s : State} (hruns : stepRuns s = true) :
    busyNow (decisionEnd s) = s.pace.clock + s.pace.decLeft - s.pace.relT - holdAtEnd s := by
  rw [busyNow, stepHold_decisionEnd hruns]
  rfl

/-- What the end of a decision leaves: the time, the tiles and memory, with no decision under way. -/
structure Decided (s r : State) : Prop where
  devTime : r.devTime = s.devTime
  clock : r.pace.clock = s.pace.clock
  deciding : r.pace.deciding = false
  tiles : r.tiles = s.tiles
  mc : r.mc = s.mc

/-- The rest of the increment after the decision: time passes on, and the links send their idle frames. -/
def timeAfter (r : State) (d : Nat) : State := sendIdles (tickBy r d)

theorem timeAfter_frame (r : State) (d : Nat) : timeAfter r d = { r with devTime := r.devTime + d, lk := (timeAfter r d).lk, pace := timed r d } := by
  rw [timeAfter, sendIdles_linksOnly, tickBy_timed]

theorem exec_decision {s : State} {n : Nat} (hdec : s.pace.deciding = true) (hend : s.pace.decLeft ≤ nsOf s n) (hdbg : s.dbgHold = false) :
    exec (.deviceTimeIncrement n) s = .next (timeAfter (endDecision (tickBy s s.pace.decLeft)) (nsOf s n - s.pace.decLeft)) := by
  have hcond : (s.pace.deciding && decide (s.pace.decLeft ≤ nsOf s n)) = true := by simp [hdec, hend]
  rw [exec_deviceTimeIncrement, passTime, hdbg, if_neg Bool.false_ne_true, if_pos hcond]
  rfl

theorem Decided.after {s r : State} {d : Nat} (h : Decided (decisionEnd s) r) (hend : s.pace.decLeft ≤ d) :
    let s' := timeAfter r (d - s.pace.decLeft)
    s'.devTime = s.devTime + d ∧ s'.pace.clock = s.pace.clock + d ∧ s'.pace.deciding = false ∧ s'.tiles = s.tiles ∧ s'.mc = s.mc := by
  intro s'
  have hs' : s' = _ := timeAfter_frame r (d - s.pace.decLeft)
  have hdev : r.devTime = s.devTime + s.pace.decLeft := h.devTime
  have hclock : r.pace.clock = s.pace.clock + s.pace.decLeft := h.clock
  rw [hs']
  refine ⟨?_, ?_, h.deciding, h.tiles, h.mc⟩
  · show r.devTime + (d - s.pace.decLeft) = s.devTime + d
    omega
  · show r.pace.clock + (d - s.pace.decLeft) = s.pace.clock + d
    omega

theorem AbortedBy.decided {s s' : State} {code : Nat} {n : Snapshot} (h : AbortedBy s s' code n) : Decided s s' := by
  obtain ⟨fatal, por, hpace⟩ := h.pace
  refine ⟨h.devTime, ?_, ?_, h.tiles, h.mc⟩
  · rw [hpace]
    rfl
  · rw [hpace]
    rfl

theorem AbortedBy.complete {s s' : State} {code : Nat} {n : Snapshot} (h : AbortedBy s s' code n) : s'.pace.complete = s.pace.complete := by
  obtain ⟨fatal, por, hpace⟩ := h.pace
  rw [hpace]
  rfl

/-! ## The completion of a step -/

theorem wrongBed_decisionEnd (s : State) : wrongBed (decisionEnd s) = s.bedIds.find? fun b => (s.bed b).report != s.pace.rank := rfl

/-- The state at the instant of completion, before the deadline check. -/
def stepDone (s : State) : State :=
  { s with pace := { s.pace with
      complete := true, dupComplete := true, completeT := s.pace.clock, busy := busyNow s, lastBusy := sat32 (busyNow s)
      maxBusy := if s.pace.maxBusy.toNat < satN 32 (busyNow s) then sat32 (busyNow s) else s.pace.maxBusy } }

theorem checkDeadline_frame (s : State) (busy hold : Nat) : checkDeadline s busy hold =
    { s with ic := (checkDeadline s busy hold).ic, hq := (checkDeadline s busy hold).hq, flt := (checkDeadline s busy hold).flt
             pace := { s.pace with stepMiss := if s.pace.mode ≠ 1 ∧ s.pace.raked = false ∧
               (s.pace.act.window.toNat < busy ∨ s.pace.act.hallow.toNat < hold) then satInc s.pace.stepMiss else s.pace.stepMiss } } := by
  have hcond : (windowOn s && (decide (s.pace.act.window.toNat < busy) || decide (s.pace.act.hallow.toNat < hold))) = true ↔
      s.pace.mode ≠ 1 ∧ s.pace.raked = false ∧ (s.pace.act.window.toNat < busy ∨ s.pace.act.hallow.toNat < hold) := by
    simp [windowOn, and_assoc]
  unfold checkDeadline
  dsimp only
  split
  · next h =>
    rw [if_pos (hcond.mp h), event_low _ _ _ (by decide)]
  · next h => rw [if_neg (fun hc => h (hcond.mpr hc))]

/-- The step completes as it stands after the deadline check: what the end of a section or of the task adds leaves these. -/
structure Completed (s r : State) : Prop where
  decided : Decided s r
  complete : r.pace.complete = true
  completeT : r.pace.completeT = s.pace.clock
  busy : r.pace.busy = busyNow s
  lastBusy : r.pace.lastBusy = sat32 (busyNow s)
  maxBusy : r.pace.maxBusy = if s.pace.maxBusy.toNat < satN 32 (busyNow s) then sat32 (busyNow s) else s.pace.maxBusy
  stepMiss : r.pace.stepMiss = if s.pace.mode ≠ 1 ∧ s.pace.raked = false ∧
    (s.pace.act.window.toNat < busyNow s ∨ s.pace.act.hallow.toNat < s.pace.stepHold) then satInc s.pace.stepMiss else s.pace.stepMiss

/-- The state after the deadline check. -/
def judged (s : State) : State := checkDeadline (stepDone s) (busyNow s) s.pace.stepHold

theorem judged_completed {s : State} (h : s.pace.deciding = false) : Completed s (judged s) := by
  unfold judged
  rw [checkDeadline_frame]
  exact ⟨⟨rfl, rfl, h, rfl, rfl⟩, rfl, rfl, rfl, rfl, rfl, rfl⟩

theorem judged_pace (s : State) : (judged s).pace.state = s.pace.state ∧ (judged s).pace.rakeAct = s.pace.rakeAct ∧ (judged s).cfg = s.cfg := by
  unfold judged
  rw [checkDeadline_frame]
  exact ⟨rfl, rfl, rfl⟩

theorem enterBarrier_frame (s : State) : enterBarrier s =
    { s with ic := (enterBarrier s).ic, hq := (enterBarrier s).hq, flt := (enterBarrier s).flt
             pace := { s.pace with state := if s.pace.rakeAct then s.pace.state else .barrier, barrierT := s.pace.clock }
             cfg := { s.cfg with front := .running } } := by
  unfold enterBarrier
  rw [event_low _ _ _ (by decide)]

theorem endTaskBlocks_frame (s : State) : endTaskBlocks s =
    { s with lk := (endTaskBlocks s).lk, pwr := (endTaskBlocks s).pwr, tw := (endTaskBlocks s).tw, sp := (endTaskBlocks s).sp } := by
  unfold endTaskBlocks dropHints
  dsimp only
  split <;> rfl

theorem endTask_frame (s : State) : ∃ lk pwr tw sp se hq ic flt, endTask s =
    { s with lk := lk, pwr := pwr, tw := tw, sp := sp, se := se, hq := hq, ic := ic, flt := flt
             pace := { s.pace with state := .idle, rakeAct := false, rakeDrop := false, rakeLeft := 0, released := false } } := by
  unfold endTask
  dsimp only
  rw [event_low _ _ _ (by decide), endTaskBlocks_frame]
  split
  · exact ⟨_, _, _, _, _, _, _, _, rfl⟩
  · exact ⟨_, _, _, _, _, _, _, _, rfl⟩

theorem completeStep_right {s : State} (h : ∀ k ∈ s.bedIds, (s.bed k).report = s.pace.rank) : completeStep s =
    (match s.pace.rank with
     | .sectionEnd => enterBarrier (judged s)
     | .taskEnd => endTask (judged s)
     | _ => judged s) := by
  have hnone : wrongBed s = none := List.find?_eq_none.mpr fun k hk => by simpa using h k hk
  rw [completeStep, hnone]
  rfl

theorem completeStep_wrong {s : State} (h : ∃ k ∈ s.bedIds, (s.bed k).report ≠ s.pace.rank) : ∃ a, completeStep s = event s 0x0D0C a := by
  obtain ⟨k, hk, hreport⟩ := h
  obtain ⟨b, hb⟩ : ∃ b, wrongBed s = some b := Option.isSome_iff_exists.mp (List.find?_isSome.mpr ⟨k, hk, by simpa using hreport⟩)
  rw [completeStep, hb]
  exact ⟨_, rfl⟩

/-- A step whose beds all report its rank completes; its rank says what follows (R47, R55, R56). -/
theorem completeStep_completes {s : State} (hdec : s.pace.deciding = false) (h : ∀ k ∈ s.bedIds, (s.bed k).report = s.pace.rank) :
    Completed s (completeStep s) ∧
      (s.pace.rank ≠ .sectionEnd → s.pace.rank ≠ .taskEnd → (completeStep s).pace.state = s.pace.state ∧ (completeStep s).cfg = s.cfg) ∧
      (s.pace.rank = .sectionEnd → (completeStep s).pace.state = (if s.pace.rakeAct then s.pace.state else .barrier) ∧
        (completeStep s).cfg.front = .running) ∧
      (s.pace.rank = .taskEnd → (completeStep s).pace.state = .idle ∧ (completeStep s).pace.rakeAct = false ∧
        (completeStep s).pace.released = false) := by
  obtain ⟨⟨hdev, hclock, hdeciding, htiles, hmc⟩, hcomplete, hcompleteT, hbusy, hlast, hmax, hmiss⟩ := judged_completed hdec
  obtain ⟨hstate, hrake, hcfg⟩ := judged_pace s
  rw [completeStep_right h]
  cases hrank : s.pace.rank with
  | sectionEnd =>
    dsimp only
    rw [enterBarrier_frame, hstate, hrake]
    exact ⟨⟨⟨hdev, hclock, hdeciding, htiles, hmc⟩, hcomplete, hcompleteT, hbusy, hlast, hmax, hmiss⟩, fun hne => absurd rfl hne, fun _ => ⟨rfl, rfl⟩,
      fun hne => Marker.noConfusion hne⟩
  | taskEnd =>
    dsimp only
    obtain ⟨lk, pwr, tw, sp, se, hq, ic, flt, hend⟩ := endTask_frame (judged s)
    rw [hend]
    exact ⟨⟨⟨hdev, hclock, hdeciding, htiles, hmc⟩, hcomplete, hcompleteT, hbusy, hlast, hmax, hmiss⟩, fun _ hne => absurd rfl hne,
      fun hne => Marker.noConfusion hne, fun _ => ⟨rfl, rfl, rfl⟩⟩
  | none => exact ⟨judged_completed hdec, fun _ _ => ⟨hstate, hcfg⟩, fun hne => Marker.noConfusion hne, fun hne => Marker.noConfusion hne⟩
  | stepEnd => exact ⟨judged_completed hdec, fun _ _ => ⟨hstate, hcfg⟩, fun hne => Marker.noConfusion hne, fun hne => Marker.noConfusion hne⟩

theorem sat32_eq (n : Nat) : sat32 n = BitVec.ofNat 32 (min n (2 ^ 32 - 1)) := rfl

theorem maxBusy_toNat (w : Word) (n : Nat) : (if w.toNat < satN 32 n then sat32 n else w).toNat = max w.toNat (min n (2 ^ 32 - 1)) := by
  have hsat : (sat32 n).toNat = min n (2 ^ 32 - 1) := by
    rw [sat32_eq, BitVec.toNat_ofNat]
    omega
  unfold satN
  split
  · rw [hsat]
    omega
  · omega

/-- Settles O25: a report by the equation of `bedReport`; a decision that ends, by the stall's abort, the wrong report's abort or the
completion at its instant, with the rest of the increment after it. -/
theorem bedsReport : Obligations.BedsReport := by
  constructor
  · intro s b hruns hbed hnew hparked last
    exact ⟨_, rfl, bedReport_comes hruns hbed hnew hparked⟩
  · intro s n hruns hdec hend hdbg hold busy comes
    have hexec := exec_decision hdec hend hdbg
    have hrunning := not_aborted_of_stepRuns hruns
    have hbusy : busyNow (decisionEnd s) = busy := busyNow_decisionEnd hruns
    have hincomplete : (decisionEnd s).pace.complete = false := by
      simp only [stepRuns, Bool.and_eq_true, Bool.not_eq_true'] at hruns
      exact hruns.1.1.2
    rw [endDecision_at, hbusy] at hexec
    have haborts : ∀ {r : State} {code : Nat} {x : Snapshot}, AbortedBy (decisionEnd s) r code x →
        exec (.deviceTimeIncrement n) s = .next (timeAfter r (nsOf s n - s.pace.decLeft)) →
        comes fun s' => s'.pace.state = .aborted ∧ s'.pace.complete = false ∧ (s.flt.firstCode = 0 → s'.flt.firstCode = BitVec.ofNat 16 code) := by
      intro r code x h hrun
      refine ⟨_, hrun, ?_, h.decided.after hend⟩
      rw [timeAfter_frame]
      exact ⟨h.state, h.complete.trans hincomplete, h.firstCode⟩
    refine ⟨fun hover => ?_, fun hin hwrong => ?_, fun hin hright => ?_⟩
    · rw [if_pos hover] at hexec
      exact haborts (stallFault_aborts (s := decisionEnd s) hruns (by rw [hbusy]; exact hover)) hexec
    · rw [if_neg (Nat.not_lt.mpr hin)] at hexec
      obtain ⟨a, ha⟩ := completeStep_wrong (s := decisionEnd s) hwrong
      rw [ha] at hexec
      exact haborts (abortedBy_event (s := decisionEnd s) hrunning (by decide) a) hexec
    · rw [if_neg (Nat.not_lt.mpr hin)] at hexec
      obtain ⟨hcompleted, hstep, hsection, htask⟩ := completeStep_completes (s := decisionEnd s) rfl hright
      refine ⟨_, hexec, ?_, hcompleted.decided.after hend⟩
      rw [timeAfter_frame]
      refine ⟨hcompleted.complete, hcompleted.completeT, hcompleted.busy.trans hbusy, ?_, ?_, ?_, hstep, hsection, htask⟩
      · exact hcompleted.lastBusy.trans (by rw [hbusy]; rfl)
      · exact (congrArg BitVec.toNat hcompleted.maxBusy).trans (by rw [maxBusy_toNat, hbusy]; rfl)
      · exact hcompleted.stepMiss.trans (by rw [hbusy, stepHold_decisionEnd hruns]; rfl)

end Sys2Proof.Claims
end

section
/-! SUPPORT. Commit groups: what is pending, and what the application of a group leaves (R8 to R10). -/

namespace Sys2Proof.Claims

open Sys2Proof Sys2Proof.Machine

/-! ## Interrupts and what is pending -/

/-- Every commit group pending before is pending after, and no other. -/
def SamePending (s s' : State) : Prop := ∀ g, groupPending s' g = groupPending s g

/-- What waits at a target may have changed, and nothing else of it. -/
def SameTargets (s s' : State) : Prop := ∀ t, s'.target t =
  { s.target t with waiting := (s'.target t).waiting, oldest := (s'.target t).oldest, wprio := (s'.target t).wprio }

theorem SameTargets.refl (s : State) : SameTargets s s := fun _ => rfl

theorem SameTargets.trans {s t u : State} (h : SameTargets s t) (k : SameTargets t u) : SameTargets s u := fun x => by
  rw [k x, h x]

theorem sameTargets_of_ic {s s' : State} (h : s'.ic.tgt = s.ic.tgt) : SameTargets s s' := fun t => by
  unfold State.target
  rw [h]

theorem requestAt_sameTargets (s : State) (t : Nat) (p : BitVec 4) : SameTargets s (requestAt s t p) := by
  intro u
  rw [requestAt, State.setTarget_target]
  split
  · next hu =>
    subst hu
    rfl
  · rfl

theorem armHost_sameTargets (s : State) (k : Nat) : SameTargets s (armHost s k) := by
  unfold armHost
  dsimp only
  split
  · exact .refl s
  · exact SameTargets.trans (t := s.putSource k _) (sameTargets_of_ic rfl) (requestAt_sameTargets _ _ _)

theorem armMp_sameTargets (s : State) (k : Nat) : SameTargets s (armMp s k) := by
  unfold armMp
  dsimp only
  split
  · exact .refl s
  · exact SameTargets.trans (t := s.putSource k _) (sameTargets_of_ic rfl) (requestAt_sameTargets _ _ _)

theorem setSource_sameTargets (s : State) (k : Nat) (x : Source) : SameTargets s (s.setSource k x) := by
  unfold State.setSource
  dsimp only
  have hput : SameTargets s (s.putSource k x) := sameTargets_of_ic rfl
  have harm : SameTargets s (if !(s.source k).effHost && x.effHost then armHost (s.putSource k x) k else s.putSource k x) := by
    split
    · exact hput.trans (armHost_sameTargets _ _)
    · exact hput
  split
  · exact harm.trans (armMp_sameTargets _ _)
  · exact harm

theorem raiseSource_sameTargets (s : State) (k : Nat) : SameTargets s (raiseSource s k) := setSource_sameTargets s k _

theorem queueRecord_sameTargets (s : State) (r : EventRec) : SameTargets s (queueRecord s r) := by
  unfold queueRecord
  dsimp only
  split
  · split
    · exact SameTargets.trans (sameTargets_of_ic rfl) (raiseSource_sameTargets _ _)
    · exact sameTargets_of_ic rfl
  · exact SameTargets.trans (sameTargets_of_ic rfl) (raiseSource_sameTargets _ _)

theorem eventBase_sameTargets (s : State) (c : Nat) (a : EvArgs) : SameTargets s (eventBase s c a) :=
  SameTargets.trans (SameTargets.trans (t := { s with hq := { s.hq with eseq := s.hq.eseq + 1 } }) (sameTargets_of_ic rfl)
    (queueRecord_sameTargets _ _)) (raiseSource_sameTargets _ _)

theorem logEntry_sameTargets (s : State) (e : LogEntry) : SameTargets s (logEntry s e) := by
  unfold logEntry
  split
  · exact SameTargets.trans (sameTargets_of_ic rfl) (raiseSource_sameTargets _ _)
  · split
    · exact SameTargets.trans (sameTargets_of_ic rfl) (raiseSource_sameTargets _ _)
    · exact SameTargets.trans (t := { s with flt := { s.flt with lost := satInc s.flt.lost } }) (sameTargets_of_ic rfl) (eventBase_sameTargets _ _ _)

theorem recordEvent_sameTargets (s : State) (c : Nat) (a : EvArgs) : SameTargets s (recordEvent s c a) := by
  unfold recordEvent
  dsimp only
  split
  · exact (eventBase_sameTargets s c a).trans (logEntry_sameTargets _ _)
  · exact eventBase_sameTargets s c a

theorem event_sameTargets {c : Nat} (h : evSev c < 2) (s : State) (a : EvArgs) : SameTargets s (event s c a) := by
  have hevent : event s c a = recordEvent s c a := if_pos h
  rw [hevent]
  exact recordEvent_sameTargets s c a

theorem SamePending.refl (s : State) : SamePending s s := fun _ => rfl

theorem SamePending.trans {s t u : State} (h : SamePending s t) (k : SamePending t u) : SamePending s u := fun g => (k g).trans (h g)

/-- Only targets, interrupt sources, events and the fault log have changed. -/
theorem samePending_of_targets {s s' : State} (h : SameTargets s s') (hpace : s'.pace = s.pace) (hnce : s'.nce = s.nce) (hse : s'.se = s.se)
    (hsp : s'.sp = s.sp) (hpwr : s'.pwr = s.pwr) : SamePending s s' := by
  intro g
  cases g with
  | tgt t => exact (congrArg Target.pending (h t) :)
  | pace => exact congrArg Pace.pending hpace
  | nce => exact congrArg Nce.pending hnce
  | se => exact congrArg Se.pending hse
  | pwr => exact congrArg Pwr.pending hpwr
  | ring k =>
    simp only [groupPending, State.engine, hse]
  | sp k =>
    simp only [groupPending, State.sport, hsp]

theorem event_samePending {c : Nat} (h : evSev c < 2) (s : State) (a : EvArgs) : SamePending s (event s c a) := by
  refine samePending_of_targets (event_sameTargets h s a) ?_ ?_ ?_ ?_ ?_ <;> rw [event_low s c a h]

theorem raiseSource_samePending (s : State) (k : Nat) : SamePending s (raiseSource s k) := by
  refine samePending_of_targets (raiseSource_sameTargets s k) ?_ ?_ ?_ ?_ ?_ <;> rw [raiseSource_frame]

/-! ## One group -/

theorem groupPending_setPending (s : State) (g g' : CommitGroup) (b : Bool) :
    groupPending (setPending s g b) g' = if g' = g then b else groupPending s g' := by
  cases g with
  | ring k =>
    cases g' with
    | ring k' =>
      simp only [setPending, groupPending, State.setEngine_engine, Fin.val_inj, CommitGroup.ring.injEq]
      split <;> rfl
    | _ => rfl
  | sp k =>
    cases g' with
    | sp k' =>
      simp only [setPending, groupPending, State.setSport_sport, Fin.val_inj, CommitGroup.sp.injEq]
      split <;> rfl
    | _ => rfl
  | tgt k =>
    cases g' with
    | tgt k' =>
      simp only [setPending, groupPending, State.setTarget_target, Fin.val_inj, CommitGroup.tgt.injEq]
      split <;> rfl
    | _ => rfl
  | _ => cases g' <;> rfl

theorem changePwr_samePending (s : State) (f : Pwr → Pwr) (h : (f s.pwr).pending = s.pwr.pending) : SamePending s (changePwr s f) := by
  intro g
  cases g with
  | pwr => exact h
  | _ => rfl

theorem governor_samePending (s : State) (p : Nat) : SamePending s (governor s p) := by
  unfold governor
  extract_lets w cap isOver lower below calm raise vcap s1 s2
  have h1 : SamePending s s1 := changePwr_samePending s _ rfl
  have h2 : SamePending s s2 := by
    show SamePending s (if _ then _ else _)
    split
    · exact h1.trans (event_samePending (by decide) _ _)
    · exact h1
  have hwarned : SamePending s2 { s2 with pwr := { s2.pwr with capWarned := true } } := by
    intro g
    cases g <;> rfl
  split
  · exact h2.trans (hwarned.trans (event_samePending (by decide) _ _))
  · exact h2

theorem copyGroup_samePending (s : State) (g : CommitGroup) : SamePending s (copyGroup s g) := by
  cases g with
  | pwr =>
    have hcap : SamePending s { s with pwr := { s.pwr with hyst := s.pwr.shHyst, cap := s.pwr.shCap, floor := s.pwr.shFloor } } := by
      intro g
      cases g <;> rfl
    exact hcap.trans (governor_samePending _ _)
  | ring k =>
    intro g
    cases g with
    | ring k' =>
      simp only [copyGroup, groupPending, State.setEngine_engine]
      split
      · next h => rw [h]
      · rfl
    | _ => rfl
  | sp k =>
    intro g
    cases g with
    | sp k' =>
      simp only [copyGroup, groupPending, State.setSport_sport]
      split
      · next h =>
        rw [h]
        rfl
      · rfl
    | _ => rfl
  | tgt k =>
    intro g
    cases g with
    | tgt k' =>
      simp only [copyGroup, groupPending, State.setTarget_target]
      split
      · next h => rw [h]
      · rfl
    | _ => rfl
  | _ =>
    intro g
    cases g <;> rfl

/-- The events that refuse a group are minor. -/
theorem groupRefusal_minor {s : State} {g : CommitGroup} {x : Nat × EvArgs} (h : groupRefusal s g = some x) : evSev x.1 < 2 := by
  cases g <;> simp only [groupRefusal] at h
  case nce => cases h
  all_goals
    rw [Option.ite_none_left_eq_some, Option.some.injEq] at h
    rw [← h.2]
    dsimp only
    decide

/-- The application of a group, refused or not, clears its COMMIT and no other (R9). -/
theorem groupPending_applyGroup (s : State) (g g' : CommitGroup) : groupPending (applyGroup s g) g' = if g' = g then false else groupPending s g' := by
  rw [← groupPending_setPending s g g' false]
  unfold applyGroup
  split
  · next hrefused => exact event_samePending (groupRefusal_minor hrefused) _ _ g'
  · exact copyGroup_samePending _ g g'

/-! ## A step boundary -/

theorem groupPending_foldl (gs : List CommitGroup) (s : State) (g : CommitGroup) :
    groupPending (gs.foldl (fun s g => if groupPending s g then applyGroup s g else s) s) g = (groupPending s g && !gs.contains g) := by
  induction gs generalizing s with
  | nil => simp
  | cons x r ih =>
    have hfirst : groupPending (if groupPending s x then applyGroup s x else s) g = if g = x then false else groupPending s g := by
      split
      · exact groupPending_applyGroup s x g
      · next hx =>
        split
        · next hg =>
          rw [hg]
          simpa using hx
        · rfl
    rw [List.foldl_cons, ih, hfirst]
    by_cases hg : g = x <;> simp [hg]

theorem mem_commitGroups (g : CommitGroup) : g ∈ commitGroups := by
  cases g with
  | ring k => simpa [commitGroups] using ⟨k.val, k.isLt, Fin.cast_val_eq_self k⟩
  | sp k => simpa [commitGroups] using ⟨k.val, k.isLt, Fin.cast_val_eq_self k⟩
  | tgt t => simpa [commitGroups] using ⟨t.val, t.isLt, Fin.cast_val_eq_self t⟩
  | _ => simp [commitGroups]

/-- At a step boundary no group stays pending (R9). -/
theorem applyBoundary_pending (s : State) (g : CommitGroup) : groupPending (applyBoundary s) g = false := by
  rw [applyBoundary, groupPending_foldl]
  simp [mem_commitGroups]

/-- What the application of groups and the checks at a release leave: the tiles, memory, the keys and fuses, the configuration, the command under
execution, and PACE but for its timing
values, its COMMIT and the lag monitor. -/
structure BoundaryKeeps (s s' : State) : Prop where
  tiles : s'.tiles = s.tiles
  mc : s'.mc = s.mc
  sec : s'.sec = s.sec
  pace : s'.pace = { s.pace with act := s'.pace.act, pending := s'.pace.pending, lagMiss := s'.pace.lagMiss, lagArmed := s'.pace.lagArmed }
  cfg : s'.cfg = s.cfg
  cur : s'.hq.cur = s.hq.cur

theorem BoundaryKeeps.refl (s : State) : BoundaryKeeps s s := ⟨rfl, rfl, rfl, rfl, rfl, rfl⟩

theorem BoundaryKeeps.trans {s t u : State} (h : BoundaryKeeps s t) (k : BoundaryKeeps t u) : BoundaryKeeps s u where
  tiles := k.tiles.trans h.tiles
  mc := k.mc.trans h.mc
  sec := k.sec.trans h.sec
  pace := by rw [k.pace, h.pace]
  cfg := k.cfg.trans h.cfg
  cur := k.cur.trans h.cur

theorem boundaryKeeps_event {c : Nat} (h : evSev c < 2) (s : State) (a : EvArgs) : BoundaryKeeps s (event s c a) := by
  rw [event_low s c a h]
  exact ⟨rfl, rfl, rfl, rfl, rfl, event_cur s c a⟩

theorem boundaryKeeps_setPending (s : State) (g : CommitGroup) (b : Bool) : BoundaryKeeps s (setPending s g b) := by
  cases g <;> exact ⟨rfl, rfl, rfl, rfl, rfl, rfl⟩

theorem boundaryKeeps_governor (s : State) (p : Nat) : BoundaryKeeps s (governor s p) := by
  unfold governor
  extract_lets w cap isOver lower below calm raise vcap s1 s2
  have h2 : BoundaryKeeps s s2 := by
    show BoundaryKeeps s (if _ then _ else _)
    split
    · exact BoundaryKeeps.trans (t := s1) ⟨rfl, rfl, rfl, rfl, rfl, rfl⟩ (boundaryKeeps_event (by decide) _ _)
    · exact ⟨rfl, rfl, rfl, rfl, rfl, rfl⟩
  split
  · exact h2.trans (BoundaryKeeps.trans (t := { s2 with pwr := { s2.pwr with capWarned := true } }) ⟨rfl, rfl, rfl, rfl, rfl, rfl⟩
      (boundaryKeeps_event (by decide) _ _))
  · exact h2

theorem boundaryKeeps_copyGroup (s : State) (g : CommitGroup) : BoundaryKeeps s (copyGroup s g) := by
  cases g with
  | pwr =>
    exact BoundaryKeeps.trans (t := { s with pwr := { s.pwr with hyst := s.pwr.shHyst, cap := s.pwr.shCap, floor := s.pwr.shFloor } })
      ⟨rfl, rfl, rfl, rfl, rfl, rfl⟩ (boundaryKeeps_governor _ _)
  | _ => exact ⟨rfl, rfl, rfl, rfl, rfl, rfl⟩

theorem boundaryKeeps_applyGroup (s : State) (g : CommitGroup) : BoundaryKeeps s (applyGroup s g) := by
  have hclear := boundaryKeeps_setPending s g false
  unfold applyGroup
  split
  · next hrefused => exact hclear.trans (boundaryKeeps_event (groupRefusal_minor hrefused) _ _)
  · exact hclear.trans (boundaryKeeps_copyGroup _ g)

theorem boundaryKeeps_applyBoundary (s : State) : BoundaryKeeps s (applyBoundary s) := by
  unfold applyBoundary
  generalize commitGroups = gs
  induction gs generalizing s with
  | nil => exact .refl s
  | cons g r ih =>
    refine BoundaryKeeps.trans ?_ (ih _)
    dsimp only
    split
    · exact boundaryKeeps_applyGroup s g
    · exact .refl s

/-! ## The release of a step (R47 to R49) -/

theorem boundaryKeeps_checkLag (s : State) : BoundaryKeeps s (checkLag s) := by
  have hmiss : BoundaryKeeps s { s with pace := { s.pace with lagMiss := satInc s.pace.lagMiss, lagArmed := false } } := ⟨rfl, rfl, rfl, rfl, rfl, rfl⟩
  unfold checkLag
  dsimp only
  split
  · exact .refl s
  · split
    · split
      · exact hmiss.trans (boundaryKeeps_event (by decide) _ _)
      · exact hmiss
    · split
      · exact ⟨rfl, rfl, rfl, rfl, rfl, rfl⟩
      · exact .refl s

theorem boundaryKeeps_twinSend (s : State) (sub w1 : Nat) (rest : List Nat) : BoundaryKeeps s (twinSend s sub w1 rest) := by
  unfold twinSend
  dsimp only
  split
  · exact ⟨rfl, rfl, rfl, rfl, rfl, rfl⟩
  · exact .refl s

theorem boundaryKeeps_checkTakeover (s : State) : BoundaryKeeps s (checkTakeover s) := by
  unfold checkTakeover
  split
  · exact BoundaryKeeps.trans (BoundaryKeeps.trans
      (t := { s with tw := { s.tw with takePending := false, lead := true, take := s.pace.step } }) ⟨rfl, rfl, rfl, rfl, rfl, rfl⟩
      (boundaryKeeps_event (by decide) _ _)) (boundaryKeeps_twinSend _ _ _ _)
  · exact .refl s

theorem boundaryKeeps_checkTick (s : State) : BoundaryKeeps s (checkTick s) := by
  unfold checkTick
  split
  · rw [raiseSource_frame]
    exact ⟨rfl, rfl, rfl, rfl, rfl, rfl⟩
  · exact .refl s

theorem releaseFabric_releases (s : State) (rank : Marker) :
    (releaseFabric s rank).tiles = mapAll {} s.tiles (fun _ g => releaseGrid (rank == .sectionEnd) g) ∧
      (releaseFabric s rank).mc.mem = s.mc.mem ∧ (releaseFabric s rank).sec = s.sec := by
  have hfold : ∀ (bs : List Nat) (u : State), let v := bs.foldl (fun s b => s.setBed b (releaseBed (s.bed b))) u
      v.tiles = u.tiles ∧ v.mc = u.mc ∧ v.sec = u.sec := by
    intro bs
    induction bs with
    | nil => exact fun u => ⟨rfl, rfl, rfl⟩
    | cons b r ih => exact fun u => ih (u.setBed b (releaseBed (u.bed b)))
  unfold releaseFabric
  dsimp only
  obtain ⟨htiles, hmc, hsec⟩ := hfold _ _
  exact ⟨htiles, (congrArg (fun m => m.mem) hmc), hsec⟩

theorem releaseGrid_parked {front : Bool} {g : GridTile} (hreset : g.inReset = false) (hclaimed : g.ctxCfg.claimed = true) :
    (releaseGrid front g).parked = false := by
  simp [releaseGrid, hreset, hclaimed]

/-- Every tile of the grid after a release: no firing counted, and a claimed tile out of reset is unparked. -/
theorem released_of_mapAll (front : Bool) (m : AMap GridTile) (t : Nat) :
    (mget {} (mapAll {} m fun _ g => releaseGrid front g) t).fired = 0 ∧
      ((mget {} m t).inReset = false → (mget {} m t).ctxCfg.claimed = true →
        (mget {} (mapAll {} m fun _ g => releaseGrid front g) t).parked = false) := by
  refine ⟨mapAll_all {} m _ (fun g => g.fired = 0) rfl (fun _ _ => rfl) t, ?_⟩
  induction m with
  | nil => exact fun hreset => absurd hreset (by simp [mget])
  | cons p r ih =>
    simp only [mapAll, mget_mset, mget]
    by_cases hp : p.1 = t
    · simpa [hp] using releaseGrid_parked
    · simpa [hp, Ne.symm hp] using ih

/-- What the release of a step leaves of PACE, the grid, memory and the pending groups. -/
theorem boundaryKeeps_doRelease (s : State) (m : BitVec 48) (rank : Marker) :
    BoundaryKeeps { releaseFabric s rank with pace := releasePace s.pace m rank } (doRelease s m rank) :=
  (((boundaryKeeps_checkLag _).trans (boundaryKeeps_checkTakeover _)).trans (boundaryKeeps_checkTick _)).trans (boundaryKeeps_applyBoundary _)

theorem doRelease_releases (s : State) (m : BitVec 48) (rank : Marker) :
    ∃ act pending lagMiss lagArmed, (doRelease s m rank).pace =
        { releasePace s.pace m rank with act := act, pending := pending, lagMiss := lagMiss, lagArmed := lagArmed } ∧
      (doRelease s m rank).tiles = mapAll {} s.tiles (fun _ g => releaseGrid (rank == .sectionEnd) g) ∧
      (∀ g, groupPending (doRelease s m rank) g = false) ∧ (doRelease s m rank).mc.mem = s.mc.mem ∧ (doRelease s m rank).sec = s.sec := by
  obtain ⟨htiles, hmem, hsec⟩ := releaseFabric_releases s rank
  have hkeeps := boundaryKeeps_doRelease s m rank
  exact ⟨_, _, _, _, hkeeps.pace, hkeeps.tiles.trans htiles, fun g => applyBoundary_pending _ g,
    (congrArg (fun m => m.mem) hkeeps.mc).trans hmem, hkeeps.sec.trans hsec⟩

theorem AbortedBy.step {s s' : State} {code : Nat} {n : Snapshot} (h : AbortedBy s s' code n) : s'.pace.step = s.pace.step := by
  obtain ⟨fatal, por, hpace⟩ := h.pace
  rw [hpace]
  rfl

/-- Settles O26: by the branches of `stepRelease`, each with what its state needs; the release by `doRelease_releases`. -/
theorem stepReleases : Obligations.StepReleases := by
  refine ⟨fun s hmay => ⟨fun hstop hrun => ?_, fun hstop hrun => ?_, fun hstop hwait => ?_, fun hstop hhold htime hagree hlist => ?_⟩,
    fun s hrel hsettled => ?_, fun s hmay hstop hhold htime hagree => ?_⟩
  · have hrelease : stepRelease s = stopTask s := by rw [stepRelease, if_pos hmay, if_pos hstop, if_pos hrun]
    refine ⟨_, congrArg Host.Outcome.next hrelease, ?_⟩
    rw [stopTask, event_low _ _ _ (by decide)]
    exact ⟨rfl, rfl, rfl, rfl⟩
  · refine congrArg Host.Outcome.next ?_
    rw [stepRelease, if_pos hmay, if_pos hstop, if_neg hrun]
  · refine congrArg Host.Outcome.next ?_
    have hnot : ¬ (!s.holding && timeReached s) = true := by rcases hwait with h | h <;> simp [h]
    rw [stepRelease, if_pos hmay, hstop, if_neg Bool.false_ne_true, if_neg hnot]
  · have hdue : (!s.holding && timeReached s) = true := by simp [hhold, htime]
    have hlists : ¬ (!s.pace.rakeAct && listFault s != 0) = true := by rcases hlist with h | h <;> simp [h]
    have hrelease : stepRelease s = doRelease s (nextStep s) (rankOf s) := by
      rw [stepRelease, if_pos hmay, hstop, if_neg Bool.false_ne_true, if_pos hdue, releaseStep, hagree, if_neg (by decide), if_neg hlists]
    obtain ⟨act, pending, lagMiss, lagArmed, hpace, htiles, hgroups, hmem, hsec⟩ := doRelease_releases s (nextStep s) (rankOf s)
    have htile : ∀ t, (doRelease s (nextStep s) (rankOf s)).tile t =
        mget {} (mapAll {} s.tiles fun _ g => releaseGrid (rankOf s == .sectionEnd) g) t := fun t => by
      rw [← htiles]
      rfl
    refine ⟨_, congrArg Host.Outcome.next hrelease, ?_, ?_, ?_, ?_, ?_, ?_, ?_, ?_, fun t => ?_, hgroups, hmem, hsec⟩
    case refine_9 =>
      rw [htile]
      exact released_of_mapAll _ s.tiles t
    all_goals rw [hpace]
    case refine_8 =>
      simp only [releasePace]
      cases s.pace.released <;> rfl
    all_goals rfl
  · have hnot : ¬ mayRelease s = true := by simp [mayRelease, hrel, hsettled]
    exact congrArg Host.Outcome.next (if_neg hnot)
  · have hdue : (!s.holding && timeReached s) = true := by simp [hhold, htime]
    have hfault : releaseStep s (nextStep s) = event s 0x0D09 {} := if_pos (by rw [hagree, Bool.not_false])
    have hrelease : stepRelease s = event s 0x0D09 {} := by
      rw [stepRelease, if_pos hmay, hstop, if_neg Bool.false_ne_true, if_pos hdue, hfault]
    have hrunning : s.pace.state ≠ .aborted := by
      simp only [State.holding, Bool.or_eq_false_iff, beq_eq_false_iff_ne] at hhold
      exact hhold.2
    have h := abortedBy_event hrunning (c := 0x0D09) (by decide) {}
    refine ⟨_, congrArg Host.Outcome.next hrelease, h.state, h.fatal (.inr (by decide)), h.step, h.tiles⟩

end Sys2Proof.Claims
end

section
/-! SUPPORT. The reset and clear phases of an abort (R58, R271). -/

namespace Sys2Proof.Claims

open Sys2Proof Sys2Proof.Machine

/-- A grid tile whose slots hold nothing and whose core is in reset. -/
def StandsInReset (g : GridTile) : Prop := g.inb = [] ∧ g.pipe = [] ∧ g.rest = [] ∧ g.outb = [] ∧ g.latch = [] ∧ g.inReset = true

theorem holdGrid_standsInReset (g : GridTile) : StandsInReset (holdGrid g) := ⟨rfl, rfl, rfl, rfl, rfl, rfl⟩

theorem holdEdge_empty (g : EdgeTile) : (holdEdge g).inSlots = [] ∧ (holdEdge g).outSlots = [] := ⟨rfl, rfl⟩

theorem abortBlocks_leaves (s : State) : (abortBlocks s).pace = s.pace ∧ (abortBlocks s).mc = s.mc ∧ (abortBlocks s).sec = s.sec := by
  unfold abortBlocks
  dsimp only
  rw [endTaskBlocks_frame]
  exact ⟨rfl, rfl, rfl⟩

/-- The state in which the reset phase finds the blocks: a task start under way is refused (R58). -/
def startRefused (s : State) : State :=
  if s.cfg.goal = .start then finishCmd { s with cfg := { s.cfg with goal := .none } } stRefused s.flt.firstCode.toNat else s

theorem startRefused_leaves (s : State) : (startRefused s).pace = s.pace ∧ (startRefused s).mc = s.mc ∧ (startRefused s).sec = s.sec := by
  unfold startRefused
  split
  · exact ⟨finishCmd_pace _ _ _, finishCmd_mc _ _ _, finishCmd_sec _ _ _⟩
  · exact ⟨rfl, rfl, rfl⟩

theorem abortReset_eq {s : State} (haborted : s.pace.state = .aborted) (hphase : s.pace.abort = .announced) : abortReset s =
    let s1 := abortBlocks (startRefused s)
    { s1 with
      tiles := mapAll {} s1.tiles fun _ g => holdGrid g
      edges := mapAll {} s1.edges fun _ g => holdEdge g
      beds := mapAll {} s1.beds fun _ x => { x with firing := false }
      pace := { s1.pace with abort := .resetDone } } :=
  if_pos (by simp [haborted, hphase])

/-- Settles O28: every tile and edge tile listed is held in reset, and one not listed stands at reset already. -/
theorem abortPhases : Obligations.AbortPhases := by
  intro s haborted
  refine ⟨fun hphase => ?_, fun hphase hfatal hpor hdump => ?_, fun hfatal => ?_⟩
  · obtain ⟨hpace, hmc, hsec⟩ := abortBlocks_leaves (startRefused s)
    obtain ⟨hpace', hmc', hsec'⟩ := startRefused_leaves s
    refine ⟨_, congrArg Host.Outcome.next (abortReset_eq haborted hphase), rfl, ?_, fun t => ?_, fun e => ?_, hmc.trans hmc', hsec.trans hsec'⟩
    · exact (congrArg Pace.state (hpace.trans hpace')).trans haborted
    · exact mapAll_all {} (abortBlocks (startRefused s)).tiles _ StandsInReset ⟨rfl, rfl, rfl, rfl, rfl, rfl⟩ (fun _ g => holdGrid_standsInReset g) t
    · exact mapAll_all {} (abortBlocks (startRefused s)).edges _ (fun g => g.inSlots = [] ∧ g.outSlots = []) ⟨rfl, rfl⟩ (fun _ g => holdEdge_empty g) e
  · exact congrArg Host.Outcome.next (if_pos (by simp [haborted, hphase, hfatal, hpor, dumpDue, hdump]))
  · exact congrArg Host.Outcome.next (if_neg (by simp [hfatal]))

end Sys2Proof.Claims
end

section
/-! SUPPORT. The changeover front: the switch of each kind of tile and block, and the front's completion (R257, R262 to R264). -/

namespace Sys2Proof.Claims

open Sys2Proof Sys2Proof.Machine

/-! ## Grid tiles -/

theorem takeWords_good {s : State} {t : Nat} (h : ∀ i, mget 0 (s.tile t).health i = 0) (is : List Nat) : takeWords s t is = s := by
  rw [takeWords, readWords_good s t h]
  rfl

theorem switchGrid_good {s : State} {t : Nat} (h : ∀ i, mget 0 (s.tile t).health i = 0) :
    switchGrid s t = s.setTile t (enterGrid false (nextCtx s) (s.tile t)) := by
  rw [switchGrid, takeWords_good]
  rw [State.setTile_tile_self]
  exact h

theorem enterGrid_queue (x : BitVec 2) (g : GridTile) (q : Nat) :
    (enterGrid false x g).queue q = if queueKept g x.toNat q then g.queue q else { froz := (g.queue q).froz } :=
  mget_mapAll ({} : Queue) g.s.queues (fun q v => if queueKept g x.toNat q then v else { froz := v.froz }) q (ite_self _)

theorem tileSwitch_grid {s : State} {t : Fin 1024} (hmoves : frontMoves s = true) (hnew : (s.tile t).switched = false)
    (hold : gridOld (s.tile t) = true ∨ s.cfg.front ≠ .none) (hdrained : gridDrained (s.tile t) = true)
    (hports : tileKind t = .s → (s.tile t).ctxCfg.claimed = true → (s.tile t).portsParked = true) :
    tileSwitch s (.grid t) = switchGrid s t := by
  have hgo : (gridOld (s.tile t) || atBarrier s) = true := by
    rw [Bool.or_eq_true, atBarrier_iff]
    exact hold
  have hparked : (tileKind t != .s || !(s.tile t).ctxCfg.claimed || (s.tile t).portsParked) = true := by
    cases hclaimed : (s.tile t).ctxCfg.claimed with
    | false => simp
    | true =>
      by_cases hkind : tileKind t = .s
      · simp [hports hkind hclaimed]
      · simp [hkind]
  simp [tileSwitch, hmoves, hnew, hgo, hdrained, hparked]

/-! ## Edge tiles -/

theorem tileSwitch_edge {s : State} {e : Fin 128} (hmoves : frontMoves s = true) (hnew : (s.edge e).switched = false)
    (hold : edgeOld (s.edge e) = true ∨ s.cfg.front ≠ .none) (hdrained : edgeDrained (s.edge e) = true) :
    tileSwitch s (.edge e) = switchEdge s e := by
  have hgo : (edgeOld (s.edge e) || atBarrier s) = true := by
    rw [Bool.or_eq_true, atBarrier_iff]
    exact hold
  simp [tileSwitch, hmoves, hnew, hgo, hdrained]

theorem startRead_list (s : State) (x k : Nat) (e : Engine) :
    (startRead s x k e).hasRead = (s.listOf x k false).isSome ∧ (startRead s x k e).rlist = (s.listOf x k false).getD {} ∧
      (startRead s x k e).delivered = 0 := by
  unfold startRead
  dsimp only
  split <;> exact ⟨rfl, rfl, rfl⟩

theorem startWrite_list (s : State) (x k : Nat) (e : Engine) :
    (startWrite s x k e).hasWrite = (s.listOf x k true).isSome ∧ (startWrite s x k e).wlist = (s.listOf x k true).getD {} := ⟨rfl, rfl⟩

theorem switchEdge_edge (s : State) (e : Nat) :
    (switchEdge s e).edge e = enterEdge false (nextCtx s) (s.edge e) ∧ (∀ u, u ≠ e → (switchEdge s e).edge u = s.edge u) ∧
      switchEdge s e = { s with edges := (switchEdge s e).edges, se := (switchEdge s e).se } := by
  have hself := State.setEdge_edge_self s e (enterEdge false (nextCtx s) (s.edge e))
  have hothers : ∀ u, u ≠ e → (s.setEdge e (enterEdge false (nextCtx s) (s.edge e))).edge u = s.edge u := fun u hu => by
    rw [State.setEdge_edge, if_neg hu]
  unfold switchEdge
  dsimp only
  split
  · exact ⟨hself, hothers, rfl⟩
  · exact ⟨hself, hothers, rfl⟩

theorem switchEdge_engine {s : State} {e : Nat} (hside : e / 32 = 2) : (switchEdge s e).engine (e % 32 / 2) =
    if e % 2 = 0 then startRead s (nextCtx s).toNat (e % 32 / 2) (s.engine (e % 32 / 2))
    else startWrite s (nextCtx s).toNat (e % 32 / 2) (s.engine (e % 32 / 2)) := by
  rw [switchEdge, if_pos hside]
  exact State.setEngine_engine_self _ _ _

theorem switchEdge_se {s : State} {e : Nat} (hside : e / 32 ≠ 2) : (switchEdge s e).se = s.se := by
  rw [switchEdge, if_neg hside]
  rfl

/-! ## The NCE and the PP -/

/-- Beds, interrupt sources, events and the PP may have changed, and nothing else. -/
def PpOnly (s s' : State) : Prop := s' = { s with beds := s'.beds, ic := s'.ic, hq := s'.hq, flt := s'.flt, pp := s'.pp }

theorem PpOnly.trans {s t u : State} (h : PpOnly s t) (k : PpOnly t u) : PpOnly s u := by
  unfold PpOnly at *
  rw [k, h]

theorem ppOnly_countOvf (s : State) (b n i k : Nat) : PpOnly s (countOvf s b n i k) := by
  unfold countOvf
  dsimp only
  split
  · rfl
  · split
    · rfl
    · rw [PpOnly, event_low _ _ _ (by decide)]
      rfl

theorem ppOnly_closeWindow (s : State) : PpOnly s (closeWindow s) := by
  have hrecords : ∀ (xs : List (Candidate × Word)) (f : Candidate × Word → Nat) (s : State),
      PpOnly s (xs.foldl (fun s x => detRecord s x (f x)) s) := by
    intro xs f
    induction xs with
    | nil => exact fun s => rfl
    | cons x r ih => exact fun s => PpOnly.trans (t := detRecord s x (f x)) rfl (ih _)
  unfold closeWindow
  extract_lets lines slots lost n s1 s2
  exact (ppOnly_countOvf s _ _ _ _).trans ((hrecords _ _ s1).trans (t := s2) rfl)

theorem tileSwitch_nce {s : State} (hmoves : frontMoves s = true) (hnew : s.cfg.nceSwitched = false) (hgone : edgesGone s nceEdge = true)
    (hsettled : s.ppSettled = true) : tileSwitch s .nce = enterNce s (nextCtx s) := by
  simp [tileSwitch, hmoves, hnew, hgone, hsettled]

theorem tileSwitch_pp {s : State} (hmoves : frontMoves s = true) (hnew : s.cfg.ppSwitched = false) (hgone : edgesGone s ppEdge = true)
    (hsettled : s.ppSettled = true) : tileSwitch s .pp = enterPp s (nextCtx s) := by
  simp [tileSwitch, hmoves, hnew, hgone, hsettled]

theorem enterNce_nce (s : State) (x : BitVec 2) :
    (enterNce s x).nce = if (s.ctxImage s.cfg.nceCtx.toNat).nce = (s.ctxImage x.toNat).nce then s.nce else clearNce s.nce := by
  simp [enterNce]

theorem enterPp_same {s : State} {x : BitVec 2} (h : (s.ctxImage s.cfg.ppCtx.toNat).pp = (s.ctxImage x.toNat).pp) :
    enterPp s x = { s with cfg := { s.cfg with ppCtx := x, ppSwitched := true } } := by
  simp [enterPp, h]

/-- With another parameter block the PP decides the lines it holds, and is cleared. -/
theorem enterPp_other {s : State} {x : BitVec 2} (h : (s.ctxImage s.cfg.ppCtx.toNat).pp ≠ (s.ctxImage x.toNat).pp) :
    ∃ s1, PpOnly s s1 ∧ (s.pp.held = [] → s1 = s) ∧
      enterPp s x = { s1 with cfg := { s1.cfg with ppCtx := x, ppSwitched := true }, pp := clearPp s1.pp } := by
  by_cases hheld : s.pp.held = []
  · exact ⟨s, rfl, fun _ => rfl, by simp [enterPp, h, hheld]⟩
  · exact ⟨closeWindow s, ppOnly_closeWindow s, fun hc => absurd hc hheld, by simp [enterPp, h, hheld]⟩

/-- Settles O29: by the equations of the switches; a grid tile's state at the new context is that of `enterGrid`. -/
theorem frontSwitches : Obligations.FrontSwitches := by
  intro s hmoves
  refine ⟨fun t hnew hold hdrained hports hwords => ?grid, fun e hnew hold hdrained => ?edge, fun hnew hgone hsettled => ?nce,
    fun hnew hgone hsettled => ?pp, fun hfront hall hwrites => ?front⟩
  case grid =>
    have hswitch := (tileSwitch_grid hmoves hnew hold hdrained hports).trans (switchGrid_good hwords)
    refine ⟨_, congrArg Host.Outcome.next hswitch, ?_⟩
    rw [State.setTile_tile_self]
    exact ⟨rfl, rfl, rfl, rfl, rfl, rfl, rfl, rfl, rfl, rfl, rfl, rfl, rfl, rfl, rfl, rfl, rfl, rfl, rfl, rfl, rfl, fun q => enterGrid_queue _ _ q, rfl,
      rfl, fun u hu => (State.setTile_tile _ _ _ _).trans (if_neg hu), rfl⟩
  case edge =>
    obtain ⟨hself, hothers, honly⟩ := switchEdge_edge s e
    refine ⟨_, congrArg Host.Outcome.next (tileSwitch_edge hmoves hnew hold hdrained), ?_, ?_, ?_, ?_, ?_, fun hside heven => ?_,
      fun hside hodd => ?_, switchEdge_se, hothers, honly⟩
    · rw [hself]; rfl
    · rw [hself]; rfl
    · rw [hself]; rfl
    · rw [hself]; rfl
    · rw [hself]; rfl
    · rw [switchEdge_engine hside, if_pos heven]
      exact startRead_list s _ _ _
    · rw [switchEdge_engine hside, if_neg (by omega)]
      exact startWrite_list s _ _ _
  case nce =>
    refine ⟨_, congrArg Host.Outcome.next (tileSwitch_nce hmoves hnew hgone hsettled), rfl, fun hsame => ?_, fun hsame => ?_⟩
    · rw [enterNce_nce, if_pos hsame]
    · rw [enterNce_nce, if_neg hsame]
      exact ⟨rfl, rfl, rfl, rfl, rfl, rfl, rfl, rfl, rfl, rfl⟩
  case pp =>
    refine ⟨_, congrArg Host.Outcome.next (tileSwitch_pp hmoves hnew hgone hsettled), ?_⟩
    by_cases hsame : (s.ctxImage s.cfg.ppCtx.toNat).pp = (s.ctxImage (nextCtx s).toNat).pp
    · rw [enterPp_same hsame]
      exact ⟨rfl, rfl, rfl, fun _ => rfl, fun h => absurd hsame h⟩
    · obtain ⟨s1, honly, hheld, henter⟩ := enterPp_other hsame
      rw [henter]
      refine ⟨?_, ?_, ?_, fun h => absurd h hsame, fun _ => ⟨rfl, rfl, rfl, rfl, rfl, fun h => ?_⟩⟩
      · rw [honly]
      · rw [honly]
      · rw [honly]
      · rw [hheld h]
        rfl
  case front =>
    refine ⟨_, congrArg Host.Outcome.next (if_pos (by simp [hmoves, (atBarrier_iff s).mpr hfront, hall, hwrites])), rfl, rfl, rfl, rfl, rfl, rfl⟩

end Sys2Proof.Claims
end

section
/-! SUPPORT. The statement about the release sequence that fails: the instructions of a block that holds more than a context has room for run
into the words of the next context, which the statement gives to that context's own block alone. -/

namespace Sys2Proof.Claims

open Sys2Proof Sys2Proof.Machine

/-- A placement whose block of tile 0 in context 0 has 385 instructions. -/
def overlongPlc : PlcImage := { ctxs := [{ ctx := 0, blocks := [{ tile := 0, instrs := List.replicate 385 1 }] }] }

/-- The fabric closes from stage 1, with that placement waiting to be written. -/
def closesForOverlong : State :=
  { State.reset with cfg := { goal := .load, stage := 1, pend := some { im := { plcs := [overlongPlc] }, pos := 0, plc := 0 } } }

/-- The first word of context 1 in tile 0, and whether the tile's fabric block is on, in the machine after a stage. -/
def afterStage (s : State) : BitVec 64 × Bool :=
  match exec .releaseStage s with
  | .next s' => (mget 0 (s'.tile 0).words 384, s'.domain 14)
  | _ => (0, false)

theorem afterStage_overlong : afterStage closesForOverlong = (1, true) := by decide +kernel

/-- Refutes O30: context 1 of tile 0, in which the placement has no block, does not read 0 at its first instruction. -/
theorem not_releaseStages : ¬ Obligations.ReleaseStages := by
  intro h
  obtain ⟨-, -, hclose, -⟩ := h closesForOverlong (by decide) (by decide)
  obtain ⟨s', hexec, hwritten, -⟩ := (hclose { im := { plcs := [overlongPlc] }, pos := 0, plc := 0 } rfl).2.2 rfl
  obtain ⟨-, -, -, -, -, -, -, -, -, -, -, htiles, -⟩ := hwritten
  have hafter := afterStage_overlong
  rw [afterStage, hexec] at hafter
  have hword := (((htiles 0 (congrArg Prod.snd hafter)).1 1 (by decide) (by decide)).1 0 (by decide))
  exact absurd ((congrArg Prod.fst hafter).symm.trans hword) (by decide)

end Sys2Proof.Claims
end

section
/-! SUPPORT. Commit groups written and applied (R9). -/

namespace Sys2Proof.Claims

open Sys2Proof Sys2Proof.Machine

/-! ## Active values and shadows -/

/-- The active values and the shadows of every group. -/
def SameValues (s s' : State) : Prop := ∀ g, activeOf s' g = activeOf s g ∧ shadowOf s' g = shadowOf s g

theorem SameValues.refl (s : State) : SameValues s s := fun _ => ⟨rfl, rfl⟩

theorem SameValues.trans {s t u : State} (h : SameValues s t) (k : SameValues t u) : SameValues s u := fun g =>
  ⟨(k g).1.trans (h g).1, (k g).2.trans (h g).2⟩

theorem sameValues_of_targets {s s' : State} (h : SameTargets s s') (hpace : s'.pace = s.pace) (hnce : s'.nce = s.nce) (hse : s'.se = s.se)
    (hsp : s'.sp = s.sp) (hpwr : s'.pwr = s.pwr) : SameValues s s' := by
  intro g
  cases g with
  | tgt t =>
    simp only [activeOf, shadowOf]
    rw [h t]
    exact ⟨rfl, rfl⟩
  | ring k => simp only [activeOf, shadowOf, State.engine, hse, and_self]
  | sp k => simp only [activeOf, shadowOf, State.sport, hsp, and_self]
  | pace => simp only [activeOf, shadowOf, hpace, and_self]
  | nce => simp only [activeOf, shadowOf, hnce, and_self]
  | se => simp only [activeOf, shadowOf, hse, and_self]
  | pwr => simp only [activeOf, shadowOf, hpwr, and_self]

theorem event_sameValues {c : Nat} (h : evSev c < 2) (s : State) (a : EvArgs) : SameValues s (event s c a) := by
  refine sameValues_of_targets (event_sameTargets h s a) ?_ ?_ ?_ ?_ ?_ <;> rw [event_low s c a h]

theorem setPending_sameValues (s : State) (g : CommitGroup) (b : Bool) : SameValues s (setPending s g b) := by
  intro g'
  cases g with
  | ring k =>
    cases g' with
    | ring k' =>
      simp only [setPending, activeOf, shadowOf, State.setEngine_engine]
      split
      · next h =>
        rw [h]
        exact ⟨rfl, rfl⟩
      · exact ⟨rfl, rfl⟩
    | _ => exact ⟨rfl, rfl⟩
  | sp k =>
    cases g' with
    | sp k' =>
      simp only [setPending, activeOf, shadowOf, State.setSport_sport]
      split
      · next h =>
        rw [h]
        exact ⟨rfl, rfl⟩
      · exact ⟨rfl, rfl⟩
    | _ => exact ⟨rfl, rfl⟩
  | tgt k =>
    cases g' with
    | tgt k' =>
      simp only [setPending, activeOf, shadowOf, State.setTarget_target]
      split
      · next h =>
        rw [h]
        exact ⟨rfl, rfl⟩
      · exact ⟨rfl, rfl⟩
    | _ => exact ⟨rfl, rfl⟩
  | _ => cases g' <;> exact ⟨rfl, rfl⟩

theorem governor_sameValues (s : State) (p : Nat) : SameValues s (governor s p) := by
  unfold governor
  extract_lets w cap isOver lower below calm raise vcap s1 s2
  have h1 : SameValues s s1 := fun g => by cases g <;> exact ⟨rfl, rfl⟩
  have h2 : SameValues s s2 := by
    show SameValues s (if _ then _ else _)
    split
    · exact h1.trans (event_sameValues (by decide) _ _)
    · exact h1
  have hwarned : SameValues s2 { s2 with pwr := { s2.pwr with capWarned := true } } := fun g => by cases g <;> exact ⟨rfl, rfl⟩
  split
  · exact h2.trans (hwarned.trans (event_sameValues (by decide) _ _))
  · exact h2

/-- A group that takes its shadows has them active, and keeps them. -/
theorem copyGroup_takes (s : State) (g : CommitGroup) : activeOf (copyGroup s g) g = shadowOf s g ∧ shadowOf (copyGroup s g) g = shadowOf s g := by
  cases g with
  | ring k =>
    simp only [copyGroup, activeOf, shadowOf, State.setEngine_engine_self, and_self]
  | sp k =>
    simp only [copyGroup, activeOf, shadowOf, State.setSport_sport_self]
    exact ⟨rfl, rfl⟩
  | tgt k =>
    simp only [copyGroup, activeOf, shadowOf, State.setTarget_target_self, and_self]
  | pwr =>
    obtain ⟨hactive, hshadow⟩ := governor_sameValues { s with pwr := { s.pwr with hyst := s.pwr.shHyst, cap := s.pwr.shCap, floor := s.pwr.shFloor } }
      s.pwr.lastWin .pwr
    exact ⟨hactive, hshadow⟩
  | _ => exact ⟨rfl, rfl⟩

/-! ## The application of a group -/

theorem groupRefusal_setPending (s : State) (g : CommitGroup) (b : Bool) : groupRefusal (setPending s g b) g = groupRefusal s g := by
  cases g with
  | ring k =>
    simp only [groupRefusal, setPending, State.setEngine_engine_self]
    rfl
  | sp k =>
    simp only [groupRefusal, setPending, State.setSport_sport_self]
  | tgt k =>
    simp only [groupRefusal, setPending, State.setTarget_target_self]
  | _ => rfl

theorem groupIdle_setPending (s : State) (g : CommitGroup) (b : Bool) : groupIdle (setPending s g b) g = groupIdle s g := by
  cases g with
  | ring k =>
    simp only [groupIdle, listRuns, setPending, State.setEngine_engine_self]
    rfl
  | tgt k =>
    simp only [groupIdle, setPending, State.setTarget_target_self]
    rfl
  | _ => rfl

/-- The group is applied: COMMIT reads 0, the shadows stand, and they are active unless the group's rules refuse them. -/
theorem applyGroup_applies (s : State) (g : CommitGroup) : groupPending (applyGroup s g) g = false ∧ shadowOf (applyGroup s g) g = shadowOf s g ∧
    activeOf (applyGroup s g) g = (if groupRefusal s g = none then shadowOf s g else activeOf s g) ∧ (applyGroup s g).mc = s.mc := by
  refine ⟨(groupPending_applyGroup s g g).trans (if_pos rfl), ?_, ?_, (boundaryKeeps_applyGroup s g).mc⟩
  all_goals
    obtain ⟨hactive, hshadow⟩ := setPending_sameValues s g false g
    unfold applyGroup
    split
  · next hrefused => exact ((event_sameValues (groupRefusal_minor hrefused) _ _ g).2).trans hshadow
  · exact (copyGroup_takes _ g).2.trans hshadow
  · next hrefused =>
    rw [if_neg (by rw [hrefused]; exact Option.some_ne_none _)]
    exact ((event_sameValues (groupRefusal_minor hrefused) _ _ g).1).trans hactive
  · next hok =>
    rw [if_pos hok]
    exact (copyGroup_takes _ g).1.trans hshadow

theorem rowAccess_reaches {s : State} {a : Agent} {off : Nat} {write : Bool} (h : reaches s a off write) (f : State → State) :
    rowAccess s a off write f = f s := by
  simp [rowAccess, h.1, h.2]

theorem commitWrite_eq {s : State} {g : CommitGroup} (h : groupPending s g = false) :
    commitWrite s g = if groupIdle s g then applyGroup (setPending s g true) g else setPending s g true := by
  simp [commitWrite, h, groupIdle_setPending]

/-- Settles O31: a commit marks its group and, with the block idle, applies it. -/
theorem commitGroups : Obligations.CommitGroups := by
  intro s g a
  obtain ⟨hactive, hshadow⟩ := setPending_sameValues s g true g
  refine ⟨fun hreach hnew hbusy => ?_, ?_⟩
  · refine ⟨setPending s g true, ?_, (groupPending_setPending s g g true).trans (if_pos rfl), hactive⟩
    show Host.Outcome.next (rowAccess s a (commitOff g) true fun s => commitWrite s g) = _
    rw [rowAccess_reaches hreach, commitWrite_eq hnew, hbusy]
    rfl
  · rintro c (⟨rfl, hreach, hnew, hidle⟩ | ⟨rfl, hpending, hidle⟩)
    · obtain ⟨hpend, hsh, hact, hmc⟩ := applyGroup_applies (setPending s g true) g
      rw [groupRefusal_setPending, hactive, hshadow] at hact
      refine ⟨applyGroup (setPending s g true) g, ?_, hpend, hsh.trans hshadow, hact, hmc.trans (boundaryKeeps_setPending s g true).mc⟩
      show Host.Outcome.next (rowAccess s a (commitOff g) true fun s => commitWrite s g) = _
      rw [rowAccess_reaches hreach, commitWrite_eq hnew, hidle]
      rfl
    · exact ⟨applyGroup s g, congrArg Host.Outcome.next (if_pos (by simp [hpending, hidle])), applyGroup_applies s g⟩

end Sys2Proof.Claims
end

section
/-! SUPPORT. Event records, completions and the command ring (R325, R331 to R333). -/

namespace Sys2Proof.Claims

open Sys2Proof Sys2Proof.Machine

/-! ## The event queue -/

theorem queueRecord_evq (s : State) (r : EventRec) :
    (queueRecord s r).hq.evq = if s.hq.evq.length < 256 then s.hq.evq ++ [r] else s.hq.evq := by
  unfold queueRecord
  dsimp only
  split
  · split
    · rw [raiseSource_hq]
    · rfl
  · rw [raiseSource_hq]

/-- A minor event that is not logged joins the queue where that has room. -/
theorem event_evq {s : State} {c : Nat} (h : evSev c < 2) (hl : evLogged c = false) (a : EvArgs) :
    (event s c a).hq.evq = if s.hq.evq.length < 256 then s.hq.evq ++ [mkRecord s c a] else s.hq.evq := by
  rw [event_minor s c a h hl, eventBase, raiseSource_hq]
  exact queueRecord_evq _ _

theorem event_cplWait (s : State) (c : Nat) (a : EvArgs) : (event s c a).hq.cplWait = s.hq.cplWait := by rw [event_hq s c a]

theorem onlyHost_event {s : State} {c : Nat} (h : evSev c < 2) (hl : evLogged c = false) (a : EvArgs) : onlyHost s (event s c a) := by
  rw [event_minor s c a h hl, onlyHost, eventBase_frame]

theorem onlyHost.trans {s t u : State} (h : onlyHost s t) (k : onlyHost t u) : onlyHost s u := by
  unfold onlyHost at *
  rw [k, h]

/-! ## Completions (R331, R333) -/

section
variable (s : State) (opc seq : BitVec 16) (st : Nat) (dup : Bool) (evt : Nat) (i : Word)

theorem completion_room (h : s.hq.evq.length < 256) :
    completion s opc seq st dup evt i = event s 0x0201 { addr := i.toNat, detail := completionDetail opc seq st dup evt } := if_pos h

theorem completion_waits (h : ¬ s.hq.evq.length < 256) : completion s opc seq st dup evt i =
    { s with hq := { s.hq with cplWait := some (i.toNat, completionDetail opc seq st dup evt) } } := if_neg h

theorem completion_completed : completed (completion s opc seq st dup evt i) opc seq st dup evt i := by
  by_cases h : s.hq.evq.length < 256
  · rw [completion_room _ _ _ _ _ _ _ h]
    refine .inl ⟨mkRecord s 0x0201 { addr := i.toNat, detail := completionDetail opc seq st dup evt }, ?_, rfl, rfl, rfl⟩
    rw [event_evq (by decide) (by decide), if_pos h]
    simp
  · rw [completion_waits _ _ _ _ _ _ _ h]
    exact .inr rfl

theorem completion_onlyHost : onlyHost s (completion s opc seq st dup evt i) := by
  by_cases h : s.hq.evq.length < 256
  · rw [completion_room _ _ _ _ _ _ _ h]
    exact onlyHost_event (by decide) (by decide) _
  · rw [completion_waits _ _ _ _ _ _ _ h]
    rfl

/-- One record more, or none and the completion waits. -/
theorem completion_evq :
    (s.hq.evq.length < 256 → (completion s opc seq st dup evt i).hq.cplWait = s.hq.cplWait ∧
      ∃ x, (completion s opc seq st dup evt i).hq.evq = s.hq.evq ++ [x]) ∧
    (256 ≤ s.hq.evq.length → (completion s opc seq st dup evt i).hq.evq = s.hq.evq) := by
  constructor
  · intro h
    rw [completion_room _ _ _ _ _ _ _ h]
    exact ⟨event_cplWait _ _ _, _, by rw [event_evq (by decide) (by decide), if_pos h]⟩
  · intro h
    rw [completion_waits _ _ _ _ _ _ _ (Nat.not_lt.mpr h)]

end

section
variable {s s0 : State} {c : Command} (hcur : s.hq.cur = some c)
include hcur

theorem finishCmd_eq (st evt : Nat) : finishCmd s st evt =
    let s1 := { s with hq := { s.hq with
      cur := none, kept := some { opc := c.opc, seq := c.seq, status := BitVec.ofNat 8 st, evt := BitVec.ofNat 16 evt } } }
    if c.quiet && st == stDone then s1 else completion s1 c.opc c.seq st false evt c.index := by
  rw [finishCmd, hcur]

theorem finishCmd_completes (st evt : Nat) :
    (c.quiet = true ∧ st = 0) ∨ completed (finishCmd s st evt) c.opc c.seq st false evt c.index := by
  rw [finishCmd_eq hcur]
  dsimp only
  split
  · next h => exact .inl (by simpa [stDone] using h)
  · exact .inr (completion_completed ..)

theorem finishCmd_onlyHost (st evt : Nat) : onlyHost s (finishCmd s st evt) := by
  rw [finishCmd_eq hcur]
  dsimp only
  split
  · rfl
  · exact onlyHost.trans (t := { s with hq := { s.hq with cur := none, kept := some _ } }) rfl (completion_onlyHost ..)

/-- A command that ends in a state with the same command under execution ends for the statements. -/
theorem finished_finishCmd (h : s0.hq.cur = s.hq.cur) (st evt : Nat) : finished s0 (finishCmd s st evt) st evt := by
  obtain ⟨hnone, hkept⟩ := finishCmd_done s st evt c hcur
  exact ⟨c, h.trans hcur, hnone, hkept, finishCmd_completes hcur st evt⟩

end

/-! ## Command entries (R325, R332) -/

/-- The state in which an entry has been read from the command ring. -/
def entryRead (s : State) : State := raiseSource (markWb (s.setRing 0 { s.ring 0 with ci := (s.ring 0).ci + 1 }) 0) 0

theorem entryRead_onlyHost (s : State) : onlyHost s (entryRead s) := by
  unfold onlyHost entryRead
  rw [raiseSource_frame]
  rfl

theorem entryRead_hq (s : State) : (entryRead s).hq =
    { s.hq with rings := mset {} s.hq.rings 0 { s.ring 0 with ci := (s.ring 0).ci + 1 }, wbDirty := true } := by
  unfold entryRead
  rw [raiseSource_hq]
  rfl

/-- The command of an entry. -/
def entryCommand (s : State) (b : List Byte) : Command :=
  { opc := BitVec.ofNat 16 (numAt b 0 2), seq := BitVec.ofNat 16 (numAt b 2 2), quiet := bitAt (numAt b 4 4) 0, bytes := b
    index := (s.ring 0).ci, t := s.devTime }

/-- The state with the command of an entry under execution. -/
def entryRuns (s : State) (b : List Byte) : State :=
  { entryRead s with hq := { (entryRead s).hq with cur := some (entryCommand s b) } }

theorem takeCommand_repeat {s : State} {b : List Byte} {k : Kept} (hkept : s.hq.kept = some k) (hseq : k.seq = BitVec.ofNat 16 (numAt b 2 2)) :
    takeCommand s b = completion (entryRead s) k.opc k.seq k.status.toNat true k.evt.toNat (s.ring 0).ci := by
  rw [takeCommand, hkept]
  exact if_pos hseq

theorem takeCommand_new {s : State} {b : List Byte} (h : ∀ k, s.hq.kept = some k → k.seq ≠ BitVec.ofNat 16 (numAt b 2 2)) :
    takeCommand s b = if cmdMalformed b then malformedCmd (entryRuns s b) else entryRuns s b := by
  rw [takeCommand]
  split
  · next k hkept => exact if_neg (h k hkept)
  · rfl

theorem fetchDue_cur {s : State} (h : fetchDue s = true) : s.hq.cur = none := by
  simp only [fetchDue, Bool.and_eq_true, Option.isNone_iff_eq_none] at h
  exact h.1.1.2

theorem ring_of_hq {s t : State} (h : t.hq.rings = s.hq.rings) (n : Nat) : t.ring n = s.ring n := by
  unfold State.ring
  rw [h]

theorem entryRead_ring (s : State) : ((entryRead s).ring 0).ci = (s.ring 0).ci + 1 := by
  unfold State.ring
  rw [entryRead_hq]
  exact congrArg Ring.ci (mget_mset_self _ _ _ _)

theorem malformedCmd_onlyHost {s : State} {c : Command} (hcur : s.hq.cur = some c) : onlyHost s (malformedCmd s) :=
  (onlyHost_event (by decide) (by decide) _).trans (finishCmd_onlyHost ((event_cur _ _ _).trans hcur) _ _)

theorem malformedCmd_rings (s : State) : (malformedCmd s).hq.rings = s.hq.rings := by
  rw [malformedCmd, finishCmd_rings, event_rings]

theorem commandFetch_entry {s : State} {b : List Byte} (hdue : fetchDue s = true) (hlen : b.length = 64) :
    exec (.commandFetch (.ok b)) s = .next (takeCommand s b) := by
  have hwf : (Instr.commandFetch (.ok b)).wf = true := by simp [Instr.wf, HostRead.wf, hlen]
  show execCommandFetch (.ok b) s = _
  rw [execCommandFetch, if_pos hwf, commandFetch, if_pos hdue]

/-- Settles O32: an entry read is a repeat, a malformed one, or the command under execution. -/
theorem commandFetched : Obligations.CommandFetched := by
  intro s b hdue
  refine ⟨fun hlen => ?_, ?_⟩
  · refine ⟨_, commandFetch_entry hdue hlen, ?_⟩
    by_cases hnew : ∀ k, s.hq.kept = some k → k.seq ≠ BitVec.ofNat 16 (numAt b 2 2)
    · have hruns : onlyHost s (entryRuns s b) := (entryRead_onlyHost s).trans rfl
      rw [takeCommand_new hnew]
      by_cases hbad : cmdMalformed b = true
      · obtain ⟨hnone, hkept⟩ := finishCmd_done (event (entryRuns s b) 0x0205 { addr := curIndex (entryRuns s b) }) stMalformed 0
          (entryCommand s b) (event_cur _ _ _)
        rw [if_pos hbad]
        refine ⟨hruns.trans (malformedCmd_onlyHost rfl), ?_, fun k hk hseq => absurd hseq (hnew k hk), fun _ => ⟨fun _ => ⟨hnone, ?_, _, hkept, rfl, rfl⟩,
          fun h => absurd (hbad.symm.trans h) (by decide)⟩⟩
        · rw [ring_of_hq (malformedCmd_rings _)]
          exact entryRead_ring s
        · exact (finishCmd_completes (s := event (entryRuns s b) 0x0205 _) (event_cur _ _ _) stMalformed 0).resolve_left
            (fun h => absurd h.2 (by decide))
      · rw [if_neg hbad]
        refine ⟨hruns, entryRead_ring s, fun k hk hseq => absurd hseq (hnew k hk), fun _ => ⟨fun h => absurd h hbad, fun _ => ⟨?_, _, rfl, rfl, rfl, rfl⟩⟩⟩
        show (entryRead s).hq.kept = s.hq.kept
        rw [entryRead_hq]
    · push Not at hnew
      obtain ⟨k, hkept, hseq⟩ := hnew
      rw [takeCommand_repeat hkept hseq]
      obtain ⟨hcur, hkept', hrings, -⟩ := completion_hq (entryRead s) k.opc k.seq k.status.toNat true k.evt.toNat (s.ring 0).ci
      rw [entryRead_hq] at hcur hkept'
      obtain ⟨hroom, hfull⟩ := completion_evq (entryRead s) k.opc k.seq k.status.toNat true k.evt.toNat (s.ring 0).ci
      rw [entryRead_hq] at hroom hfull
      refine ⟨(entryRead_onlyHost s).trans (completion_onlyHost ..), ?_, fun k' hk' _ => ?_, fun h => absurd hseq (h k hkept)⟩
      · rw [ring_of_hq hrings]
        exact entryRead_ring s
      · obtain rfl : k = k' := Option.some_inj.mp (hkept.symm.trans hk')
        exact ⟨hcur.trans (fetchDue_cur hdue), hkept', completion_completed .., hroom, hfull⟩
  · refine ⟨event (s.setRing 0 { s.ring 0 with en := false }) 0x0206
      { addr := (entryAddr (s.ring 0) 0 (s.ring 0).ci).toNat, detail := two (entryAddr (s.ring 0) 0 (s.ring 0).ci).toNat 0 },
      ?_, onlyHost.trans (t := s.setRing 0 { s.ring 0 with en := false }) rfl (onlyHost_event (by decide) (by decide) _), ?_, ?_⟩
    · show execCommandFetch .failed s = _
      rw [execCommandFetch, if_pos (by rfl), commandFetch, if_pos hdue]
    · rw [event_ring, State.setRing_ring_self]
    · rw [event_ring, State.setRing_ring_self]

end Sys2Proof.Claims
end

section
/-!
SUPPORT. O33: the commands NOP, RESUME, RAKE and ABORT (R57, R266, R268, R330), executed and refused.
-/
namespace Sys2Proof.Claims
open Sys2Proof Sys2Proof.Machine

section
variable {s : State} {c : Command} (hcur : s.hq.cur = some c)
include hcur

theorem finishCmd_pace (st evt : Nat) : (finishCmd s st evt).pace = s.pace := by
  rw [finishCmd_onlyHost hcur st evt]

theorem finishCmd_tiles (st evt : Nat) : (finishCmd s st evt).tiles = s.tiles := by
  rw [finishCmd_onlyHost hcur st evt]

/-- A command that moves PACE and is done. -/
theorem finishCmd_paced (p : Pace) (st evt : Nat) : finished s (finishCmd { s with pace := p } st evt) st evt ∧
    (finishCmd { s with pace := p } st evt).pace = p ∧ (finishCmd { s with pace := p } st evt).tiles = s.tiles := by
  have hcur' : ({ s with pace := p } : State).hq.cur = some c := hcur
  exact ⟨finished_finishCmd hcur' rfl _ _, finishCmd_pace hcur' _ _, finishCmd_tiles hcur' _ _⟩

/-- A command refused with an event that aborts nothing. -/
theorem finishCmd_event_refuses {code : Nat} (hsev : evSev code < 2) (a : EvArgs) (st evt : Nat) :
    finished s (finishCmd (event s code a) st evt) st evt ∧ (finishCmd (event s code a) st evt).pace = s.pace := by
  have hcur' : (event s code a).hq.cur = some c := (event_cur s code a).trans hcur
  refine ⟨finished_finishCmd hcur' (event_cur s code a).symm st evt, ?_⟩
  rw [finishCmd_pace hcur', event_low s code a hsev]

theorem wrongState_refuses : finished s (wrongState s) 3 0 ∧ (wrongState s).pace = s.pace :=
  finishCmd_event_refuses hcur (by decide) _ _ _

end

/-- A command that is under execution is there. -/
theorem cur_of_curIs {s : State} {opc : Nat} (h : curIs s opc = true) : ∃ c, s.hq.cur = some c := by
  unfold curIs at h
  cases hcur : s.hq.cur with
  | none => simp [hcur] at h
  | some c => exact ⟨c, rfl⟩

theorem resume_refuses {s : State} (hop : curIs s 0x0021 = true) (h : s.pace.state ≠ .stopped ∨ s.pace.stopByStep = false) :
    resume s = wrongState s := by
  have hnot : ¬ (s.pace.state = .stopped ∧ s.pace.stopByStep = true ∧ s.pace.rakeAct = false) := by
    rintro ⟨hstop, hby, -⟩
    rcases h with h | h
    · exact h hstop
    · simp [hby] at h
  rw [resume, if_neg (by simp [hop]), if_neg hnot]

theorem rake_refuses {s : State} (hop : curIs s 0x0022 = true)
    (h : s.pace.state = .idle ∨ s.pace.state = .aborted ∨ s.pace.rakeAct = true) : rake s = refuseCmd s 0x0D0E := by
  have hany : (s.idle || s.pace.state == .aborted || s.pace.rakeAct) = true := by
    rcases h with h | h | h <;> simp [State.idle, h]
  rw [rake, if_neg (by simp [hop]), if_pos hany]

theorem abortCmd_refuses {s : State} (hop : curIs s 0x0023 = true) (h : s.pace.state = .idle ∨ s.pace.state = .aborted) :
    abortCmd s = wrongState s := by
  have hany : (s.idle || s.pace.state == .aborted) = true := by
    rcases h with h | h <;> simp [State.idle, h]
  rw [abortCmd, if_neg (by simp [hop]), if_pos hany]

/-- ABORT is the event 0x020A, and done. -/
theorem abortCmd_aborts {s : State} (hop : curIs s 0x0023 = true) (hidle : s.pace.state ≠ .idle) (hab : s.pace.state ≠ .aborted) :
    abortCmd s = finishCmd (event s 0x020A) stDone 0 := by
  rw [abortCmd, if_neg (by simp [hop]), if_neg (by simp [State.idle, hidle, hab])]

/-- Settles O33: each command is done in its states, and refused out of them with PACE as it was. -/
theorem taskCommands : Obligations.TaskCommands := by
  refine ⟨fun s => ⟨fun hop => ?nop, fun hop hstop hby hrake => ?resume, fun hop hidle hab hrake => ?rake, fun hop hidle hab => ?abort⟩,
    fun s => ⟨fun hop h => ?resume', fun hop h => ?rake', fun hop h => ?abort'⟩⟩
  all_goals obtain ⟨c, hcur⟩ := cur_of_curIs hop
  case nop =>
    refine ⟨_, rfl, ?_⟩
    rw [nopCmd, if_pos hop]
    exact ⟨finished_finishCmd hcur rfl _ _, finishCmd_onlyHost hcur _ _⟩
  case resume =>
    refine ⟨_, rfl, ?_⟩
    rw [resume, if_neg (by simp [hop]), if_pos ⟨hstop, hby, hrake⟩]
    exact finishCmd_paced hcur _ _ _
  case rake =>
    refine ⟨_, rfl, ?_⟩
    rw [rake, if_neg (by simp [hop]), if_neg (by simp [State.idle, hidle, hab, hrake])]
    exact finishCmd_paced hcur _ _ _
  case abort =>
    have haborts := abortedBy_event hab (c := 0x020A) (by decide) {}
    have hcur' : (event s 0x020A).hq.cur = some c := (event_cur _ _ _).trans hcur
    refine ⟨_, rfl, ?_⟩
    rw [abortCmd_aborts hop hidle hab, finishCmd_pace hcur', finishCmd_tiles hcur']
    obtain ⟨fatal, por, hpace⟩ := haborts.pace
    exact ⟨finished_finishCmd hcur' (event_cur _ _ _).symm _ _, haborts.state, by rw [hpace]; rfl, haborts.tiles⟩
  case resume' => exact ⟨_, rfl, resume_refuses hop h ▸ wrongState_refuses hcur⟩
  case rake' =>
    refine ⟨_, rfl, ?_⟩
    rw [rake_refuses hop h]
    exact finishCmd_event_refuses hcur (by decide) _ _ _
  case abort' => exact ⟨_, rfl, abortCmd_refuses hop h ▸ wrongState_refuses hcur⟩

end Sys2Proof.Claims
end

section
/-!
SUPPORT. O34: TASK_START refused, accepted and released, alone and with a partner (R49, R57, R271, R383).
-/
namespace Sys2Proof.Claims
open Sys2Proof Sys2Proof.Machine

/-! ## A list of tiles through a change of every tile -/

theorem mem_mset {α : Type} [DecidableEq α] {d : α} {m : AMap α} {k : Nat} {v : α} {p : Nat × α} (h : p ∈ mset d m k v) :
    p = (k, v) ∨ p ∈ m := by
  unfold mset at h
  split at h
  · exact .inr (List.mem_of_mem_filter h)
  · exact (mem_mins _ _ _ _ h).imp id List.mem_of_mem_filter

/-- Every entry of a changed map is the change of one. -/
theorem mem_mapAll {α : Type} [DecidableEq α] {d : α} {f : Nat → α → α} {m : AMap α} {p : Nat × α} (h : p ∈ mapAll d m f) :
    ∃ q ∈ m, p = (q.1, f q.1 q.2) := by
  induction m with
  | nil => cases h
  | cons q r ih =>
    rcases mem_mset h with h | h
    · exact ⟨q, List.mem_cons_self, h⟩
    · obtain ⟨q', hq', hp⟩ := ih h
      exact ⟨q', List.mem_cons_of_mem _ hq', hp⟩

/-- What the default and every entry has, every value of a map has. -/
theorem mget_all {α : Type} {d : α} {m : AMap α} {P : α → Prop} (hd : P d) (h : ∀ p ∈ m, P p.2) (k : Nat) : P (mget d m k) := by
  induction m with
  | nil => exact hd
  | cons q r ih =>
    simp only [mget]
    split
    · exact h q List.mem_cons_self
    · exact ih fun p hp => h p (List.mem_cons_of_mem _ hp)

/-! ## The acceptance of a task -/

/-- What an accepted task finds. -/
structure Accepted (s s' : State) (n : BitVec 48) : Prop where
  step : s'.pace.step = n
  state : s'.pace.state = (if s.pace.req = 0 then .running else .held)
  released : s'.pace.released = false
  period : s'.pace.act.period = BitVec.ofNat 24 s.plc.pace.period
  stage : s'.cfg.stage = 2
  goal : s'.cfg.goal = .start
  waiting : s'.tw.pair.waiting = false
  tiles : s'.tiles = mapAll {} s.tiles fun _ g => holdGrid { g with q := { g.q with satc := [], fired := [] } }
  firstCode : s'.flt.firstCode = 0
  mc : s'.mc = s.mc

theorem acceptTask_accepted (s : State) (n : BitVec 48) : Accepted s (acceptTask s n) n := by
  have hstate : (startPace s n).state = (if s.pace.req = 0 then .running else .held) := by
    by_cases hreq : s.pace.req = 0 <;> simp [startPace, hreq]
  unfold acceptTask
  dsimp only
  split <;> exact ⟨rfl, hstate, rfl, rfl, rfl, rfl, rfl, rfl, rfl, rfl⟩

theorem Accepted.reset {s s' : State} {n : BitVec 48} (h : Accepted s s' n) (t : Nat) :
    (s'.tile t).inReset = true ∧ (s'.tile t).inb = [] ∧ (s'.tile t).q.satc = [] := by
  unfold State.tile
  rw [h.tiles]
  exact mapAll_all {} s.tiles (fun _ g => holdGrid { g with q := { g.q with satc := [], fired := [] } })
    (fun g : GridTile => g.inReset = true ∧ g.inb = [] ∧ g.q.satc = []) ⟨rfl, rfl, rfl⟩ (fun _ _ => ⟨rfl, rfl, rfl⟩) t

section
variable {s : State} (hop : curIs s 0x0020 = true) (hwait : s.tw.pair.waiting = false) (hgoal : s.cfg.goal = .none)
  (hloaded : s.loaded = true) (hidle : s.pace.state = .idle) (hrings : ringsReady s = true)
  (hstep : startStep s = 0 ∨ s.plc.pace.mode = 2)
include hop hwait hgoal hloaded hidle hrings hstep

/-- A TASK_START on an idle device with its image and its rings is judged by its refusals alone. -/
theorem taskStart_refused {code : Nat} {a : EvArgs} (h : startRefusal s = some (code, a)) : taskStart s = refuseCmd s code a := by
  have hfits : ¬ (startStep s ≠ 0 ∧ s.plc.pace.mode ≠ 2) := by tauto
  have hgo : ¬ (!curIs s 0x0020 || s.tw.pair.waiting || s.cfg.goal == .start) = true := by simp [hop, hwait, hgoal]
  rw [taskStart, if_neg hgo, if_neg (by simp [hloaded]), if_neg hfits, if_neg (by simp [State.idle, hidle, hrings]), h]

theorem taskStart_accepted (h : startRefusal s = none) (hpair : s.tw.state ≠ .paired) :
    taskStart s = acceptTask { s with tw := { s.tw with firstPeer := [] } } (startStep s) := by
  have hfits : ¬ (startStep s ≠ 0 ∧ s.plc.pace.mode ≠ 2) := by tauto
  have hgo : ¬ (!curIs s 0x0020 || s.tw.pair.waiting || s.cfg.goal == .start) = true := by simp [hop, hwait, hgoal]
  rw [taskStart, if_neg hgo, if_neg (by simp [hloaded]), if_neg hfits, if_neg (by simp [State.idle, hidle, hrings]), h]
  exact if_neg (by simp [State.paired, hpair])

end

/-! ## The release of the start step -/

theorem startEngines_frame (s : State) (x : Nat) : startEngines s x = { s with se := (startEngines s x).se } := by
  unfold startEngines
  generalize List.range 16 = ks
  induction ks generalizing s with
  | nil => rfl
  | cons k r ih =>
    refine (ih _).trans ?_
    rfl

theorem startRead_hasRead (s : State) (x k : Nat) (e : Engine) : (startRead s x k e).hasRead = (s.listOf x k false).isSome := by
  unfold startRead
  dsimp only
  split <;> rfl

theorem readEngines_of_se {s t : State} (h : t.se = s.se) : readEngines t = readEngines s := by
  unfold readEngines State.engine
  rw [h]

/-- With no read list no engine reads. -/
theorem startEngines_idle {s : State} {x : Nat} (h : ∀ k < 16, s.listOf x k false = none) : readEngines (startEngines s x) = [] := by
  have hfold : ∀ (ks : List Nat) (u : State) (k : Nat), (∀ j ∈ ks, u.listOf x j false = none) →
      (k ∈ ks ∨ (u.engine k).hasRead = false) →
      ((ks.foldl (fun s k => s.setEngine k (startWrite s x k (startRead s x k (emptyEngine (s.engine k))))) u).engine k).hasRead = false := by
    intro ks
    induction ks with
    | nil => exact fun u k _ hk => hk.resolve_left (by simp)
    | cons j r ih =>
      intro u k hnone hk
      refine ih _ k (fun i hi => hnone i (List.mem_cons_of_mem _ hi)) ?_
      by_cases hjk : k = j
      · subst hjk
        right
        have hk := hnone k List.mem_cons_self
        refine (congrArg Engine.hasRead (mget_mset_self _ _ _ _)).trans ((startRead_hasRead _ _ _ _).trans ?_)
        rw [hk]
        rfl
      · rcases hk with hk | hk
        · exact .inl ((List.mem_cons.mp hk).resolve_left hjk)
        · right
          exact (congrArg Engine.hasRead (mget_mset_other _ _ _ _ _ _ hjk)).trans hk
  refine List.filter_eq_nil_iff.mpr fun k hk => ?_
  rw [startEngines, hfold _ _ _ (fun j hj => h j (List.mem_range.mp hj)) (.inl hk)]
  decide

/-- With healthy words nothing is read on taking a context up. -/
theorem readEntries_healthy {s : State} (h : ∀ p ∈ s.tiles, p.2.health = []) : readEntries s = s := by
  unfold readEntries
  have hfold : ∀ (m : AMap GridTile) (u : State), (∀ p ∈ m, p.2.health = []) →
      m.foldl (fun s p => if p.2.health.isEmpty then s else takeWords s p.1 (entryWords p.1 p.2)) u = u := by
    intro m
    induction m with
    | nil => exact fun u _ => rfl
    | cons p r ih =>
      intro u hm
      rw [List.foldl_cons, if_pos (by simp [hm p List.mem_cons_self])]
      exact ih u fun q hq => hm q (List.mem_cons_of_mem _ hq)
  exact hfold _ _ h

/-- The fabric with stage 3 open, before PACE releases its start step. -/
def startOpened (s : State) : State :=
  let u := startEngines (openCores s) (s.secCtx 0)
  { u with cfg := { u.cfg with goal := .none } }

theorem openCores_healthy {s : State} (h : ∀ p ∈ s.tiles, p.2.health = []) : openCores s =
    resetTiles { s with cfg := { s.cfg with stage := 3, sec := 0, nextSec := 0, nceCtx := BitVec.ofNat 2 (s.secCtx 0)
                                            ppCtx := BitVec.ofNat 2 (s.secCtx 0), nceSwitched := true, ppSwitched := true } }
      (BitVec.ofNat 2 (s.secCtx 0)) := by
  refine readEntries_healthy fun p hp => ?_
  obtain ⟨q, hq, rfl⟩ := mem_mapAll hp
  exact h q hq

theorem startOpened_frame {s : State} (h : ∀ p ∈ s.tiles, p.2.health = []) :
    (startOpened s).pace = s.pace ∧ (startOpened s).hq = s.hq ∧ (startOpened s).cfg.stage = 3 ∧ (startOpened s).cfg.goal = .none ∧
      (startOpened s).tiles = mapAll {} s.tiles (fun _ g => enterGrid true (BitVec.ofNat 2 (s.secCtx 0)) g) := by
  unfold startOpened
  rw [startEngines_frame, openCores_healthy h]
  exact ⟨rfl, rfl, rfl, rfl, rfl⟩

theorem startOpened_idle {s : State} (h : ∀ p ∈ s.tiles, p.2.health = []) (hlist : ∀ k < 16, s.listOf (s.secCtx 0) k false = none) :
    readEngines (startOpened s) = [] := by
  have hnone : ∀ k < 16, (openCores s).listOf (s.secCtx 0) k false = none := by
    rw [openCores_healthy h]
    exact hlist
  have hse : (startOpened s).se = (startEngines (openCores s) (s.secCtx 0)).se := by simp only [startOpened]
  rw [readEngines_of_se hse, startEngines_idle hnone]

theorem releaseStage_starts {s : State} (hgoal : s.cfg.goal = .start) (hpend : s.cfg.pend = none) (hstage : s.cfg.stage = 2)
    (hstate : s.pace.state ≠ .aborted) : releaseStage s = finishStart (startEngines (openCores s) (s.secCtx 0)) := by
  rw [releaseStage, if_neg (by simp [hgoal, hstate]), hpend]
  show openStage s = _
  rw [openStage, if_neg (by simp [hstage]), if_pos hstage, if_neg (by simp [hgoal])]

/-- The release of a step that ends no section leaves the configuration and the command under execution. -/
theorem releaseFabric_stepEnd (s : State) : (releaseFabric s .stepEnd).cfg = s.cfg ∧ (releaseFabric s .stepEnd).hq = s.hq := by
  have hfold : ∀ (bs : List Nat) (u : State), let v := bs.foldl (fun s b => s.setBed b (releaseBed (s.bed b))) u
      v.cfg = u.cfg ∧ v.hq = u.hq := by
    intro bs
    induction bs with
    | nil => exact fun u => ⟨rfl, rfl⟩
    | cons b r ih => exact fun u => ih (u.setBed b (releaseBed (u.bed b)))
  exact hfold _ _

theorem doRelease_stepEnd (s : State) (m : BitVec 48) : let v := doRelease s m .stepEnd
    v.cfg = s.cfg ∧ v.hq.cur = s.hq.cur := by
  have hkeeps := boundaryKeeps_doRelease s m .stepEnd
  obtain ⟨hcfg, hhq⟩ := releaseFabric_stepEnd s
  exact ⟨hkeeps.cfg.trans hcfg, hkeeps.cur.trans (congrArg (fun h : Hq => h.cur) hhq)⟩

/-- A step that no engine reads in is released with rank "step end". -/
theorem releaseStep_idle {s : State} (hagree : paceAgrees s = true) (hread : readEngines s = []) (hrake : s.pace.rakeAct = false)
    (m : BitVec 48) : releaseStep s m = doRelease s m .stepEnd := by
  have hrank : rankOf s = .stepEnd := by simp [rankOf, hrake, hread]
  have hlist : listFault s = 0 := by simp [listFault, hread]
  rw [releaseStep, if_neg (by simp [hagree]), if_neg (by simp [hlist]), hrank]

/-- A tile that took up a context and was released runs from index 0, or is in reset and parked. -/
theorem released_entered (x : BitVec 2) (g : GridTile) : let v := releaseGrid false (enterGrid true x g)
    v.inReset = (!v.ctxCfg.claimed) ∧ v.parked = v.inReset ∧ v.pc = 0 := by
  refine ⟨rfl, ?_, rfl⟩
  show (!(enterGrid true x g).ctxCfg.claimed || !(enterGrid true x g).ctxCfg.claimed) = !(enterGrid true x g).ctxCfg.claimed
  simp

theorem finishCmd_cfg {s : State} {c : Command} (hcur : s.hq.cur = some c) (st evt : Nat) : (finishCmd s st evt).cfg = s.cfg := by
  rw [finishCmd_onlyHost hcur st evt]

/-- TASK_START is done by what PACE does with stage 3 open, unless that aborts. -/
theorem finishStart_done {s s1 : State}
    (hnext : (if stopsHere (startOpened s) then stopTask (startOpened s) else releaseStep (startOpened s) (startOpened s).pace.step) = s1)
    (hstate : s1.pace.state ≠ .aborted) : finishStart (startEngines (openCores s) (s.secCtx 0)) = finishCmd s1 stDone 0 := by
  subst hnext
  exact if_neg hstate

section
variable {s : State} (hcur : s.hq.cur.isSome = true) (hhealth : ∀ p ∈ s.tiles, p.2.health = [])
  (hrake : s.pace.rakeAct = false)
include hcur hhealth hrake

/-- Stage 3 opens and PACE stops at the stop step (R57). -/
theorem finishStart_stops (hrel : s.pace.released = false) (hres : s.pace.resumed = false) (hen : s.pace.stopEn = true) (hstop : s.pace.stopStep = s.pace.step) :
    let s' := finishStart (startEngines (openCores s) (s.secCtx 0))
    finished s s' 0 0 ∧ s'.cfg.stage = 3 ∧ s'.cfg.goal = .none ∧ s'.pace = { s.pace with state := .stopped, stopByStep := true } := by
  obtain ⟨c, hcur⟩ := Option.isSome_iff_exists.mp hcur
  obtain ⟨hpace, hhq, hstage, hgoal, -⟩ := startOpened_frame hhealth
  have hhere : stopsHere (startOpened s) = true := by
    rw [stopsHere, nextStep, hpace, if_neg (by simp [hrel])]
    simp [hen, hstop, hrake, hres]
  have hcfg : (stopTask (startOpened s)).cfg = (startOpened s).cfg := by rw [stopTask, event_low _ _ _ (by decide)]
  have hstopped : (stopTask (startOpened s)).pace = { s.pace with state := .stopped, stopByStep := true } := by
    rw [stopTask, event_low _ _ _ (by decide), ← hpace]
  have hcur1 : (stopTask (startOpened s)).hq.cur = s.hq.cur := (event_cur _ _ _).trans (congrArg (fun h : Hq => h.cur) hhq)
  have hcur' := hcur1.trans hcur
  intro s'
  have hdone : s' = finishCmd (stopTask (startOpened s)) stDone 0 :=
    finishStart_done (if_pos hhere) (by rw [hstopped]; exact fun h => PaceState.noConfusion h)
  rw [hdone]
  exact ⟨finished_finishCmd hcur' hcur1.symm _ _, by rw [finishCmd_cfg hcur', hcfg, hstage], by rw [finishCmd_cfg hcur', hcfg, hgoal],
    by rw [finishCmd_pace hcur', hstopped]⟩

/-- Stage 3 opens and PACE releases the start step (R49, R271). -/
theorem finishStart_releases (hstate : s.pace.state ≠ .aborted) (hen : s.pace.stopEn = false) (hagree : paceAgrees s = true)
    (hlist : ∀ k < 16, s.listOf (s.secCtx 0) k false = none) :
    let s' := finishStart (startEngines (openCores s) (s.secCtx 0))
    finished s s' 0 0 ∧ s'.cfg.stage = 3 ∧ s'.cfg.goal = .none ∧ s'.pace.state = s.pace.state ∧ s'.pace.step = s.pace.step ∧
      s'.pace.released = true ∧ s'.pace.relT = s.pace.clock ∧ s'.pace.rank = .stepEnd ∧
      ∀ t, (s'.tile t).inReset = (!(s'.tile t).ctxCfg.claimed) ∧ (s'.tile t).parked = (s'.tile t).inReset ∧ (s'.tile t).pc = 0 := by
  obtain ⟨c, hcur⟩ := Option.isSome_iff_exists.mp hcur
  obtain ⟨hpace, hhq, hstage, hgoal, htiles⟩ := startOpened_frame hhealth
  have hhere : ¬ stopsHere (startOpened s) = true := by simp [stopsHere, hpace, hen]
  have hagree' : paceAgrees (startOpened s) = true := by rw [paceAgrees, hpace]; exact hagree
  have hrake' : (startOpened s).pace.rakeAct = false := by rw [hpace]; exact hrake
  have hrelease := releaseStep_idle hagree' (startOpened_idle hhealth hlist) hrake' (startOpened s).pace.step
  obtain ⟨act, pending, lagMiss, lagArmed, hvpace, hvtiles, -⟩ := doRelease_releases (startOpened s) (startOpened s).pace.step .stepEnd
  obtain ⟨hvcfg, hvcur⟩ := doRelease_stepEnd (startOpened s) (startOpened s).pace.step
  generalize doRelease (startOpened s) (startOpened s).pace.step .stepEnd = v at *
  rw [hpace] at hvpace
  rw [hhq] at hvcur
  rw [htiles] at hvtiles
  have hvstate : v.pace.state = s.pace.state := by rw [hvpace]; rfl
  have hcur' := hvcur.trans hcur
  intro s'
  have hdone : s' = finishCmd v stDone 0 :=
    finishStart_done ((if_neg hhere).trans hrelease) (by rw [hvstate]; exact hstate)
  rw [hdone, finishCmd_cfg hcur', finishCmd_pace hcur', hvcfg]
  refine ⟨finished_finishCmd hcur' hvcur.symm _ _, hstage, hgoal, hvstate, ?_, ?_, ?_, ?_, fun t => ?_⟩
  · rw [hvpace]; rfl
  · rw [hvpace]; rfl
  · rw [hvpace]; rfl
  · rw [hvpace]; rfl
  · unfold State.tile
    rw [finishCmd_tiles hcur', hvtiles]
    refine mget_all (P := fun v : GridTile => v.inReset = (!v.ctxCfg.claimed) ∧ v.parked = v.inReset ∧ v.pc = 0) (by decide) (fun p hp => ?_) t
    obtain ⟨q, hq, rfl⟩ := mem_mapAll hp
    obtain ⟨r, -, rfl⟩ := mem_mapAll hq
    exact released_entered _ _

end

theorem pairAccept_accepted {s : State} {ts : Nat} (hwait : s.tw.pair.waiting = true) (hts : s.tw.pair.ts = some ts)
    (hdue : ts ≤ s.devTime + s.timeOff) (hidle : s.pace.state = .idle) (hpair : s.tw.state = .paired ∨ s.tw.state = .solo) :
    pairAccept s = acceptTask s (startStep s) := by
  have hgo : (s.idle && (s.paired || s.tw.state == .solo)) = true := by
    rcases hpair with h | h <;> simp [State.idle, State.paired, hidle, h]
  rw [pairAccept, hwait, hts]
  dsimp only
  rw [if_neg (by omega), if_pos hgo]

theorem pairTimeout_refused {s : State} (hwait : s.tw.pair.waiting = true) (hts : s.tw.pair.ts = none)
    (hlate : s.tw.pair.since + 100000000 < s.devTime) : pairTimeout s = refusePair s :=
  if_pos (by simp [hwait, hts, hlate])

/-- Settles O34: the start judged by `taskStart_refused` and `taskStart_accepted`, its release by what stage 3 opens. -/
theorem taskStarts : Obligations.TaskStarts := by
  refine ⟨fun s hop hwait hgoal hloaded hidle hrings hstep => ⟨fun code a hrefused hsev => ?_, fun hfree hpair => ?_⟩,
    fun s => ⟨fun ts hwait hts hdue hidle hpair => ?_, fun hwait hts hlate hcur => ?_,
      fun hgoal hpend hstage hcur hrel hrake hres hrun hhealth => ?_⟩⟩
  · obtain ⟨c, hcur⟩ := cur_of_curIs hop
    have hrefuse := taskStart_refused hop hwait hgoal hloaded hidle hrings hstep hrefused
    obtain ⟨hfin, hpace⟩ := finishCmd_event_refuses hcur hsev a stRefused code
    refine ⟨_, congrArg Host.Outcome.next hrefuse, hfin, hpace, ?_⟩
    rw [refuseCmd, finishCmd_tiles ((event_cur _ _ _).trans hcur), event_tiles]
  · have hacc := taskStart_accepted hop hwait hgoal hloaded hidle hrings hstep hfree hpair
    have h := acceptTask_accepted { s with tw := { s.tw with firstPeer := [] } } (startStep s)
    exact ⟨_, congrArg Host.Outcome.next hacc, h.step, h.state, h.released, h.period, h.stage, h.goal, h.reset, h.firstCode, h.mc⟩
  · have h := acceptTask_accepted s (startStep s)
    exact ⟨_, congrArg Host.Outcome.next (pairAccept_accepted hwait hts hdue hidle hpair), h.step, h.goal, h.stage, h.waiting⟩
  · obtain ⟨c, hcur⟩ := Option.isSome_iff_exists.mp hcur
    let u : State := { s with tw := { s.tw with pair := {} } }
    have hcur' : u.hq.cur = some c := hcur
    obtain ⟨hfin, hpace⟩ := finishCmd_event_refuses hcur' (code := 0x0A02) (by decide) {} stRefused 0x0A02
    refine ⟨_, congrArg Host.Outcome.next (pairTimeout_refused hwait hts hlate), hfin, ?_, hpace⟩
    rw [refusePair, refuseCmd, finishCmd_onlyHost ((event_cur u 0x0A02 {}).trans hcur')]
    exact congrArg (fun t : Tw => t.pair.waiting) (event_tw u 0x0A02 {})
  · have hstate : s.pace.state ≠ .aborted := by rcases hrun with h | h <;> simp [h]
    have hstarts := releaseStage_starts hgoal hpend hstage hstate
    refine ⟨fun hen hstop => ?_, fun hen hagree hlist => ?_⟩
    · obtain ⟨hfin, hstage', hgoal', hpace⟩ := finishStart_stops hcur hhealth hrake hrel hres hen hstop
      refine ⟨_, congrArg Host.Outcome.next hstarts, hfin, hstage', hgoal', ?_, ?_, ?_⟩
      · rw [hpace]
      · rw [hpace]
      · rw [hpace]
        exact hrel
    · exact ⟨_, congrArg Host.Outcome.next hstarts, finishStart_releases hcur hhealth hrake hstate hen hagree hlist⟩

end Sys2Proof.Claims
end

section
/-! SUPPORT. The statement about PLC_SWITCH, EPOCH and ATTEST, which fails as the release sequence does: an image that the state carries may hold a
block of more instructions than a context has room for. -/

namespace Sys2Proof.Claims

open Sys2Proof Sys2Proof.Machine

/-- The image whose one placement has an overlong block. -/
def overlongImage : LoadedImage := { plcs := [overlongPlc] }

/-- A closed fabric with that image loaded, and PLC_SWITCH to its placement 0 under execution. -/
def switchesToOverlong : State :=
  { State.reset with
    cfg := { image := some overlongImage, state := 3, pos := 1 }
    hq := { State.reset.hq with cur := some { opc := 0x0030 } } }

/-- The first word of context 1 in tile 0, and whether the tile's fabric block is on, in the machine after PLC_SWITCH. -/
def afterSwitch (s : State) : BitVec 64 × Bool :=
  match exec .plcSwitch s with
  | .next s' => (mget 0 (s'.tile 0).words 384, s'.domain 14)
  | _ => (0, false)

theorem afterSwitch_overlong : afterSwitch switchesToOverlong = (1, true) := by decide +kernel

theorem plcCarried_overlong : plcCarried switchesToOverlong 0 = true ∧
    domainOff switchesToOverlong (overlongImage.plcs.getD 0 emptyPlc) = none := by decide +kernel

/-- Refutes O36: context 1 of tile 0, in which the placement has no block, does not read 0 at its first instruction. -/
theorem not_placementEpochAttest : ¬ Obligations.PlacementEpochAttest := by
  rintro ⟨h, -⟩
  obtain ⟨hcarried, hon⟩ := plcCarried_overlong
  obtain ⟨hswitch, -⟩ := h switchesToOverlong overlongImage (by decide) (by decide) (by decide) (by decide) rfl
  obtain ⟨s', hexec, -, -, hwritten, -⟩ := hswitch hcarried hon
  obtain ⟨-, -, -, -, -, -, -, -, -, -, -, htiles, -⟩ := hwritten (.inl (by decide))
  have hafter := afterSwitch_overlong
  rw [afterSwitch, hexec] at hafter
  have hword := ((htiles 0 (congrArg Prod.snd hafter)).1 1 (by decide) (by decide)).1 0 (by decide)
  exact absurd ((congrArg Prod.fst hafter).symm.trans hword) (by decide)

end Sys2Proof.Claims
end

section
/-! SUPPORT. O38: what goes to host memory and comes from it (R327, R328, R336 to R340). -/

namespace Sys2Proof.Claims

open Sys2Proof Sys2Proof.Machine

/-- What a record's check entries leave: the rings, what was sent to the host, and the PP. -/
structure RingsKept (s s' : State) : Prop where
  rings : s'.hq.rings = s.hq.rings
  hostOut : s'.hostOut = s.hostOut
  pp : s'.pp = s.pp

theorem RingsKept.refl (s : State) : RingsKept s s := ⟨rfl, rfl, rfl⟩

theorem RingsKept.trans {s t u : State} (h : RingsKept s t) (k : RingsKept t u) : RingsKept s u :=
  ⟨k.rings.trans h.rings, k.hostOut.trans h.hostOut, k.pp.trans h.pp⟩

theorem ringsKept_event (s : State) (c : Nat) (a : EvArgs) : RingsKept s (event s c a) :=
  ⟨event_rings s c a, event_hostOut s c a, event_pp s c a⟩

theorem ringsKept_tw (s : State) (x : Tw) : RingsKept s { s with tw := x } := ⟨rfl, rfl, rfl⟩

theorem ringsKept_twinSend (s : State) (sub w1 : Nat) (rest : List Nat) : RingsKept s (twinSend s sub w1 rest) := by
  unfold twinSend
  dsimp only
  split
  · exact ⟨rfl, rfl, rfl⟩
  · exact .refl s

theorem ringsKept_compareEntries (s : State) (own peer : CheckEntry) : RingsKept s (compareEntries s own peer) := by
  unfold compareEntries
  dsimp only
  split
  · exact (ringsKept_tw s _).trans (ringsKept_event _ _ _)
  · split <;> exact ringsKept_tw s _

theorem ringsKept_ownEntry (s : State) (e : CheckEntry) : RingsKept s (ownEntry s e) := by
  unfold ownEntry
  split
  · exact (ringsKept_tw s _).trans (ringsKept_compareEntries _ _ _)
  · split
    · exact ⟨rfl, rfl, rfl⟩
    · exact ringsKept_event _ _ _

theorem ringsKept_checkRecord (s : State) (r : ResultRec) : RingsKept s (checkRecord s r) := by
  have hfold : ∀ (ps : List (CheckDef × Nat)) (u : State),
      RingsKept u (ps.foldl (fun s p => if p.1.rkind = r.kind then checkEntryOf s p.2 p.1 r else s) u) := by
    intro ps
    induction ps with
    | nil => exact fun u => .refl u
    | cons p ps ih =>
      intro u
      refine RingsKept.trans ?_ (ih _)
      dsimp only
      split
      · exact (ringsKept_twinSend _ _ _ _).trans (ringsKept_ownEntry _ _)
      · exact .refl u
  unfold checkRecord
  split
  · exact hfold _ s
  · exact .refl s

/-! ## An entry written at PI (R327) -/

theorem putEntry_hostOut (s : State) (n : Nat) (b : List Byte) :
    (putEntry s n b).hostOut = .write (entryAddr (s.ring n) n (s.ring n).pi) b :: s.hostOut := by
  unfold putEntry markWb
  dsimp only
  split <;> rfl

theorem putEntry_ring (s : State) (n : Nat) (b : List Byte) : (putEntry s n b).ring n = { s.ring n with pi := (s.ring n).pi + 1 } := by
  have hrings : (putEntry s n b).hq.rings = mset {} s.hq.rings n { s.ring n with pi := (s.ring n).pi + 1 } := by
    unfold putEntry markWb
    dsimp only
    split <;> rfl
  unfold State.ring
  rw [hrings]
  exact mget_mset_self _ _ _ _

/-- An entry written changes its ring's PI, the write-back flag, and what went to the host. -/
theorem putEntry_frame (s : State) (n : Nat) (b : List Byte) : putEntry s n b =
    { s with hostOut := (putEntry s n b).hostOut
             hq := { s.hq with rings := (putEntry s n b).hq.rings, wbDirty := (putEntry s n b).hq.wbDirty } } := by
  unfold putEntry markWb
  dsimp only
  split <;> rfl

theorem RingsKept.ring {s s' : State} (h : RingsKept s s') (n : Nat) : s'.ring n = s.ring n := ring_of_hq h.rings n

theorem ringsKept_raiseSource (s : State) (k : Nat) : RingsKept s (raiseSource s k) := by
  rw [raiseSource_frame]
  exact ⟨rfl, rfl, rfl⟩

theorem eventWrite_room {s : State} {e : EventRec} {r : List EventRec} (hq : s.hq.evq = e :: r) (hroom : ringRoom s 1 = true)
    (hlost : s.hq.lostNow = 0) (hwait : s.hq.cplWait = none) :
    eventWrite s = raiseSource (putEntry { s with hq := { s.hq with evq := r } } 1 (eventBytes e)) 1 := by
  have hafter : ∀ u : State, u.hq.lostNow = 0 → u.hq.cplWait = none → afterRoom u = u := by
    intro u hl hw
    rw [afterRoom, if_pos hl]
    dsimp only
    rw [hw]
  rw [eventWrite, hq]
  dsimp only
  rw [if_pos hroom]
  apply hafter
  · rw [raiseSource_hq, putEntry_frame]
    exact hlost
  · rw [raiseSource_hq, putEntry_frame]
    exact hwait

/-- Settles O38: each write goes through `putEntry`, each read through its channel. -/
theorem recordsToHost : Obligations.RecordsToHost := by
  intro s c
  refine ⟨fun hen hdirty hreq => ?_, fun e r hq hroom hlost hwait => ?_, fun r l hrecs hroom => ?_, fun t l hout hroom => ?_,
    fun b hdue hlen => ?_, fun hdue => ?_⟩
  · exact congrArg Host.Outcome.next (if_pos (by simp [hen, hdirty, hreq]))
  · let u : State := { s with hq := { s.hq with evq := r } }
    have hkept := ringsKept_raiseSource (putEntry u 1 (eventBytes e)) 1
    refine ⟨_, congrArg Host.Outcome.next (eventWrite_room hq hroom hlost hwait), ?_, ?_, ?_⟩
    · rw [raiseSource_hq, putEntry_frame]
    · rw [hkept.ring, putEntry_ring]
      rfl
    · exact hkept.hostOut.trans (putEntry_hostOut u 1 _)
  · let u : State := { s with pp := { s.pp with records := l } }
    have hwrite : recordWrite s = checkRecord (raiseSource (putEntry u (2 + r.ring) r.bytes) (2 + r.ring)) r := by
      rw [recordWrite, hrecs]
      exact if_pos hroom
    have hkept := (ringsKept_raiseSource (putEntry u (2 + r.ring) r.bytes) (2 + r.ring)).trans (ringsKept_checkRecord _ r)
    refine ⟨_, congrArg Host.Outcome.next hwrite, ?_, ?_, ?_, ?_⟩
    · rw [hkept.pp, putEntry_frame]
    · rw [hkept.ring, putEntry_ring]
      rfl
    · rw [hkept.ring, putEntry_ring]
      rfl
    · rw [hkept.hostOut, putEntry_hostOut]
      exact List.mem_cons_self
  · let u : State := s.setChan c { s.chan c with outq := l }
    have hwrite : streamWrite s c = raiseSource (putEntry u (18 + c) (tokenEntry t)) 14 := by
      rw [streamWrite, hout]
      exact if_pos hroom
    have hkept := ringsKept_raiseSource (putEntry u (18 + c) (tokenEntry t)) 14
    refine ⟨_, congrArg Host.Outcome.next hwrite, ?_, ?_, ?_⟩
    · unfold State.chan
      rw [raiseSource_hq, putEntry_frame]
      exact congrArg StreamChan.outq (mget_mset_self _ _ _ _)
    · rw [hkept.ring, putEntry_ring]
      rfl
    · exact hkept.hostOut.trans (putEntry_hostOut u (18 + c) _)
  · have hwf : (Instr.hostStreamFetch c (.ok b)).wf = true := by simp [Instr.wf, HostRead.wf, hlen]
    show execHostStreamFetch c (.ok b) s = _
    rw [execHostStreamFetch, if_pos hwf, streamFetch, if_pos hdue]
  · have hexec : exec (.hostStreamFetch c .failed) s = .next (streamFetch s c .failed) := rfl
    refine ⟨_, hexec, ?_⟩
    rw [streamFetch, if_pos hdue]
    exact event_aborts _ _ _ (by decide)

end Sys2Proof.Claims
end

section
/-! SUPPORT. O39: BAR2 accesses (R292, R293, R322). -/

namespace Sys2Proof.Claims

open Sys2Proof Sys2Proof.Machine

theorem violate_mc (s : State) (v : Violation) : (violate s v).mc = s.mc := event_mc _ _ _

theorem mget_filter_none {α : Type} {d : α} {m : AMap α} {p : Nat × α → Bool} {k : Nat} (h : ∀ v, p (k, v) = false) :
    mget d (m.filter p) k = d := by
  induction m with
  | nil => rfl
  | cons q r ih =>
    obtain ⟨i, v⟩ := q
    by_cases hp : p (i, v) = true
    · rw [List.filter_cons_of_pos hp]
      have hi : i ≠ k := fun hi => by simp [hi, h v] at hp
      simp only [mget, hi, if_false]
      exact ih
    · rw [List.filter_cons_of_neg hp]
      exact ih

section
variable {s : State} {off : Nat} {bs : List Byte} (hoff : off + bs.length ≤ 2 ^ 34) (hpos : 1 ≤ bs.length) (hmax : bs.length ≤ 4096)
include hoff hpos hmax

theorem exec_bar2Write (p : Bool) (rid : BitVec 16) : exec (.bar2Write off bs p rid) s = .next (bar2Write s off bs p rid.toNat) := by
  have hwf : (Instr.bar2Write off bs p rid).wf = true := by
    simp only [Instr.wf, Bool.and_eq_true, decide_eq_true_eq]
    exact ⟨⟨hoff, hpos⟩, hmax⟩
  show execBar2Write off bs p rid s = _
  rw [execBar2Write, if_pos hwf]

end

theorem exec_bar2Read {s : State} {off len : Nat} (hoff : off + len ≤ 2 ^ 34) (hpos : 1 ≤ len) (hmax : len ≤ 4096) (x : UnitHealth)
    (rid : BitVec 16) : exec (.bar2Read off len x rid) s = .next (bar2Read s off len x rid.toNat) := by
  have hwf : (Instr.bar2Read off len x rid).wf = true := by
    simp only [Instr.wf, Bool.and_eq_true, decide_eq_true_eq]
    exact ⟨⟨hoff, hpos⟩, hmax⟩
  show execBar2Read off len x rid s = _
  rw [execBar2Read, if_pos hwf]

theorem bar2Mapped_iff (s : State) (off len : Nat) :
    bar2Mapped s off len = true ↔ s.mc.ready = true ∧ s.hq.win.toNat * 2 ^ 30 + off + len ≤ memSize s := by
  unfold bar2Mapped bar2Addr
  rw [Bool.and_eq_true, decide_eq_true_iff]

theorem bar2Write_stores {s : State} {off : Nat} {bs : List Byte} (hmap : bar2Mapped s off bs.length = true)
    (hkept : bar2Kept s off bs.length = false) (rid : Nat) :
    bar2Write s off bs false rid = { s with mc := storeHost s.mc (bar2Addr s off) bs } := by
  rw [bar2Write]
  simp only [hmap, hkept, Bool.not_true, Bool.false_eq_true, if_false]

/-- A write that is poisoned, beyond memory or kept out stores nothing. -/
theorem bar2Write_refused {s : State} {off : Nat} {bs : List Byte} {p : Bool}
    (h : p = true ∨ bar2Mapped s off bs.length = false ∨ bar2Kept s off bs.length = true) (rid : Nat) :
    (bar2Write s off bs p rid).mc = s.mc := by
  unfold bar2Write
  dsimp only
  split
  · exact event_mc _ _ _
  · next hp =>
    split
    · exact violate_mc _ _
    · next hmap =>
      split
      · exact violate_mc _ _
      · next hkept => simp_all

/-- Settles O39: a write stores or is refused, a read answers or is refused. -/
theorem bar2Access : Obligations.Bar2Access := by
  intro s off bs len rid a hoff hpos hmax hroff hrpos hrmax
  refine ⟨fun hready hfit hkept => ?_, fun p hp => ?_, fun hready hfit => ?_, fun hbad => ?_⟩
  · refine ⟨_, exec_bar2Write hoff hpos hmax false rid, ?_⟩
    rw [bar2Write_stores ((bar2Mapped_iff _ _ _).mpr ⟨hready, hfit⟩) hkept]
    refine ⟨rfl, fun x hx => memGet_memWrite_outside _ _ _ _ hx, fun i hi => memGet_memWrite_inside _ _ _ _ hi, fun u hlo hhi => ?_⟩
    refine mget_filter_none fun v => ?_
    have htouch : touches (bar2Addr s off) bs.length (16 * u) 16 = true := by
      simp only [touches, Bool.and_eq_true, decide_eq_true_eq]
      exact ⟨hlo, hhi⟩
    exact congrArg (!·) htouch
  · refine ⟨_, exec_bar2Write hoff hpos hmax p rid, bar2Write_refused ?_ _⟩
    rcases hp with hp | hready | hbig | hkept
    · exact .inl hp
    · exact .inr (.inl (by simp [bar2Mapped, hready]))
    · refine .inr (.inl (Bool.eq_false_iff.mpr fun h => ?_))
      exact absurd ((bar2Mapped_iff _ _ _).mp h).2 (Nat.not_le.mpr hbig)
    · exact .inr (.inr hkept)
  · refine (exec_bar2Read hroff hrpos hrmax .good rid).trans (congrArg Host.Outcome.next ?_)
    rw [bar2Read, if_neg (by simp [(bar2Mapped_iff s off len).mpr ⟨hready, hfit⟩])]
    rfl
  · have hmap : ¬ bar2Mapped s off len = true := fun h => by
      obtain ⟨hready, hfit⟩ := (bar2Mapped_iff _ _ _).mp h
      rcases hbad with hbad | hbad
      · simp [hready] at hbad
      · exact absurd hfit (Nat.not_le.mpr hbad)
    refine ⟨_, exec_bar2Read hroff hrpos hrmax .good rid, ?_⟩
    rw [bar2Read, if_pos (by simp [hmap])]
    exact ⟨rfl, violate_mc _ _⟩

end Sys2Proof.Claims
end

section
/-! SUPPORT. O40: interrupt sources: PEND, MASK, SENSE, TAKE, lines, and the arming of targets (R352, R353, R355). -/

namespace Sys2Proof.Claims

open Sys2Proof Sys2Proof.Machine

/-- Two values of a source that differ at most in the targets last used. -/
def SameSource (x y : Source) : Prop := y = { x with lastHost := y.lastHost, lastMp := y.lastMp }

theorem SameSource.refl (x : Source) : SameSource x x := rfl

theorem requestAt_source (s : State) (t : Nat) (p : BitVec 4) (k : Nat) : (requestAt s t p).source k = s.source k := rfl

/-- A request for a source whose last target moves changes that source alone, and of it no more. -/
theorem requestAt_putSource_source (s : State) {k : Nat} {x : Source} (h : SameSource (s.source k) x) (t : Nat) (p : BitVec 4) (u : Nat) :
    SameSource (s.source u) ((requestAt (s.putSource k x) t p).source u) ∧
      (u ≠ k → (requestAt (s.putSource k x) t p).source u = s.source u) := by
  rw [requestAt_source]
  refine ⟨?_, fun hu => State.putSource_source_other _ _ _ _ hu⟩
  by_cases hu : u = k
  · rw [hu, State.putSource_source_self]
    exact h
  · rw [State.putSource_source_other _ _ _ _ hu]
    exact .refl _

theorem armHost_source (s : State) (k u : Nat) : SameSource (s.source u) ((armHost s k).source u) ∧
    (u ≠ k → (armHost s k).source u = s.source u) := by
  unfold armHost
  dsimp only
  split
  · exact ⟨rfl, fun _ => rfl⟩
  · next v _ => exact requestAt_putSource_source s (x := { s.source k with lastHost := v }) rfl _ _ u

theorem armMp_source (s : State) (k u : Nat) : SameSource (s.source u) ((armMp s k).source u) ∧
    (u ≠ k → (armMp s k).source u = s.source u) := by
  unfold armMp
  dsimp only
  split
  · exact ⟨rfl, fun _ => rfl⟩
  · next v _ => exact requestAt_putSource_source s (x := { s.source k with lastMp := v }) rfl _ _ u

theorem SameSource.trans {x y z : Source} (h : SameSource x y) (k : SameSource y z) : SameSource x z := by
  unfold SameSource at *
  rw [k, h]

/-- A source set to a value holds it, but for the targets last used; no other source changes. -/
theorem setSource_source (s : State) (k : Nat) (x : Source) :
    SameSource x ((s.setSource k x).source k) ∧ ∀ u, u ≠ k → (s.setSource k x).source u = s.source u := by
  have hput : SameSource x ((s.putSource k x).source k) ∧ ∀ u, u ≠ k → (s.putSource k x).source u = s.source u :=
    ⟨(State.putSource_source_self s k x).symm ▸ .refl x, fun u hu => State.putSource_source_other s k u x hu⟩
  unfold State.setSource
  dsimp only
  have hhost : ∀ t : State, t = (if !(s.source k).effHost && x.effHost then armHost (s.putSource k x) k else s.putSource k x) →
      SameSource x (t.source k) ∧ ∀ u, u ≠ k → t.source u = s.source u := by
    rintro t rfl
    split
    · exact ⟨hput.1.trans (armHost_source _ k k).1, fun u hu => ((armHost_source _ k u).2 hu).trans (hput.2 u hu)⟩
    · exact hput
  split
  · exact ⟨(hhost _ rfl).1.trans (armMp_source _ k k).1, fun u hu => ((armMp_source _ k u).2 hu).trans ((hhost _ rfl).2 u hu)⟩
  · exact hhost _ rfl

/-- A source of which nothing is effective towards the management cores, set so that its host bit rises, arms one target. -/
theorem setSource_arms (s : State) (k : Nat) (x : Source) (hold : (s.source k).effHost = false) (hnew : x.effHost = true)
    (hmp : x.effMp = false) {t : Nat} (ht : nextTarget 64 x.lastHost (fun v => bitAt x.vec.toNat v) = some t) :
    ((s.setSource k x).target t).waiting = (s.target t).waiting + 1 ∧ ((s.setSource k x).source k).lastHost = t ∧
      ∀ u, u ≠ t → (s.setSource k x).target u = s.target u := by
  have harm : s.setSource k x = requestAt ((s.putSource k x).putSource k { x with lastHost := t }) t x.prio := by
    rw [State.setSource]
    simp only [hold, hnew, hmp, Bool.not_false, Bool.and_self, Bool.and_false, if_true, Bool.false_eq_true, if_false]
    rw [armHost]
    simp only [State.putSource_source_self, ht]
  rw [harm]
  refine ⟨?_, ?_, fun u hu => ?_⟩
  · rw [requestAt, State.setTarget_target_self]
    rfl
  · rw [requestAt_source, State.putSource_source_self]
  · rw [requestAt, State.setTarget_target, if_neg hu]
    rfl

/-! ## The words of PEND and MASK -/

theorem opens_block {s : State} {off off' : Nat} (h : opens s off) (hoff : off' / 0x10000 = off / 0x10000) (hsp : spShadowed off = false) :
    rowOpen s off' true = true := by
  unfold opens rowOpen at h
  rw [Bool.and_eq_true] at h
  unfold rowOpen bootAnswers offPowered at *
  rw [hsp, Bool.or_false] at h
  rw [hoff, h.1, h.2, Bool.true_or, Bool.and_self]

theorem eachBit_frame (s : State) (k : Nat) (v : Word) (f : Source → Bool → Source) :
    eachBit s k v f = { s with ic := (eachBit s k v f).ic } := by
  unfold eachBit
  generalize List.range 32 = js
  induction js generalizing s with
  | nil => rfl
  | cons j r ih =>
    rw [List.foldl_cons, ih, State.setSource_frame]

/-- Each source of the word is changed by its bit, and no other source. -/
theorem eachBit_source (s : State) (k : Nat) (v : Word) (f : Source → Bool → Source) (i : Nat) :
    (i / 32 = k → SameSource (f (s.source i) (bitAt v.toNat (i % 32))) ((eachBit s k v f).source i)) ∧
    (i / 32 ≠ k → (eachBit s k v f).source i = s.source i) := by
  have hfold : ∀ (js : List Nat) (u : State), js.Nodup →
      let w := js.foldl (fun s j => s.setSource (32 * k + j) (f (s.source (32 * k + j)) (bitAt v.toNat j))) u
      (∀ j ∈ js, SameSource (f (u.source (32 * k + j)) (bitAt v.toNat j)) (w.source (32 * k + j))) ∧
      (∀ i, (∀ j ∈ js, i ≠ 32 * k + j) → w.source i = u.source i) := by
    intro js
    induction js with
    | nil => exact fun u _ => ⟨fun j hj => absurd hj List.not_mem_nil, fun i _ => rfl⟩
    | cons j r ih =>
      intro u hnodup
      obtain ⟨hj, hr⟩ := List.nodup_cons.mp hnodup
      obtain ⟨hin, hout⟩ := ih (u.setSource (32 * k + j) (f (u.source (32 * k + j)) (bitAt v.toNat j))) hr
      obtain ⟨hself, hother⟩ := setSource_source u (32 * k + j) (f (u.source (32 * k + j)) (bitAt v.toNat j))
      refine ⟨fun i hi => ?_, fun i hi => ?_⟩
      · rcases List.mem_cons.mp hi with rfl | hi
        · rw [List.foldl_cons, hout _ fun l hl he => hj (by rwa [Nat.add_left_cancel he])]
          exact hself
        · have hne : 32 * k + i ≠ 32 * k + j := fun he => hj (by rwa [← Nat.add_left_cancel he])
          rw [← hother _ hne]
          exact hin i hi
      · rw [List.foldl_cons, hout i fun l hl => hi l (List.mem_cons_of_mem _ hl)]
        exact hother i (hi j List.mem_cons_self)
  obtain ⟨hin, hout⟩ := hfold (List.range 32) s List.nodup_range
  refine ⟨fun hi => ?_, fun hi => hout i fun j hj he => hi ?_⟩
  · have hsplit : 32 * k + i % 32 = i := by omega
    have hmem := hin (i % 32) (List.mem_range.mpr (Nat.mod_lt _ (by decide)))
    rw [hsplit] at hmem
    exact hmem
  · have hlt := List.mem_range.mp hj
    omega

theorem pendWrite_source (s : State) (k : Nat) (v : Word) (i : Nat) : ((pendWrite s k v).source i).pend =
    if i / 32 = k then bitAt v.toNat (i % 32) || ((s.source i).sense == 0 && (s.source i).line) else (s.source i).pend := by
  unfold pendWrite
  obtain ⟨hin, hout⟩ := eachBit_source s k v (fun x b => { x with pend := b || (x.sense == 0 && x.line) }) i
  by_cases hk : i / 32 = k
  · rw [hin hk, if_pos hk]
  · rw [hout hk, if_neg hk]

theorem maskWrite_source (s : State) (mp : Bool) (k : Nat) (v : Word) (i : Nat) :
    ((maskWrite s mp k v).source i).maskHost = (if i / 32 = k ∧ mp = false then bitAt v.toNat (i % 32) else (s.source i).maskHost) ∧
    ((maskWrite s mp k v).source i).maskMp = (if i / 32 = k ∧ mp = true then bitAt v.toNat (i % 32) else (s.source i).maskMp) ∧
    ((maskWrite s mp k v).source i).pend = (s.source i).pend := by
  unfold maskWrite
  obtain ⟨hin, hout⟩ := eachBit_source s k v (fun x b => if mp then { x with maskMp := b } else { x with maskHost := b }) i
  by_cases hk : i / 32 = k
  · rw [hin hk]
    cases mp <;> simp [hk]
  · rw [hout hk]
    simp [hk]

theorem senseChange_changes (s : State) (k : Nat) (z : BitVec 2) : let s' := senseChange s k z
    s' = { s with ic := s'.ic } ∧ (s'.source k).sense = z ∧
      (s'.source k).pend = ((s.source k).pend || ((s.source k).sense != 0 && z == 0 && (s.source k).line)) := by
  have hself := (setSource_source s k
    { s.source k with sense := z, pend := (s.source k).pend || ((s.source k).sense != 0 && z == 0 && (s.source k).line) }).1
  exact ⟨State.setSource_frame _ _ _, congrArg Source.sense hself, congrArg Source.pend hself⟩

theorem takeCounter_takes (s : State) (a : Agent) (k : Nat) : let s' := takeCounter s a k
    s' = { s with ic := s'.ic } ∧ (s'.source k).cnt = 0 ∧
      mget 0 s'.ic.taken (agentNo a) = packW [(8, k), (0, (s.source k).cnt.toNat)] := by
  refine ⟨rfl, ?_, ?_⟩
  · exact congrArg Source.cnt (State.putSource_source_self s k { s.source k with cnt := 0 })
  · unfold takeCounter
    exact mget_mset_self _ _ _ _

/-- A line source whose line comes to the level that its block drives. -/
theorem sourceLine_changes {s : State} {k : Nat} {level : Bool} (hsource : levelSource k = true) (hlevel : lineLevel s k = level)
    (hline : (s.source k).line ≠ level) : sourceLine s k level =
      let x := s.source k
      let ev := senseEvent x.sense level
      s.setSource k { x with line := level, pend := x.pend || ev, cnt := if ev then satInc x.cnt else x.cnt } := by
  have hk : k ≠ 12 := fun hk => by rw [hk] at hsource; exact absurd hsource (by decide)
  rw [sourceLine, if_neg hk, if_pos (by simp [hsource, hlevel, hline])]

/-- Settles O40: the writes by `eachBit_source`, the changes of one source by `setSource_source` and `setSource_arms`. -/
theorem interruptSources : Obligations.InterruptSources := by
  refine ⟨fun s k v n a z hopen => ⟨?_, fun mp hmp => ?_, ?_, fun hreach => ?_⟩, fun s k level hsource hlevel hline => ?_, fun s => ?_⟩
  · have hrow := opens_block hopen (off' := 0x20010 + 4 * k) (by omega) (by decide)
    refine ⟨_, congrArg Host.Outcome.next (rowWrite_open s _ _ hrow), eachBit_frame _ _ _ _, fun i hi => pendWrite_source s k v i⟩
  · have hrow := opens_block hopen (off' := 0x20020 + 4 * k) (by omega) (by decide)
    have hexec : exec (.maskWrite mp k v) s = .next (maskWrite s mp k v) := by
      show execMaskWrite mp k v s = _
      unfold execMaskWrite
      cases mp with
      | false => rw [if_neg Bool.false_ne_true, rowWrite_open _ _ _ hrow]
      | true => rw [if_pos rfl, rowFirmware_open _ _ _ (hmp.resolve_left Bool.noConfusion) hrow]
    refine ⟨_, hexec, eachBit_frame _ _ _ _, fun i hi => maskWrite_source s mp k v i⟩
  · have hrow := opens_block hopen (off' := 0x21000 + 16 * n) (by omega) (by decide)
    refine ⟨_, congrArg Host.Outcome.next (rowWrite_open s _ _ hrow), senseChange_changes s n z⟩
  · have hrow := opens_block hopen (off' := 0x20040) (by decide) (by decide)
    have hexec : exec (.take a n) s = .next (takeCounter s a n) := congrArg Host.Outcome.next (rowAccess_reaches ⟨hreach, hrow⟩ _)
    exact ⟨_, hexec, takeCounter_takes s a n⟩
  · intro x ev
    have hself := (setSource_source s k { x with line := level, pend := x.pend || ev, cnt := if ev then satInc x.cnt else x.cnt }).1
    refine ⟨_, congrArg Host.Outcome.next (sourceLine_changes hsource hlevel hline), State.setSource_frame _ _ _, congrArg Source.line hself,
      congrArg Source.pend hself, congrArg Source.cnt hself, fun hpend hev hhost hmp t ht => ?_⟩
    refine setSource_arms s k _ ?_ ?_ ?_ ht
    · show (x.pend && !x.maskHost) = false
      rw [hpend, Bool.false_and]
    · show ((x.pend || ev) && !x.maskHost) = true
      rw [hev, hhost, Bool.or_true]
      rfl
    · show ((x.pend || ev) && !x.maskMp) = false
      rw [hmp, Bool.not_true, Bool.and_false]
  · have hself := (setSource_source s 12 { s.source 12 with pend := true, cnt := satInc (s.source 12).cnt }).1
    exact ⟨raiseSource s 12, rfl, raiseSource_frame s 12, congrArg Source.pend hself, congrArg Source.cnt hself⟩

end Sys2Proof.Claims
end

section
/-! SUPPORT. O41: interrupt targets: sends, EOI and MSI-X masking (R321, R354, R357). -/

namespace Sys2Proof.Claims

open Sys2Proof Sys2Proof.Machine

/-! ## Messages (R321, R328) -/

theorem writeBack_frame (s : State) :
    writeBack s = { s with hostOut := (writeBack s).hostOut, hq := { s.hq with wbDirty := (writeBack s).hq.wbDirty } } := by
  unfold writeBack
  split <;> rfl

theorem writeBack_hostOut {s : State} (h : s.canRequest = true) : (writeBack s).hostOut =
    (if s.hq.wbEn = true ∧ s.hq.wbDirty = true then [.write s.hq.wbAddr (wbBlock s)] else []) ++ s.hostOut := by
  unfold writeBack
  by_cases hwb : s.hq.wbEn = true ∧ s.hq.wbDirty = true
  · rw [if_pos (by simp [hwb.1, hwb.2, h]), if_pos hwb]
    rfl
  · rw [if_neg (by rw [h, Bool.and_true, Bool.and_eq_true]; exact hwb), if_neg hwb]
    rfl

theorem issueMsix_goes {s : State} (hreq : s.canRequest = true) (hout : s.hq.msixOut = []) (v : Nat) :
    issueMsix s v = { writeBack s with hostOut := msixReq (writeBack s) v :: (writeBack s).hostOut } :=
  if_pos (by simp [hreq, hout])

theorem issueMsix_waits {s : State} (h : s.canRequest = false ∨ s.hq.msixOut ≠ []) (v : Nat) :
    issueMsix s v = { s with hq := { s.hq with msixOut := s.hq.msixOut ++ [v] } } := by
  refine if_neg fun hgo => ?_
  rw [Bool.and_eq_true, List.isEmpty_iff] at hgo
  rcases h with h | h
  · simp [h] at hgo
  · exact h hgo.2

theorem issueMsix_frame (s : State) (v : Nat) :
    issueMsix s v = { s with hostOut := (issueMsix s v).hostOut
                             hq := { s.hq with wbDirty := (issueMsix s v).hq.wbDirty, msixOut := (issueMsix s v).hq.msixOut } } := by
  unfold issueMsix
  split
  · dsimp only
    rw [writeBack_frame]
  · rfl

theorem issueMsix_ic (s : State) (v : Nat) : (issueMsix s v).ic = s.ic := by rw [issueMsix_frame]

/-- A message that may go out adds to what went out, and leaves the next free to. -/
theorem issueMsix_adds {s : State} (hreq : s.canRequest = true) (hout : s.hq.msixOut = []) (v : Nat) :
    s.hostOut.length + 1 ≤ (issueMsix s v).hostOut.length ∧ (issueMsix s v).canRequest = true ∧ (issueMsix s v).hq.msixOut = [] := by
  rw [issueMsix_goes hreq hout]
  refine ⟨?_, ?_, ?_⟩
  · simp only [List.length_cons, writeBack_hostOut hreq, List.length_append]
    omega
  · rw [writeBack_frame]
    exact hreq
  · rw [writeBack_frame]
    exact hout

/-- Messages issued one after another. -/
def issueAll (s : State) (v n : Nat) : State := (List.range n).foldl (fun s _ => issueMsix s v) s

theorem issueAll_succ (s : State) (v n : Nat) : issueAll s v (n + 1) = issueMsix (issueAll s v n) v := by
  unfold issueAll
  rw [List.range_succ, List.foldl_append]
  rfl

theorem issueAll_ic (s : State) (v n : Nat) : (issueAll s v n).ic = s.ic := by
  induction n with
  | zero => rfl
  | succ n ih => rw [issueAll_succ, issueMsix_ic, ih]

theorem issueAll_adds {s : State} (hreq : s.canRequest = true) (hout : s.hq.msixOut = []) (v n : Nat) :
    s.hostOut.length + n ≤ (issueAll s v n).hostOut.length ∧ (issueAll s v n).canRequest = true ∧ (issueAll s v n).hq.msixOut = [] := by
  induction n with
  | zero => exact ⟨Nat.le_refl _, hreq, hout⟩
  | succ n ih =>
    obtain ⟨hlen, hreq', hout'⟩ := ih
    obtain ⟨hlen', hrest⟩ := issueMsix_adds hreq' hout' v
    rw [issueAll_succ]
    exact ⟨by omega, hrest⟩

/-! ## The PBA (R354) -/

theorem releasePba_free {s : State} {v : Nat} (h : msixHeld s v = false) :
    releasePba s v = issueAll (s.setTarget v { s.target v with pba := 0 }) v (s.target v).pba := by
  rw [releasePba, if_neg (by simp [h])]
  rfl

theorem releasePba_held {s : State} {v : Nat} (h : msixHeld s v = true) : releasePba s v = s := if_pos h

/-- What the PBA holds of one vector goes, unless it is held back; the rest of the controller stays. -/
theorem releasePba_ic (s : State) (v : Nat) : (releasePba s v).ic =
    if msixHeld s v then s.ic else (s.setTarget v { s.target v with pba := 0 }).ic := by
  by_cases h : msixHeld s v = true
  · rw [releasePba_held h, if_pos h]
  · rw [releasePba_free (Bool.eq_false_iff.mpr h), issueAll_ic, if_neg h]

theorem target_of_ic {s t : State} (h : t.ic = s.ic) (v : Nat) : t.target v = s.target v := by
  unfold State.target
  rw [h]

theorem releasePba_target (s : State) (v u : Nat) : (releasePba s v).target u =
    if u = v ∧ msixHeld s v = false then { s.target v with pba := 0 } else s.target u := by
  by_cases h : msixHeld s v = true
  · rw [releasePba_held h, if_neg (by simp [h])]
  · have hic := releasePba_ic s v
    rw [if_neg h] at hic
    rw [target_of_ic (s := s.setTarget v { s.target v with pba := 0 }) hic, State.setTarget_target]
    simp [h]

theorem releasePba_control (s : State) (v : Nat) : (releasePba s v).ic.msixEn = s.ic.msixEn ∧ (releasePba s v).ic.fmask = s.ic.fmask := by
  rw [releasePba_ic]
  split <;> exact ⟨rfl, rfl⟩

/-- With MSI-X enabled and the function unmasked, every vector named that is not masked gives up what the PBA held. -/
theorem releaseAll_targets (vs : List Nat) (s : State) (hen : s.ic.msixEn = true) (hmask : s.ic.fmask = false) :
    let w := vs.foldl releasePba s
    w.ic.fmask = false ∧ ∀ v, (w.target v).vmask = (s.target v).vmask ∧
      (w.target v).pba = if v ∈ vs ∧ (s.target v).vmask = false then 0 else (s.target v).pba := by
  induction vs generalizing s with
  | nil => exact ⟨hmask, fun v => ⟨rfl, (if_neg (by simp)).symm⟩⟩
  | cons u r ih =>
    obtain ⟨hen', hmask'⟩ := releasePba_control s u
    obtain ⟨hf, htgt⟩ := ih (releasePba s u) (hen'.trans hen) (hmask'.trans hmask)
    refine ⟨hf, fun v => ?_⟩
    obtain ⟨hvm, hpba⟩ := htgt v
    have hheld : msixHeld s u = (s.target u).vmask := by simp [msixHeld, hen, hmask]
    have hstep := releasePba_target s u v
    rw [hheld] at hstep
    rw [List.foldl_cons, hvm, hpba, hstep]
    by_cases hv : v = u
    · subst hv
      cases hm : (s.target v).vmask <;> simp [hm]
    · simp [hv]

theorem msixControl_unmasks (s : State) (hen : s.ic.msixEn = true) : let w := msixControl s s.ic.msixEn false
    w.ic.fmask = false ∧ ∀ v < 64, (w.target v).vmask = (s.target v).vmask ∧
      (w.target v).pba = if (s.target v).vmask then (s.target v).pba else 0 := by
  have hall : msixControl s s.ic.msixEn false =
      (List.range 64).foldl releasePba { s with ic := { s.ic with msixEn := s.ic.msixEn, fmask := false } } := by rw [msixControl]
  obtain ⟨hf, htgt⟩ := releaseAll_targets (List.range 64) { s with ic := { s.ic with msixEn := s.ic.msixEn, fmask := false } } hen rfl
  rw [← hall] at hf htgt
  refine ⟨hf, fun v hv => ?_⟩
  obtain ⟨hvm, hpba⟩ := htgt v
  refine ⟨hvm, hpba.trans ?_⟩
  show (if v ∈ List.range 64 ∧ (s.target v).vmask = false then 0 else (s.target v).pba) = _
  cases hm : (s.target v).vmask <;> simp [hv]

theorem vectorMask_unmasks (s : State) (v : Nat) (hen : s.ic.msixEn = true) (hmask : s.ic.fmask = false) :
    let w := vectorMask s v false
    (w.target v).vmask = false ∧ (w.target v).pba = 0 ∧
      (s.canRequest = true → s.hq.msixOut = [] → w.hostOut.length ≥ s.hostOut.length + (s.target v).pba) := by
  let u : State := s.setTarget v { s.target v with vmask := false }
  have htgt : u.target v = { s.target v with vmask := false } := State.setTarget_target_self _ _ _
  have hfree : msixHeld u v = false := by
    unfold msixHeld
    rw [htgt]
    show (!s.ic.msixEn || s.ic.fmask || false) = false
    rw [hen, hmask]
    rfl
  have hrel := releasePba_target u v v
  rw [if_pos ⟨rfl, hfree⟩, htgt] at hrel
  show ((releasePba u v).target v).vmask = false ∧ ((releasePba u v).target v).pba = 0 ∧ _
  rw [hrel]
  refine ⟨rfl, rfl, fun hreq hout => ?_⟩
  have hissue := releasePba_free hfree
  rw [htgt] at hissue
  show (releasePba u v).hostOut.length ≥ _
  rw [hissue]
  exact (issueAll_adds (s := u.setTarget v { s.target v with vmask := false, pba := 0 }) hreq hout v (s.target v).pba).1

/-! ## Sends -/

/-- A target's set as a send leaves it. -/
def sentTarget (x : Target) (t : Nat) : Target :=
  { x with stack := x.wprio :: x.stack, waiting := 0, oldest := 0, wprio := 0, mpLine := decide (64 ≤ t) }

theorem interruptSend_due {s : State} {t : Nat} (h : sendDue s (s.target t) = true) : interruptSend s t =
    if t < 64 then presentMsix (s.setTarget t (sentTarget (s.target t) t)) t else s.setTarget t (sentTarget (s.target t) t) := by
  rw [interruptSend]
  exact if_pos h

theorem msixHeld_iff (s : State) (v : Nat) :
    msixHeld s v = true ↔ s.ic.msixEn = false ∨ s.ic.fmask = true ∨ (s.target v).vmask = true := by
  simp [msixHeld, or_assoc]

section
variable (s : State) (t : Nat)

/-- The set empties and its priority is on the stack, whether the message goes, waits or is held back. -/
theorem presentMsix_target : ∃ pba, (presentMsix (s.setTarget t (sentTarget (s.target t) t)) t).target t =
    { sentTarget (s.target t) t with pba := pba } := by
  unfold presentMsix
  split
  · refine ⟨(s.target t).pba + 1, ?_⟩
    rw [State.setTarget_target_self, State.setTarget_target_self]
    rfl
  · refine ⟨(s.target t).pba, ?_⟩
    rw [target_of_ic (issueMsix_ic _ _), State.setTarget_target_self]
    rfl

theorem presentMsix_issues (h : msixHeld s t = false) :
    presentMsix (s.setTarget t (sentTarget (s.target t) t)) t = issueMsix (s.setTarget t (sentTarget (s.target t) t)) t := by
  have hheld : msixHeld (s.setTarget t (sentTarget (s.target t) t)) t = msixHeld s t := by
    unfold msixHeld
    rw [State.setTarget_target_self]
    rfl
  exact if_neg (by simp [hheld, h])

theorem presentMsix_holds (h : msixHeld s t = true) : presentMsix (s.setTarget t (sentTarget (s.target t) t)) t =
    (s.setTarget t (sentTarget (s.target t) t)).setTarget t { sentTarget (s.target t) t with pba := (s.target t).pba + 1 } := by
  have hheld : msixHeld (s.setTarget t (sentTarget (s.target t) t)) t = msixHeld s t := by
    unfold msixHeld
    rw [State.setTarget_target_self]
    rfl
  unfold presentMsix
  rw [if_pos (hheld.trans h), State.setTarget_target_self]
  rfl

/-- The message of a send, after the write-back that is due. -/
theorem presented_hostOut (hreq : s.canRequest = true) : let u := s.setTarget t (sentTarget (s.target t) t)
    msixReq (writeBack u) t :: (writeBack u).hostOut = .msix t (s.target t).msgAddr (s.target t).msgData ::
      ((if s.hq.wbEn = true ∧ s.hq.wbDirty = true then [.write s.hq.wbAddr (wbBlock s)] else []) ++ s.hostOut) := by
  intro u
  have htgt : (writeBack u).target t = sentTarget (s.target t) t := by
    rw [target_of_ic (s := u) (by rw [writeBack_frame])]
    exact State.setTarget_target_self _ _ _
  have hout := writeBack_hostOut (s := u) hreq
  rw [msixReq, htgt, hout]
  rfl

end

theorem eoi_pops {s : State} {t : Nat} {a : Agent} (hagent : t < 64 ∨ isHost a = false) {p : BitVec 4} {r : List (BitVec 4)}
    (hstack : (s.target t).stack = p :: r) :
    eoi s a t true = s.setTarget t { s.target t with stack := r, mpLine := (s.target t).mpLine && !r.isEmpty } := by
  have hopen : ¬ (decide (64 ≤ t) && isHost a) = true := by
    rcases hagent with h | h
    · simp [Nat.not_le.mpr h]
    · simp [h]
  rw [eoi]
  dsimp only
  rw [if_neg (by decide), if_neg hopen, hstack]

theorem eoi_empty {s : State} {t : Nat} {a : Agent} (hagent : t < 64 ∨ isHost a = false) (hstack : (s.target t).stack = []) :
    eoi s a t true = event (s.setTarget t { s.target t with eoierr := satInc (s.target t).eoierr }) 0x0F06 := by
  have hopen : ¬ (decide (64 ≤ t) && isHost a) = true := by
    rcases hagent with h | h
    · simp [Nat.not_le.mpr h]
    · simp [h]
  rw [eoi]
  dsimp only
  rw [if_neg (by decide), if_neg hopen, hstack]

theorem eoi_locked {s : State} {t : Nat} {a : Agent} (ht : 64 ≤ t) (hhost : isHost a = true) :
    eoi s a t true = locked s a (0x2200C + 0x10 * t) := by
  rw [eoi, if_neg (by decide), if_pos (by simp [ht, hhost])]

theorem violate_sameTargets (s : State) (v : Violation) (h : evSev v.code < 2) : SameTargets s (violate s v) :=
  fun t => event_sameTargets h { s with glb := _ } _ t

theorem locked_violates (s : State) (a : Agent) (off : Nat) : (locked s a off).glb.violCode = 0x0103 ∧ SameTargets s (locked s a off) := by
  refine ⟨?_, violate_sameTargets s _ (show evSev 0x0103 < 2 by decide)⟩
  unfold locked violateReg violate
  rw [event_glb]
  rfl

/-- Settles O41: sends by what presents their message, EOI by its three cases, unmasking by what the PBA gives up. -/
theorem interruptTargets : Obligations.InterruptTargets := by
  intro s t a x holdsBack
  refine ⟨fun hdue => ?_, fun hdue => ?_, fun hreach => ⟨fun hagent => ⟨fun p r hstack => ?_, fun hstack => ?_⟩, fun ht hhost => ?_⟩,
    fun v hen hmask => ⟨vectorMask s v false, rfl, vectorMask_unmasks s v hen hmask⟩,
    fun hen => ⟨msixControl s s.ic.msixEn false, rfl, msixControl_unmasks s hen⟩⟩
  · have hnext : exec (.interruptSend t) s = .next (if t.val < 64 then presentMsix (s.setTarget t (sentTarget x t)) t
        else s.setTarget t (sentTarget x t)) := congrArg Host.Outcome.next (interruptSend_due hdue)
    by_cases ht : t.val < 64
    · rw [if_pos ht] at hnext
      obtain ⟨pba, htgt⟩ := presentMsix_target s t
      refine ⟨_, hnext, by rw [htgt]; rfl, by rw [htgt]; rfl, fun _ hfree hreq hout => ?_, fun _ hfree hwait => ?_, fun _ hheld => ?_,
        fun hge => absurd ht (Nat.not_lt.mpr hge)⟩
      · rw [presentMsix_issues s t (Bool.eq_false_iff.mpr fun h => hfree ((msixHeld_iff s t).mp h)), issueMsix_goes (s := s.setTarget t (sentTarget x t)) hreq hout]
        exact presented_hostOut s t hreq
      · rw [presentMsix_issues s t (Bool.eq_false_iff.mpr fun h => hfree ((msixHeld_iff s t).mp h)), issueMsix_waits (s := s.setTarget t (sentTarget x t)) hwait]
        exact ⟨rfl, rfl⟩
      · rw [presentMsix_holds s t ((msixHeld_iff s t).mpr hheld), State.setTarget_target_self]
        exact ⟨rfl, rfl⟩
    · rw [if_neg ht] at hnext
      refine ⟨_, hnext, ?_, ?_, fun h => absurd h ht, fun h => absurd h ht, fun h => absurd h ht, fun hge => ⟨?_, rfl⟩⟩
      · rw [State.setTarget_target_self]
        rfl
      · rw [State.setTarget_target_self]
        rfl
      · rw [State.setTarget_target_self]
        exact decide_eq_true hge
  · exact congrArg Host.Outcome.next (if_neg (Bool.eq_false_iff.mp hdue))
  · have hexec : exec (.eoi a t true) s = .next (eoi s a t true) := congrArg Host.Outcome.next (rowAccess_reaches hreach _)
    refine ⟨_, hexec, ?_⟩
    rw [eoi_pops hagent hstack]
    exact ⟨State.setTarget_target_self _ _ _, rfl⟩
  · have hexec : exec (.eoi a t true) s = .next (eoi s a t true) := congrArg Host.Outcome.next (rowAccess_reaches hreach _)
    refine ⟨_, hexec, ?_⟩
    rw [eoi_empty hagent hstack]
    have hsame := event_sameTargets (c := 0x0F06) (by decide) (s.setTarget t { x with eoierr := satInc x.eoierr }) {} t
    rw [State.setTarget_target_self] at hsame
    exact ⟨congrArg Target.eoierr hsame, onlyHost.trans (t := s.setTarget t _) rfl (onlyHost_event (by decide) (by decide) _)⟩
  · have hexec : exec (.eoi a t true) s = .next (eoi s a t true) := congrArg Host.Outcome.next (rowAccess_reaches hreach _)
    refine ⟨_, hexec, ?_⟩
    rw [eoi_locked ht hhost]
    obtain ⟨hcode, hsame⟩ := locked_violates s a (0x2200C + 0x10 * t)
    refine ⟨?_, hcode⟩
    rw [hsame t]

end Sys2Proof.Claims
end

section
/-! SUPPORT. O42: mailbox queues, their senders, PEER and forwarding (R344, R346 to R349). -/

namespace Sys2Proof.Claims

open Sys2Proof Sys2Proof.Machine

/-- Nothing but mailbox m changed, as O42 writes it. -/
def OnlyAt (m : Nat) (s s' : State) : Prop := (∀ i, i ≠ m → s'.mbox i = s.mbox i) ∧ s' = { s with mbx := s'.mbx }

theorem onlyAt_setMbox (s : State) (m : Nat) (x : Mbox) : OnlyAt m s (s.setMbox m x) :=
  ⟨fun i hi => State.setMbox_mbox_other s m i x hi, rfl⟩

theorem OnlyAt.refl (m : Nat) (s : State) : OnlyAt m s s := ⟨fun _ _ => rfl, rfl⟩

theorem OnlyAt.trans {m : Nat} {s t u : State} (h : OnlyAt m s t) (k : OnlyAt m t u) : OnlyAt m s u := by
  refine ⟨fun i hi => (k.1 i hi).trans (h.1 i hi), ?_⟩
  rw [k.2, h.2]

theorem mbox_of_mbx {s t : State} (h : t.mbx = s.mbx) (m : Nat) : t.mbox m = s.mbox m := by
  unfold State.mbox
  rw [h]

theorem port_of_lk {s t : State} (h : t.lk = s.lk) (p : Nat) : t.port p = s.port p := by
  unfold State.port
  rw [h]

/-! ## Words written to an inbound queue (R346) -/

section
variable (s : State) (m code : Nat) (w : Word)

/-- A word of a message: the last one makes the message seen, another waits with the part written. -/
theorem addWord_inbound (left : Nat) : let s' := addWord s m true code w left
    OnlyAt m s s' ∧ (s'.mbox m).inq = if left = 0
      then { (s.mbox m).inq with words := (s.mbox m).inq.words ++ ((s.mbox m).inq.part ++ [held w]), part := [], left := 0 }
      else { (s.mbox m).inq with part := (s.mbox m).inq.part ++ [held w], left := left } := by
  have hadd := onlyAt_setMbox s m ((s.mbox m).setQueue true { (s.mbox m).queue true with
    part := ((s.mbox m).queue true).part ++ [held w], left := left })
  by_cases hleft : left = 0
  · subst hleft
    refine ⟨hadd.trans (onlyAt_setMbox _ m _), ?_⟩
    rw [if_pos rfl]
    refine (congrArg Mbox.inq (State.setMbox_mbox_self _ _ _)).trans ?_
    rw [State.setMbox_mbox_self]
    rfl
  · have hmore : addWord s m true code w left = s.setMbox m ((s.mbox m).setQueue true { (s.mbox m).queue true with
        part := ((s.mbox m).queue true).part ++ [held w], left := left }) := if_neg hleft
    rw [hmore, if_neg hleft]
    exact ⟨hadd, congrArg Mbox.inq (State.setMbox_mbox_self _ _ _)⟩

variable {s m}

theorem putWord_skipped (hskip : 0 < (s.mbox m).inq.skip) (ok : Bool) : putWord s m true code ok w =
    s.setMbox m { s.mbox m with inq := { (s.mbox m).inq with skip := (s.mbox m).inq.skip - 1 } } := if_pos hskip

theorem putWord_body (hskip : (s.mbox m).inq.skip = 0) (hleft : 0 < (s.mbox m).inq.left) (ok : Bool) :
    putWord s m true code ok w = addWord s m true code w ((s.mbox m).inq.left - 1) :=
  (if_neg (by show ¬ 0 < (s.mbox m).inq.skip; omega)).trans (if_pos hleft)

section
variable (hbetween : between (s.mbox m).inq)
include hbetween

theorem putWord_between (ok : Bool) : putWord s m true code ok w =
    if !ok then rejectMessage s m true code (hdrLen w)
    else if 16 - (s.mbox m).inq.words.length < hdrLen w + 1 then refuseMessage s m true code w (hdrLen w)
    else addWord (s.setMbox m { s.mbox m with refused := false }) m true code (stampSender w code) (hdrLen w) := by
  obtain ⟨hpart, hleft, hskip⟩ := hbetween
  have hfree : ((s.mbox m).queue true).freeWords = 16 - (s.mbox m).inq.words.length := by
    show 16 - ((s.mbox m).inq.words.length + (s.mbox m).inq.part.length + (s.mbox m).inq.left) = _
    rw [hpart, hleft]
    rfl
  rw [← hfree]
  exact (if_neg (by show ¬ 0 < (s.mbox m).inq.skip; omega)).trans (if_neg (by show ¬ 0 < (s.mbox m).inq.left; omega))

theorem putWord_header (hroom : (s.mbox m).inq.words.length + hdrLen w < 16) : putWord s m true code true w =
    addWord (s.setMbox m { s.mbox m with refused := false }) m true code (stampSender w code) (hdrLen w) := by
  rw [putWord_between code w hbetween, if_neg (by decide), if_neg (by omega)]

theorem putWord_refused (hfull : 16 < (s.mbox m).inq.words.length + hdrLen w + 1) :
    putWord s m true code true w = refuseMessage s m true code w (hdrLen w) := by
  rw [putWord_between code w hbetween, if_neg (by decide), if_pos (by omega)]

theorem putWord_rejected : putWord s m true code false w = rejectMessage s m true code (hdrLen w) := by
  rw [putWord_between code w hbetween, if_pos (by decide)]

/-- The header of a message that has room opens it, and is the whole of one without a body. -/
theorem putWord_opens (hroom : (s.mbox m).inq.words.length + hdrLen w < 16) : let s' := putWord s m true code true w
    OnlyAt m s s' ∧ (s'.mbox m).inq = if hdrLen w = 0
      then { (s.mbox m).inq with words := (s.mbox m).inq.words ++ [held (stampSender w code)], part := [], left := 0 }
      else { (s.mbox m).inq with part := [held (stampSender w code)], left := hdrLen w } := by
  intro s'
  have hs' : s' = _ := putWord_header code w hbetween hroom
  obtain ⟨honly, hinq⟩ := addWord_inbound (s.setMbox m { s.mbox m with refused := false }) m code (stampSender w code) (hdrLen w)
  rw [State.setMbox_mbox_self] at hinq
  rw [hs']
  refine ⟨(onlyAt_setMbox s m _).trans honly, hinq.trans ?_⟩
  rw [show (s.mbox m).inq.part = [] from hbetween.1]
  rfl

end

end

theorem refuseMessage_refuses (s : State) (m code : Nat) (w : Word) (skip : Nat) : let s' := refuseMessage s m true code w skip
    (s'.mbox m).inq = { (s.mbox m).inq with skip := skip } ∧ (s'.mbox m).refused = true ∧
      (s'.mbox m).dropRefused = satInc (s.mbox m).dropRefused := by
  intro s'
  have hmbox : s'.mbox m = { s.mbox m with
      inq := { (s.mbox m).inq with skip := skip }, refused := true, dropRefused := satInc (s.mbox m).dropRefused } :=
    (mbox_of_mbx (event_mbx _ _ _) m).trans (State.setMbox_mbox_self _ _ _)
  rw [hmbox]
  exact ⟨rfl, rfl, rfl⟩

theorem rejectMessage_rejects (s : State) (m code skip : Nat) : let s' := rejectMessage s m true code skip
    (s'.mbox m).inq = { (s.mbox m).inq with skip := skip, part := [], left := 0 } ∧
      (s'.mbox m).dropRejected = satInc (s.mbox m).dropRejected := by
  intro s'
  have hmbox : s'.mbox m = { s.mbox m with
      inq := { (s.mbox m).inq with skip := skip, part := [], left := 0 }, dropRejected := satInc (s.mbox m).dropRejected } :=
    (mbox_of_mbx (event_mbx _ _ _) m).trans (State.setMbox_mbox_self _ _ _)
  rw [hmbox]
  exact ⟨rfl, rfl⟩

/-- The agents that write towards firmware, with their bit of PEER and their sender code. -/
def writesIn (a : Agent) (bit code : Nat) : Prop := (∃ rid, a = .host rid ∧ bit = 0 ∧ code = 0) ∨ (a = .dbg ∧ bit = 15 ∧ code = 15)

theorem mailboxTx_permitted {s : State} {m bit code : Nat} {a : Agent} (ha : writesIn a bit code)
    (hpeer : bitAt (s.mbox m).peer.toNat bit = true) (w : Word) : mailboxTx s a m w = putWord s m true code true w := by
  rcases ha with ⟨rid, rfl, rfl, rfl⟩ | ⟨rfl, rfl, rfl⟩
  · exact if_pos hpeer
  · exact congrArg (fun ok => putWord s m true 15 ok w) hpeer

theorem mailboxTx_hostLocked {s : State} {m : Nat} {a : Agent} {code : Nat} (ha : writesIn a 0 code)
    (hpeer : bitAt (s.mbox m).peer.toNat 0 = false) (w : Word) : mailboxTx s a m w = locked s a (0x30000 + 0x40 * m) := by
  rcases ha with ⟨rid, rfl, -, -⟩ | ⟨-, h, -⟩
  · exact if_neg (by simp [hpeer])
  · cases h

theorem mailboxTx_dbgRejected {s : State} {m : Nat} {a : Agent} {code : Nat} (ha : writesIn a 15 code)
    (hpeer : bitAt (s.mbox m).peer.toNat 15 = false) (w : Word) : mailboxTx s a m w = putWord s m true 15 false w := by
  rcases ha with ⟨rid, -, h, -⟩ | ⟨rfl, -, -⟩
  · cases h
  · exact congrArg (fun ok => putWord s m true 15 ok w) hpeer

/-! ## The outbound queue (R349) -/

/-- What may happen as a header comes to the head of the outbound queue: HEADLEFT and the parity latch, an event. -/
theorem headArrives_mbox (s : State) (m : Nat) : let s' := headArrives s m
    (∃ left perr, s'.mbox m = { s.mbox m with outq := { (s.mbox m).outq with headLeft := left }, perr := perr }) ∧ s'.lk = s.lk := by
  unfold headArrives
  dsimp only
  split
  · exact ⟨⟨(s.mbox m).outq.headLeft, (s.mbox m).perr, rfl⟩, rfl⟩
  · split
    · exact ⟨⟨_, _, State.setMbox_mbox_self _ _ _⟩, rfl⟩
    · refine ⟨⟨_, _, (mbox_of_mbx (event_mbx _ _ _) m).trans (State.setMbox_mbox_self _ _ _)⟩, ?_⟩
      rw [event_low _ _ _ (by decide)]
      rfl

section
variable {s : State} {m : Nat}

/-- The head word leaves the outbound queue, and with the last of its message the message's party. -/
theorem popOut_pops (hne : (s.mbox m).outq.words ≠ []) : let s' := popOut s m
    (s'.mbox m).outq.words = (s.mbox m).outq.words.drop 1 ∧ (s'.mbox m).inq = (s.mbox m).inq ∧ s'.lk = s.lk ∧
      (s'.mbox m).outDests = (if (s.mbox m).outq.headLeft - 1 = 0 then (s.mbox m).outDests.drop 1 else (s.mbox m).outDests) ∧
      ((s.mbox m).outq.headLeft - 1 ≠ 0 → (s'.mbox m).outq.headLeft = (s.mbox m).outq.headLeft - 1) := by
  have hempty : ¬ (s.mbox m).outq.words.isEmpty = true := by simpa using hne
  unfold popOut
  dsimp only
  rw [if_neg hempty]
  split
  · next hlast =>
    obtain ⟨⟨left, perr, hmbox⟩, hlk⟩ := headArrives_mbox (s.setMbox m { s.mbox m with
      outq := { (s.mbox m).outq with words := (s.mbox m).outq.words.drop 1, headLeft := (s.mbox m).outq.headLeft - 1 }
      perr := (s.mbox m).perr && (s.mbox m).outq.headLeft - 1 != 0
      outDests := (s.mbox m).outDests.drop 1 }) m
    rw [State.setMbox_mbox_self] at hmbox
    rw [hmbox]
    exact ⟨rfl, rfl, hlk, rfl, fun h => absurd hlast h⟩
  · rw [State.setMbox_mbox_self]
    exact ⟨rfl, rfl, rfl, rfl, fun _ => rfl⟩

theorem popOut_empty (h : (s.mbox m).outq.words = []) : popOut s m = s := if_pos (by simp [h])

theorem times_succ (n : Nat) (f : State → State) (s : State) : times (n + 1) f s = f (times n f s) := by
  unfold times
  rw [List.range_succ, List.foldl_append]
  rfl

theorem times_popOut (n : Nat) : let s' := times n (fun s => popOut s m) s
    (s'.mbox m).outq.words = (s.mbox m).outq.words.drop n ∧ (s'.mbox m).inq = (s.mbox m).inq := by
  induction n with
  | zero => exact ⟨rfl, rfl⟩
  | succ n ih =>
    obtain ⟨hwords, hinq⟩ := ih
    rw [times_succ]
    dsimp only
    by_cases hne : ((times n (fun s => popOut s m) s).mbox m).outq.words = []
    · rw [popOut_empty hne]
      refine ⟨?_, hinq⟩
      rw [hne]
      rw [hwords] at hne
      exact (List.drop_eq_nil_of_le (Nat.le_succ_of_le (List.drop_eq_nil_iff.mp hne))).symm
    · obtain ⟨hw, hi, -⟩ := popOut_pops hne
      exact ⟨by rw [hw, hwords, List.drop_drop], hi.trans hinq⟩

/-- The words of the head message leave one by one, its party with the last. -/
theorem times_popOut_head {d : BitVec 4} {ds : List (BitVec 4)} {n : Nat} (hdests : (s.mbox m).outDests = d :: ds)
    (hleft : (s.mbox m).outq.headLeft = n + 1) (hlen : n + 1 ≤ (s.mbox m).outq.words.length) :
    let s' := times (n + 1) (fun s => popOut s m) s
    (s'.mbox m).outq.words = (s.mbox m).outq.words.drop (n + 1) ∧ (s'.mbox m).outDests = ds ∧ s'.lk = s.lk := by
  have hpart : ∀ j ≤ n, let s' := times j (fun s => popOut s m) s
      (s'.mbox m).outq.words = (s.mbox m).outq.words.drop j ∧ (s'.mbox m).outDests = (s.mbox m).outDests ∧ s'.lk = s.lk ∧
        (s'.mbox m).outq.headLeft = n + 1 - j := by
    intro j
    induction j with
    | zero => exact fun _ => ⟨rfl, rfl, rfl, hleft⟩
    | succ j ih =>
      intro hj
      obtain ⟨hw, hd, hl, hh⟩ := ih (by omega)
      have hne : ((times j (fun s => popOut s m) s).mbox m).outq.words ≠ [] := by
        rw [hw]
        exact fun h => by have := List.drop_eq_nil_iff.mp h; omega
      obtain ⟨hw', -, hl', hd', hh'⟩ := popOut_pops hne
      rw [hh] at hd' hh'
      rw [times_succ]
      dsimp only
      rw [if_neg (by omega)] at hd'
      exact ⟨by rw [hw', hw, List.drop_drop], hd'.trans hd, hl'.trans hl, (hh' (by omega)).trans (by omega)⟩
  obtain ⟨hw, hd, hl, hh⟩ := hpart n (Nat.le_refl n)
  have hne : ((times n (fun s => popOut s m) s).mbox m).outq.words ≠ [] := by
    rw [hw]
    exact fun h => by have := List.drop_eq_nil_iff.mp h; omega
  obtain ⟨hw', -, hl', hd', -⟩ := popOut_pops hne
  rw [hh, if_pos (by omega)] at hd'
  rw [times_succ]
  exact ⟨by rw [hw', hw, List.drop_drop], by rw [hd', hd, hdests]; rfl, hl'.trans hl⟩

/-! ## The inbound queue -/

theorem popIn_pops (s : State) (m : Nat) : let s' := popIn s m
    OnlyAt m s s' ∧ (s'.mbox m).inq.words = (s.mbox m).inq.words.drop 1 ∧ (s'.mbox m).outq = (s.mbox m).outq := by
  unfold popIn
  dsimp only
  split
  · next h =>
    refine ⟨.refl m s, ?_, rfl⟩
    rw [List.isEmpty_iff.mp h]
    rfl
  · refine ⟨onlyAt_setMbox s m _, ?_⟩
    rw [State.setMbox_mbox_self]
    exact ⟨rfl, rfl⟩

theorem times_popIn (s : State) (m n : Nat) : let s' := times n (fun s => popIn s m) s
    OnlyAt m s s' ∧ (s'.mbox m).inq.words = (s.mbox m).inq.words.drop n ∧ (s'.mbox m).outq = (s.mbox m).outq := by
  induction n with
  | zero => exact ⟨.refl m s, rfl, rfl⟩
  | succ n ih =>
    obtain ⟨honly, hw, ho⟩ := ih
    obtain ⟨honly', hw', ho'⟩ := popIn_pops (times n (fun s => popIn s m) s) m
    rw [times_succ]
    exact ⟨honly.trans honly', by rw [hw', hw, List.drop_drop], ho'.trans ho⟩

end

/-! ## Messages of a management core (R348) -/

/-- A header without a body, from a core to a party that stands, is a whole message at the end of the outbound queue. -/
theorem putWord_outbound {s : State} {m code : Nat} {w : Word} (hbetween : between (s.mbox m).outq) (hlen : hdrLen w = 0)
    (hroom : (s.mbox m).outq.words.length < 16) (hdest : destOk s m (s.mbox m).dest.toNat = true) :
    let s' := putWord s m false code true w
    (s'.mbox m).outq.words = (s.mbox m).outq.words ++ [held (stampSender w code)] ∧
      (s'.mbox m).outDests = (s.mbox m).outDests ++ [(s.mbox m).dest] ∧ (s'.mbox m).inq = (s.mbox m).inq := by
  obtain ⟨hpart, hleft, hskip⟩ := hbetween
  let x0 : Mbox := { s.mbox m with refused := false, partDest := (s.mbox m).dest }
  let x1 : Mbox := { x0 with outq := { x0.outq with part := [held (stampSender w code)], left := 0 } }
  let x2 : Mbox := { x1 with
    outq := { x1.outq with words := x1.outq.words ++ [held (stampSender w code)], part := [] }, outDests := x1.outDests ++ [x1.partDest] }
  have hput : putWord s m false code true w = addWord (s.setMbox m x0) m false code (stampSender w code) 0 := by
    have hfree : ¬ ((s.mbox m).queue false).freeWords < hdrLen w + 1 := by
      show ¬ 16 - ((s.mbox m).outq.words.length + (s.mbox m).outq.part.length + (s.mbox m).outq.left) < hdrLen w + 1
      rw [hpart, hleft, hlen, List.length_nil]
      omega
    rw [← hlen]
    exact (if_neg (by show ¬ 0 < (s.mbox m).outq.skip; omega)).trans ((if_neg (by show ¬ 0 < (s.mbox m).outq.left; omega)).trans
      ((if_neg (by decide)).trans (if_neg hfree)))
  have hadd : addWord (s.setMbox m x0) m false code (stampSender w code) 0 = finishMessage ((s.setMbox m x0).setMbox m x1) m false code := by
    have hx1 : (s.setMbox m x0).mbox m = x0 := State.setMbox_mbox_self _ _ _
    rw [addWord]
    rw [if_pos rfl, hx1]
    show finishMessage ((s.setMbox m x0).setMbox m { x0 with outq := { x0.outq with part := (s.mbox m).outq.part ++ [_], left := 0 } }) _ _ _ = _
    rw [hpart]
    rfl
  have hfinish : finishMessage ((s.setMbox m x0).setMbox m x1) m false code = headArrives (((s.setMbox m x0).setMbox m x1).setMbox m x2) m := by
    have hx2 : ((s.setMbox m x0).setMbox m x1).mbox m = x1 := State.setMbox_mbox_self _ _ _
    have hok : destOk ((s.setMbox m x0).setMbox m x1) m x1.partDest.toNat = true := by
      unfold destOk at hdest ⊢
      rw [hx2]
      exact hdest
    rw [finishMessage]
    dsimp only
    rw [hx2, hok, if_neg (by decide)]
    rfl
  intro s'
  obtain ⟨⟨left, perr, hmbox⟩, -⟩ := headArrives_mbox (((s.setMbox m x0).setMbox m x1).setMbox m x2) m
  rw [← hfinish, ← hadd, ← hput, State.setMbox_mbox_self] at hmbox
  rw [hmbox]
  exact ⟨rfl, rfl, rfl⟩

/-! ## Forwarding to a link (R348) -/

theorem messageForward_goes {s : State} {m p : Nat} {d : BitVec 4} {ds : List (BitVec 4)} (hdests : (s.mbox m).outDests = d :: ds)
    (hport : portOfCode s d.toNat = some p) (hleft : (s.mbox m).outq.headLeft = (s.mbox m).outq.headWords)
    (hpos : 0 < (s.mbox m).outq.headWords) (hup : (s.port p).isUp = true) (hperr : (s.mbox m).perr = false) :
    messageForward s m = times (s.mbox m).outq.headWords (fun s => popOut s m)
      (s.setPort p (sendSeq s.devTime (s.port p) (.msg (((s.mbox m).outq.words.take (s.mbox m).outq.headWords).map fun w => w.w)))) := by
  unfold messageForward
  dsimp only
  rw [hdests]
  dsimp only [List.head?_cons, Option.bind_some]
  rw [hport]
  dsimp only
  rw [if_pos (by simp [hleft, hpos, hup]), hperr]
  rfl

theorem sendSeq_sends {x : LinkPort} (hreplay : x.replay.length < 64) (htxq : x.txq = []) (now : Nat) (b : FrameBody) :
    (sendSeq now x b).txseq = x.txseq + 1 ∧ ∃ f, (sendSeq now x b).sent = f :: x.sent ∧ f.body = b ∧ f.seq = x.txseq := by
  rw [sendSeq, if_pos (by simp [hreplay, htxq])]
  exact ⟨rfl, _, rfl, rfl, rfl⟩

theorem peerOk_iff (v : BitVec 16) : peerOk v = true ↔ (v.getLsbD 0 = false ∨ v = 1) ∧ v &&& 0x60FE = 0 := by
  have hbit : bitAt v.toNat 0 = v.getLsbD 0 := by
    rw [BitVec.getLsbD, Nat.testBit_zero, bitAt, pow_zero, Nat.div_one]
    rfl
  simp [peerOk, hbit]

/-- Settles O42: a word written by what `putWord` does with it, words removed one by one, a message forwarded by `messageForward_goes`. -/
theorem mailboxMessages : Obligations.MailboxMessages := by
  refine ⟨fun s m w a n v => ?_, fun s m d ds p => ?_⟩
  · intro x only
    refine ⟨fun hreach bit code ha => ⟨fun hpeer => ?_, fun hbit hpeer => ?_, fun hbit hpeer hbetween => ?_⟩,
      fun c hreach hbetween hlen hroom hdest => ?_, fun c hreach => ?_, fun hreach hagent => ?_, fun hopen hcores => ?_⟩
    · have hexec : exec (.mailboxTxWrite a m w) s = .next (putWord s m true code true w) :=
        congrArg Host.Outcome.next ((rowAccess_reaches hreach _).trans (mailboxTx_permitted ha hpeer w))
      refine ⟨fun hbetween hlen hroom => ⟨_, hexec, ?_⟩, fun hbetween hlen hroom => ⟨_, hexec, ?_⟩, fun hbetween hfull => ⟨_, hexec, ?_⟩,
        fun hskip hleft => ⟨_, hexec, ?_⟩, fun hskip => ⟨_, hexec, ?_⟩⟩
      · obtain ⟨honly, hinq⟩ := putWord_opens code w hbetween (by rw [hlen]; exact hroom)
        rw [if_pos hlen] at hinq
        rw [hinq]
        exact ⟨rfl, honly⟩
      · obtain ⟨honly, hinq⟩ := putWord_opens code w hbetween hroom
        rw [if_neg (by omega)] at hinq
        rw [hinq]
        exact ⟨rfl, rfl, rfl, honly⟩
      · rw [putWord_refused code w hbetween hfull]
        obtain ⟨hinq, hrefused, hdrop⟩ := refuseMessage_refuses s m code w (hdrLen w)
        rw [hinq]
        exact ⟨rfl, hrefused, rfl, hdrop⟩
      · rw [putWord_body code w hskip hleft]
        obtain ⟨honly, hinq⟩ := addWord_inbound s m code w (x.inq.left - 1)
        refine ⟨honly, ?_, fun hlast => ?_, fun hmore => ?_⟩
        · rw [hinq]
          split
          · next h => exact h.symm
          · rfl
        · rw [hinq, if_pos (by omega)]
          exact ⟨(List.append_assoc _ _ _).symm, rfl⟩
        · rw [hinq, if_neg (by omega)]
          exact ⟨rfl, rfl⟩
      · rw [putWord_skipped code w hskip, State.setMbox_mbox_self]
        exact ⟨onlyAt_setMbox s m _, rfl, rfl⟩
    · subst hbit
      have hexec : exec (.mailboxTxWrite a m w) s = .next (locked s a (0x30000 + 0x40 * m)) :=
        congrArg Host.Outcome.next ((rowAccess_reaches hreach _).trans (mailboxTx_hostLocked ha hpeer w))
      refine ⟨_, hexec, event_mbx _ _ _, (locked_violates s a _).1, ?_⟩
      unfold locked violateReg violate
      rw [event_glb]
    · subst hbit
      have hexec : exec (.mailboxTxWrite a m w) s = .next (rejectMessage s m true 15 (hdrLen w)) :=
        congrArg Host.Outcome.next ((rowAccess_reaches hreach _).trans ((mailboxTx_dbgRejected ha hpeer w).trans
          (putWord_rejected 15 w hbetween)))
      obtain ⟨hinq, hdrop⟩ := rejectMessage_rejects s m 15 (hdrLen w)
      refine ⟨_, hexec, ?_, hdrop, ?_⟩ <;> rw [hinq]
    · exact ⟨_, congrArg Host.Outcome.next (rowAccess_reaches hreach _), putWord_outbound hbetween hlen hroom hdest⟩
    · obtain ⟨honly, hwords, hout⟩ := times_popIn s m n.toNat
      exact ⟨_, congrArg Host.Outcome.next (rowAccess_reaches hreach _), hwords, hout, honly⟩
    · have hpop : mailboxPop s a m n.toNat = times n.toNat (fun s => popOut s m) s := by
        cases a with
        | mp c => exact absurd rfl (hagent c)
        | host _ => rfl
        | dbg => rfl
      exact ⟨_, congrArg Host.Outcome.next ((rowAccess_reaches hreach _).trans hpop), times_popOut n.toNat⟩
    · refine congrArg Host.Outcome.next ((rowFirmware_open s _ _ hcores hopen).trans ?_)
      unfold peerWrite
      refine ite_congr (propext (peerOk_iff v)) (fun _ => rfl) (fun _ => rfl)
  · intro x n hdests hport hleft hpos hlen hup hperr hreplay htxq
    have hforward := messageForward_goes hdests hport hleft hpos hup hperr
    obtain ⟨k, hk⟩ : ∃ k, (s.mbox m).outq.headWords = k + 1 := ⟨_, (Nat.succ_pred_eq_of_pos hpos).symm⟩
    let u : State := s.setPort p (sendSeq s.devTime (s.port p) (.msg ((x.outq.words.take n).map fun w => w.w)))
    obtain ⟨hwords, hdests', hlk⟩ := times_popOut_head (s := u) hdests (hleft.trans hk) (hk ▸ hlen)
    rw [← hk] at hwords hdests' hlk
    have hport' : (times n (fun s => popOut s m) u).port p = u.port p := port_of_lk hlk p
    refine ⟨_, congrArg Host.Outcome.next hforward, hwords, hdests', ?_⟩
    show ((times n (fun s => popOut s m) u).port p).txseq = _ ∧ ∃ f, ((times n (fun s => popOut s m) u).port p).sent = _ ∧ _
    rw [hport', State.setPort_port_self]
    exact sendSeq_sends hreplay htxq _ _

end Sys2Proof.Claims
end

section
/-! SUPPORT. How firmware's messages are queued and answered (R346, R348 to R350): the words of a message written whole to an outbound queue, the
head message taken, and the answer of `serve`. -/

namespace Sys2Proof.Claims

open Sys2Proof Sys2Proof.Machine

/-! ## A message written to an outbound queue -/

theorem destOk_congr {s t : State} {m : Nat} (h : OnlyAt m s t) (hpeer : (t.mbox m).peer = (s.mbox m).peer) (d : Nat) :
    destOk t m d = destOk s m d := by
  have hport : ∀ p, t.port p = s.port p := port_of_lk (by rw [h.2])
  have htw : t.tw = s.tw := by rw [h.2]
  unfold destOk State.twinLink State.paired
  rw [hpeer, htw, hport, hport]

/-- A mailbox with the part written of its outbound message. -/
def withPart (x : Mbox) (p : List MboxWord) (left : Nat) : Mbox := { x with outq := { x.outq with part := p, left := left } }

/-- A mailbox with a message of the given words at the end of its outbound queue. -/
def withMessage (x : Mbox) (p : List MboxWord) : Mbox :=
  { x with outq := { x.outq with words := x.outq.words ++ p, part := [], left := 0 }, outDests := x.outDests ++ [x.partDest] }

section
variable {s : State} {m : Nat} (code : Nat)

theorem addWord_outbound_more (w : Word) {left : Nat} (hleft : left ≠ 0) : addWord s m false code w left =
    s.setMbox m (withPart (s.mbox m) ((s.mbox m).outq.part ++ [held w]) left) := if_neg hleft

theorem addWord_outbound_last (w : Word) (hdest : destOk s m (s.mbox m).partDest.toNat = true) :
    ∃ t, addWord s m false code w 0 = headArrives t m ∧ OnlyAt m s t ∧
      t.mbox m = withMessage (s.mbox m) ((s.mbox m).outq.part ++ [held w]) := by
  let x1 : Mbox := withPart (s.mbox m) ((s.mbox m).outq.part ++ [held w]) 0
  have hx1 : (s.setMbox m x1).mbox m = x1 := State.setMbox_mbox_self _ _ _
  have hok : destOk (s.setMbox m x1) m x1.partDest.toNat = true := by
    rw [destOk_congr (onlyAt_setMbox s m x1) (congrArg Mbox.peer hx1 :)]
    exact hdest
  refine ⟨(s.setMbox m x1).setMbox m (withMessage (s.mbox m) ((s.mbox m).outq.part ++ [held w])), ?_,
    (onlyAt_setMbox s m _).trans (onlyAt_setMbox _ m _), State.setMbox_mbox_self _ _ _⟩
  have hadd : addWord s m false code w 0 = finishMessage (s.setMbox m x1) m false code := by
    rw [addWord]
    exact if_pos rfl
  rw [hadd, finishMessage]
  dsimp only
  rw [hx1, hok, if_neg (by decide)]
  rfl

theorem putWord_outbound_body (hskip : (s.mbox m).outq.skip = 0) (hleft : 0 < (s.mbox m).outq.left) (w : Word) :
    putWord s m false code true w = addWord s m false code w ((s.mbox m).outq.left - 1) :=
  (if_neg (by show ¬ 0 < (s.mbox m).outq.skip; omega)).trans (if_pos hleft)

/-- The words after a header come one by one, and with the last the message is whole. -/
theorem putWords_body (ws : List Word) (hne : ws ≠ []) (hskip : (s.mbox m).outq.skip = 0) (hleft : (s.mbox m).outq.left = ws.length)
    (hdest : destOk s m (s.mbox m).partDest.toNat = true) :
    ∃ t, ws.foldl (fun s w => putWord s m false code true w) s = headArrives t m ∧ OnlyAt m s t ∧
      t.mbox m = withMessage (s.mbox m) ((s.mbox m).outq.part ++ ws.map held) := by
  induction ws generalizing s with
  | nil => exact absurd rfl hne
  | cons w r ih =>
    have hput := putWord_outbound_body code hskip (by rw [hleft]; simp) w
    rw [hleft, List.length_cons, Nat.add_sub_cancel] at hput
    rw [List.foldl_cons, hput]
    by_cases hr : r = []
    · subst hr
      exact addWord_outbound_last code w hdest
    · rw [addWord_outbound_more code w (fun h => hr (List.length_eq_zero_iff.mp h))]
      let x1 : Mbox := withPart (s.mbox m) ((s.mbox m).outq.part ++ [held w]) r.length
      have hx1 : (s.setMbox m x1).mbox m = x1 := State.setMbox_mbox_self _ _ _
      have honly := onlyAt_setMbox s m x1
      have hok : destOk (s.setMbox m x1) m ((s.setMbox m x1).mbox m).partDest.toNat = true := by
        rw [destOk_congr honly (congrArg Mbox.peer hx1 :), hx1]
        exact hdest
      obtain ⟨t, hfold, honly', hmbox⟩ := ih hr (s := s.setMbox m x1) (by rw [hx1]; exact hskip) (by rw [hx1]; rfl) hok
      refine ⟨t, hfold, honly.trans honly', ?_⟩
      rw [hmbox, hx1]
      show withMessage _ ((s.mbox m).outq.part ++ [held w] ++ r.map held) = _
      rw [List.append_assoc]
      rfl

end

/-- What stands where a header comes to the head of an outbound queue: nothing changes but HEADLEFT while all its words are good, or while
another message stands before it. -/
theorem headArrives_quiet {s : State} {m : Nat} (h : (∀ w ∈ (s.mbox m).outq.words, w.ok = true) ∨ (s.mbox m).outq.headLeft ≠ 0) :
    OnlyAt m s (headArrives s m) ∧
      ∃ left, (headArrives s m).mbox m = { s.mbox m with outq := { (s.mbox m).outq with headLeft := left } } := by
  unfold headArrives
  dsimp only
  split
  · exact ⟨.refl m s, (s.mbox m).outq.headLeft, rfl⟩
  · next hgo =>
    have hleft : (s.mbox m).outq.headLeft = 0 := by
      by_contra hne
      exact hgo (by simp [hne])
    have hgood : ((s.mbox m).outq.words.take (s.mbox m).outq.headWords).findIdx? (fun w => !w.ok) = none := by
      rw [List.findIdx?_eq_none_iff]
      intro w hw
      rw [(h.resolve_right fun hne => hne hleft) w (List.mem_of_mem_take hw)]
      rfl
    rw [hgood]
    exact ⟨onlyAt_setMbox s m _, _, State.setMbox_mbox_self _ _ _⟩

/-- A mailbox that can queue a whole message: nothing part written, room for n words, the head checked as it came there. -/
structure Ready (s : State) (m n dest : Nat) : Prop where
  room : outReady s m n = true
  dest : destOk s m dest = true
  headSeen : (s.mbox m).outq.words = [] ∨ (s.mbox m).outq.headLeft ≠ 0

/-- What a message queued at mailbox m changes of it. -/
structure Queued (s s' : State) (m dest : Nat) (ws : List Word) : Prop where
  only : OnlyAt m s s'
  words : (s'.mbox m).outq.words = (s.mbox m).outq.words ++ ws.map held
  dests : (s'.mbox m).outDests = (s.mbox m).outDests ++ [BitVec.ofNat 4 dest]
  inq : (s'.mbox m).inq = (s.mbox m).inq
  kept : (s'.mbox m).keptMseq = (s.mbox m).keptMseq ∧ (s'.mbox m).keptReply = (s.mbox m).keptReply

/-- Firmware's words of a message are queued whole, its header under the core's code (R346, R348). -/
theorem fwWrite_queued {s : State} {m dest : Nat} (core : Nat) {h : Word} {r : List Word} (hready : Ready s m (r.length + 1) dest)
    (hlen : hdrLen h = r.length) (hdest : dest < 16) : Queued s (fwWrite s m core dest (h :: r)) m dest (stampSender h (1 + core) :: r) := by
  obtain ⟨hroom, hok, hseen⟩ := hready
  simp only [outReady, Bool.and_eq_true, List.isEmpty_iff, beq_iff_eq] at hroom
  obtain ⟨⟨⟨hpart, hleft⟩, hskip⟩, hfree⟩ := hroom
  have hfree := of_decide_eq_true hfree
  unfold MboxQ.freeWords at hfree
  let x0 : Mbox := { s.mbox m with dest := BitVec.ofNat 4 dest }
  let x1 : Mbox := { x0 with refused := false, partDest := BitVec.ofNat 4 dest }
  have hx0 : (s.setMbox m x0).mbox m = x0 := State.setMbox_mbox_self _ _ _
  let t0 : State := (s.setMbox m x0).setMbox m x1
  have hx1 : t0.mbox m = x1 := State.setMbox_mbox_self _ _ _
  have honly0 : OnlyAt m s t0 := (onlyAt_setMbox s m x0).trans (onlyAt_setMbox _ m x1)
  have hdest' : (BitVec.ofNat 4 dest).toNat = dest := by rw [BitVec.toNat_ofNat]; exact Nat.mod_eq_of_lt hdest
  have hok0 : destOk t0 m (t0.mbox m).partDest.toNat = true := by
    rw [destOk_congr honly0 (congrArg Mbox.peer hx1 :), hx1]
    show destOk s m (BitVec.ofNat 4 dest).toNat = true
    rw [hdest']
    exact hok
  have hput : putWord (s.setMbox m x0) m false (1 + core) true h = addWord t0 m false (1 + core) (stampSender h (1 + core)) (hdrLen h) := by
    unfold putWord
    dsimp only
    rw [hx0, if_neg (by show ¬ 0 < (s.mbox m).outq.skip; omega), if_neg (by show ¬ 0 < (s.mbox m).outq.left; omega), if_neg (by decide),
      if_neg (by show ¬ 16 - ((s.mbox m).outq.words.length + (s.mbox m).outq.part.length + (s.mbox m).outq.left) < hdrLen h + 1; omega)]
    rfl
  have hwrite : fwWrite s m core dest (h :: r) =
      r.foldl (fun s w => putWord s m false (1 + core) true w) (addWord t0 m false (1 + core) (stampSender h (1 + core)) r.length) := by
    rw [← hlen, ← hput]
    rfl
  have hwhole : ∃ t, fwWrite s m core dest (h :: r) = headArrives t m ∧ OnlyAt m t0 t ∧
      t.mbox m = withMessage x1 ((stampSender h (1 + core) :: r).map held) := by
    rw [hwrite]
    by_cases hr : r = []
    · subst hr
      obtain ⟨t, hadd, honly, hmbox⟩ := addWord_outbound_last (1 + core) (stampSender h (1 + core)) hok0
      refine ⟨t, hadd, honly, ?_⟩
      rw [hmbox, hx1]
      show withMessage x1 ((s.mbox m).outq.part ++ _) = _
      rw [hpart]
      rfl
    · rw [addWord_outbound_more _ _ (fun h => hr (List.length_eq_zero_iff.mp h)), hx1]
      let x2 : Mbox := withPart x1 (x1.outq.part ++ [held (stampSender h (1 + core))]) r.length
      have hx2 : (t0.setMbox m x2).mbox m = x2 := State.setMbox_mbox_self _ _ _
      have honly1 := onlyAt_setMbox t0 m x2
      have hok1 : destOk (t0.setMbox m x2) m ((t0.setMbox m x2).mbox m).partDest.toNat = true := by
        rw [destOk_congr honly1 (by rw [hx2, hx1]; rfl), hx2]
        rw [hx1] at hok0
        exact hok0
      obtain ⟨t, hfold, honly, hmbox⟩ := putWords_body (s := t0.setMbox m x2) (1 + core) r hr (by rw [hx2]; exact hskip)
        (by rw [hx2]; rfl) hok1
      refine ⟨t, hfold, honly1.trans honly, ?_⟩
      rw [hmbox, hx2]
      show withMessage x1 ((s.mbox m).outq.part ++ [held (stampSender h (1 + core))] ++ r.map held) = _
      rw [hpart]
      rfl
  obtain ⟨t, hfin, honly, hmbox⟩ := hwhole
  have hquiet : (∀ w ∈ (t.mbox m).outq.words, w.ok = true) ∨ (t.mbox m).outq.headLeft ≠ 0 := by
    rw [hmbox]
    rcases hseen with hempty | hne
    · left
      intro w hw
      have hw' : w ∈ (s.mbox m).outq.words ++ (stampSender h (1 + core) :: r).map held := hw
      rw [hempty, List.nil_append, List.mem_map] at hw'
      obtain ⟨v, -, rfl⟩ := hw'
      rfl
    · exact .inr hne
  obtain ⟨honly', left, hmbox'⟩ := headArrives_quiet hquiet
  rw [hmbox] at hmbox'
  rw [hfin]
  constructor
  case only => exact (honly0.trans honly).trans honly'
  all_goals rw [hmbox']
  case words => rfl
  case dests => rfl
  case inq => rfl
  case kept => exact ⟨rfl, rfl⟩

/-! ## Answers (R350) -/

theorem popIn_mbox (s : State) (m : Nat) : ∃ left, (popIn s m).mbox m =
    { s.mbox m with inq := { (s.mbox m).inq with words := (s.mbox m).inq.words.drop 1, headLeft := left } } := by
  unfold popIn
  dsimp only
  split
  · next hempty =>
    refine ⟨(s.mbox m).inq.headLeft, ?_⟩
    rw [List.isEmpty_iff.mp hempty, List.drop_nil, ← List.isEmpty_iff.mp hempty]
  · exact ⟨_, State.setMbox_mbox_self _ _ _⟩

/-- Words read off the inbound queue. -/
theorem takeMessage_mbox (s : State) (m n : Nat) : OnlyAt m s (takeMessage s m n) ∧ ∃ left, (takeMessage s m n).mbox m =
    { s.mbox m with inq := { (s.mbox m).inq with words := (s.mbox m).inq.words.drop n, headLeft := left } } := by
  unfold takeMessage
  induction n with
  | zero => exact ⟨.refl m s, (s.mbox m).inq.headLeft, rfl⟩
  | succ n ih =>
    obtain ⟨honly, left, hmbox⟩ := ih
    rw [times_succ]
    generalize times n (fun s => popIn s m) s = t at *
    obtain ⟨left', hpop⟩ := popIn_mbox t m
    refine ⟨honly.trans (popIn_pops t m).1, left', ?_⟩
    rw [hpop, hmbox]
    dsimp only
    rw [List.drop_drop]

/-- A mailbox with the outbound queue and the permissions of another state is as ready. -/
theorem Ready.of_same {s u : State} {m n dest : Nat} (h : Ready s m n dest) (honly : OnlyAt m s u)
    (hout : (u.mbox m).outq = (s.mbox m).outq) (hpeer : (u.mbox m).peer = (s.mbox m).peer) : Ready u m n dest := by
  obtain ⟨hroom, hok, hseen⟩ := h
  constructor
  case room =>
    unfold outReady
    rw [hout]
    exact hroom
  case dest =>
    rw [destOk_congr honly hpeer]
    exact hok
  case headSeen =>
    rw [hout]
    exact hseen

theorem hdrSender_lt (h : Word) : hdrSender h < 16 := Nat.mod_lt _ (by decide)

theorem replyWords_cons (h : Word) (r : Reply) : ∃ k, replyWords h r = k :: (replyWords h r).drop 1 ∧
    hdrLen k = ((replyWords h r).drop 1).length := by
  refine ⟨_, rfl, ?_⟩
  have hseq := (hdrSeq h).isLt
  have htype : (hdrType h + 0x80) % 256 < 256 := Nat.mod_lt _ (by decide)
  generalize (hdrType h + 0x80) % 256 = y at htype
  simp only [hdrLen, bits, packW, packN, BitVec.toNat_ofNat, replyWords, List.drop_succ_cons, List.drop_zero, List.length_cons,
    List.length_take]
  omega

theorem Queued.onlyMbox {s s' : State} {m : Fin 8} {dest : Nat} {ws : List Word} (h : Queued s s' m dest ws) : onlyMbox s s' m :=
  ⟨h.only.2, h.only.1⟩

/-- A repeat is answered with the kept words. -/
theorem takeMessage_fwWrite {s : State} {m core dest : Nat} {k : Word} {r : List Word} (n : Nat) (hready : Ready s m (r.length + 1) dest)
    (hlen : hdrLen k = r.length) (hdest : dest < 16) : let s' := fwWrite (takeMessage s m n) m core dest (k :: r)
    OnlyAt m s s' ∧ (s'.mbox m).inq.words = (s.mbox m).inq.words.drop n ∧
      (s'.mbox m).outq.words = (s.mbox m).outq.words ++ (stampSender k (1 + core) :: r).map held ∧
      (s'.mbox m).keptReply = (s.mbox m).keptReply := by
  obtain ⟨honly, left, hmbox⟩ := takeMessage_mbox s m n
  have hready' : Ready (takeMessage s m n) m (r.length + 1) dest := hready.of_same honly (by rw [hmbox]) (by rw [hmbox])
  obtain ⟨honly', hwords, -, hinq, -, hreply⟩ := fwWrite_queued core hready' hlen hdest
  rw [hmbox] at hwords hinq hreply
  intro s'
  refine ⟨honly.trans honly', ?_, hwords, hreply⟩
  rw [show (s'.mbox m).inq = _ from hinq]

/-- The reply to a message is queued, and kept if its STATUS is 0. -/
theorem answerWith_replied {s : State} {m : Fin 8} (core : Fin 4) {ws : List Word} {r : Reply}
    (hready : Ready s m (replyWords (ws.headD 0) r).length (hdrSender (ws.headD 0))) :
    let s' := answerWith s m core ws.length (ws.headD 0) r
    replied s s' m core ws r ∧ onlyMbox s s' m := by
  obtain ⟨k, hk, hlen⟩ := replyWords_cons (ws.headD 0) r
  obtain ⟨honly, left, hmbox⟩ := takeMessage_mbox s m ws.length
  let u : State := if r.status = 0 then keepReply (takeMessage s m ws.length) m (ws.headD 0) (replyWords (ws.headD 0) r)
    else takeMessage s m ws.length
  have hu : OnlyAt m s u ∧ u.mbox m = { (takeMessage s m ws.length).mbox m with
      keptMseq := if r.status = 0 then some (hdrSeq (ws.headD 0)) else (s.mbox m).keptMseq
      keptReply := if r.status = 0 then replyWords (ws.headD 0) r else (s.mbox m).keptReply } := by
    by_cases hstatus : r.status = 0
    · simp only [u, if_pos hstatus]
      exact ⟨honly.trans (onlyAt_setMbox _ m _), State.setMbox_mbox_self _ _ _⟩
    · simp only [u, if_neg hstatus]
      rw [hmbox]
      exact ⟨honly, rfl⟩
  obtain ⟨honlyu, hmboxu⟩ := hu
  rw [hmbox] at hmboxu
  have hreadyu : Ready u m (((replyWords (ws.headD 0) r).drop 1).length + 1) (hdrSender (ws.headD 0)) := by
    rw [hk] at hready
    exact hready.of_same honlyu (by rw [hmboxu]) (by rw [hmboxu])
  have hqueued := fwWrite_queued (core := core) hreadyu hlen (hdrSender_lt _)
  have hanswer : answerWith s m core ws.length (ws.headD 0) r =
      fwWrite u m core (hdrSender (ws.headD 0)) (k :: (replyWords (ws.headD 0) r).drop 1) := by
    rw [← hk]
    rfl
  rw [← hanswer] at hqueued
  obtain ⟨honly', hwords, hdests, hinq, hmseq, hreply⟩ := hqueued
  rw [hmboxu] at hwords hdests hinq hmseq hreply
  refine ⟨⟨?_, ?_, hdests, hmseq, hreply⟩, (honlyu.trans honly').2, (honlyu.trans honly').1⟩
  · rw [hinq]
  · rw [hwords, show (replyWords (ws.headD 0) r).headD 0 = k by rw [hk]; rfl]

/-! ## The service of a message (R350) -/

section
variable {s : State} {m : Fin 8} {core : Fin 4} {ws : List Word} {mine : List Word → Bool} {act : Act}
  (hwords : headMessage s m = some (ws.map held)) (hmine : mine ws = true) (hboot : s.sec.bootState = 3)
include hwords hmine hboot

theorem serve_reads : serve s m core mine act =
    if (s.mbox m).keptMseq = some (hdrSeq (ws.headD 0)) then
      (if outReady s m (dupReply (s.mbox m).keptReply).length then
        fwWrite (takeMessage s m ws.length) m core (hdrSender (ws.headD 0)) (dupReply (s.mbox m).keptReply) else s)
    else
      match act s ws with
      | none => s
      | some (s1, r) => if outReady s1 m (replyWords (ws.headD 0) r).length then answerWith s1 m core ws.length (ws.headD 0) r else s := by
  have hmap : (ws.map held).map (fun w => w.w) = ws := by simp [held, Function.comp_def]
  have hgood : ((ws.map held).any fun w => !w.ok) = false := by simp [held]
  unfold serve
  rw [hwords]
  dsimp only
  rw [hmap]
  exact (if_neg (by simp [hmine, hboot])).trans (if_neg (by simp [hgood]))

/-- A new message that is answered at once. -/
theorem serve_answers {r : Reply} (hfresh : (s.mbox m).keptMseq ≠ some (hdrSeq (ws.headD 0))) (hact : act s ws = some (s, r))
    (hroom : outReady s m (replyWords (ws.headD 0) r).length = true) :
    serve s m core mine act = answerWith s m core ws.length (ws.headD 0) r := by
  rw [serve_reads hwords hmine hboot, if_neg hfresh, hact]
  exact if_pos hroom

/-- A repeat of the kept message. -/
theorem serve_repeats {k w : Word} {r : List Word} (hkept : (s.mbox m).keptMseq = some (hdrSeq (ws.headD 0)))
    (hreply : (s.mbox m).keptReply = k :: w :: r) (hroom : outReady s m (2 + r.length) = true) : serve s m core mine act =
      fwWrite (takeMessage s m ws.length) m core (hdrSender (ws.headD 0)) (k :: (w ||| 0x100#32) :: r) := by
  rw [serve_reads hwords hmine hboot, if_pos hkept, hreply]
  exact if_pos (by rw [Nat.add_comm] at hroom; exact hroom)

end


end Sys2Proof.Claims
end

section
/-! SUPPORT. O43: the messages that firmware answers, refuses or repeats (R350, R351). -/

namespace Sys2Proof.Claims

open Sys2Proof Sys2Proof.Machine

/-! ## The checks common to all messages (R351) -/

section
variable {senders : List Nat} {len : Nat} {formed : List Word → Bool} (act : Act) (s : State) {ws : List Word}

theorem checkedAct_sender (h : hdrSender (ws.headD 0) ∉ senders) : checkedAct senders len formed act s ws = some (s, { status := 4 }) :=
  if_pos (by simpa using h)

theorem checkedAct_len (hsender : hdrSender (ws.headD 0) ∈ senders) (h : hdrLen (ws.headD 0) ≠ len) :
    checkedAct senders len formed act s ws = some (s, { status := 2 }) :=
  (if_neg (by simpa using hsender)).trans (if_pos (Bool.or_eq_true_iff.mpr (.inl (decide_eq_true h))))

theorem checkedAct_malformed (hsender : hdrSender (ws.headD 0) ∈ senders) (h : formed ws = false) :
    checkedAct senders len formed act s ws = some (s, { status := 2 }) :=
  (if_neg (by simpa using hsender)).trans (if_pos (by simp [h]))

theorem checkedAct_acts (hsender : hdrSender (ws.headD 0) ∈ senders) (hlen : hdrLen (ws.headD 0) = len) (h : formed ws = true) :
    checkedAct senders len formed act s ws = act s ws :=
  (if_neg (by simpa using hsender)).trans (if_neg fun hc => (Bool.or_eq_true_iff.mp hc).elim
    (fun hne => absurd hlen (of_decide_eq_true hne)) (fun hf => by simp [h] at hf))

end

section
variable {s : State} {m : Fin 8} {core : Fin 4} {ws : List Word}

theorem plcsw_serves (hwords : headMessage s m = some (ws.map held)) (hnew : plcswNew s m (ws.map held) = false) : plcsw s m core =
    serve s m core (fun ws => msgType ws == 0x22)
      (checkedAct (8 :: linkSenders) 1 (fun ws => bits (msgWord ws 1) 8 8 == 0) (plcswAct m core)) := by
  unfold plcsw
  dsimp only
  rw [hwords, Option.bind_some, if_neg (by simp [hnew])]

theorem held_words (ws : List Word) : (ws.map held).map (fun w => w.w) = ws := by simp [held, Function.comp_def]

theorem plcswNew_false (h : hdrSender (ws.headD 0) ∉ 8 :: linkSenders ∨ hdrLen (ws.headD 0) ≠ 1 ∨
    (s.mbox m).keptMseq = some (hdrSeq (ws.headD 0))) : plcswNew s m (ws.map held) = false := by
  unfold plcswNew
  dsimp only
  rw [held_words]
  rcases h with h | h | h
  · have hsender : (8 :: linkSenders).contains (hdrSender (ws.headD 0)) = false := by simpa using h
    simp only [hsender, Bool.and_false, Bool.false_and]
  · have hlen : (hdrLen (ws.headD 0) == 1) = false := by simpa using h
    simp only [hlen, Bool.and_false, Bool.false_and]
  · simp only [h, bne_self_eq_false, Bool.and_false]

/-- A message's command serves it, after the checks common to all; a PLCSW that begins or ends a switch aside. -/
def AsServed (s : State) (m : Fin 8) (core : Fin 4) (ws : List Word) (x : Instr × Bool × List Nat × Nat) : Prop :=
  ∃ mine act formed inner, mine ws = true ∧ act s ws = checkedAct x.2.2.1 x.2.2.2 formed inner s ws ∧
    (headMessage s m = some (ws.map held) → (hdrSender (ws.headD 0) ∉ x.2.2.1 ∨ hdrLen (ws.headD 0) ≠ x.2.2.2 ∨
      (s.mbox m).keptMseq = some (hdrSeq (ws.headD 0))) → exec x.1 s = .next (serve s m core mine act))

theorem messages_served (s : State) {x : Instr × Bool × List Nat × Nat} (hx : x ∈ messages m core ws) (hmine : x.2.1 = true) :
    AsServed s m core ws x := by
  simp only [messages, List.mem_cons, List.not_mem_nil, or_false] at hx
  rcases hx with rfl | rfl | rfl | rfl | rfl | rfl | rfl | rfl | rfl | rfl
  case inl =>
    have htype : hdrType (ws.headD 0) = 1 := beq_iff_eq.mp hmine
    exact ⟨_, _, _, _, Bool.or_eq_true_iff.mpr (.inl hmine), if_neg (not_not_intro htype), fun _ _ => rfl⟩
  case inr.inr.inr.inr.inr.inl => exact ⟨_, _, _, _, hmine, rfl, fun hwords h => congrArg Host.Outcome.next (plcsw_serves hwords (plcswNew_false h))⟩
  all_goals exact ⟨_, _, _, _, hmine, rfl, fun _ _ => rfl⟩

/-- A new message that stands whole at the head is answered, and nothing but its mailbox changes. -/
theorem served_replied {c : Instr} {mine : List Word → Bool} {act : Act} {r : Reply} (hexec : exec c s = .next (serve s m core mine act))
    (hmine : mine ws = true) (hact : act s ws = some (s, r)) (h : Served s m ws (replyWords (ws.headD 0) r).length) :
    ∃ s', exec c s = .next s' ∧ replied s s' m core ws r ∧ onlyMbox s s' m := by
  obtain ⟨hboot, hwords, -, hfresh, hroom, hdest, hseen⟩ := h
  have hanswers := serve_answers (core := core) hwords hmine hboot hfresh hact hroom
  exact ⟨_, hexec.trans (congrArg Host.Outcome.next hanswers), answerWith_replied core ⟨hroom, hdest, hseen⟩⟩

/-- No two of the commands that serve messages are one. -/
theorem messages_inj {x y : Instr × Bool × List Nat × Nat} (hx : x ∈ messages m core ws) (hy : y ∈ messages m core ws) (h : x.1 = y.1) :
    x = y := by
  have hnodup : ((messages m core ws).map Prod.fst).Nodup := by simp [messages]
  exact List.inj_on_of_nodup_map hnodup hx hy h

/-- A message that its sender or its LEN makes malformed, or that says something malformed. -/
theorem served_checked {x : Instr × Bool × List Nat × Nat} {r : Reply} (hx : x ∈ messages m core ws) (hmine : x.2.1 = true)
    (hbad : (hdrSender (ws.headD 0) ∉ x.2.2.1 ∧ r = { status := 4 }) ∨
      (hdrSender (ws.headD 0) ∈ x.2.2.1 ∧ hdrLen (ws.headD 0) ≠ x.2.2.2 ∧ r = { status := 2 }))
    (h : Served s m ws (replyWords (ws.headD 0) r).length) : ∃ s', exec x.1 s = .next s' ∧ replied s s' m core ws r ∧ onlyMbox s s' m := by
  obtain ⟨mine, act, formed, inner, hm, hact, hexec⟩ := messages_served s hx hmine
  rcases hbad with ⟨hsender, rfl⟩ | ⟨hsender, hlen, rfl⟩
  · exact served_replied (hexec h.words (.inl hsender)) hm (hact.trans (checkedAct_sender inner s hsender)) h
  · exact served_replied (hexec h.words (.inr (.inl hlen))) hm (hact.trans (checkedAct_len inner s hsender hlen)) h

end

/-- A message that no command serves is of a TYPE that Table IRQ-3 does not define: PING's command answers it. -/
theorem messages_none {m : Fin 8} {core : Fin 4} {ws : List Word} (hnone : ∀ x ∈ messages m core ws, x.2.1 = false) :
    msgType ws ≠ 1 ∧ (msgType ws == 1 || !definedTypes.contains (msgType ws)) = true := by
  simp only [messages, List.forall_mem_cons] at hnone
  obtain ⟨hping, hversion, hlog, hdump, hhint, hswitch, hbeat, htake, hchal, hresp, -⟩ := hnone
  have hsub : ∀ n k : Nat, (hdrType (ws.headD 0) == n && bits (msgWord ws 1) 24 8 != k) = false →
      (hdrType (ws.headD 0) == n && bits (msgWord ws 1) 24 8 == k) = false → hdrType (ws.headD 0) ≠ n := by
    intro n k hne heq h
    rw [h, beq_self_eq_true, Bool.true_and] at hne heq
    rw [bne, heq] at hne
    cases hne
  have hnew : definedTypes.contains (msgType ws) = false := by
    rw [List.contains_eq_mem, decide_eq_false_iff_not]
    simp only [definedTypes, msgType, List.mem_cons, List.not_mem_nil, or_false, not_or]
    exact ⟨beq_eq_false_iff_ne.mp hping, beq_eq_false_iff_ne.mp hversion, beq_eq_false_iff_ne.mp hlog, beq_eq_false_iff_ne.mp hdump,
      beq_eq_false_iff_ne.mp hhint, beq_eq_false_iff_ne.mp hswitch, hsub _ _ hbeat htake, hsub _ _ hchal hresp⟩
  exact ⟨beq_eq_false_iff_ne.mp hping, by rw [hnew, Bool.not_false, Bool.or_true]⟩

/-- Settles O43: refusals by `served_checked`, answers by `served_replied`, repeats by `serve_repeats`. -/
theorem firmwareAnswers : Obligations.FirmwareAnswers := by
  intro s m core ws h answers
  refine ⟨fun x hx hmine => ⟨fun hsender hserved => ?_, fun hsender hlen hserved => ?_⟩, fun hnone hserved => ?_,
    fun x hx hmine hsender hlen => ?_, fun x hx hmine hboot hwords hwhole hkept k w r hreply hk hroom hdest hseen => ?_⟩
  · exact served_checked hx hmine (.inl ⟨hsender, rfl⟩) hserved
  · exact served_checked hx hmine (.inr ⟨hsender, hlen, rfl⟩) hserved
  · have hwords := hserved.words
    obtain ⟨hne1, hmine⟩ := messages_none hnone
    exact served_replied (c := .ping m core) rfl hmine (if_pos hne1) hserved
  · have hat : ∀ i, (hi : i < 10) → x.1 = ((messages m core ws)[i]'hi).1 → x = (messages m core ws)[i]'hi :=
      fun i hi hc => messages_inj hx (List.getElem_mem hi) hc
    refine ⟨fun hc hserved => ?_, fun hc hserved => ?_, fun hc hserved => ?_, fun hc hserved => ?_,
      fun hc => ⟨fun hw hserved => ?_, fun hw hserved => ?_⟩, fun hc => ⟨fun hw hserved => ?_, fun hw hserved => ?_⟩⟩
    · obtain rfl := hat 0 (by decide) hc
      exact served_replied (c := .ping m core) rfl (Bool.or_eq_true_iff.mpr (.inl hmine))
        ((if_neg (not_not_intro (beq_iff_eq.mp hmine))).trans (checkedAct_acts _ s hsender hlen rfl)) hserved
    · obtain rfl := hat 1 (by decide) hc
      exact served_replied (c := .version m core) rfl hmine (checkedAct_acts _ s hsender hlen rfl) hserved
    · obtain rfl := hat 2 (by decide) hc
      exact served_replied (c := .faultlog m core) rfl hmine (checkedAct_acts _ s hsender hlen rfl) hserved
    · obtain rfl := hat 3 (by decide) hc
      exact served_replied (c := .dump m core) rfl hmine (checkedAct_acts _ s hsender hlen rfl) hserved
    · obtain rfl := hat 6 (by decide) hc
      exact served_replied (c := .heartbeat m core) rfl hmine (checkedAct_acts _ s hsender hlen (beq_iff_eq.mpr hw)) hserved
    · obtain rfl := hat 6 (by decide) hc
      exact served_replied (c := .heartbeat m core) rfl hmine (checkedAct_malformed _ s hsender (beq_eq_false_iff_ne.mpr hw)) hserved
    · obtain rfl := hat 7 (by decide) hc
      exact served_replied (c := .takeover m core) rfl hmine (checkedAct_acts _ s hsender hlen (beq_iff_eq.mpr hw)) hserved
    · obtain rfl := hat 7 (by decide) hc
      exact served_replied (c := .takeover m core) rfl hmine (checkedAct_malformed _ s hsender (beq_eq_false_iff_ne.mpr hw)) hserved
  · obtain ⟨mine, act, formed, inner, hm, hact, hexec⟩ := messages_served s hx hmine
    have hready : Ready s m (((w ||| 0x100#32) :: r).length + 1) (hdrSender (ws.headD 0)) :=
      ⟨by rw [List.length_cons, Nat.add_assoc, Nat.add_comm]; exact hroom, hdest, hseen⟩
    obtain ⟨honly, hin, hout, hkr⟩ := takeMessage_fwWrite (core := core) ws.length hready (k := k) (by rw [hk, List.length_cons, Nat.add_comm])
      (hdrSender_lt _)
    exact ⟨_, (hexec hwords (.inr (.inr hkept))).trans (congrArg Host.Outcome.next (serve_repeats hwords hm hboot hkept hreply hroom)),
      hin, hout, hkr, honly.2, honly.1⟩

end Sys2Proof.Claims
end

section
/-! SUPPORT. The statement about what firmware does on a message, which fails in its placement switch as the release sequence does: an image that
the state carries may hold a block of more instructions than a context has room for. -/

namespace Sys2Proof.Claims

open Sys2Proof Sys2Proof.Machine

/-- A PLCSW for placement 0, whose one block is overlong, from link port 0: header (TYPE 0x22, LEN 1, SENDER 9), and MISSING and the number. -/
def overlongSwitch : List Word := [0x91220000, 0xFFFF0000]

/-- Mailbox 0 holds that message; it permits port 0, over which the answer goes. -/
def overlongMbox : Mbox := { inq := { words := overlongSwitch.map held }, peer := 0x0200 }

/-- A closed fabric with the image loaded whose placement 0 has the overlong block, and placement 1 in force. -/
def messagesOverlong : State :=
  { (State.reset.setMbox 0 overlongMbox).setPort 0 { state := .up, en := true } with
    cfg := { image := some overlongImage, state := 3, pos := 1, plc := 1 }
    sec := { State.reset.sec with bootState := 3 } }

theorem served_overlong : Served messagesOverlong 0 overlongSwitch 2 := by
  constructor <;> decide +kernel

/-- The first word of context 1 in tile 0, and whether the tile's fabric block is on, in the machine after PLCSW. -/
def afterPlcsw (s : State) : BitVec 64 × Bool :=
  match exec (.plcsw 0 0) s with
  | .next s' => (mget 0 (s'.tile 0).words 384, s'.domain 14)
  | _ => (0, false)

theorem afterPlcsw_overlong : afterPlcsw messagesOverlong = (1, true) := by decide +kernel

/-- Refutes O44: context 1 of tile 0, in which the placement has no block, does not read 0 at its first instruction. -/
theorem not_firmwareActs : ¬ Obligations.FirmwareActs := by
  intro h
  obtain ⟨-, hplcsw, -⟩ := h messagesOverlong 0 0 overlongSwitch
  obtain ⟨hbegins, -⟩ := hplcsw (by decide) (by decide) (by decide) (by decide)
  obtain ⟨-, hswitch⟩ := hbegins (by decide) (by decide) served_overlong
  obtain ⟨s', hexec, -, -, -, -, -, hwritten, -⟩ := hswitch overlongImage rfl (by decide) (by decide) (by decide) (by decide +kernel) (by decide)
    (by decide +kernel)
  obtain ⟨-, -, -, -, -, -, -, -, -, -, -, htiles, -⟩ := hwritten (.inl (by decide))
  have hafter := afterPlcsw_overlong
  rw [afterPlcsw, hexec] at hafter
  have hword := ((htiles 0 (congrArg Prod.snd hafter)).1 1 (by decide) (by decide)).1 0 (by decide)
  exact absurd ((congrArg Prod.fst hafter).symm.trans hword) (by decide)

end Sys2Proof.Claims
end

section
/-! SUPPORT. O46: the frames that a port sends, keeps and replays (R360 to R362, R369, R370, R372). -/

namespace Sys2Proof.Claims

open Sys2Proof Sys2Proof.Machine

/-! ## The tokens of a frame (R361) -/

theorem frameToks_cons (n : Nat) (t : Token) (st : BitVec 32) (r : List (Token × BitVec 32)) : frameToks (n + 1) ((t, st) :: r) =
    if t.mark != .none then [(t, st)]
    else (t, st) :: (if r.head?.any (fun y => y.2 == st) then frameToks n r else []) := by
  cases r with
  | nil => cases n <;> simp [frameToks]
  | cons y r =>
    obtain ⟨u, st'⟩ := y
    rw [frameToks]
    by_cases hst : st' = st
    · simp [hst]
    · simp only [hst, if_false]
      cases n <;> simp [hst, frameToks]

/-- What a frame of at most n tokens takes of a VC whose oldest token is t of step st. -/
def FrameTaken (n : Nat) (t : Token) (st : BitVec 32) (r : List (Token × BitVec 32)) : Prop :=
  let ts := frameToks n ((t, st) :: r)
  ∃ rest, (t, st) :: r = ts ++ rest ∧ (∃ ts', ts = (t, st) :: ts') ∧ ts.length ≤ n ∧ (∀ y ∈ ts, y.2 = st) ∧
    (∀ y ∈ ts.dropLast, y.1.mark = .none) ∧
    (rest = [] ∨ ts.length = n ∨ (∃ y, ts.getLast? = some y ∧ y.1.mark ≠ .none) ∨ ∃ y, rest.head? = some y ∧ y.2 ≠ st)

/-- A token that is marked, the last that waits, the last that fits, or the last of its step ends its frame. -/
theorem frameTaken_single (n : Nat) (t : Token) (st : BitVec 32) (r : List (Token × BitVec 32))
    (h : t.mark ≠ .none ∨ r = [] ∨ n = 0 ∨ ∃ y, r.head? = some y ∧ y.2 ≠ st) : FrameTaken (n + 1) t st r := by
  have hone : frameToks (n + 1) ((t, st) :: r) = [(t, st)] := by
    rw [frameToks_cons]
    rcases h with h | rfl | rfl | ⟨y, hy, hst⟩
    · rw [if_pos (by simp [h])]
    · simp
    · cases r <;> simp [frameToks]
    · simp [hy, hst]
  refine ⟨r, ?_⟩
  rw [hone]
  refine ⟨rfl, ⟨[], rfl⟩, by simp, by simp, by simp, ?_⟩
  rcases h with h | h | h | h
  · exact .inr (.inr (.inl ⟨_, rfl, h⟩))
  · exact .inl h
  · exact .inr (.inl (by simp [h]))
  · exact .inr (.inr (.inr h))

/-- The tokens of a frame are the oldest ones, of the first one's step, as many as one frame carries up to a marker. -/
theorem frameToks_taken (n : Nat) (t : Token) (st : BitVec 32) (r : List (Token × BitVec 32)) : FrameTaken (n + 1) t st r := by
  induction n generalizing t r with
  | zero => exact frameTaken_single 0 t st r (.inr (.inr (.inl rfl)))
  | succ n ih =>
    by_cases hend : t.mark ≠ .none ∨ r = [] ∨ ∃ y, r.head? = some y ∧ y.2 ≠ st
    · exact frameTaken_single (n + 1) t st r (hend.imp id fun h => h.imp id .inr)
    · obtain ⟨hmark, hne, hst⟩ : t.mark = .none ∧ r ≠ [] ∧ ∀ y, r.head? = some y → y.2 = st := by
        simpa [not_or] using hend
      obtain ⟨y, r', rfl⟩ := List.exists_cons_of_ne_nil hne
      obtain ⟨u, st'⟩ := y
      obtain rfl : st' = st := hst _ rfl
      obtain ⟨rest, hsplit, ⟨ts', hhead⟩, hlen, hstep, hdrop, hend'⟩ := ih u r'
      have hts : frameToks (n + 1 + 1) ((t, st') :: (u, st') :: r') = (t, st') :: frameToks (n + 1) ((u, st') :: r') := by
        rw [frameToks_cons, if_neg (by simp [hmark])]
        simp
      refine ⟨rest, ?_⟩
      rw [hts]
      generalize frameToks (n + 1) ((u, st') :: r') = ts at *
      subst hhead
      refine ⟨congrArg _ hsplit, ⟨_, rfl⟩, Nat.succ_le_succ hlen, ?_, ?_, ?_⟩
      · exact fun y hy => (List.mem_cons.mp hy).elim (fun h => by rw [h]) (hstep y)
      · rw [List.dropLast_cons_of_ne_nil (List.cons_ne_nil _ _)]
        exact fun y hy => (List.mem_cons.mp hy).elim (fun h => by rw [h]; exact hmark) (hdrop y)
      · rw [List.getLast?_cons_cons]
        exact hend'.imp id fun h => h.imp (congrArg Nat.succ) id

/-! ## What a port sends -/

theorem sendPlain_sent (x : LinkPort) (b : FrameBody) : ∃ f : SentFrame, (sendPlain x b).sent = f :: x.sent ∧ f.body = b := ⟨_, rfl, rfl⟩

theorem sendNow_sent (now : Nat) (x : LinkPort) (b : FrameBody) : ∃ f : SentFrame, (sendNow now x b).sent = f :: x.sent ∧
    (sendNow now x b).replay = x.replay ++ [f] ∧ f.seq = x.txseq ∧ f.ack = x.rxe - 1 ∧ f.body = b := ⟨_, rfl, rfl, rfl, rfl, rfl⟩

theorem event_lk_low {c : Nat} (h : evSev c < 2) (s : State) (a : EvArgs) : (event s c a).lk = s.lk := by rw [event_low s c a h]

/-- The outstanding frames go out again, and the replay is counted. -/
theorem replay_replays {s : State} {p : Nat} (hne : (s.port p).replay ≠ []) : let x := s.port p
    let s' := replay s p
    (s'.port p).sent = x.replay.reverse ++ x.sent ∧ (s'.port p).replay = x.replay ∧ (s'.port p).replays = x.replays + 1 ∧
      (s'.port p).replayCnt = satInc x.replayCnt ∧ s'.tiles = s.tiles := by
  intro x
  have hgo : ¬ (s.port p).replay.isEmpty = true := by simpa using hne
  unfold replay
  dsimp only
  rw [if_neg hgo]
  split
  · rw [State.setPort_port_self]
    exact ⟨rfl, rfl, rfl, rfl, rfl⟩
  · rw [port_of_lk (event_lk_low (by decide) _ _), State.setPort_port_self, event_tiles]
    exact ⟨rfl, rfl, rfl, rfl, rfl⟩

/-! ## A frame heard (R362) -/

section
variable {s : State} {p : Nat} {h : FrameHdr} (hheard : Heard (s.port p) h)
include hheard

/-- The port after an unsequenced frame's header. -/
theorem rxPlain_heard : rxPlain s p h =
    ((s.setPort p (takeAck s.devTime { s.port p with rxT := s.devTime } h.ack)).setPort p
      (takeCredit (takeAck s.devTime { s.port p with rxT := s.devTime } h.ack) h), true) := by
  obtain ⟨hlisten, hcrc, hack⟩ := hheard
  have hheader : rxHeader s p h = (s.setPort p (takeAck s.devTime { s.port p with rxT := s.devTime } h.ack), true) := by
    rw [rxHeader]
    dsimp only
    rw [if_neg (by simp [hlisten]), if_neg (by simp [hcrc]), if_neg (by simp [hack])]
  rw [rxPlain, hheader]
  dsimp only
  rw [if_pos rfl, State.setPort_port_self]

end

theorem takeAck_down {x : LinkPort} (h : x.state ≠ .up) (now : Nat) (a : BitVec 16) :
    (takeAck now x a).sent = x.sent ∧ (takeAck now x a).state = x.state := by
  unfold takeAck
  dsimp only
  split
  · have hdown : ¬ LinkPort.isUp { x with replay := x.replay.drop (a - x.ack).toNat, ack := a, ackT := now, replays := 0 } = true := by
      simpa [LinkPort.isUp] using h
    rw [if_neg hdown]
    exact ⟨rfl, rfl⟩
  · exact ⟨rfl, rfl⟩

/-- With no frame waiting, an ACK takes the frames that it covers off the replay buffer. -/
theorem takeAck_up {x : LinkPort} (hup : x.state = .up) (htxq : x.txq = []) (now : Nat) {a : BitVec 16}
    (hlen : (a - x.ack).toNat < x.replay.length) :
    (takeAck now x a).sent = x.sent ∧ (takeAck now x a).state = .up ∧ (takeAck now x a).replay = x.replay.drop (a - x.ack).toNat := by
  unfold takeAck
  dsimp only
  split
  · have hisup : LinkPort.isUp { x with replay := x.replay.drop (a - x.ack).toNat, ack := a, ackT := now, replays := 0 } = true := by
      simpa [LinkPort.isUp] using hup
    rw [if_pos hisup, htxq]
    exact ⟨rfl, hup, rfl⟩
  · have hzero : (a - x.ack).toNat = 0 := by omega
    rw [hzero]
    exact ⟨rfl, hup, rfl⟩


theorem setPort_lk (s : State) (p : Nat) (x : LinkPort) : s.setPort p x = { s with lk := (s.setPort p x).lk } := rfl

/-- A frame of the oldest tokens goes out at once. -/
theorem tokenFrameSend_sends {s : State} {p vc : Nat} {u : Token} {st : BitVec 32} {r ts' : List (Token × BitVec 32)}
    (hup : (s.port p).state = .up) (hreplay : (s.port p).replay.length < 64) (htxq : (s.port p).txq = [])
    (hout : mget [] (s.port p).vcout vc = (u, st) :: r) (hhead : frameToks 12 ((u, st) :: r) = (u, st) :: ts') :
    tokenFrameSend s p vc = s.setPort p (sendNow s.devTime
      { s.port p with vcout := mset [] (s.port p).vcout vc ((mget [] (s.port p).vcout vc).drop (frameToks 12 ((u, st) :: r)).length) }
      (.token vc st ((frameToks 12 ((u, st) :: r)).map fun t => t.1))) := by
  rw [tokenFrameSend]
  dsimp only
  rw [hout, hhead]
  exact (if_pos (by simpa [LinkPort.isUp] using hup)).trans (congrArg (s.setPort p) (if_pos (by simp [hreplay, htxq])))

/-- Settles O46: a TOKEN frame by `frameToks_taken`, a NAK by the port that `rxPlain_heard` gives and `replay_replays`. -/
theorem linkSends : Obligations.LinkSends := by
  intro s p v h x
  refine ⟨fun u st r hup hreplay htxq hout => ?_, fun hstate hdue => ?_, fun hrecv hdue => ?_, fun hup hlate hne => ?_,
    fun hheard hdown => ?_, fun hheard hup htxq hlen => ?_⟩
  · obtain ⟨rest, hsplit, ⟨ts', hhead⟩, hlen, hstep, hdrop, hend⟩ := frameToks_taken 11 u st r
    have hsend := tokenFrameSend_sends hup hreplay htxq hout hhead
    refine ⟨_, _, rest, congrArg Host.Outcome.next hsend, setPort_lk _ _ _, hsplit, by rw [hhead]; exact List.cons_ne_nil _ _, hlen,
      hstep, hdrop, hend, ?_, ?_, ?_⟩
    all_goals rw [State.setPort_port_self]
    · refine (mget_mset_self _ _ _ _).trans ?_
      rw [hout]
      exact (congrArg (List.drop _) hsplit).trans List.drop_left
    · rfl
    · obtain ⟨f, hsent, hrep, hseq, hack, hbody⟩ := sendNow_sent s.devTime
        { x with vcout := mset [] x.vcout v ((mget [] x.vcout v).drop (frameToks 12 ((u, st) :: r)).length) }
        (.token v st ((frameToks 12 ((u, st) :: r)).map fun t => t.1))
      exact ⟨f, hsent, hrep, hseq, hack, hbody⟩
  · have hsend : helloSend s p = sendHello s p := if_pos (by
      rw [Bool.and_eq_true]
      exact ⟨by rcases hstate with h | h <;> simp [x] at h <;> simp [h], decide_eq_true hdue⟩)
    refine ⟨_, congrArg Host.Outcome.next hsend, ?_, ?_, ?_, rfl⟩
    all_goals unfold sendHello
    · unfold sentFrame
      dsimp only
      rw [State.setPort_port_self]
      exact sendPlain_sent _ _
    · dsimp only
      rw [State.setPort_port_self]
      rfl
    · dsimp only
      rw [State.setPort_port_self]
      exact List.mem_append_right _ (List.mem_singleton_self _)
  · have hgo : (x.receives && (x.syncDue || (s.idle && decide (x.syncT + 1000 ≤ s.devTime)))) = true := by
      rw [hrecv, Bool.true_and, Bool.or_eq_true_iff, Bool.and_eq_true]
      exact hdue.imp id fun h => ⟨h.1, decide_eq_true h.2⟩
    have hsend : syncSend s p = s.setPort p (sendPlain { x with syncDue := false, syncT := s.devTime }
      (.sync s.pace.step (BitVec.ofNat 64 s.time64))) := if_pos hgo
    refine ⟨_, congrArg Host.Outcome.next hsend, ?_, ?_, ?_⟩
    · unfold sentFrame
      rw [State.setPort_port_self]
      exact sendPlain_sent _ _
    · rw [State.setPort_port_self]
      rfl
    · rw [State.setPort_port_self]
      rfl
  · have hgo : replayTimeout s p = replay s p := if_pos (by
      rw [Bool.and_eq_true]
      exact ⟨by simpa [LinkPort.isUp] using hup, decide_eq_true hlate⟩)
    obtain ⟨hsent, hrep, hreps, hcnt, -⟩ := replay_replays hne
    exact ⟨_, congrArg Host.Outcome.next hgo, hsent, hrep, hreps, hcnt⟩
  · obtain ⟨hsent, hstate⟩ := takeAck_down (x := { x with rxT := s.devTime }) hdown s.devTime h.ack
    have hnak : nakFrame s p h = (rxPlain s p h).1 := by
      rw [nakFrame, rxPlain_heard hheard]
      dsimp only
      rw [State.setPort_port_self, if_neg]
      simp only [Bool.true_and, LinkPort.isUp, beq_iff_eq]
      exact fun h => hdown (hstate.symm.trans h)
    refine ⟨_, congrArg Host.Outcome.next hnak, ?_, ?_⟩
    · rw [rxPlain_heard hheard]
      dsimp only
      rw [State.setPort_port_self]
      exact hsent
    · rw [rxPlain_heard hheard]
      rfl
  · obtain ⟨hsent, hstate, hrep⟩ := takeAck_up (x := { x with rxT := s.devTime }) hup htxq s.devTime hlen
    have hnak : nakFrame s p h = replay (rxPlain s p h).1 p := by
      rw [nakFrame, rxPlain_heard hheard]
      dsimp only
      rw [State.setPort_port_self, if_pos]
      simp only [Bool.true_and, LinkPort.isUp, beq_iff_eq]
      exact hstate
    have hport : (rxPlain s p h).1.port p = takeCredit (takeAck s.devTime { s.port p with rxT := s.devTime } h.ack) h := by
      rw [rxPlain_heard hheard]
      exact State.setPort_port_self _ _ _
    have hne : ((rxPlain s p h).1.port p).replay ≠ [] := by
      rw [hport, show (takeCredit _ h).replay = _ from hrep]
      exact fun hnil => absurd (List.drop_eq_nil_iff.mp hnil) (Nat.not_le.mpr hlen)
    obtain ⟨hsent', hrep', -, -, htiles⟩ := replay_replays hne
    rw [hport] at hsent' hrep'
    refine ⟨_, congrArg Host.Outcome.next hnak, hrep'.trans hrep, ?_, ?_⟩
    · rw [hsent', show (takeCredit _ h).replay = _ from hrep, show (takeCredit _ h).sent = _ from hsent]
    · rw [htiles, rxPlain_heard hheard]
      rfl

end Sys2Proof.Claims
end

section
/-! SUPPORT. What a frame heard changes: its port alone, by its acknowledgement, its credit and its number (R360, R362, R364, R370). -/

namespace Sys2Proof.Claims

open Sys2Proof Sys2Proof.Machine

/-- Nothing but port p of the links changed. -/
structure OnlyPort (p : Nat) (s s' : State) : Prop where
  frame : s' = { s with lk := { s.lk with ports := s'.lk.ports } }
  others : ∀ q, q ≠ p → s'.port q = s.port q

theorem OnlyPort.refl (p : Nat) (s : State) : OnlyPort p s s := ⟨rfl, fun _ _ => rfl⟩

theorem OnlyPort.trans {p : Nat} {s t u : State} (h : OnlyPort p s t) (k : OnlyPort p t u) : OnlyPort p s u := by
  refine ⟨?_, fun q hq => (k.others q hq).trans (h.others q hq)⟩
  rw [k.frame, h.frame]

theorem onlyPort_setPort (s : State) (p : Nat) (x : LinkPort) : OnlyPort p s (s.setPort p x) :=
  ⟨rfl, fun q hq => (State.setPort_port s p q x).trans (if_neg hq)⟩

theorem OnlyPort.lk {p : Nat} {s s' : State} (h : OnlyPort p s s') : s' = { s with lk := s'.lk } := by
  rw [h.frame]

/-! ## The acknowledgement (R362) -/

/-- What an acknowledgement, and the frames that it lets out, leave of a port. -/
def AckKeeps (x y : LinkPort) : Prop :=
  y = { x with txseq := y.txseq, txCount := y.txCount, credRet := y.credRet, replay := y.replay, txq := y.txq, ack := y.ack, ackT := y.ackT
               replays := y.replays, sent := y.sent }

theorem AckKeeps.trans {x y z : LinkPort} (h : AckKeeps x y) (k : AckKeeps y z) : AckKeeps x z := by
  unfold AckKeeps at *
  rw [k, h]

theorem ackKeeps_drainTxq (now : Nat) (bs : List FrameBody) (x : LinkPort) : AckKeeps x (drainTxq now bs x) := by
  induction bs generalizing x with
  | nil => rfl
  | cons b r ih =>
    unfold drainTxq
    split
    · exact AckKeeps.trans (y := sendNow now x b) rfl (ih _)
    · rfl

theorem ackKeeps_takeAck (now : Nat) (x : LinkPort) (a : BitVec 16) : AckKeeps x (takeAck now x a) := by
  unfold takeAck
  dsimp only
  split
  · split
    · exact AckKeeps.trans (y := { x with replay := x.replay.drop (a - x.ack).toNat, ack := a, ackT := now, replays := 0, txq := [] }) rfl
        (ackKeeps_drainTxq _ _ _)
    · rfl
  · rfl

/-- With no frame waiting, an acknowledgement lets none out. -/
theorem takeAck_settled {x : LinkPort} (htxq : x.txq = []) (now : Nat) {a : BitVec 16} (hlen : (a - x.ack).toNat ≤ x.replay.length) :
    (takeAck now x a).sent = x.sent ∧ (takeAck now x a).replay = x.replay.drop (a - x.ack).toNat := by
  unfold takeAck
  dsimp only
  split
  · rw [htxq]
    split <;> exact ⟨rfl, rfl⟩
  · have hzero : (a - x.ack).toNat = 0 := by omega
    rw [hzero]
    exact ⟨rfl, rfl⟩

theorem takeAck_sent {x : LinkPort} (htxq : x.txq = []) (now : Nat) (a : BitVec 16) : (takeAck now x a).sent = x.sent := by
  unfold takeAck
  dsimp only
  split
  · rw [htxq]
    split <;> rfl
  · rfl

/-! ## A frame heard -/

/-- A port with the acknowledgement of a frame heard now. -/
def heardPort (now : Nat) (x : LinkPort) (a : BitVec 16) : LinkPort := takeAck now { x with rxT := now } a

theorem ackKeeps_heardPort (now : Nat) (x : LinkPort) (a : BitVec 16) : AckKeeps { x with rxT := now } (heardPort now x a) :=
  ackKeeps_takeAck now _ a

section
variable {s : State} {p : Nat} {h : FrameHdr}

theorem rxHeader_heard (hheard : Heard (s.port p) h) : rxHeader s p h = (s.setPort p (heardPort s.devTime (s.port p) h.ack), true) := by
  obtain ⟨hlisten, hcrc, hack⟩ := hheard
  rw [rxHeader, if_neg (by simp [hlisten]), if_neg (by simp [hcrc]), if_neg (by simp [hack])]
  rfl

/-- An unsequenced frame heard. -/
theorem rxPlain_takes (hheard : Heard (s.port p) h) : ∃ u, rxPlain s p h = (u, true) ∧ OnlyPort p s u ∧
    u.port p = takeCredit (heardPort s.devTime (s.port p) h.ack) h :=
  ⟨_, rxPlain_heard hheard, (onlyPort_setPort s p _).trans (onlyPort_setPort _ p _), State.setPort_port_self _ _ _⟩

/-- The next sequenced frame in order. -/
theorem rxSequenced_accepts (horder : InOrder (s.port p) h) : ∃ u, rxSequenced s p h = (u, true) ∧ OnlyPort p s u ∧
    u.port p = takeCredit { heardPort s.devTime (s.port p) h.ack with rxe := (s.port p).rxe + 1, nakSent := false } h := by
  obtain ⟨hheard, hup, hseq⟩ := horder
  have hkeeps := ackKeeps_heardPort s.devTime (s.port p) h.ack
  have hport : (s.setPort p (heardPort s.devTime (s.port p) h.ack)).port p = heardPort s.devTime (s.port p) h.ack := State.setPort_port_self _ _ _
  have hisup : (heardPort s.devTime (s.port p) h.ack).isUp = true := by
    rw [hkeeps]
    simpa [LinkPort.isUp] using hup
  have hrxe : (heardPort s.devTime (s.port p) h.ack).rxe = (s.port p).rxe := by rw [hkeeps]
  refine ⟨_, ?_, (onlyPort_setPort s p (heardPort s.devTime (s.port p) h.ack)).trans (onlyPort_setPort _ p
    (takeCredit { heardPort s.devTime (s.port p) h.ack with rxe := (s.port p).rxe + 1, nakSent := false } h)), State.setPort_port_self _ _ _⟩
  rw [rxSequenced, rxHeader_heard hheard]
  dsimp only
  rw [hport, hisup, if_pos (by rfl), rxSeq]
  rw [hport, hrxe, hseq, if_pos (by rw [BitVec.sub_self]; rfl)]

/-- The port after an accepted frame: what its acknowledgement leaves, its credit, its number. -/
theorem takeCredit_cred (x : LinkPort) (h : FrameHdr) : mget 0 (takeCredit x h).cred h.cretVc = mget 0 x.cred h.cretVc + h.cret.toNat :=
  mget_mset_self _ _ _ _

end

/-! ## Frames that fail (R362, R364) -/

theorem isUp_iff (x : LinkPort) : x.isUp = true ↔ x.state = .up := by simp [LinkPort.isUp]

/-- A port that is not in UP is left alone by frames sent on the ports in UP. -/
theorem sendOnUp_down {s : State} {p : Nat} (h : (s.port p).state ≠ .up) (ok : Nat → Bool) (b : FrameBody) :
    (sendOnUp s ok b).port p = s.port p := by
  unfold sendOnUp
  generalize List.range 4 = qs
  induction qs generalizing s with
  | nil => rfl
  | cons q r ih =>
    rw [List.foldl_cons]
    split
    · next hgo =>
      have hq : q ≠ p := by
        rintro rfl
        rw [Bool.and_eq_true, isUp_iff] at hgo
        exact h hgo.1
      have hport : (s.setPort q (sendSeq s.devTime (s.port q) b)).port p = s.port p := (State.setPort_port s q p _).trans (if_neg (Ne.symm hq))
      rw [ih (by rw [hport]; exact h), hport]
    · exact ih h

theorem abortWith_lk (s : State) (v c : Nat) (n : Snapshot) (ok : Nat → Bool) (f : FrameBody) :
    (abortWith s v c n ok f).lk = s.lk ∨ (abortWith s v c n ok f).lk = (sendOnUp (noteDump s v) ok f).lk := by
  unfold abortWith
  dsimp only
  split
  · exact .inl rfl
  · unfold announce
    split
    · exact .inl rfl
    · exact .inr rfl

theorem recordEvent_lk (s : State) (c : Nat) (a : EvArgs) : (recordEvent s c a).lk = s.lk := by rw [recordEvent_frame]

/-- An event leaves a port that is not in UP. -/
theorem event_down {s : State} {p : Nat} (h : (s.port p).state ≠ .up) (c : Nat) (a : EvArgs) : (event s c a).port p = s.port p := by
  unfold event
  dsimp only
  have hrec := port_of_lk (recordEvent_lk s c a) p
  split
  · exact hrec
  · rcases abortWith_lk (recordEvent s c a) (evSev c) c (takeSnapshot (recordEvent s c a)) (fun _ => true)
      (abortFrameOf (recordEvent s c a) c) with hlk | hlk
    · exact (port_of_lk hlk p).trans hrec
    · refine (port_of_lk hlk p).trans ((sendOnUp_down ?_ _ _).trans hrec)
      show ((recordEvent s c a).port p).state ≠ .up
      rw [hrec]
      exact h

end Sys2Proof.Claims
end

section
/-! SUPPORT. O47: what a port does with each frame that it hears (R360 to R374). -/

namespace Sys2Proof.Claims

open Sys2Proof Sys2Proof.Machine

/-! ## Frames that are not good (R362, R364) -/

section
variable {s u : State} {p : Fin 4} {h : FrameHdr}

/-- A frame whose header is refused does no more than that. -/
theorem exec_refusedFrame {c : Instr} (hc : frameOf p h c = true) (hwf : c.wf = true) (hheader : rxHeader s p h = (u, false)) :
    exec c s = .next u := by
  have hplain : rxPlain s p h = (u, false) := by
    rw [rxPlain, hheader]
    rfl
  have hseq : rxSequenced s p h = (u, false) := by
    rw [rxSequenced, hheader]
    rfl
  cases c with
  | tokenFrame q g v ts =>
    obtain ⟨rfl, rfl⟩ : q = p ∧ g = h := by simpa [frameOf] using hc
    show execTokenFrame q g v ts s = _
    rw [execTokenFrame, if_pos hwf, tokenFrame, hseq]
    rfl
  | nak q g =>
    obtain ⟨rfl, rfl⟩ : q = p ∧ g = h := by simpa [frameOf] using hc
    show execNak q g s = _
    rw [execNak, nakFrame, hplain]
    rfl
  | idleFrame q g =>
    obtain ⟨rfl, rfl⟩ : q = p ∧ g = h := by simpa [frameOf] using hc
    show execIdleFrame q g s = _
    rw [execIdleFrame, idleFrame, hplain]
  | hello q g r v =>
    obtain ⟨rfl, rfl⟩ : q = p ∧ g = h := by simpa [frameOf] using hc
    show execHello q g r v s = _
    rw [execHello, if_pos hwf, helloFrame, hplain]
    rfl
  | sync q g peer time =>
    obtain ⟨rfl, rfl⟩ : q = p ∧ g = h := by simpa [frameOf] using hc
    show execSync q g peer time s = _
    rw [execSync, syncFrame, hplain]
    rfl
  | msgFrame q g ws =>
    obtain ⟨rfl, rfl⟩ : q = p ∧ g = h := by simpa [frameOf] using hc
    show execMsgFrame q g ws s = _
    rw [execMsgFrame, if_pos hwf, msgFrame, hseq]
    rfl
  | abortFrame q g o k st =>
    obtain ⟨rfl, rfl⟩ : q = p ∧ g = h := by simpa [frameOf] using hc
    show execAbortFrame q g o k st s = _
    rw [execAbortFrame, abortFrame, hseq]
    rfl
  | _ => exact absurd hc Bool.false_ne_true

end

theorem event_staysAborted {s : State} (h : s.pace.state = .aborted) (c : Nat) (a : EvArgs) : (event s c a).pace.state = .aborted := by
  by_cases hsev : evSev c < 2
  · rw [event_low s c a hsev]
    exact h
  · exact event_aborts s c a (Nat.not_lt.mp hsev)

theorem leaveUp_leaves (s : State) (p : Nat) : leaveUp s p = { s with
    tw := (leaveUp s p).tw, ic := (leaveUp s p).ic, hq := (leaveUp s p).hq, flt := (leaveUp s p).flt } ∧
    (leaveUp s p).hq.cur = s.hq.cur := by
  unfold leaveUp
  dsimp only
  split
  · split
    · unfold twinCheckPort
      split
      · rw [event_low _ _ _ (by decide)]
        exact ⟨rfl, event_cur _ _ _⟩
      · exact ⟨rfl, rfl⟩
    · exact ⟨rfl, rfl⟩
  · exact ⟨rfl, rfl⟩

/-- The loss of the partner leaves an abort, the tiles, and a port that has failed. -/
theorem partnerLost_stays {s : State} {p : Nat} (hstate : s.pace.state = .aborted) (hport : (s.port p).state = .failed) :
    (partnerLost s).pace.state = .aborted ∧ (partnerLost s).tiles = s.tiles ∧ ((partnerLost s).port p).state = .failed := by
  let v : State := { s with tw := { s.tw with state := .solo, fence := true, own := [], partner := [], takePending := s.tw.shadow } }
  have hv : (v.port p).state = .failed := hport
  by_cases hshadow : s.tw.shadow = true
  · rw [show partnerLost s = v from if_pos hshadow]
    exact ⟨hstate, rfl, hport⟩
  · rw [show partnerLost s = event v 0x0A05 from if_neg hshadow, event_down (by rw [hv]; exact LinkState.noConfusion), event_tiles]
    exact ⟨event_staysAborted (s := v) hstate 0x0A05 {}, rfl, hport⟩

/-- A sequence disagreement fails the link and aborts (R363, R364). -/
theorem seqDisagrees_fails (s : State) (p : Nat) : ((seqDisagrees s p).port p).state = .failed ∧
    (seqDisagrees s p).pace.state = .aborted ∧ (seqDisagrees s p).tiles = s.tiles := by
  have hfailed : ((enterFailed s p).port p).state = .failed := congrArg LinkPort.state (State.setPort_port_self _ _ _)
  have htiles : (enterFailed s p).tiles = s.tiles := (congrArg (fun u : State => u.tiles) (leaveUp_leaves s p).1 :)
  have hstep : ∀ (u : State) (c : Nat) (a : EvArgs), (u.port p).state = .failed → ((event u c a).port p).state = .failed := by
    intro u c a hu
    rw [event_down (by rw [hu]; exact LinkState.noConfusion)]
    exact hu
  unfold seqDisagrees failLinkOn
  dsimp only
  rw [if_pos rfl]
  generalize hs2 : (if !(event (enterFailed s p) 0x0904 { srcid := p }).idle && imageUses (event (enterFailed s p) 0x0904 { srcid := p }) p
    then event (event (enterFailed s p) 0x0904 { srcid := p }) 0x0905 { srcid := p }
    else event (enterFailed s p) 0x0904 { srcid := p }) = s2
  have h2 : (s2.port p).state = .failed ∧ s2.tiles = s.tiles := by
    subst hs2
    split
    · exact ⟨hstep _ _ _ (hstep _ _ _ hfailed), by rw [event_tiles, event_tiles, htiles]⟩
    · exact ⟨hstep _ _ _ hfailed, by rw [event_tiles, htiles]⟩
  have h3 : ((event s2 0x0906 { srcid := p }).port p).state = .failed ∧ (event s2 0x0906 { srcid := p }).pace.state = .aborted ∧
      (event s2 0x0906 { srcid := p }).tiles = s.tiles :=
    ⟨hstep _ _ _ h2.1, event_aborts _ _ _ (by decide), by rw [event_tiles, h2.2]⟩
  generalize event s2 0x0906 { srcid := p } = s3 at h3
  split
  · obtain ⟨hstate, htiles, hport⟩ := partnerLost_stays h3.2.1 h3.1
    exact ⟨hport, hstate, htiles.trans h3.2.2⟩
  · exact h3

theorem badCrc_naks (s : State) (p : Nat) : let s' := badCrc s p
    s' = { s with lk := s'.lk } ∧ (s'.port p).crcerr = satInc (s.port p).crcerr ∧ (s'.port p).rxe = (s.port p).rxe ∧ sentFrame s s' p .nak := by
  have hport : (badCrc s p).port p = sendPlain { s.port p with crcerr := satInc (s.port p).crcerr } .nak := State.setPort_port_self _ _ _
  intro s'
  unfold sentFrame
  rw [show s'.port p = _ from hport]
  exact ⟨rfl, rfl, rfl, sendPlain_sent _ _⟩

/-! ## Messages (R347) -/

theorem find?_range_lowest {f : Nat → Bool} {n m : Nat} (hm : m < n) (hf : f m = true) (hlow : ∀ i < m, f i = false) :
    (List.range n).find? f = some m :=
  List.find?_range_eq_some.mpr ⟨hf, List.mem_range.mpr hm, fun i hi => by simp [hlow i hi]⟩

/-- A message that has room reaches the lowest mailbox that permits its sender. -/
theorem linkMessage_queued {s : State} {code : Nat} {w : Word} {r : List Word} {m : Nat} (hm : m < 8) (hlen : hdrLen w = r.length)
    (hpeer : bitAt (s.mbox m).peer.toNat code = true) (hlow : ∀ i < m, bitAt (s.mbox i).peer.toNat code = false)
    (hfree : r.length + 1 ≤ (s.mbox m).inq.freeWords) : let s' := linkMessage s code (w :: r)
    OnlyAt m s s' ∧ (s'.mbox m).inq.words = (s.mbox m).inq.words ++ (stampSender w code :: r).map held := by
  have hfind : (List.range 8).find? (fun m => bitAt (s.mbox m).peer.toNat code) = some m := find?_range_lowest hm hpeer hlow
  have hbody : (((w :: r).drop 1 ++ List.replicate 15 0).take r.length) = r := by simp
  have hroom : ¬ (s.mbox m).inq.freeWords < r.length + 1 := by omega
  unfold linkMessage
  dsimp only
  rw [hfind, hlen]
  dsimp only
  rw [if_neg hroom, hbody, State.setMbox_mbox_self]
  exact ⟨onlyAt_setMbox s m _, rfl⟩

theorem twinLink_congr {p : Nat} {s u : State} (h : OnlyPort p s u) (q : Nat) : u.twinLink q = s.twinLink q := by
  rw [h.frame]
  rfl

theorem mbox_onlyPort {p : Nat} {s u : State} (h : OnlyPort p s u) (m : Nat) : u.mbox m = s.mbox m := mbox_of_mbx (by rw [h.frame]) m

/-! ## Aborts (R374) -/

/-- Each port in UP that passes the test sends one frame, and no other port. -/
theorem sendOnUp_sends (s : State) (ok : Nat → Bool) (b : FrameBody) {q : Nat} (hq : q < 4) (hup : (s.port q).isUp = true)
    (hok : ok q = true) : (sendOnUp s ok b).port q = sendSeq s.devTime (s.port q) b := by
  let step : State → Nat → State := fun s p => if (s.port p).isUp && ok p then s.setPort p (sendSeq s.devTime (s.port p) b) else s
  have hother : ∀ (u : State) (k : Nat), q ≠ k → (step u k).port q = u.port q ∧ (step u k).devTime = u.devTime := by
    intro u k hk
    show (if _ then _ else _ : State).port q = _ ∧ (if _ then _ else _ : State).devTime = _
    split
    · exact ⟨(State.setPort_port _ _ _ _).trans (if_neg hk), rfl⟩
    · exact ⟨rfl, rfl⟩
  have hout : ∀ (qs : List Nat) (u : State), q ∉ qs → (qs.foldl step u).port q = u.port q := by
    intro qs
    induction qs with
    | nil => exact fun u _ => rfl
    | cons k r ih =>
      intro u hq
      obtain ⟨hk, hr⟩ := List.ne_and_not_mem_of_not_mem_cons hq
      exact (ih _ hr).trans (hother u k hk).1
  have hin : ∀ (qs : List Nat) (u : State), qs.Nodup → q ∈ qs → u.devTime = s.devTime → u.port q = s.port q →
      (qs.foldl step u).port q = sendSeq s.devTime (s.port q) b := by
    intro qs
    induction qs with
    | nil => exact fun u _ hq => absurd hq List.not_mem_nil
    | cons k r ih =>
      intro u hnodup hq htime hport
      obtain ⟨hk, hr⟩ := List.nodup_cons.mp hnodup
      rcases List.mem_cons.mp hq with rfl | hq
      · rw [List.foldl_cons, hout r _ hk]
        show (if (u.port q).isUp && ok q then u.setPort q (sendSeq u.devTime (u.port q) b) else u).port q = _
        rw [hport, htime, hup, hok, if_pos (by rfl), State.setPort_port_self]
      · have hne : q ≠ k := fun he => hk (he ▸ hq)
        exact ih _ hr hq ((hother u k hne).2.trans htime) ((hother u k hne).1.trans hport)
  exact hin (List.range 4) s List.nodup_range (List.mem_range.mpr hq) rfl rfl

/-- An abort of a running task goes out on each port in UP that passes the test. -/
theorem abortWith_sends {s : State} (hstate : s.pace.state ≠ .aborted) (hidle : s.idle = false) (v c : Nat) (n : Snapshot) (ok : Nat → Bool)
    (f : FrameBody) {q : Nat} (hq : q < 4) (hup : (s.port q).state = .up) (hok : ok q = true) :
    (abortWith s v c n ok f).port q = sendSeq s.devTime (s.port q) f := by
  have hlk : (abortWith s v c n ok f).lk = (sendOnUp (noteDump s v) ok f).lk := by
    unfold abortWith announce
    dsimp only
    rw [if_neg (show (noteDump s v).pace.state ≠ .aborted from hstate)]
    rw [if_neg (show ¬ (noteDump s v).idle = true from Bool.eq_false_iff.mp hidle)]
  rw [port_of_lk hlk]
  exact sendOnUp_sends (noteDump s v) ok f hq ((isUp_iff _).mpr hup) hok

/-- An ABORT frame that is new to a running task aborts it and goes on over the other ports. -/
theorem hearAbort_aborts {s : State} {p : Nat} {origin cause : BitVec 16} {step : BitVec 48} (hidle : s.idle = false)
    (hstate : s.pace.state ≠ .aborted) (hnew : abortSeen s origin step = false) : let s' := hearAbort s p origin cause step
    s'.pace.state = .aborted ∧ s'.tiles = s.tiles ∧ (s.flt.firstCode = 0 → s'.flt.firstCode = 0x0909) ∧
      ∀ q < 4, q ≠ p → (s.port q).state = .up → s'.port q = sendSeq s.devTime (s.port q) (.abort origin cause step) := by
  let s1 := recordEvent s 0x0909 { srcid := p, addr := origin.toNat, detail := packN [(0, cause.toNat), (16, step.toNat)] }
  let s2 := s1.setPort p { s1.port p with abortsSeen := (origin, step) :: (s1.port p).abortsSeen }
  have hframe : s1 = { s with ic := s1.ic, hq := s1.hq, flt := s1.flt } := recordEvent_frame _ _ _
  have hpace : s2.pace = s.pace := by
    show s1.pace = _
    rw [hframe]
  have hstate2 : s2.pace.state ≠ .aborted := by rw [hpace]; exact hstate
  have hidle2 : s2.idle = false := by unfold State.idle; rw [hpace]; exact hidle
  have hport : ∀ q, q ≠ p → s2.port q = s.port q := fun q hq =>
    ((State.setPort_port _ _ _ _).trans (if_neg hq)).trans (port_of_lk (recordEvent_lk _ _ _) q)
  have habort : hearAbort s p origin cause step =
      abortWith s2 2 0x0909 (takeSnapshot s2) (fun q => q != p) (.abort origin cause step) := if_neg (by simp [hidle, hstate, hnew])
  intro s'
  have hs' : s' = _ := habort
  rw [hs']
  refine ⟨by rw [abortWith_pace hstate2]; rfl, ?_, fun hfirst => ?_, fun q hq hne hup => ?_⟩
  · rw [abortWith_tiles]
    show s1.tiles = _
    rw [hframe]
  · exact abortWith_firstCode hstate2 2 0x0909 _ _ _ ((recordEvent_firstCode s _ _).trans hfirst)
  · rw [abortWith_sends hstate2 hidle2 2 0x0909 _ _ _ hq (by rw [hport q hne]; exact hup) (by simpa using hne), hport q hne]
    show sendSeq s1.devTime _ _ = _
    rw [hframe]

/-! ## HELLO (R369, R370) -/

theorem ackKeeps_sendSeq (now : Nat) (x : LinkPort) (b : FrameBody) : AckKeeps x (sendSeq now x b) := by
  unfold sendSeq
  split <;> rfl

theorem twinSend_port (s : State) (sub w1 : Nat) (rest : List Nat) (p : Nat) : AckKeeps (s.port p) ((twinSend s sub w1 rest).port p) := by
  unfold twinSend
  dsimp only
  split
  · by_cases hp : p = s.tw.port.toNat
    · rw [hp, State.setPort_port_self]
      exact ackKeeps_sendSeq _ _ _
    · rw [State.setPort_port, if_neg hp]
      rfl
  · rfl

/-- A port as it enters UP, before its frames go out. -/
def upPort (now : Nat) (x : LinkPort) : LinkPort :=
  { x with state := .up, stateT := now, ackT := now, rxT := now, cred := (List.range 8).map fun v => (v, 1024)
           credRet := [], vcbuf := [], vcout := [] }

theorem enterUp_port (s : State) (p : Nat) : AckKeeps (upPort s.devTime (s.port p)) ((enterUp s p).port p) := by
  let y := upPort s.devTime (s.port p)
  let s0 : State := s.setPort p (drainTxq s.devTime y.txq { y with txq := [] })
  let s1 : State := event s0 0x0901 { srcid := p, detail := two (s.port p).peerPos.toNat 0 }
  have h1 : AckKeeps y (s1.port p) := by
    rw [port_of_lk (event_lk_low (by decide) s0 _), State.setPort_port_self]
    exact AckKeeps.trans (y := { y with txq := [] }) rfl (ackKeeps_drainTxq _ _ _)
  have henter : enterUp s p = if s1.tw.en && s1.tw.port.toNat == p then sendRole s1 else s1 := rfl
  rw [henter]
  split
  · exact h1.trans (twinSend_port s1 _ _ _ p)
  · exact h1

/-- The hello record of a device and its comparison do not depend on the port's frames. -/
theorem helloMism_congr {s u : State} {p : Nat} (h : OnlyPort p s u) (htwin : (u.port p).twin = (s.port p).twin) (r : HelloRec) :
    helloMism u p r = helloMism s p r := by
  have hrec : helloRecOf u p = helloRecOf s p := by
    rw [h.frame]
    rfl
  have hpos : ∀ o, posDiffers u p o r = posDiffers s p o r := by
    intro o
    have himg : imageUses u p = imageUses s p := by
      rw [h.frame]
      rfl
    have hpeer : portPeerPos u p = portPeerPos s p := by
      rw [h.frame]
      rfl
    unfold posDiffers
    rw [htwin, himg, hpeer]
  unfold helloMism
  dsimp only
  rw [hrec, hpos]

/-- The probe of a HELLO frame: the echo of an own one, or one to echo. -/
theorem hearProbe_hears (s : State) (p : Nat) (v : BitVec 64) : let s' := hearProbe s p v
    OnlyPort p s s' ∧ (s'.port p).state = (s.port p).state ∧ (s'.port p).twin = (s.port p).twin ∧ (s'.port p).peerRec = (s.port p).peerRec ∧
      (v ∈ (s.port p).probeTx → (s'.port p).rtt = BitVec.ofNat 32 (s.time64 - v.toNat)) ∧
      (v ∉ (s.port p).probeTx → (s'.port p).rtt = (s.port p).rtt ∧
        ∃ f : SentFrame, (s'.port p).sent = f :: (s.port p).sent ∧ f.body = .hello (helloRecOf s p) v) := by
  unfold hearProbe
  dsimp only
  split
  · next hin =>
    rw [State.setPort_port_self]
    exact ⟨onlyPort_setPort s p _, rfl, rfl, rfl, fun _ => rfl, fun hout => absurd (List.contains_iff_mem.mp hin) hout⟩
  · next hout =>
    rw [State.setPort_port_self]
    exact ⟨onlyPort_setPort s p _, rfl, rfl, rfl, fun hin => absurd (List.contains_iff_mem.mpr hin) hout, fun _ => ⟨rfl, sendPlain_sent _ _⟩⟩

theorem compareHello_up {s : State} {p : Nat} {r : HelloRec} (h : helloMism s p r = 0) : let s' := compareHello s p r
    (s'.port p).state = .up ∧ (∀ v < 8, mget 0 (s'.port p).cred v = 1024) ∧ (s'.port p).peerPos = r.pos := by
  intro s'
  let s1 : State := s.setPort p { s.port p with
    mism := helloMism s p r, peerPos := r.pos, peerStepping := r.stepping, peerAdr := r.adr, peerRec := r }
  have hport : s1.port p = _ := State.setPort_port_self _ _ _
  have hs' : s' = enterUp s1 p := if_pos h
  have hkeeps := enterUp_port s1 p
  rw [hs', hkeeps, hport]
  refine ⟨rfl, fun v hv => ?_, rfl⟩
  exact (by decide : ∀ v < 8, mget 0 ((List.range 8).map fun v => (v, 1024)) v = 1024) v hv

theorem compareHello_refused {s : State} {p : Nat} {r : HelloRec} (h : helloMism s p r ≠ 0) : let s' := compareHello s p r
    (s'.port p).state = .refused ∧ (s'.port p).mism = helloMism s p r := by
  intro s'
  let s1 : State := s.setPort p { s.port p with
    mism := helloMism s p r, peerPos := r.pos, peerStepping := r.stepping, peerAdr := r.adr, peerRec := r }
  let s2 : State := s1.setPort p { s1.port p with state := .refused, stateT := s.devTime }
  have hport1 : s1.port p = _ := State.setPort_port_self _ _ _
  have hport : s2.port p = _ := State.setPort_port_self _ _ _
  have hs' : s' = event s2 0x0902 { srcid := p, addr := (helloMism s p r).toNat, detail := r.pos.toNat } := if_neg h
  rw [hs', event_down (by rw [hport]; exact LinkState.noConfusion), hport]
  refine ⟨rfl, ?_⟩
  show (s1.port p).mism = _
  rw [hport1]

/-! ## SYNC (R372, R373, R388) -/

/-- What the entry of ports into HELLO leaves. -/
structure HelloKeeps (s s' : State) : Prop where
  cur : s'.hq.cur = s.hq.cur
  pace : s'.pace = s.pace
  time : s'.devTime = s.devTime ∧ s'.timeOff = s.timeOff
  epoch : s'.lk.epoch = s.lk.epoch
  follow : s'.lk.follow = s.lk.follow

theorem HelloKeeps.trans {s t u : State} (h : HelloKeeps s t) (k : HelloKeeps t u) : HelloKeeps s u :=
  ⟨k.cur.trans h.cur, k.pace.trans h.pace, ⟨k.time.1.trans h.time.1, k.time.2.trans h.time.2⟩, k.epoch.trans h.epoch,
    k.follow.trans h.follow⟩

theorem helloKeeps_enterHello (s : State) (p : Nat) : HelloKeeps s (enterHello s p) := by
  obtain ⟨hframe, hcur⟩ := leaveUp_leaves s p
  have hleave : HelloKeeps s (leaveUp s p) := by
    constructor
    case cur => exact hcur
    all_goals rw [hframe]
    case time => exact ⟨rfl, rfl⟩
  exact hleave.trans ⟨rfl, rfl, ⟨rfl, rfl⟩, rfl, rfl⟩

theorem helloKeeps_helloAll (s : State) : HelloKeeps s (helloAll s) := by
  unfold helloAll
  generalize List.range 4 = ps
  induction ps generalizing s with
  | nil => exact ⟨rfl, rfl, ⟨rfl, rfl⟩, rfl, rfl⟩
  | cons p r ih =>
    refine HelloKeeps.trans ?_ (ih _)
    dsimp only
    split
    · exact helloKeeps_enterHello s p
    · exact ⟨rfl, rfl, ⟨rfl, rfl⟩, rfl, rfl⟩

/-- The EPOCH in progress sets device time to a time that does not go back. -/
theorem setEpoch_sets {s : State} {p : Nat} {v : BitVec 64} {t : Nat} (hcur : s.hq.cur.isSome = true) (ht : s.devTime + s.timeOff ≤ t) :
    let s' := setEpoch s p v t
    finished s s' 0 0 ∧ s'.time64 = t % 2 ^ 64 ∧ s'.lk.epoch = v ∧ s'.lk.follow = none ∧ s'.pace = s.pace := by
  obtain ⟨c, hcur⟩ := Option.isSome_iff_exists.mp hcur
  let s1 : State := { s with timeOff := t - s.devTime, lk := { s.lk with follow := none, epoch := v } }
  have hs' : setEpoch s p v t = finishCmd (helloAll s1) stDone 0 := if_neg (Nat.not_lt.mpr ht)
  obtain ⟨hcur1, hpace, ⟨htime, hoff⟩, hepoch, hfollow⟩ := helloKeeps_helloAll s1
  intro s'
  rw [show s' = _ from hs']
  generalize helloAll s1 = u at *
  have hcur2 : u.hq.cur = some c := hcur1.trans hcur
  have hhost := finishCmd_onlyHost hcur2 stDone 0
  refine ⟨finished_finishCmd hcur2 hcur1.symm _ _, ?_, ?_, ?_, ?_⟩
  · rw [hhost]
    show (u.devTime + u.timeOff) % 2 ^ 64 = _
    rw [htime, hoff, show s1.devTime + s1.timeOff = t from by show s.devTime + (t - s.devTime) = t; omega]
  · rw [hhost]
    exact hepoch
  · rw [hhost]
    exact hfollow
  · rw [hhost]
    exact hpace

theorem checkTime_idle {s : State} (h : s.idle = true) (p : Nat) (time : BitVec 64) (runs : Bool) : checkTime s p time runs = s := by
  rw [checkTime]
  exact if_neg (by simp [h])

theorem checkTime_alone (s : State) (p : Nat) (time : BitVec 64) : checkTime s p time false = s := by
  rw [checkTime]
  exact if_neg (by simp)

/-- A SYNC is a heartbeat on the twin link, and changes nothing else. -/
theorem heartbeat_frame (s : State) (p : Nat) (step : BitVec 48) : heartbeat s p step = { s with tw := (heartbeat s p step).tw } := by
  unfold heartbeat
  split <;> rfl

theorem checkTime_aborts {s : State} {p : Nat} {time : BitVec 64} (hidle : s.idle = false) (httol : s.lk.ttol ≠ 0)
    (hdiff : 2 * s.lk.ttol.toNat < (2 * (time.toNat : Int) + (s.port p).rtt.toNat - 2 * s.time64).natAbs) :
    (checkTime s p time true).pace.state = .aborted ∧ (checkTime s p time true).tiles = s.tiles := by
  unfold checkTime
  dsimp only
  split
  · exact ⟨event_aborts _ _ _ (by decide), event_tiles _ _ _⟩
  · next hstay =>
    refine ⟨?_, rfl⟩
    by_contra hstate
    refine hstay ?_
    rw [bne_iff_ne.mpr hstate, bne_iff_ne.mpr httol, decide_eq_true hdiff, hidle]
    rfl

/-! ## The obligation -/

section
variable {s : State} {p : Fin 4} {h : FrameHdr}

theorem tokenFrame_accepted {v : Fin 8} {toks : List Token} (horder : InOrder (s.port p) h) (hpos : 1 ≤ toks.length)
    (hmax : toks.length ≤ 12) (hroom : (mget [] (s.port p).vcbuf v).length + toks.length ≤ 1024) :
    ∃ s', exec (.tokenFrame p h v toks) s = .next s' ∧ s' = { s with lk := s'.lk } ∧
      mget [] (s'.port p).vcbuf v = mget [] (s.port p).vcbuf v ++ toks.map (fun t => (t, h.step)) ∧ (s'.port p).rxe = (s.port p).rxe + 1 ∧
      mget 0 (s'.port p).cred h.cretVc = mget 0 (s.port p).cred h.cretVc + h.cret.toNat := by
  obtain ⟨u, hrx, honly, hport⟩ := rxSequenced_accepts horder
  have hkeeps := ackKeeps_heardPort s.devTime (s.port p) h.ack
  have hwf : (Instr.tokenFrame p h v toks).wf = true := by
    simp only [Instr.wf, Bool.and_eq_true, decide_eq_true_eq]
    exact ⟨hpos, hmax⟩
  have hbuf : (u.port p).vcbuf = (s.port p).vcbuf := by
    rw [hport, hkeeps]
    rfl
  have hexec : exec (.tokenFrame p h v toks) s = .next (u.setPort p { u.port p with
      vcbuf := mset [] (u.port p).vcbuf v (mget [] (u.port p).vcbuf v ++
        (toks.take (1024 - (mget [] (u.port p).vcbuf v).length)).map fun t => (t, h.step)) }) := by
    show execTokenFrame p h v toks s = _
    rw [execTokenFrame, if_pos hwf, tokenFrame, hrx]
    rfl
  refine ⟨_, hexec, (honly.trans (onlyPort_setPort u p _)).lk, ?_, ?_, ?_⟩
  all_goals rw [State.setPort_port_self]
  · refine (mget_mset_self _ _ _ _).trans ?_
    rw [hbuf, List.take_of_length_le (by omega)]
  · show (u.port p).rxe = _
    rw [hport]
    rfl
  · show mget 0 (u.port p).cred _ = _
    rw [hport, takeCredit_cred, hkeeps]

theorem idleFrame_heard (hheard : Heard (s.port p) h) (htxq : (s.port p).txq = []) (hlen : (h.ack - (s.port p).ack).toNat ≤ (s.port p).replay.length) :
    ∃ s', exec (.idleFrame p h) s = .next s' ∧ s' = { s with lk := s'.lk } ∧ (s'.port p).rxT = s.devTime ∧
      (s'.port p).replay = (s.port p).replay.drop (h.ack - (s.port p).ack).toNat ∧
      mget 0 (s'.port p).cred h.cretVc = mget 0 (s.port p).cred h.cretVc + h.cret.toNat := by
  obtain ⟨u, hrx, honly, hport⟩ := rxPlain_takes hheard
  have hkeeps := ackKeeps_heardPort s.devTime (s.port p) h.ack
  obtain ⟨-, hreplay⟩ := takeAck_settled (x := { s.port p with rxT := s.devTime }) htxq s.devTime hlen
  refine ⟨u, congrArg (fun r : State × Bool => Host.Outcome.next r.1) hrx, honly.lk, ?_, ?_, ?_⟩
  all_goals rw [hport]
  · show (heardPort _ _ _).rxT = _
    rw [hkeeps]
  · exact hreplay
  · rw [takeCredit_cred, hkeeps]

theorem msgFrame_accepted {ws : List Word} (horder : InOrder (s.port p) h) (hpos : 1 ≤ ws.length) (hmax : ws.length ≤ 16) :
    ∃ u, OnlyPort p s u ∧ exec (.msgFrame p h ws) s = .next (if (s.port p).twin && isTwinMsg ws then twinIntake u p ws
      else linkMessage u (if s.twinLink p then 8 else 9 + p) ws) := by
  obtain ⟨u, hrx, honly, hport⟩ := rxSequenced_accepts horder
  have hkeeps := ackKeeps_heardPort s.devTime (s.port p) h.ack
  have htwin : (u.port p).twin = (s.port p).twin := by
    rw [hport, hkeeps]
    rfl
  have hwf : (Instr.msgFrame p h ws).wf = true := by
    simp only [Instr.wf, Bool.and_eq_true, decide_eq_true_eq]
    exact ⟨hpos, hmax⟩
  refine ⟨u, honly, ?_⟩
  show execMsgFrame p h ws s = _
  rw [execMsgFrame, if_pos hwf, msgFrame, hrx]
  dsimp only
  rw [if_pos rfl, htwin, twinLink_congr honly]

theorem abortFrame_accepted {origin cause : BitVec 16} {step : BitVec 48} (horder : InOrder (s.port p) h) :
    ∃ u, OnlyPort p s u ∧ (u.port p).abortsSeen = (s.port p).abortsSeen ∧
      exec (.abortFrame p h origin cause step) s = .next (hearAbort u p origin cause step) := by
  obtain ⟨u, hrx, honly, hport⟩ := rxSequenced_accepts horder
  have hkeeps := ackKeeps_heardPort s.devTime (s.port p) h.ack
  refine ⟨u, honly, by rw [hport, hkeeps]; rfl, ?_⟩
  show execAbortFrame p h origin cause step s = _
  rw [execAbortFrame, abortFrame, hrx]
  rfl

/-- A HELLO frame: its probe, then its record, with the port's state, pairing and peer as they were. -/
theorem hello_accepted {r : HelloRec} (v : BitVec 64) (hheard : Heard (s.port p) h) (hmap : r.secmap.length = 16) :
    ∃ u, OnlyPort p s u ∧ u.port p = takeCredit (heardPort s.devTime (s.port p) h.ack) h ∧
      exec (.hello p h r v) s = .next (hearHello (hearProbe u p v) p r) := by
  obtain ⟨u, hrx, honly, hport⟩ := rxPlain_takes hheard
  have hwf : (Instr.hello p h r v).wf = true := by simp [Instr.wf, hmap]
  refine ⟨u, honly, hport, ?_⟩
  show execHello p h r v s = _
  rw [execHello, if_pos hwf, helloFrame, hrx]
  rfl

theorem sync_accepted (peer : PeerStep) (time : BitVec 64) (hheard : Heard (s.port p) h) :
    ∃ u, OnlyPort p s u ∧ (u.port p).rtt = (s.port p).rtt ∧
      exec (.sync p h peer time) s = .next (checkTime (heartbeat (followSync u p time) p peer.step) p time peer.runs) := by
  obtain ⟨u, hrx, honly, hport⟩ := rxPlain_takes hheard
  have hkeeps := ackKeeps_heardPort s.devTime (s.port p) h.ack
  refine ⟨u, honly, by rw [hport, show (takeCredit _ h).rtt = (heardPort _ _ _).rtt from rfl, hkeeps], ?_⟩
  show execSync p h peer time s = _
  rw [execSync, syncFrame, hrx]
  rfl

theorem msgFrame_delivered {w : Word} {r : List Word} {m : Fin 8} (horder : InOrder (s.port p) h)
    (hplain : (s.port p).twin = false ∨ isTwinMsg (w :: r) = false) (hlen : hdrLen w = r.length) (hr : r.length ≤ 15)
    (hpeer : bitAt (s.mbox m).peer.toNat (if s.twinLink p then 8 else 9 + p) = true)
    (hlow : ∀ i < m.val, bitAt (s.mbox i).peer.toNat (if s.twinLink p then 8 else 9 + p) = false)
    (hfree : r.length + 1 ≤ (s.mbox m).inq.freeWords) :
    ∃ s', exec (.msgFrame p h (w :: r)) s = .next s' ∧ s' = { s with lk := s'.lk, mbx := s'.mbx } ∧
      (s'.mbox m).inq.words = (s.mbox m).inq.words ++ (stampSender w (if s.twinLink p then 8 else 9 + p) :: r).map held ∧
      ∀ i, i ≠ m.val → s'.mbox i = s.mbox i := by
  obtain ⟨u, honly, hexec⟩ := msgFrame_accepted (ws := w :: r) horder (by simp) (by simp; omega)
  have hnot : ¬ ((s.port p).twin && isTwinMsg (w :: r)) = true := by
    rcases hplain with hp | hp <;> simp [hp]
  rw [if_neg hnot] at hexec
  have hmbox := mbox_onlyPort honly
  obtain ⟨hat, hwords⟩ := linkMessage_queued (s := u) (w := w) m.isLt hlen (by rw [hmbox]; exact hpeer)
    (fun i hi => by rw [hmbox]; exact hlow i hi) (by rw [hmbox]; exact hfree)
  rw [hmbox] at hwords
  refine ⟨_, hexec, ?_, hwords, fun i hi => (hat.1 i hi).trans (hmbox i)⟩
  rw [hat.2, honly.frame]

theorem twinBad_congr {u : State} (honly : OnlyPort p s u) (ws : List Word) : twinBad u ws = twinBad s ws := by
  rw [honly.frame]
  rfl

theorem msgFrame_twin {ws : List Word} (horder : InOrder (s.port p) h) (htwin : (s.port p).twin = true) (hpos : 1 ≤ ws.length)
    (hmax : ws.length ≤ 16) (hmsg : isTwinMsg ws = true) :
    (twinBad s ws = false → ∃ s', exec (.msgFrame p h ws) s = .next s' ∧ s'.tw = { s.tw with rxq := s.tw.rxq ++ [(p.val, ws)] } ∧
      s'.mbx = s.mbx) ∧
    (twinBad s ws = true → ∃ s', exec (.msgFrame p h ws) s = .next s' ∧ s'.tw = { s.tw with badmsg := satInc s.tw.badmsg } ∧
      s'.mbx = s.mbx) := by
  obtain ⟨u, honly, hexec⟩ := msgFrame_accepted (ws := ws) horder hpos hmax
  rw [if_pos (by simp [htwin, hmsg])] at hexec
  have htw : u.tw = s.tw := by rw [honly.frame]
  have hmbx : u.mbx = s.mbx := by rw [honly.frame]
  refine ⟨fun hgood => ⟨_, hexec, ?_⟩, fun hbad => ⟨_, hexec, ?_⟩⟩
  · rw [twinIntake, twinBad_congr honly, if_neg (by simp [hgood]), htw]
    exact ⟨rfl, hmbx⟩
  · rw [twinIntake, twinBad_congr honly, if_pos hbad, event_tw, event_mbx, htw]
    exact ⟨rfl, hmbx⟩

theorem abortFrame_aborts {origin cause : BitVec 16} {step : BitVec 48} (horder : InOrder (s.port p) h) (hidle : s.idle = false)
    (hstate : s.pace.state ≠ .aborted) (hnew : ∀ q < 4, (s.port q).abortsSeen.contains (origin, step) = false) :
    ∃ s', exec (.abortFrame p h origin cause step) s = .next s' ∧ s'.pace.state = .aborted ∧ s'.tiles = s.tiles ∧
      (s.flt.firstCode = 0 → s'.flt.firstCode = 0x0909) ∧
      (∀ q < 4, q ≠ p.val → (s.port q).state = .up → (s.port q).replay.length < 64 → (s.port q).txq = [] →
        sentFrame s s' q (.abort origin cause step)) := by
  obtain ⟨u, honly, hseen, hexec⟩ := abortFrame_accepted (origin := origin) (cause := cause) (step := step) horder
  have hpace : u.pace = s.pace := by rw [honly.frame]
  have hnew' : abortSeen u origin step = false := by
    refine List.any_eq_false.mpr fun q hq => ?_
    have hall : (u.port q).abortsSeen = (s.port q).abortsSeen := by
      by_cases hqp : q = p
      · rw [hqp, hseen]
      · rw [honly.others q hqp]
    rw [hall, hnew q (List.mem_range.mp hq)]
    exact Bool.false_ne_true
  obtain ⟨habort, htiles, hfirst, hports⟩ := hearAbort_aborts (p := p) (cause := cause) (by unfold State.idle; rw [hpace]; exact hidle)
    (by rw [hpace]; exact hstate) hnew'
  refine ⟨_, hexec, habort, htiles.trans (by rw [honly.frame]), fun h => hfirst (by rw [honly.frame]; exact h), fun q hq hne hup hrep htxq => ?_⟩
  have hport := hports q hq hne (by rw [honly.others q hne]; exact hup)
  rw [honly.others q hne] at hport
  obtain ⟨-, f, hsent, hbody, -⟩ := sendSeq_sends hrep htxq u.devTime (.abort origin cause step)
  exact ⟨f, by rw [hport]; exact hsent, hbody⟩

theorem hello_compared {r : HelloRec} (v : BitVec 64) (hheard : Heard (s.port p) h) (hstate : (s.port p).state = .hello)
    (hmap : r.secmap.length = 16) :
    (helloMism s p r = 0 → ∃ s', exec (.hello p h r v) s = .next s' ∧ (s'.port p).state = .up ∧
      (∀ v < 8, mget 0 (s'.port p).cred v = 1024) ∧ (s'.port p).peerPos = r.pos) ∧
    (helloMism s p r ≠ 0 → ∃ s', exec (.hello p h r v) s = .next s' ∧ (s'.port p).state = .refused ∧
      (s'.port p).mism = helloMism s p r) := by
  obtain ⟨u, honly, hport, hexec⟩ := hello_accepted v hheard hmap
  have hkeeps := ackKeeps_heardPort s.devTime (s.port p) h.ack
  obtain ⟨honly', hst, htwin, -, -, -⟩ := hearProbe_hears u p v
  have hsame : (u.port p).state = (s.port p).state ∧ (u.port p).twin = (s.port p).twin := by
    rw [hport, hkeeps]
    exact ⟨rfl, rfl⟩
  have hmism := helloMism_congr (honly.trans honly') (htwin.trans hsame.2) r
  have hhear : hearHello (hearProbe u p v) p r = compareHello (hearProbe u p v) p r :=
    if_pos (hst.trans (hsame.1.trans hstate))
  rw [hhear] at hexec
  refine ⟨fun h0 => ⟨_, hexec, compareHello_up (hmism.trans h0)⟩, fun hne => ⟨_, hexec, ?_⟩⟩
  rw [← hmism]
  exact compareHello_refused (by rw [hmism]; exact hne)

theorem hello_unchanged {r : HelloRec} (v : BitVec 64) (hheard : Heard (s.port p) h) (hup : (s.port p).state = .up)
    (hmap : r.secmap.length = 16) (hpeer : (s.port p).peerRec = r) :
    ∃ s', exec (.hello p h r v) s = .next s' ∧ (s'.port p).state = .up ∧ s' = { s with lk := s'.lk } ∧
      (v ∈ (s.port p).probeTx → (s'.port p).rtt = BitVec.ofNat 32 (s.time64 - v.toNat)) ∧
      (v ∉ (s.port p).probeTx → (s'.port p).rtt = (s.port p).rtt ∧
        ((s.port p).txq = [] → sentFrame s s' p (.hello (helloRecOf s p) v))) := by
  obtain ⟨u, honly, hport, hexec⟩ := hello_accepted v hheard hmap
  have hkeeps := ackKeeps_heardPort s.devTime (s.port p) h.ack
  obtain ⟨honly', hst, -, hprec, hown, hother⟩ := hearProbe_hears u p v
  have hsame : (u.port p).state = (s.port p).state ∧ (u.port p).peerRec = (s.port p).peerRec ∧ (u.port p).probeTx = (s.port p).probeTx ∧
      (u.port p).rtt = (s.port p).rtt := by
    rw [hport, hkeeps]
    exact ⟨rfl, rfl, rfl, rfl⟩
  obtain ⟨hustate, hupeer, huprobe, hurtt⟩ := hsame
  have hhear : hearHello (hearProbe u p v) p r = hearProbe u p v :=
    (if_neg (by rw [hst, hustate, hup]; exact LinkState.noConfusion)).trans (if_pos (hprec.trans (hupeer.trans hpeer)))
  rw [hhear] at hexec
  rw [huprobe] at hown hother
  have htime : u.time64 = s.time64 := by rw [honly.frame]; rfl
  refine ⟨_, hexec, hst.trans (hustate.trans hup), (honly.trans honly').lk, fun hin => by rw [hown hin, htime], fun hout => ?_⟩
  obtain ⟨hrtt, f, hsent, hbody⟩ := hother hout
  refine ⟨hrtt.trans hurtt, fun htxq => ⟨f, ?_, ?_⟩⟩
  · have hnone : (u.port p).sent = (s.port p).sent := by
      rw [hport]
      exact takeAck_sent (x := { s.port p with rxT := s.devTime }) htxq _ _
    rw [hsent, hnone]
  · rw [hbody, honly.frame]
    rfl

section
variable (step : BitVec 48) (time : BitVec 64) (runs : Bool) (hheard : Heard (s.port p) h)
include hheard

/-- A SYNC that no EPOCH follows: the heartbeat and the comparison of times. -/
theorem sync_plain (hfollow : s.lk.follow = none) : ∃ u, OnlyPort p s u ∧ (u.port p).rtt = (s.port p).rtt ∧
    exec (.sync p h ⟨step, runs⟩ time) s = .next (checkTime (heartbeat u p step) p time runs) := by
  obtain ⟨u, honly, hrtt, hexec⟩ := sync_accepted ⟨step, runs⟩ time hheard
  have hnone : followSync u p time = u := by
    rw [followSync, show u.lk.follow = none by rw [honly.frame]; exact hfollow]
  rw [hnone] at hexec
  exact ⟨u, honly, hrtt, hexec⟩

theorem sync_heartbeat (hfollow : s.lk.follow = none) (hpaired : s.paired = true) (hport : s.tw.port.toNat = p.val) (hidle : s.idle = true) :
    ∃ s', exec (.sync p h ⟨step, runs⟩ time) s = .next s' ∧ s'.tw = { s.tw with miss := 0, hbT := s.devTime, pstep := step } := by
  obtain ⟨u, honly, -, hexec⟩ := sync_plain step time runs hheard hfollow
  have hbeat : heartbeat u p step = { u with tw := { u.tw with miss := 0, hbT := u.devTime, pstep := step } } :=
    if_pos (by rw [twinLink_congr honly]; simp [State.twinLink, hpaired, hport])
  have hidle' : (heartbeat u p step).idle = true := by
    rw [heartbeat_frame, honly.frame]
    exact hidle
  rw [checkTime_idle hidle', hbeat] at hexec
  refine ⟨_, hexec, ?_⟩
  rw [honly.frame]

theorem sync_epoch {v : BitVec 64} {t : Nat} (hfollow : s.lk.follow = some (p.val, v, t)) (hidle : s.idle = true)
    (hcur : s.hq.cur.isSome = true) (htime : s.devTime + s.timeOff ≤ time.toNat + (s.port p).rtt.toNat / 2) :
    ∃ s', exec (.sync p h ⟨step, runs⟩ time) s = .next s' ∧ finished s s' 0 0 ∧
      s'.time64 = (time.toNat + (s.port p).rtt.toNat / 2) % 2 ^ 64 ∧ s'.lk.epoch = v ∧ s'.lk.follow = none := by
  obtain ⟨u, honly, hrtt, hexec⟩ := sync_accepted ⟨step, runs⟩ time hheard
  have hserve : followSync u p time = setEpoch u p v (time.toNat + (s.port p).rtt.toNat / 2) := by
    rw [followSync, show u.lk.follow = some (p.val, v, t) by rw [honly.frame]; exact hfollow]
    dsimp only
    rw [if_pos rfl, hrtt]
  have hu : u.hq = s.hq ∧ u.devTime = s.devTime ∧ u.timeOff = s.timeOff ∧ u.pace = s.pace := by
    rw [honly.frame]
    exact ⟨rfl, rfl, rfl, rfl⟩
  obtain ⟨huhq, hudev, huoff, hupace⟩ := hu
  obtain ⟨hfin, ht, hepoch, hnone, hpace⟩ := setEpoch_sets (s := u) (p := p) (v := v) (t := time.toNat + (s.port p).rtt.toNat / 2)
    (by rw [huhq]; exact hcur) (by rw [hudev, huoff]; exact htime)
  rw [hserve] at hexec
  generalize setEpoch u p v (time.toNat + (s.port p).rtt.toNat / 2) = w at *
  have hidle' : (heartbeat w p step).idle = true := by
    rw [heartbeat_frame]
    show (w.pace.state == .idle) = true
    rw [hpace, hupace]
    exact hidle
  rw [checkTime_idle hidle', heartbeat_frame] at hexec
  refine ⟨_, hexec, ?_, ht, hepoch, hnone⟩
  unfold finished at hfin ⊢
  rw [huhq] at hfin
  exact hfin

theorem sync_times (hfollow : s.lk.follow = none) (hidle : s.idle = false) (httol : s.lk.ttol ≠ 0)
    (hdiff : 2 * s.lk.ttol.toNat < (2 * (time.toNat : Int) + (s.port p).rtt.toNat - 2 * s.time64).natAbs) :
    (∃ s', exec (.sync p h ⟨step, true⟩ time) s = .next s' ∧ s'.pace.state = .aborted ∧ s'.tiles = s.tiles) ∧
    (∃ s', exec (.sync p h ⟨step, false⟩ time) s = .next s' ∧ s'.pace = s.pace ∧ s'.tiles = s.tiles) := by
  have hbeat : ∀ u, OnlyPort p s u → (heartbeat u p step).pace = s.pace ∧ (heartbeat u p step).tiles = s.tiles ∧
      (heartbeat u p step).lk = u.lk ∧ (heartbeat u p step).time64 = s.time64 := by
    intro u honly
    rw [heartbeat_frame, honly.frame]
    exact ⟨rfl, rfl, rfl, rfl⟩
  constructor
  · obtain ⟨u, honly, hrtt, hexec⟩ := sync_plain step time true hheard hfollow
    obtain ⟨hpace, htiles, hlk, htime⟩ := hbeat u honly
    have httol' : (heartbeat u p step).lk.ttol = s.lk.ttol := by rw [hlk, honly.frame]
    obtain ⟨habort, hsame⟩ := checkTime_aborts (s := heartbeat u p step) (p := p) (time := time) (by unfold State.idle; rw [hpace]; exact hidle)
      (by rw [httol']; exact httol) (by rw [httol', htime, port_of_lk hlk, hrtt]; exact hdiff)
    exact ⟨_, hexec, habort, hsame.trans htiles⟩
  · obtain ⟨u, honly, hrtt, hexec⟩ := sync_plain step time false hheard hfollow
    obtain ⟨hpace, htiles, -⟩ := hbeat u honly
    rw [checkTime_alone] at hexec
    exact ⟨_, hexec, hpace, htiles⟩

end

end

/-- Settles O47: each frame by what hears it, and by what then comes of it. -/
theorem linkReceives : Obligations.LinkReceives := by
  intro s p h x
  refine ⟨fun v toks horder hpos hmax hroom => tokenFrame_accepted horder hpos hmax hroom, fun hheard htxq hlen => idleFrame_heard hheard htxq hlen,
    fun c hc hwf hlisten => ⟨fun hcrc => ?_, fun hcrc hack => ?_⟩,
    fun w r m horder hplain hlen hr => fun hpeer hlow hfree => msgFrame_delivered horder hplain hlen hr hpeer hlow hfree,
    fun ws horder htwin hpos hmax hmsg => msgFrame_twin horder htwin hpos hmax hmsg,
    fun origin cause step horder hidle hstate hnew => abortFrame_aborts horder hidle hstate hnew,
    fun r v hheard hstate hmap => hello_compared v hheard hstate hmap,
    fun r v hheard hup hmap hpeer => hello_unchanged v hheard hup hmap hpeer,
    fun step time runs hheard => ?_⟩
  · have hheader : rxHeader s p h = (badCrc s p, false) := by
      rw [rxHeader]
      exact (if_neg (by simpa using hlisten)).trans (if_pos (by simp [hcrc]))
    exact ⟨_, exec_refusedFrame hc hwf hheader, badCrc_naks s p⟩
  · have hheader : rxHeader s p h = (seqDisagrees s p, false) := by
      rw [rxHeader]
      exact (if_neg (by simpa using hlisten)).trans ((if_neg (by simp [hcrc])).trans (if_pos (by simpa using hack)))
    exact ⟨_, exec_refusedFrame hc hwf hheader, seqDisagrees_fails s p⟩
  · exact ⟨fun hfollow hpaired hport hidle => sync_heartbeat step time runs hheard hfollow hpaired hport hidle,
      fun v t hfollow hidle hcur htime => sync_epoch step time runs hheard hfollow hidle hcur htime,
      fun hfollow hidle httol hdiff => ⟨fun _ => (sync_times step time hheard hfollow hidle httol hdiff).1,
        fun _ => (sync_times step time hheard hfollow hidle httol hdiff).2⟩⟩

end Sys2Proof.Claims
end

section
/-! SUPPORT. Settles O50: what the power manager's rows do to the governed steps, the sensors, the fabric voltage and the clocks, and
the switching of a domain. -/
section

namespace Sys2Proof.Claims

open Sys2Proof Sys2Proof.Machine

/-! ## Bits and domains -/

theorem bitAt_getLsbD {n : Nat} (w : BitVec n) (i : Nat) : bitAt w.toNat i = w.getLsbD i := by
  rw [bitAt, BitVec.getLsbD, Nat.testBit_eq_decide_div_mod_eq]
  rfl

theorem getLsbD_oneHot (n i d : Nat) : (BitVec.ofNat n (2 ^ i)).getLsbD d = (decide (d < n) && decide (i = d)) := by
  rw [BitVec.getLsbD_ofNat, Nat.testBit_two_pow]

theorem bitAt_putBit {n : Nat} (w : BitVec n) {i : Nat} (hi : i < n) (b : Bool) (d : Nat) :
    bitAt (putBit w i b).toNat d = if d = i then b else bitAt w.toNat d := by
  rw [bitAt_getLsbD, bitAt_getLsbD]
  by_cases hw : d < n
  · cases b
    · rw [putBit, if_neg Bool.false_ne_true, BitVec.getLsbD_and, BitVec.getLsbD_not, getLsbD_oneHot]
      by_cases hd : d = i
      · simp [hd]
      · simp [hw, hd, Ne.symm hd]
    · rw [putBit, if_pos rfl, BitVec.getLsbD_or, getLsbD_oneHot]
      by_cases hd : d = i
      · simp [hd, hi]
      · simp [hd, Ne.symm hd]
  · have hhigh : ∀ x : BitVec n, x.getLsbD d = false := fun x => BitVec.getLsbD_of_ge x d (Nat.not_lt.mp hw)
    rw [hhigh, hhigh, if_neg fun h : d = i => hw (h ▸ hi)]

/-- What switching a domain leaves of the power manager and of an abort. -/
structure DomainStep (s s' : State) (d : Nat) (on : Bool) : Prop where
  pwr : s'.pwr = { s.pwr with domOn := putBit s.pwr.domOn d on, switching := s.pwr.switching.filter fun x => x.d != d }
  aborted : s'.pace.state = s.pace.state
  fatal : s'.pace.fatal = s.pace.fatal

theorem leaveUp_pace (s : State) (p : Nat) : (leaveUp s p).pace = s.pace := by
  rw [(leaveUp_leaves s p).1]

theorem leaveUp_pwr (s : State) (p : Nat) : (leaveUp s p).pwr = s.pwr := by
  rw [(leaveUp_leaves s p).1]

theorem twinCheckPort_outside (s : State) : (twinCheckPort s).pwr = s.pwr ∧ (twinCheckPort s).pace = s.pace := by
  unfold twinCheckPort
  split
  · rw [event_low _ 0x0A01 _ (by decide)]
    exact ⟨rfl, rfl⟩
  · exact ⟨rfl, rfl⟩

theorem loseDomain_outside (s : State) (d : Nat) :
    (loseDomain s d).pwr = s.pwr ∧ (loseDomain s d).pace.state = s.pace.state ∧ (loseDomain s d).pace.fatal = s.pace.fatal := by
  unfold loseDomain
  split
  · exact ⟨rfl, rfl, rfl⟩
  · split
    · obtain ⟨hpwr, hpace⟩ := twinCheckPort_outside ((leaveUp s (d - 6)).setPort (d - 6) {})
      rw [hpwr, hpace]
      exact ⟨leaveUp_pwr s _, congrArg Pace.state (leaveUp_pace s _), congrArg Pace.fatal (leaveUp_pace s _)⟩
    · repeat' split
      all_goals exact ⟨rfl, rfl, rfl⟩

theorem setDomain_steps (s : State) (d : Nat) (on : Bool) : DomainStep s (setDomain s d on) d on := by
  unfold setDomain
  dsimp only
  split
  · subst on
    split
    · exact ⟨rfl, rfl, rfl⟩
    · split <;> exact ⟨rfl, rfl, rfl⟩
  · have hon : on = false := by simpa using ‹¬on = true›
    subst hon
    obtain ⟨hpwr, hstate, hfatal⟩ := loseDomain_outside { s with pwr := { s.pwr with
      domOn := putBit s.pwr.domOn d false, switching := s.pwr.switching.filter fun x => x.d != d } } d
    exact ⟨hpwr, hstate, hfatal⟩

/-- Switching a list of domains off one after the other. -/
def domainsOff (s : State) (ds : List Nat) : State := ds.foldl (fun s d => setDomain s d false) s

theorem domainsOff_cons (s : State) (d : Nat) (ds : List Nat) : domainsOff s (d :: ds) = domainsOff (setDomain s d false) ds := rfl

theorem domainsOff_off (s : State) (ds : List Nat) (hds : ∀ d ∈ ds, d < 30) :
    (domainsOff s ds).pace.state = s.pace.state ∧ (domainsOff s ds).pace.fatal = s.pace.fatal ∧
    (∃ on sw, (domainsOff s ds).pwr = { s.pwr with domOn := on, switching := sw }) ∧
    ∀ d, (domainsOff s ds).domain d = (s.domain d && !ds.contains d) := by
  induction ds generalizing s with
  | nil => exact ⟨rfl, rfl, ⟨_, _, rfl⟩, fun d => by simp [domainsOff]⟩
  | cons e ds ih =>
    obtain ⟨hpwr, hstate, hfatal⟩ := setDomain_steps s e false
    obtain ⟨htail, hfat, ⟨on, sw, hlast⟩, hdom⟩ := ih (setDomain s e false) fun d hd => hds d (List.mem_cons_of_mem _ hd)
    rw [domainsOff_cons]
    refine ⟨htail.trans hstate, hfat.trans hfatal, ⟨on, sw, ?_⟩, fun d => ?_⟩
    · rw [hlast, hpwr]
    · have hbit : (setDomain s e false).domain d = if d = e then false else s.domain d := by
        unfold State.domain
        rw [hpwr]
        exact bitAt_putBit _ (hds e List.mem_cons_self) _ d
      rw [hdom d, hbit]
      by_cases hde : d = e
      · simp [hde]
      · simp [hde]

/-- A device-fatal event is fatal, an abort under way or not (R461). -/
theorem event_fatal (s : State) {c : Nat} (h : evSev c = 3) (a : EvArgs) : (event s c a).pace.fatal = true := by
  by_cases hstate : s.pace.state = .aborted
  · unfold event
    rw [if_neg (by rw [h]; decide)]
    unfold abortWith
    rw [h]
    dsimp only
    split
    · exact Bool.or_true _
    · exact Bool.or_true _
  · exact (abortedBy_event hstate (by rw [h]; decide) a).fatal (.inr h)

/-! ## The cap governor (R405) -/

theorem changePwr_outside (s : State) (f : Pwr → Pwr) : changePwr s f = { s with pwr := (changePwr s f).pwr } := rfl

/-- The voltage limit after a window of power p (R405). -/
def governedVcap (w : Pwr) (p : Nat) : BitVec 4 :=
  if 16 * w.cap.toNat < p ∧ w.floor.toNat < w.vcap.toNat then w.vcap - 1
  else if p + 16 * w.hyst.toNat < 16 * w.cap.toNat ∧ 10 ≤ w.calm + 1 ∧ w.vcap.toNat < 15 then w.vcap + 1 else w.vcap

theorem eventIf_outside (s : State) (b : Bool) (c : Nat) :
    (if b then event s c else s).pwr = s.pwr ∧ (if b then event s c else s).tiles = s.tiles := by
  cases b
  · exact ⟨rfl, rfl⟩
  · exact ⟨event_pwr s c {}, event_tiles s c {}⟩

theorem governedVcap_eq (w : Pwr) (p : Nat) :
    (if decide (16 * w.cap.toNat < p) && decide (w.floor.toNat < w.vcap.toNat) then w.vcap - 1
      else if !(decide (16 * w.cap.toNat < p) && decide (w.floor.toNat < w.vcap.toNat)) &&
        decide (p < 16 * w.cap.toNat - 16 * w.hyst.toNat) &&
        decide (10 ≤ if decide (16 * w.cap.toNat < p) && decide (w.floor.toNat < w.vcap.toNat) then 0
          else if decide (p < 16 * w.cap.toNat - 16 * w.hyst.toNat) then w.calm + 1 else 0) &&
        decide (w.vcap.toNat < 15) then w.vcap + 1 else w.vcap) = governedVcap w p := by
  unfold governedVcap
  by_cases hlower : 16 * w.cap.toNat < p ∧ w.floor.toNat < w.vcap.toNat
  · simp [hlower]
  · have hlow : (decide (16 * w.cap.toNat < p) && decide (w.floor.toNat < w.vcap.toNat)) = false := by simpa using hlower
    have hsub : p < 16 * w.cap.toNat - 16 * w.hyst.toNat ↔ p + 16 * w.hyst.toNat < 16 * w.cap.toNat := by omega
    rw [hlow, if_neg hlower]
    by_cases hbelow : p + 16 * w.hyst.toNat < 16 * w.cap.toNat
    · simp [hsub, hbelow]
    · simp [hsub, hbelow]

theorem capWarned_outside (s : State) (b : Bool) :
    (if b then event { s with pwr := { s.pwr with capWarned := true } } 0x0B02 else s).pwr.power = s.pwr.power ∧
    (if b then event { s with pwr := { s.pwr with capWarned := true } } 0x0B02 else s).pwr.peak = s.pwr.peak ∧
    (if b then event { s with pwr := { s.pwr with capWarned := true } } 0x0B02 else s).pwr.vcap = s.pwr.vcap ∧
    (if b then event { s with pwr := { s.pwr with capWarned := true } } 0x0B02 else s).tiles = s.tiles := by
  cases b
  · exact ⟨rfl, rfl, rfl, rfl⟩
  · rw [if_pos rfl, event_pwr, event_tiles]
    exact ⟨rfl, rfl, rfl, rfl⟩

theorem governor_governs (s : State) (p : Nat) :
    (governor s p).pwr.power = s.pwr.power ∧ (governor s p).pwr.peak = s.pwr.peak ∧ (governor s p).tiles = s.tiles ∧
    (governor s p).pwr.vcap = governedVcap s.pwr p := by
  unfold governor
  refine ⟨(capWarned_outside _ _).1.trans ?_, (capWarned_outside _ _).2.1.trans ?_, (capWarned_outside _ _).2.2.2.trans ?_,
    (capWarned_outside _ _).2.2.1.trans ?_⟩
  · exact (congrArg Pwr.power (eventIf_outside _ _ 0x0B01).1).trans rfl
  · exact (congrArg Pwr.peak (eventIf_outside _ _ 0x0B01).1).trans rfl
  · exact (eventIf_outside _ _ 0x0B01).2.trans rfl
  · exact (congrArg Pwr.vcap (eventIf_outside _ _ 0x0B01).1).trans (governedVcap_eq s.pwr p)

theorem capGovernor_governs (s : State) (p : BitVec 16) :
    (capGovernor s p).pwr.power = p ∧ (capGovernor s p).pwr.peak = (if s.pwr.peak < p then p else s.pwr.peak) ∧
    (capGovernor s p).tiles = s.tiles ∧ (capGovernor s p).pwr.vcap = governedVcap s.pwr p.toNat :=
  governor_governs { s with pwr := { s.pwr with power := p, lastWin := p.toNat, peak := if s.pwr.peak < p then p else s.pwr.peak } } p.toNat

/-! ## Sensors (R407, R409) -/

/-- No sensor of a list that stands reads above the hottest, which is one of them. -/
theorem hottest_max (p : Pwr) (l : List Nat) (hl : l ≠ []) : ∃ i ∈ l, hottest p l = some (i, mget 0 p.sens i) ∧
    ∀ j ∈ l, (mget 0 p.sens j).toInt ≤ (mget 0 p.sens i).toInt := by
  induction l with
  | nil => exact absurd rfl hl
  | cons i r ih =>
    rcases List.eq_nil_or_concat r with hr | ⟨_, _, hr⟩
    · subst hr
      exact ⟨i, List.mem_cons_self, rfl, by simp⟩
    · obtain ⟨j, hj, hhot, hmax⟩ := ih (by simp [hr])
      have hstep : hottest p (i :: r) = if (mget 0 p.sens i).toInt < (mget 0 p.sens j).toInt
          then some (j, mget 0 p.sens j) else some (i, mget 0 p.sens i) := by
        rw [hottest, hhot]
        rfl
      rw [hstep]
      by_cases hless : (mget 0 p.sens i).toInt < (mget 0 p.sens j).toInt
      · refine ⟨j, List.mem_cons_of_mem _ hj, if_pos hless, fun k hk => ?_⟩
        rcases List.mem_cons.mp hk with rfl | hk
        · exact hless.le
        · exact hmax k hk
      · refine ⟨i, List.mem_cons_self, if_neg hless, fun k hk => ?_⟩
        rcases List.mem_cons.mp hk with rfl | hk
        · exact le_rfl
        · exact (hmax k hk).trans (not_lt.mp hless)

/-- TJ with its sensor is the highest of the readings in use (R407). -/
def TjHighest (p : Pwr) : Prop :=
  (∃ i < 48, p.seen.contains i = true ∧ p.excl.contains i = false ∧ mget 0 p.sens i = p.tj ∧ p.tjSens.toNat = i) ∧
  ∀ i < 48, p.seen.contains i = true → p.excl.contains i = false → (mget 0 p.sens i).toInt ≤ p.tj.toInt

theorem updateTj_highest {p : Pwr} {k : Nat} (hk : k < 48) (hseen : p.seen.contains k = true) (hexcl : p.excl.contains k = false) :
    TjHighest (updateTj p) := by
  have huse : ∀ i, i ∈ (List.range 48).filter (fun i => p.seen.contains i && !p.excl.contains i) ↔
      i < 48 ∧ p.seen.contains i = true ∧ p.excl.contains i = false := by simp
  obtain ⟨i, hi, hhot, hmax⟩ := hottest_max p _ (List.ne_nil_of_mem ((huse k).mpr ⟨hk, hseen, hexcl⟩))
  obtain ⟨hlt, hin, hout⟩ := (huse i).mp hi
  have htj : updateTj p = { p with tj := mget 0 p.sens i, tjSens := BitVec.ofNat 6 i } := by rw [updateTj, hhot]
  rw [htj]
  refine ⟨⟨i, hlt, hin, hout, rfl, ?_⟩, fun j hj hs he => hmax j ((huse j).mpr ⟨hj, hs, he⟩)⟩
  rw [BitVec.toNat_ofNat]
  exact Nat.mod_eq_of_lt (by omega)

theorem updateTj_leaves (p : Pwr) : ∃ t i, updateTj p = { p with tj := t, tjSens := i } := by
  unfold updateTj
  split
  · exact ⟨_, _, rfl⟩
  · exact ⟨_, _, rfl⟩

/-- A sensor is excluded, and PACE stands. -/
theorem excludeSensor_excludes (s : State) (i : Nat) :
    (excludeSensor s i).pwr.excl = s.pwr.excl ++ [i] ∧ (excludeSensor s i).pace = s.pace := by
  obtain ⟨t, j, htj⟩ := updateTj_leaves { s.pwr with excl := s.pwr.excl ++ [i] }
  rw [excludeSensor, event_low _ 0x0B06 _ (by decide), htj]
  exact ⟨rfl, rfl⟩

theorem blockMates_other (i : Nat) : i ∉ blockMates i := by simp [blockMates]

/-- The mates that watch a sensor's reading leave its own watch. -/
theorem noteMates_own (m : AMap SensorWatch) (l : List Nat) (i k : Nat) (q : Int) (hk : k ∉ l) :
    mget {} (l.foldl (fun w j => mset {} w j (noteMate (mget {} w j) i q)) m) k = mget {} m k := by
  induction l generalizing m with
  | nil => rfl
  | cons j l ih =>
    rw [List.foldl_cons, ih _ fun h => hk (List.mem_cons_of_mem _ h)]
    exact mget_mset_other _ _ _ _ _ _ fun h => hk (h ▸ List.mem_cons_self)

theorem noteReading_own (p : Pwr) (now i : Nat) (t : BitVec 16) : mget {} (noteReading p now i t) i =
    if p.seen.contains i && mget 0 p.sens i == t then mget {} p.watch i else freshWatch p now i := by
  unfold noteReading
  dsimp only
  split
  · exact noteMates_own _ _ _ _ _ (blockMates_other i)
  · exact mget_mset_self _ _ _ _

theorem freshWatch_moves (p : Pwr) (now i : Nat) : stuckSensor (freshWatch p now i) now = false := by
  simp [stuckSensor, freshWatch]

/-- Sensor i reads t as it did 100 ms ago, while another of its block has moved by 2 °C or more (R407). -/
def Stuck (s : State) (i : Nat) (t : BitVec 16) : Prop :=
  s.pwr.seen.contains i = true ∧ mget 0 s.pwr.sens i = t ∧ (mget {} s.pwr.watch i).since + 100000000 ≤ s.devTime ∧
    ∃ m ∈ (mget {} s.pwr.watch i).mates, m.2.1 + 8 ≤ m.2.2

theorem stuckSensor_noteReading (s : State) (i : Nat) (t : BitVec 16) :
    stuckSensor (mget {} (noteReading s.pwr s.devTime i t) i) s.devTime = true ↔ Stuck s i t := by
  rw [noteReading_own]
  unfold Stuck
  by_cases hsame : s.pwr.seen.contains i = true ∧ mget 0 s.pwr.sens i = t
  · obtain ⟨hseen, hsens⟩ := hsame
    rw [if_pos (by rw [hseen, hsens, Bool.true_and]; exact beq_self_eq_true t)]
    simp only [hseen, hsens, stuckSensor, Bool.and_eq_true, decide_eq_true_eq, List.any_eq_true, true_and]
  · rw [if_neg (by simpa [Bool.and_eq_true] using hsame), freshWatch_moves]
    constructor
    · intro h
      exact absurd h Bool.false_ne_true
    · rintro ⟨hseen, hsens, -, -⟩
      exact absurd ⟨hseen, hsens⟩ hsame

/-- The state once a reading in range is taken. -/
def taken (s : State) (i : Nat) (t : BitVec 16) : State :=
  { s with pwr := updateTj { s.pwr with
      sens := mset 0 s.pwr.sens i t, seen := if s.pwr.seen.contains i then s.pwr.seen else s.pwr.seen ++ [i]
      watch := noteReading s.pwr s.devTime i t } }

theorem taken_reads (s : State) (i : Nat) (t : BitVec 16) : mget 0 (taken s i t).pwr.sens i = t ∧
    (taken s i t).pwr.excl = s.pwr.excl ∧ (taken s i t).pwr.thermOff = s.pwr.thermOff := by
  unfold taken
  obtain ⟨u, j, htj⟩ := updateTj_leaves { s.pwr with
      sens := mset 0 s.pwr.sens i t, seen := if s.pwr.seen.contains i then s.pwr.seen else s.pwr.seen ++ [i]
      watch := noteReading s.pwr s.devTime i t }
  rw [htj]
  exact ⟨mget_mset_self _ _ _ _, rfl, rfl⟩

theorem taken_highest {s : State} {i : Nat} (hi : i < 48) (hexcl : s.pwr.excl.contains i = false) (t : BitVec 16) :
    TjHighest (taken s i t).pwr := by
  refine updateTj_highest hi ?_ hexcl
  dsimp only
  split
  · assumption
  · simp

section
variable {s : State} {i : Nat} {t : BitVec 16} (hin : s.pwr.excl.contains i = false)
include hin

theorem thermalRead_out (h : t.toInt < -220 ∨ 600 < t.toInt) : thermalRead s i t = excludeSensor s i := by
  rw [thermalRead, if_neg (by rw [hin]; exact Bool.false_ne_true)]
  exact if_pos h

theorem thermalRead_stuck (h : ¬ (t.toInt < -220 ∨ 600 < t.toInt)) (hstuck : Stuck s i t) :
    thermalRead s i t = excludeSensor (taken s i t) i := by
  rw [thermalRead, if_neg (by rw [hin]; exact Bool.false_ne_true)]
  exact (if_neg h).trans (if_pos ((stuckSensor_noteReading s i t).mpr hstuck))

theorem thermalRead_takes (h : ¬ (t.toInt < -220 ∨ 600 < t.toInt)) (hstuck : ¬ Stuck s i t) :
    thermalRead s i t = if 4 * (tcrit s : Int) ≤ (taken s i t).pwr.tj.toInt then thermalShutdown (taken s i t) else taken s i t := by
  rw [thermalRead, if_neg (by rw [hin]; exact Bool.false_ne_true)]
  exact (if_neg h).trans (if_neg fun hs => hstuck ((stuckSensor_noteReading s i t).mp hs))

/-- A sensor that reads out of range or stands still is excluded. -/
theorem thermalRead_excludes (h : t.toInt < -220 ∨ 600 < t.toInt ∨ Stuck s i t) :
    (thermalRead s i t).pwr.excl = s.pwr.excl ++ [i] ∧ (thermalRead s i t).pace = s.pace := by
  by_cases hout : t.toInt < -220 ∨ 600 < t.toInt
  · rw [thermalRead_out hin hout]
    exact excludeSensor_excludes s i
  · have hstuck : Stuck s i t := by
      rcases h with h | h | h
      · exact absurd (.inl h) hout
      · exact absurd (.inr h) hout
      · exact h
    rw [thermalRead_stuck hin hout hstuck]
    obtain ⟨hexcl, hpace⟩ := excludeSensor_excludes (taken s i t) i
    exact ⟨hexcl.trans (congrArg (· ++ [i]) (taken_reads s i t).2.1), hpace⟩

end

/-- Domains 6 to 29, which a thermal shutdown switches off at once. -/
def shutDomains : List Nat := (List.range 24).map (6 + ·)

/-- A thermal shutdown: the device-fatal event, then domains off one after the other. -/
theorem thermalShutdown_eq {s : State} (h : s.pwr.thermOff = false) :
    ∃ u : State, u = domainsOff (event { s with pwr := { s.pwr with thermOff := true, memOffT := some s.devTime } } 0x0B05) shutDomains ∧
      (thermalShutdown s = u ∨ thermalShutdown s = domainsOff { u with pwr := { u.pwr with memOffT := none } } [3, 4, 5]) := by
  refine ⟨_, rfl, ?_⟩
  have heq : thermalShutdown s = if (domainsOff (event { s with pwr := { s.pwr with thermOff := true, memOffT := some s.devTime } } 0x0B05)
      shutDomains).flt.dumpState = .writing then domainsOff (event { s with pwr := { s.pwr with
        thermOff := true, memOffT := some s.devTime } } 0x0B05) shutDomains else memoryOff (domainsOff (event { s with pwr := { s.pwr with
        thermOff := true, memOffT := some s.devTime } } 0x0B05) shutDomains) := by
    rw [thermalShutdown, if_neg (by rw [h]; exact Bool.false_ne_true), domainsOff, shutDomains, List.foldl_map]
  rw [heq]
  split
  · exact .inl rfl
  · exact .inr rfl

/-- At TCRIT the device goes off and stops for good, its readings kept (R409). -/
theorem thermalShutdown_off {s : State} (h : s.pwr.thermOff = false) :
    ((thermalShutdown s).pace.state = .aborted ∧ (thermalShutdown s).pace.fatal = true ∧
      ∀ d, 6 ≤ d → d < 30 → (thermalShutdown s).domain d = false) ∧
    ∃ on sw off t, (thermalShutdown s).pwr = { s.pwr with domOn := on, switching := sw, thermOff := off, memOffT := t } := by
  have hshut : ∀ d ∈ shutDomains, d < 30 := by decide
  have hall : ∀ d, 6 ≤ d → d < 30 → shutDomains.contains d = true := by decide
  obtain ⟨u, hu, hcase⟩ := thermalShutdown_eq h
  obtain ⟨hstate, hfatal, ⟨on, sw, hpwr⟩, hdom⟩ := domainsOff_off
    (event { s with pwr := { s.pwr with thermOff := true, memOffT := some s.devTime } } 0x0B05) shutDomains hshut
  rw [← hu] at hstate hfatal hpwr hdom
  rw [event_aborts _ 0x0B05 _ (by decide)] at hstate
  rw [event_fatal _ (by decide)] at hfatal
  rw [event_pwr] at hpwr
  have hoff : ∀ d, 6 ≤ d → d < 30 → u.domain d = false := by
    intro d hlow hhigh
    rw [hdom, hall d hlow hhigh, Bool.not_true, Bool.and_false]
  rcases hcase with hcase | hcase
  · rw [hcase]
    exact ⟨⟨hstate, hfatal, hoff⟩, _, _, _, _, hpwr⟩
  · obtain ⟨hstate', hfatal', ⟨on', sw', hpwr'⟩, hdom'⟩ := domainsOff_off { u with pwr := { u.pwr with memOffT := none } } [3, 4, 5]
      (by decide)
    rw [hcase]
    refine ⟨⟨hstate'.trans hstate, hfatal'.trans hfatal, fun d hlow hhigh => ?_⟩, on', sw', true, none, ?_⟩
    · rw [hdom']
      exact (congrArg (· && _) (hoff d hlow hhigh)).trans (Bool.false_and _)
    · rw [hpwr', hpwr]

/-- A reading in range is taken: TJ follows it, and at TCRIT the device goes off (R407, R409). -/
theorem thermalRead_reads {s : State} {i : Nat} {t : BitVec 16} (hi : i < 48) (hin : s.pwr.excl.contains i = false)
    (hrange : ¬ (t.toInt < -220 ∨ 600 < t.toInt)) (hstuck : ¬ Stuck s i t) (crit : Int) (hcrit : 4 * (tcrit s : Int) = crit) :
    mget 0 (thermalRead s i t).pwr.sens i = t ∧ (thermalRead s i t).pwr.excl = s.pwr.excl ∧ TjHighest (thermalRead s i t).pwr ∧
    ((thermalRead s i t).pwr.tj.toInt < crit → thermalRead s i t = { s with pwr := (thermalRead s i t).pwr }) ∧
    (crit ≤ (thermalRead s i t).pwr.tj.toInt → s.pwr.thermOff = false → (thermalRead s i t).pace.state = .aborted ∧
      (thermalRead s i t).pace.fatal = true ∧ ∀ d, 6 ≤ d → d < 30 → (thermalRead s i t).domain d = false) := by
  obtain ⟨hsens, hexcl, htherm⟩ := taken_reads s i t
  have htj := taken_highest hi hin t
  have hframe : taken s i t = { s with pwr := (taken s i t).pwr } := rfl
  rw [thermalRead_takes hin hrange hstuck, hcrit]
  by_cases hover : crit ≤ (taken s i t).pwr.tj.toInt
  · rw [if_pos hover]
    by_cases hoff : s.pwr.thermOff = true
    · have hstands : thermalShutdown (taken s i t) = taken s i t := if_pos (htherm.trans hoff)
      rw [hstands]
      exact ⟨hsens, hexcl, htj, fun _ => hframe, fun _ h => absurd (h.symm.trans hoff) Bool.false_ne_true⟩
    · have hon : (taken s i t).pwr.thermOff = false := htherm.trans (Bool.eq_false_iff.mpr hoff)
      obtain ⟨hdown, on, sw, off, m, hpwr⟩ := thermalShutdown_off hon
      have hkept : (thermalShutdown (taken s i t)).pwr.tj = (taken s i t).pwr.tj := by rw [hpwr]
      refine ⟨?_, ?_, ?_, ?_, fun _ _ => hdown⟩
      · rw [hpwr]
        exact hsens
      · rw [hpwr]
        exact hexcl
      · rw [hpwr]
        exact htj
      · intro hlow
        rw [hkept] at hlow
        exact absurd hover (not_le.mpr hlow)
  · rw [if_neg hover]
    exact ⟨hsens, hexcl, htj, fun _ => hframe, fun h => absurd h hover⟩

/-! ## The fabric voltage (R401, R403, R411) -/

theorem sendVoltage_sends (s : State) : (sendVoltage s).pwr.wrOut = some (BitVec.ofNat 4 s.pwr.veff) ∧
    (sendVoltage s).pwr.wrDue = false ∧ (sendVoltage s).pwr.retryT = none ∧ sendVoltage s = { s with pwr := (sendVoltage s).pwr } :=
  ⟨rfl, rfl, rfl, rfl⟩

theorem voltageWrite_due {s : State} (hdue : s.pwr.wrDue = true) (hout : s.pwr.wrOut = none) (hretry : s.pwr.retryT = none)
    (hco : s.pwr.co = false) : voltageWrite s = sendVoltage s := by
  rw [voltageWrite, State.changing, hdue, hout, hretry, hco]
  exact if_pos rfl

theorem avsRetry_due {s : State} {t : Nat} (hretry : s.pwr.retryT = some t) (htime : t + 1000000 ≤ s.devTime) (hco : s.pwr.co = false) :
    avsRetry s = sendVoltage s := by
  rw [avsRetry, State.changing, hretry, hco]
  exact if_pos (by rw [decide_eq_true htime]; rfl)

theorem voltageAck_fails {s : State} {v : BitVec 4} (hout : s.pwr.wrOut = some v) (h : s.pwr.wrFails + 1 < 3) :
    voltageAck s false = { s with pwr := { s.pwr with avserr := satInc s.pwr.avserr, wrFails := s.pwr.wrFails + 1 } } := by
  rw [voltageAck, hout]
  exact if_pos h

theorem voltageAck_givesUp {s : State} {v : BitVec 4} (hout : s.pwr.wrOut = some v) (h : 3 ≤ s.pwr.wrFails + 1) :
    (voltageAck s false).pwr.wrOut = none ∧ (voltageAck s false).pwr.retryT = some s.devTime ∧
    (voltageAck s false).pwr.avserr = satInc s.pwr.avserr ∧ (voltageAck s false).pace = s.pace := by
  have heq : voltageAck s false = event { s with pwr := { s.pwr with
      avserr := satInc s.pwr.avserr, wrFails := s.pwr.wrFails + 1, wrOut := none, retryT := some s.devTime } } 0x0B07 := by
    rw [voltageAck, hout]
    exact if_neg (Nat.not_lt.mpr h)
  rw [heq, event_low _ 0x0B07 _ (by decide)]
  exact ⟨rfl, rfl, rfl, rfl⟩

/-- VFAB reads m mV within the band of 3 % about v_eff's nominal voltage. -/
def inBandOf (s : State) (m : Nat) : Bool :=
  !decide (100 * m < 97 * nominalMv s.pwr.veff) && decide (100 * m ≤ 103 * nominalMv s.pwr.veff)

/-- The state once a valid readback is noted. -/
def notedReadback (s : State) (m : BitVec 16) : State :=
  { s with pwr := { s.pwr with vread := m, rdFails := 0, vinBand := inBandOf s m.toNat
                               vbandWarned := if inBandOf s m.toNat then false else s.pwr.vbandWarned } }

/-- The state once a readback without a valid response is noted. -/
def notedFailure (s : State) : State :=
  if s.pwr.rdFails + 1 < 3 then { s with pwr := { s.pwr with avserr := satInc s.pwr.avserr, rdFails := s.pwr.rdFails + 1 } }
  else event { s with pwr := { s.pwr with avserr := satInc s.pwr.avserr, rdFails := 0 } } 0x0B07

theorem vfabReadback_none (s : State) : vfabReadback s none =
    if lateSettle (notedFailure s) && !(notedFailure s).pwr.vinBand then warnLate (notedFailure s) (notedFailure s).pwr.vread.toNat
    else notedFailure s := rfl

theorem vfabReadback_some (s : State) (m : BitVec 16) : vfabReadback s (some m) =
    if lateSettle (notedReadback s m) && !inBandOf s m.toNat then warnLate (notedReadback s m) m.toNat
    else if decide (100 * m.toNat < 97 * nominalMv s.pwr.veff) && !settling s && !s.pwr.co && !s.pwr.vbandWarned then
      event { notedReadback s m with pwr := { (notedReadback s m).pwr with vbandWarned := true } } 0x0B08 { detail := two m.toNat 0 }
    else notedReadback s m := rfl

theorem warnLate_warns (s : State) (mv : Nat) : (warnLate s mv).pwr = { s.pwr with coWarn := true } ∧ (warnLate s mv).pace = s.pace := by
  rw [warnLate, event_low _ 0x0B08 _ (by decide)]
  exact ⟨rfl, rfl⟩

theorem warnLate_record {s : State} (h : s.hq.evq.length < 256) (mv : Nat) : ∃ e ∈ (warnLate s mv).hq.evq, e.code = 0x0B08 := by
  rw [warnLate, event_evq (by decide) (by decide)]
  rw [if_pos h]
  exact ⟨_, List.mem_append_right _ List.mem_cons_self, rfl⟩

theorem vfabReadback_notes (s : State) (m : BitVec 16) : (vfabReadback s (some m)).pwr.vread = m ∧
    (vfabReadback s (some m)).pwr.rdFails = 0 ∧ (vfabReadback s (some m)).pace = s.pace ∧
    (vfabReadback s (some m)).pwr.vinBand = inBandOf s m.toNat := by
  rw [vfabReadback_some]
  split
  · obtain ⟨hpwr, hpace⟩ := warnLate_warns (notedReadback s m) m.toNat
    rw [hpwr, hpace]
    exact ⟨rfl, rfl, rfl, rfl⟩
  · split
    · rw [event_low _ 0x0B08 _ (by decide)]
      exact ⟨rfl, rfl, rfl, rfl⟩
    · exact ⟨rfl, rfl, rfl, rfl⟩

theorem inBandOf_iff (s : State) (m : Nat) : inBandOf s m = true ↔
    97 * (550 + 20 * s.pwr.veff) ≤ 100 * m ∧ 100 * m ≤ 103 * (550 + 20 * s.pwr.veff) := by
  rw [inBandOf, nominalMv, Bool.and_eq_true, Bool.not_eq_true', decide_eq_false_iff_not, decide_eq_true_iff, not_lt]

theorem notedFailure_notes (s : State) : (∃ n, (notedFailure s).pwr = { s.pwr with avserr := satInc s.pwr.avserr, rdFails := n }) ∧
    (notedFailure s).devTime = s.devTime ∧ (notedFailure s).hq.evq.length ≤ s.hq.evq.length + 1 := by
  unfold notedFailure
  split
  · exact ⟨⟨_, rfl⟩, rfl, Nat.le_succ _⟩
  · refine ⟨⟨0, event_pwr _ _ _⟩, event_devTime _ _ _, ?_⟩
    rw [event_evq (by decide) (by decide)]
    split
    · simp
    · exact Nat.le_succ _

theorem vfabReadback_fails (s : State) : (vfabReadback s none).pwr.avserr = satInc s.pwr.avserr ∧
    (vfabReadback s none).pwr.vread = s.pwr.vread := by
  obtain ⟨⟨n, hpwr⟩, -, -⟩ := notedFailure_notes s
  rw [vfabReadback_none]
  split
  · rw [(warnLate_warns _ _).1, hpwr]
    exact ⟨rfl, rfl⟩
  · rw [hpwr]
    exact ⟨rfl, rfl⟩

section
variable {s : State} (hco : s.pwr.co = true) (hwarn : s.pwr.coWarn = false)
  (hlate : s.pwr.coT + max 1 s.pwr.settle.toNat * 1000 + 1000000 ≤ s.devTime) (hroom : s.hq.evq.length < 255)
include hco hwarn hlate

theorem lateSettle_late : lateSettle s = true := by
  rw [lateSettle, hco, hwarn, decide_eq_true hlate]
  rfl

include hroom

/-- A changeover out of band beyond its time is reported (R411). -/
theorem vfabReadback_late (o : Option (BitVec 16))
    (ho : (o = none ∧ s.pwr.vinBand = false) ∨ (∃ m, o = some m ∧
      (100 * m.toNat < 97 * (550 + 20 * s.pwr.veff) ∨ 103 * (550 + 20 * s.pwr.veff) < 100 * m.toNat))) :
    (vfabReadback s o).pwr.coWarn = true ∧ (vfabReadback s o).pwr.co = true ∧ ∃ e ∈ (vfabReadback s o).hq.evq, e.code = 0x0B08 := by
  rcases ho with ⟨rfl, hband⟩ | ⟨m, rfl, hout⟩
  · obtain ⟨⟨n, hpwr⟩, htime, hlen⟩ := notedFailure_notes s
    have hstill : lateSettle (notedFailure s) = true := by
      rw [lateSettle, hpwr, htime]
      exact lateSettle_late hco hwarn hlate
    have hout : (notedFailure s).pwr.vinBand = false := by rw [hpwr, hband]
    rw [vfabReadback_none, if_pos (by rw [hstill, hout]; rfl)]
    refine ⟨?_, ?_, warnLate_record (by omega) _⟩
    · rw [(warnLate_warns _ _).1]
    · rw [(warnLate_warns _ _).1, hpwr]
      exact hco
  · have hstill : lateSettle (notedReadback s m) = true := lateSettle_late hco hwarn hlate
    have hband : inBandOf s m.toNat = false := Bool.eq_false_iff.mpr fun h => by
      have hin := (inBandOf_iff s m.toNat).mp h
      omega
    rw [vfabReadback_some, if_pos (by rw [hstill, hband]; rfl)]
    refine ⟨?_, ?_, warnLate_record (s := notedReadback s m) (hroom.trans (by decide)) _⟩
    · rw [(warnLate_warns _ _).1]
    · rw [(warnLate_warns _ _).1]
      exact hco

end

/-! ## Clock steps and rate (R295, R404) -/

theorem clockStep_steps (s : State) (mem mgmt : BitVec 2) (hheld : s.pwr.memHeld = false) :
    (clockStep s mem mgmt).pwr.mem = mem ∧ (clockStep s mem mgmt).pwr.mgmt = mgmt ∧
    (clockStep s mem mgmt).pwr.mgmtRun = (if s.pwr.co then s.pwr.mgmtRun else mgmt) ∧
    (mem ≠ s.pwr.mem → s.mc.trained = true → (clockStep s mem mgmt).mc.rateReq = some mem) ∧
    (mem = s.pwr.mem → (clockStep s mem mgmt).mc = s.mc) := by
  unfold clockStep
  dsimp only
  rw [hheld]
  by_cases hsame : mem = s.pwr.mem
  · rw [if_pos (by simp [hsame])]
    exact ⟨rfl, rfl, rfl, fun h => absurd hsame h, fun _ => rfl⟩
  · rw [if_neg (by simp [hsame])]
    by_cases htrained : s.mc.trained = true
    · rw [if_pos htrained]
      exact ⟨rfl, rfl, rfl, fun _ _ => rfl, fun h => absurd h hsame⟩
    · rw [if_neg htrained]
      exact ⟨rfl, rfl, rfl, fun _ h => absurd h htrained, fun h => absurd h hsame⟩

section
variable {s : State} {r : BitVec 2} (hreq : s.mc.rateReq = some r) (hco : s.pwr.co = false) (hself : s.pwr.selfRefresh = false)
  (hchan : s.mc.chok = 0xFF)
include hreq hco hself hchan

theorem rateChange_quiesces (h : ∃ b ∈ s.se.eng, b.2.bursts ≠ []) : rateChange s = { s with mc := { s.mc with quiesced := true } } := by
  have hout : burstsOut s = true := by simpa [burstsOut] using h
  rw [rateChange, hreq, State.changing, hco, hself, hchan, hout]
  rfl

theorem rateChange_changes (h : ∀ b ∈ s.se.eng, b.2.bursts = []) :
    rateChange s = { s with mc := { s.mc with rate := r, rateReq := none, quiesced := false } } := by
  have hout : burstsOut s = false := by simpa [burstsOut] using h
  rw [rateChange, hreq, State.changing, hco, hself, hchan, hout]
  rfl

end

/-- Settles O50: the power manager's rows, each by what it does to the manager's registers, the event it raises and what it leaves. -/
theorem powerControl : Obligations.PowerControl := by
  unfold Obligations.PowerControl
  intro s w k keep req mem mgmt p
  have hrow : ∀ {off}, opens s 0xB0000 → off / 0x10000 = 0xB → rowOpen s off true = true :=
    fun ho hoff => opens_block ho (hoff.trans (by decide)) (by decide)
  refine ⟨?_, ?_, ?_, ?_, ?_, ?_, ?_, ?_, ?_, ?_, ?_, ?_, ?_⟩
  · obtain ⟨hpower, hpeak, htiles, hvcap⟩ := capGovernor_governs s w
    exact ⟨_, rfl, hpower, hpeak, htiles, hvcap⟩
  · intro hin deg q
    have hlow : ¬ (-220 ≤ (deg ++ q : BitVec 16).toInt ∧ (deg ++ q : BitVec 16).toInt ≤ 600) ↔
        (deg ++ q : BitVec 16).toInt < -220 ∨ 600 < (deg ++ q : BitVec 16).toInt := by omega
    refine ⟨fun hrange hstuck => ?_, fun hout => ?_⟩
    · obtain ⟨hsens, hexcl, ⟨hhot, hmax⟩, hstands, hcrit⟩ := thermalRead_reads k.isLt hin (fun h => hlow.mpr h hrange) hstuck
        (4 * (if s.glb.gradeI then 115 else 105)) (by unfold tcrit; split <;> rfl)
      refine ⟨_, rfl, hsens, hexcl, ?_, ?_, hstands, hcrit⟩
      · obtain ⟨i, hi, hs, he, htj, hid⟩ := hhot
        exact ⟨i, hi, hs, hexcl ▸ he, htj, hid⟩
      · exact fun i hi hs he => hmax i hi hs (hexcl.symm ▸ he)
    · exact ⟨_, rfl, thermalRead_excludes hin hout⟩
  · intro hex deg q
    exact congrArg Host.Outcome.next (if_pos hex)
  · intro ho
    exact congrArg Host.Outcome.next (rowWrite_open s 0xB0008 _ (hrow ho rfl))
  · intro hdue hout hretry hco
    obtain ⟨hsent, hleft, -, hframe⟩ := sendVoltage_sends s
    exact ⟨sendVoltage s, congrArg Host.Outcome.next (voltageWrite_due hdue hout hretry hco), hsent, hleft, hframe⟩
  · intro v hout
    refine ⟨?_, fun h => congrArg Host.Outcome.next (voltageAck_fails hout h), fun h => ⟨_, rfl, voltageAck_givesUp hout h⟩⟩
    exact congrArg Host.Outcome.next (by rw [voltageAck, hout]; rfl)
  · intro t hretry htime hco
    obtain ⟨hsent, -, hnone, -⟩ := sendVoltage_sends s
    exact ⟨sendVoltage s, congrArg Host.Outcome.next (avsRetry_due hretry htime hco), hsent, hnone⟩
  · obtain ⟨hread, hfails, hpace, hband⟩ := vfabReadback_notes s w
    exact ⟨_, rfl, hread, hfails, hpace, hband ▸ inBandOf_iff s w.toNat⟩
  · exact ⟨_, rfl, vfabReadback_fails s⟩
  · intro hco hwarn hlate hroom o ho
    exact ⟨_, rfl, vfabReadback_late hco hwarn hlate hroom o ho⟩
  · intro ho hheld
    exact ⟨clockStep s mem mgmt, congrArg Host.Outcome.next (rowWrite_open s 0xB0030 _ (hrow ho rfl)),
      clockStep_steps s mem mgmt hheld⟩
  · intro r hreq hco hself hchan
    exact ⟨fun h => congrArg Host.Outcome.next (rateChange_quiesces hreq hco hself hchan h),
      fun h => congrArg Host.Outcome.next (rateChange_changes hreq hco hself hchan h)⟩
  · intro ho
    exact congrArg Host.Outcome.next (rowWrite_open s 0xB0000 _ (hrow ho rfl))

end Sys2Proof.Claims
end
end

section
/-! SUPPORT. O52: the power domains (R397 to R399), the supply paths (R410 to R413), banks, rails, the clock and the PMBus. -/

namespace Sys2Proof.Claims

open Sys2Proof Sys2Proof.Machine

/-! ## A request for domains (R397, R398) -/

theorem find_switches (ds : List Nat) (on : Bool) (e : Nat) :
    (ds.map fun d => ({ d := d, on := on } : DomSwitch)).find? (fun x => x.d == e) =
      if ds.contains e then some { d := e, on := on } else none := by
  induction ds with
  | nil => rfl
  | cons d ds ih =>
    rw [List.map_cons, List.find?_cons]
    by_cases hd : d = e
    · subst hd
      simp
    · have hne : (d == e) = false := beq_false_of_ne hd
      rw [hne, ih]
      simp [Ne.symm hd]

/-- The switches under way once those of a list of domains are replaced. -/
theorem find_replaced (l : List DomSwitch) (ds : List Nat) (on : Bool) (e : Nat) :
    ((l.filter fun x => !ds.contains x.d) ++ ds.map fun d => ({ d := d, on := on } : DomSwitch)).find? (fun x => x.d == e) =
      if ds.contains e then some { d := e, on := on } else l.find? fun x => x.d == e := by
  rw [List.find?_append, List.find?_filter, find_switches]
  by_cases he : ds.contains e = true
  · have hnone : l.find? (fun x => decide ((!ds.contains x.d) = true ∧ (x.d == e) = true)) = none := by
      rw [List.find?_eq_none]
      intro x _ hx
      rw [decide_eq_true_iff, beq_iff_eq] at hx
      obtain ⟨hout, rfl⟩ := hx
      rw [he] at hout
      exact Bool.false_ne_true hout
    rw [hnone, Option.none_or, if_pos he, if_pos he]
  · have hsame : (fun x : DomSwitch => decide ((!ds.contains x.d) = true ∧ (x.d == e) = true)) = fun x => x.d == e := by
      funext x
      by_cases hx : x.d = e
      · simpa [hx] using he
      · simp [hx]
    rw [hsame, if_neg he, if_neg he, Option.or_none]

/-- The target of a domain, by the switch under way or, with none, by its state (R399). -/
def targetOf (s : State) (o : Option DomSwitch) (d : Nat) : Bool := (o.map fun x => x.on).getD (s.domain d)

theorem domTarget_eq (s : State) (d : Nat) : domTarget s d = targetOf s (s.pwr.switching.find? fun x => x.d == d) d := by
  unfold domTarget targetOf
  split
  · rename_i h
    rw [h]
    rfl
  · rename_i h
    rw [h]
    rfl

/-- The targets once the switches of a list of domains are replaced: theirs is the new one, the others stand. -/
theorem domTarget_replaced {s s' : State} {ds : List Nat} {on : Bool} (hon : s'.pwr.domOn = s.pwr.domOn)
    (hsw : s'.pwr.switching = (s.pwr.switching.filter fun x => !ds.contains x.d) ++ ds.map fun d => ({ d := d, on := on } : DomSwitch))
    (e : Nat) : domTarget s' e = if ds.contains e then on else domTarget s e := by
  have hdom : s'.domain e = s.domain e := by rw [State.domain, hon, State.domain]
  rw [domTarget_eq, domTarget_eq, hsw, find_replaced]
  by_cases he : ds.contains e = true
  · rw [if_pos he, if_pos he]
    rfl
  · rw [if_neg he, if_neg he, targetOf, hdom, targetOf]

/-- A state but for PWR_DOMREQ's own bits. -/
def asks (s : State) (r : BitVec 30) : State := { s with pwr := { s.pwr with domReq := r } }

/-- The part of a request that names targets which stand. -/
theorem requestDomain_stands {s : State} {w e : Nat} (h : bitAt w e = domTarget s e) : ∃ r, requestDomain s w e = asks s r := by
  rw [requestDomain]
  exact ⟨_, if_pos h⟩

theorem requestDomains_stand (w : Nat) (es : List Nat) {s : State} (h : ∀ e ∈ es, bitAt w e = domTarget s e) :
    ∃ r, es.foldl (fun s e => requestDomain s w e) s = asks s r := by
  induction es generalizing s with
  | nil => exact ⟨s.pwr.domReq, rfl⟩
  | cons e es ih =>
    obtain ⟨r, hr⟩ := requestDomain_stands (h e List.mem_cons_self)
    obtain ⟨r', hr'⟩ := ih (s := asks s r) fun e' he' => h e' (List.mem_cons_of_mem _ he')
    rw [List.foldl_cons, hr, hr']
    exact ⟨r', rfl⟩

/-- Is the change that a request's word w asks of domain d permitted? -/
def permitted (s : State) (w d : Nat) : Bool := if bitAt w d then onPermitted s w d else offPermitted s w d

/-- The part of a request that changes the target of domain d: it is switched, or refused. -/
theorem requestDomain_changes {s : State} {w d : Nat} (h : bitAt w d ≠ domTarget s d) :
    (requestDomain s w d).pwr.domOn = s.pwr.domOn ∧ (requestDomain s w d).tiles = s.tiles ∧
    (∀ e, domTarget (requestDomain s w d) e = if e = d ∧ permitted s w d = true then bitAt w d else domTarget s e) ∧
    (permitted s w d = true → (requestDomain s w d).pwr.keepOn = keptOn s d (bitAt w d)) := by
  have heq : requestDomain s w d = if permitted s w d then
      { s with pwr := { s.pwr with
        domReq := putBit s.pwr.domReq d (bitAt w d)
        keepOn := keptOn s d (bitAt w d)
        switching := (s.pwr.switching.filter fun x => x.d != d) ++ [{ d := d, on := bitAt w d }] } }
      else event s 0x0B0E { srcid := d } := by
    rw [requestDomain]
    exact if_neg h
  rw [heq]
  by_cases hperm : permitted s w d = true
  · rw [if_pos hperm]
    refine ⟨rfl, rfl, fun e => ?_, fun _ => rfl⟩
    have hfilter : (fun x : DomSwitch => x.d != d) = fun x => !([d].contains x.d) := by
      funext x
      rw [List.contains_cons, List.contains_nil, Bool.or_false]
      rfl
    have htarget := domTarget_replaced (s := s) (s' := { s with pwr := { s.pwr with
        domReq := putBit s.pwr.domReq d (bitAt w d)
        keepOn := keptOn s d (bitAt w d)
        switching := (s.pwr.switching.filter fun x => x.d != d) ++ [{ d := d, on := bitAt w d }] } })
      (ds := [d]) (on := bitAt w d) rfl (by rw [hfilter]; rfl) e
    rw [htarget, hperm]
    by_cases he : e = d
    · simp [he]
    · simp [he]
  · rw [if_neg hperm]
    refine ⟨?_, event_tiles _ _ _, fun e => ?_, fun h => absurd h hperm⟩
    · rw [event_pwr]
    · rw [if_neg fun hc => hperm hc.2]
      unfold domTarget State.domain
      rw [event_pwr]

/-- One domain asked for: it is switched, or refused, and no other target moves (R397). -/
theorem domainRequest_one {s : State} {v : BitVec 30} {d : Nat} (hd : d < 30)
    (hother : ∀ e < 30, e ≠ d → bitAt v.toNat e = domTarget s e) (hchange : bitAt v.toNat d ≠ domTarget s d) :
    (domainRequest s v).pwr.domOn = s.pwr.domOn ∧ (domainRequest s v).tiles = s.tiles ∧
    (∀ e, domTarget (domainRequest s v) e = if e = d ∧ permitted s v.toNat d = true then bitAt v.toNat d else domTarget s e) ∧
    (permitted s v.toNat d = true → (domainRequest s v).pwr.keepOn = keptOn s d (bitAt v.toNat d)) := by
  obtain ⟨pre, post, hrange⟩ := List.append_of_mem (List.mem_range.mpr hd)
  have hnodup : (pre ++ d :: post).Nodup := hrange ▸ List.nodup_range
  have hnotin := (List.nodup_middle.mp hnodup).notMem
  have hlt : ∀ e ∈ pre ++ d :: post, e < 30 := fun e he => List.mem_range.mp (hrange ▸ he)
  have hpre : ∀ e ∈ pre, bitAt v.toNat e = domTarget s e := fun e he =>
    hother e (hlt e (List.mem_append_left _ he)) fun h => hnotin (List.mem_append_left _ (h ▸ he))
  obtain ⟨r, hr⟩ := requestDomains_stand v.toNat pre hpre
  obtain ⟨hon, htiles, htarget, hkept⟩ := requestDomain_changes (s := asks s r) hchange
  have hpost : ∀ e ∈ post, bitAt v.toNat e = domTarget (requestDomain (asks s r) v.toNat d) e := by
    intro e he
    have hne : e ≠ d := fun h => hnotin (List.mem_append_right _ (h ▸ he))
    rw [htarget, if_neg fun h => hne h.1]
    exact hother e (hlt e (List.mem_append_right _ (List.mem_cons_of_mem _ he))) hne
  obtain ⟨r', hr'⟩ := requestDomains_stand v.toNat post hpost
  have heq : domainRequest s v = asks (requestDomain (asks s r) v.toNat d) r' := by
    rw [domainRequest, hrange, List.foldl_append, hr, List.foldl_cons, hr']
  rw [heq]
  exact ⟨hon, htiles, htarget, hkept⟩

theorem keptOn_unused {s : State} {d : Nat} (hgrid : 14 ≤ d) (hloaded : s.loaded = true) (hunused : fabUsed s (d - 14) = false) :
    (keptOn s d true).contains d = true := by
  have h : unusedFab s d = true := by
    rw [unusedFab, decide_eq_true hgrid, hloaded, hunused]
    rfl
  rw [keptOn, h]
  simp

/-! ## A switch that completes, and unused fabric (R398, R399) -/

theorem domainComplete_of {s : State} {d : Nat} {x : DomSwitch} (h : s.pwr.switching.find? (fun y => y.d == d) = some x) :
    domainComplete s d = setDomain s d x.on := by
  rw [domainComplete, h]

theorem twinCheckPort_lk (s : State) : (twinCheckPort s).lk = s.lk := by
  unfold twinCheckPort
  split
  · rw [event_low _ 0x0A01 _ (by decide)]
  · rfl

/-- What a domain that goes off loses of the fabric, the engines, the ports and the configuration (Table PWR-1). -/
structure DomainLoss (s s' : State) (d : Nat) : Prop where
  link : 6 ≤ d → d < 10 → s'.port (d - 6) = {}
  nce : d = 11 → s'.nce = {}
  pp : d = 12 → s'.pp = {}
  front : d = 13 → s'.cfg = {} ∧ s'.pace.state = s.pace.state
  fabric : 14 ≤ d → ∀ t, s'.tile t = if gridFab t = d - 14 then {} else s.tile t

theorem mget_filter_kept {α : Type} {d : α} {m : AMap α} {p : Nat × α → Bool} {k : Nat} (h : ∀ v, p (k, v) = true) :
    mget d (m.filter p) k = mget d m k := by
  induction m with
  | nil => rfl
  | cons q r ih =>
    by_cases hq : q.1 = k
    · have hp : p q = true := by
        rw [← hq] at h
        exact h q.2
      rw [List.filter_cons_of_pos hp, mget, mget, if_pos hq, if_pos hq]
    · have hrest : mget d (q :: r) k = mget d r k := by rw [mget, if_neg hq]
      by_cases hp : p q = true
      · rw [List.filter_cons_of_pos hp, mget, if_neg hq, ih, hrest]
      · rw [List.filter_cons_of_neg hp, ih, hrest]

theorem tile_filter (s : State) (b t : Nat) :
    mget {} (s.tiles.filter fun p => gridFab p.1 != b) t = if gridFab t = b then {} else s.tile t := by
  by_cases h : gridFab t = b
  · rw [if_pos h]
    exact mget_filter_none fun _ => by rw [h, bne_self_eq_false]
  · rw [if_neg h]
    exact mget_filter_kept fun _ => bne_iff_ne.mpr h

theorem loseDomain_loses (s : State) (d : Nat) : DomainLoss s (loseDomain s d) d := by
  constructor
  case link =>
    intro hlow hhigh
    have heq : loseDomain s d = twinCheckPort ((leaveUp s (d - 6)).setPort (d - 6) {}) :=
      (if_neg (by omega)).trans (if_pos (by omega))
    rw [heq, port_of_lk (twinCheckPort_lk _), State.setPort_port, if_pos rfl]
  case nce =>
    rintro rfl
    rfl
  case pp =>
    rintro rfl
    rfl
  case front =>
    rintro rfl
    exact ⟨rfl, rfl⟩
  case fabric =>
    intro hgrid t
    have heq : loseDomain s d = { s with
        tiles := s.tiles.filter fun p => gridFab p.1 != d - 14
        edges := s.edges.filter fun p => edgeFab p.1 != d - 14 } := by
      rw [loseDomain, if_neg (by omega), if_neg (by omega), if_neg (by omega), if_neg (by omega), if_neg (by omega),
        if_neg (by omega), if_pos hgrid]
    rw [heq]
    exact tile_filter s (d - 14) t

/-- A switch that completes sets its domain, and one that goes off loses what it held (R399). -/
theorem setDomain_completes (s : State) {d : Nat} (hd : d < 30) (on : Bool) :
    (setDomain s d on).domain d = on ∧ (∀ e < 30, e ≠ d → (setDomain s d on).domain e = s.domain e) ∧
    (∀ y ∈ (setDomain s d on).pwr.switching, y.d ≠ d) ∧ (on = false → DomainLoss s (setDomain s d on) d) := by
  have hstep := setDomain_steps s d on
  have hbit : ∀ e, (setDomain s d on).domain e = if e = d then on else s.domain e := by
    intro e
    unfold State.domain
    rw [hstep.pwr]
    exact bitAt_putBit _ hd on e
  refine ⟨?_, fun e _ he => ?_, fun y hy => ?_, ?_⟩
  · rw [hbit, if_pos rfl]
  · rw [hbit, if_neg he]
  · rw [hstep.pwr] at hy
    exact bne_iff_ne.mp (List.mem_filter.mp hy).2
  · rintro rfl
    have h := loseDomain_loses { s with pwr := { s.pwr with
      domOn := putBit s.pwr.domOn d false, switching := s.pwr.switching.filter fun x => x.d != d } } d
    exact ⟨h.link, h.nce, h.pp, h.front, h.fabric⟩

/-- The domains that AUTOFAB switches off: unused ones that are on and not kept (R398). -/
theorem unusedFabs_contains (s : State) {b : Nat} (hb : b < 16) :
    (unusedFabs s).contains (14 + b) = (!fabUsed s b && domTarget s (14 + b) && !s.pwr.keepOn.contains (14 + b)) := by
  rw [Bool.eq_iff_iff, List.contains_iff_mem, unusedFabs, List.mem_map]
  constructor
  · rintro ⟨c, hc, heq⟩
    obtain rfl : c = b := by omega
    exact (List.mem_filter.mp hc).2
  · intro h
    exact ⟨b, List.mem_filter.mpr ⟨List.mem_range.mpr hb, h⟩, rfl⟩

theorem autofab_switches {s : State} (hauto : s.pwr.autofab = true) (hloaded : s.loaded = true) (hgoal : s.cfg.goal = .none) :
    autofab s = { s with pwr := (autofab s).pwr } ∧
    ∀ b < 16, domTarget (autofab s) (14 + b) = (domTarget s (14 + b) && (fabUsed s b || s.pwr.keepOn.contains (14 + b))) := by
  have heq : autofab s = { s with pwr := { s.pwr with
      switching := (s.pwr.switching.filter fun x => !(unusedFabs s).contains x.d) ++
        (unusedFabs s).map fun d => { d := d, on := false } } } := by
    rw [autofab, hauto, hloaded, hgoal]
    exact if_pos rfl
  have hon : (autofab s).pwr.domOn = s.pwr.domOn := by rw [heq]
  have hsw : (autofab s).pwr.switching = (s.pwr.switching.filter fun x => !(unusedFabs s).contains x.d) ++
      (unusedFabs s).map fun d => { d := d, on := false } := by rw [heq]
  refine ⟨by rw [heq], fun b hb => ?_⟩
  rw [domTarget_replaced hon hsw, unusedFabs_contains s hb]
  cases fabUsed s b <;> cases s.pwr.keepOn.contains (14 + b) <;> cases domTarget s (14 + b) <;> rfl

/-- PD3 to PD5 go off after a thermal shutdown (R409). -/
theorem memoryOff_switches (s : State) : (∀ e, 3 ≤ e → e ≤ 5 → (memoryOff s).domain e = false) ∧ (memoryOff s).mc.ready = false ∧
    (memoryOff s).pwr.memOffT = none := by
  have heq : memoryOff s = domainsOff { s with pwr := { s.pwr with memOffT := none } } [3, 4, 5] := rfl
  obtain ⟨-, -, ⟨on, sw, hpwr⟩, hdom⟩ := domainsOff_off { s with pwr := { s.pwr with memOffT := none } } [3, 4, 5] (by decide)
  have hin : ∀ e, 3 ≤ e → e ≤ 5 → [3, 4, 5].contains e = true := by decide
  refine ⟨fun e hlow hhigh => ?_, rfl, ?_⟩
  · rw [heq, hdom, hin e hlow hhigh, Bool.not_true, Bool.and_false]
  · rw [heq, hpwr]

theorem memoryOffLimit_passed {s : State} {t : Nat} (ht : s.pwr.memOffT = some t) (h : t + 10000000 ≤ s.devTime) :
    memoryOffLimit s = memoryOff s := by
  rw [memoryOffLimit, ht]
  exact if_pos h

/-! ## Supply paths (R410 to R412) -/

theorem beginChangeover_changesOver (s : State) (toB : Bool) : changesOver s (beginChangeover s toB) toB ∧
    (beginChangeover s toB).pwr.aOk = s.pwr.aOk := by
  have hsev : evSev (if toB then 0x0B09 else 0x0B0A) < 2 := by cases toB <;> decide
  rw [beginChangeover, event_low _ _ _ hsev]
  exact ⟨⟨rfl, rfl, rfl, rfl, rfl, rfl⟩, rfl⟩

section
variable {s : State}

theorem supplyChange_risesA (h : s.pwr.aOk = false) :
    supplyChange s false true = { s with pwr := { s.pwr with aOk := true, aOkT := s.devTime } } := by
  have hold : s.pwr.aOk ≠ true := by rw [h]; exact Bool.false_ne_true
  rw [supplyChange]
  exact (if_neg hold).trans rfl

/-- The fall of path b as the table takes it, where it is not B's with B selected. -/
theorem supplyChange_falls {b : Bool} (hold : (if b then s.pwr.bOk else s.pwr.aOk) = true) (hb : (b && s.pwr.selB) = false) :
    supplyChange s b false = pathFalls s b := by
  rw [supplyChange, hold, hb, Bool.false_and, Bool.false_and]
  rfl

theorem pathFalls_last {b : Bool} (h : (if b then s.pwr.aOk else s.pwr.bOk) = false) :
    pathFalls s b = event { s with pwr := { s.pwr with aOk := s.pwr.aOk && b, bOk := s.pwr.bOk && !b } } 0x0B0C := by
  rw [pathFalls, h]
  rfl

/-- A falls while it is selected: the device changes over to B (R411). -/
theorem pathFalls_selectedA (hb : s.pwr.bOk = true) (hsel : s.pwr.selB = false) : (pathFalls s false).pwr.aOk = false ∧
    changesOver s (pathFalls s false) true := by
  have heq : pathFalls s false = beginChangeover { s with pwr := { s.pwr with aOk := s.pwr.aOk && false, bOk := s.pwr.bOk && !false } } true := by
    rw [pathFalls, hsel, if_neg (by rw [if_neg Bool.false_ne_true, hb]; decide)]
    rfl
  obtain ⟨hover, haOk⟩ := beginChangeover_changesOver { s with pwr := { s.pwr with aOk := s.pwr.aOk && false, bOk := s.pwr.bOk && !false } } true
  rw [heq]
  exact ⟨haOk.trans (Bool.and_false _), hover⟩

/-- B falls while A is selected: it is reported (R412). -/
theorem pathFalls_spareB (ha : s.pwr.aOk = true) (hsel : s.pwr.selB = false) : (pathFalls s true).pwr.bOk = false ∧
    (pathFalls s true).pwr.selB = false ∧ (pathFalls s true).pwr.co = s.pwr.co ∧ (pathFalls s true).pace = s.pace := by
  have heq : pathFalls s true = event { s with pwr := { s.pwr with aOk := s.pwr.aOk && true, bOk := s.pwr.bOk && !true } } 0x0B0B := by
    rw [pathFalls, hsel, if_neg (by rw [if_pos rfl, ha]; decide)]
    rfl
  rw [heq, event_low _ 0x0B0B _ (by decide)]
  exact ⟨Bool.and_false _, hsel, rfl, rfl⟩

end

/-! ## Banks, rails, the clock and the PMBus -/

theorem aonSwitch_switches {s : State} {b : Bool} (h : s.pwr.aonB ≠ b) : (aonSwitch s b).pwr = { s.pwr with aonB := b } ∧
    aonSwitch s b = { s with pwr := (aonSwitch s b).pwr, hq := (aonSwitch s b).hq, ic := (aonSwitch s b).ic } := by
  have heq : aonSwitch s b = event { s with pwr := { s.pwr with aonB := b } } 0x0B0F := if_neg h
  have hhost : onlyHost { s with pwr := { s.pwr with aonB := b } } (event { s with pwr := { s.pwr with aonB := b } } 0x0B0F) :=
    onlyHost_event (by decide) (by decide) _
  rw [heq, event_pwr]
  exact ⟨rfl, hhost⟩

theorem bankSupply_off {s : State} {k : Nat} (h : (s.sport k).en = true) : ((bankSupply s k).sport k).state = .off ∧
    ((bankSupply s k).sport k).en = false ∧ (∀ i, i ≠ k → (bankSupply s k).sport i = s.sport i) ∧ (bankSupply s k).pace = s.pace := by
  have heq : bankSupply s k = event (s.setSport k { (s.sport k).off with supOk := false }) 0x0B10 { srcid := k } := if_pos h
  have hsport : ∀ i, (bankSupply s k).sport i = if i = k then { (s.sport k).off with supOk := false } else s.sport i := by
    intro i
    rw [heq, event_low _ 0x0B10 _ (by decide)]
    exact State.setSport_sport s k i _
  rw [hsport k, if_pos rfl]
  refine ⟨rfl, rfl, fun i hi => (hsport i).trans (if_neg hi), ?_⟩
  rw [heq, event_low _ 0x0B10 _ (by decide)]
  rfl

/-- A device-fatal event stops the device for good and leaves the fabric. -/
theorem event_stops (s : State) {c : Nat} (h : evSev c = 3) (a : EvArgs) :
    (event s c a).pace.state = .aborted ∧ (event s c a).pace.fatal = true ∧ (event s c a).tiles = s.tiles :=
  ⟨event_aborts s c a (by rw [h]; decide), event_fatal s h a, event_tiles s c a⟩

theorem clk25Loss_stops {s : State} (h : s.pwr.clkLost = false) : (clk25Loss s).pace.state = .aborted ∧
    (clk25Loss s).pace.fatal = true ∧ (clk25Loss s).mc.quiesced = true ∧ (clk25Loss s).pwr.intOsc = true ∧
    (clk25Loss s).pwr.selfRefresh = true ∧ (clk25Loss s).pwr.clkLost = true := by
  have heq : clk25Loss s = event { s with pwr := { s.pwr with clkLost := true, intOsc := true, selfRefresh := true }
                                          mc := { s.mc with quiesced := true } } 0x0B11 := by
    rw [clk25Loss, h]
    rfl
  obtain ⟨hstate, hfatal, -⟩ := event_stops { s with pwr := { s.pwr with clkLost := true, intOsc := true, selfRefresh := true }
                                                     mc := { s.mc with quiesced := true } } (c := 0x0B11) (by decide) {}
  rw [heq]
  refine ⟨hstate, hfatal, ?_, ?_, ?_, ?_⟩
  · rw [event_mc]
  · rw [event_pwr]
  · rw [event_pwr]
  · rw [event_pwr]

theorem pmbusAnswer_on {s : State} (h : s.domain 1 = true) : pmbusAnswer s 0x8D = .word (s.pwr.tj.zeroExtend 32) ∧
    pmbusAnswer s 0x96 = .word (s.pwr.power.zeroExtend 32) ∧
    pmbusAnswer s 0x78 = .word (if s.pwr.vtherm.toNat < 15 then 4 else 0) := by
  have hthr : s.pwr.thr = decide (s.pwr.vtherm.toNat < 15) := rfl
  refine ⟨?_, ?_, ?_⟩
  · rw [pmbusAnswer, h]
    rfl
  · rw [pmbusAnswer, h]
    rfl
  · rw [pmbusAnswer, h, hthr]
    by_cases hlow : s.pwr.vtherm.toNat < 15
    · rw [if_pos hlow, decide_eq_true hlow]
      rfl
    · rw [if_neg hlow, decide_eq_false hlow]
      rfl

theorem pmbusRead_off {s : State} (h : s.domain 1 = false) (code : Nat) : pmbusRead s code = { s with answer := .none } := by
  have hans : pmbusAnswer s code = .none := by
    unfold pmbusAnswer
    rw [h]
    rfl
  rw [pmbusRead, hans]

/-- Settles O52: the rows of domains, supply paths, rails, banks and PMBus reads, each by what it changes. -/
theorem domainsAndSupplies : Obligations.DomainsAndSupplies := by
  unfold Obligations.DomainsAndSupplies
  intro s v d k rail reading p
  have hrow : ∀ {off}, opens s 0xB0000 → off / 0x10000 = 0xB → rowOpen s off true = true :=
    fun ho hoff => opens_block ho (hoff.trans (by decide)) (by decide)
  refine ⟨?_, ?_, ?_, ?_, ?_, ?_, ?_, ?_, ?_, ?_, ?_, ?_, ?_, ?_, ?_, ?_, ?_⟩
  · intro ho hother hchange
    obtain ⟨hon, htiles, htarget, hkept⟩ := domainRequest_one d.isLt hother hchange
    refine ⟨domainRequest s v, congrArg Host.Outcome.next (rowWrite_open s 0xB0060 _ (hrow ho rfl)), ?_, hon, htiles, fun e _ he => ?_, ?_⟩
    · intro hgrid hwant hperm hloaded hunused
      rw [hkept ((if_pos hwant).trans hperm), hwant]
      exact keptOn_unused hgrid hloaded hunused
    · rw [htarget, if_neg fun h => he h.1]
    · rw [htarget]
      by_cases hperm : permitted s v.toNat d = true
      · exact (if_pos ⟨rfl, hperm⟩).trans (if_pos hperm).symm
      · exact (if_neg fun h => hperm h.2).trans (if_neg hperm).symm
  · intro x hx
    obtain ⟨hset, hrest, hdone, hloss⟩ := setDomain_completes s d.isLt x.on
    refine ⟨setDomain s d x.on, congrArg Host.Outcome.next (domainComplete_of hx), hset, hrest, hdone,
      fun h => (hloss h).link, fun h => (hloss h).nce, fun h => (hloss h).pp, fun h => (hloss h).front,
      fun h hgrid t _ => (hloss h).fabric hgrid t⟩
  · intro hauto hloaded hgoal
    exact ⟨_, rfl, autofab_switches hauto hloaded hgoal⟩
  · intro t ht htime
    exact ⟨memoryOff s, congrArg Host.Outcome.next (memoryOffLimit_passed ht htime), memoryOff_switches s⟩
  · intro ha
    exact congrArg Host.Outcome.next (supplyChange_risesA ha)
  · intro ha hb hsel
    exact ⟨pathFalls s false, congrArg Host.Outcome.next (supplyChange_falls (b := false) ha rfl), pathFalls_selectedA hb hsel⟩
  · intro ha hb hsel
    exact ⟨pathFalls s true, congrArg Host.Outcome.next (supplyChange_falls (b := true) hb hsel), pathFalls_spareB ha hsel⟩
  · intro ha hb
    obtain ⟨hstate, hfatal, -⟩ := event_stops { s with pwr := { s.pwr with aOk := s.pwr.aOk && false, bOk := s.pwr.bOk && !false } }
      (c := 0x0B0C) (by decide) {}
    exact ⟨_, congrArg Host.Outcome.next ((supplyChange_falls (b := false) ha rfl).trans (pathFalls_last (b := false) hb)), hstate, hfatal⟩
  · intro hco hband htime
    refine congrArg Host.Outcome.next ?_
    have hcond : (s.pwr.co && s.pwr.vinBand && decide (s.pwr.coT + max 1 s.pwr.settle.toNat * 1000 ≤ s.devTime)) = true := by
      rw [show s.pwr.co = true from hco, show s.pwr.vinBand = true from hband]
      exact decide_eq_true htime
    exact if_pos hcond
  · intro hsel ha hco
    obtain ⟨hover, -⟩ := beginChangeover_changesOver s false
    refine ⟨fun ho => ⟨beginChangeover s false, congrArg Host.Outcome.next ((rowWrite_open s 0xB0058 _ (hrow ho rfl)).trans ?_), hover⟩,
      fun hauto htime => ⟨beginChangeover s false, congrArg Host.Outcome.next ?_, hover⟩⟩
    · rw [sela, hsel, ha, hco]
      exact if_pos rfl
    · rw [autoReturn, hsel, ha, hco, hauto, retdly, decide_eq_true htime]
      exact if_pos rfl
  · intro b hb
    exact ⟨_, rfl, aonSwitch_switches hb⟩
  · intro hen
    exact ⟨_, rfl, bankSupply_off hen⟩
  · exact ⟨_, rfl, event_stops s (by decide) _⟩
  · intro hclk
    exact ⟨_, rfl, clk25Loss_stops hclk⟩
  · intro hclk
    exact congrArg Host.Outcome.next (if_pos hclk)
  · intro hon
    obtain ⟨htemp, hpower, hstatus⟩ := pmbusAnswer_on hon
    refine ⟨congrArg Host.Outcome.next ?_, congrArg Host.Outcome.next ?_, congrArg Host.Outcome.next ?_⟩
    · rw [pmbusRead, htemp]
    · rw [pmbusRead, hpower]
    · rw [pmbusRead, hstatus]
  · intro hoff c hc
    rcases List.mem_cons.mp hc with rfl | hc
    · exact congrArg Host.Outcome.next (pmbusRead_off hoff _)
    · rcases List.mem_cons.mp hc with rfl | hc
      · exact congrArg Host.Outcome.next (pmbusRead_off hoff _)
      · obtain rfl := List.mem_singleton.mp hc
        exact congrArg Host.Outcome.next (pmbusRead_off hoff _)

end Sys2Proof.Claims
end

section
/-! SUPPORT. O53: the resets (R416 to R418), boot (R419 to R422), training (R294) and the PCI Express link (R320). -/

namespace Sys2Proof.Claims

open Sys2Proof Sys2Proof.Machine

/-! ## The PCI Express link (R320) -/

theorem flushMsix_issues (s : State) : flushMsix s = { s with hq := (flushMsix s).hq, hostOut := (flushMsix s).hostOut } ∧
    (flushMsix s).hq = { s.hq with wbDirty := (flushMsix s).hq.wbDirty, msixOut := (flushMsix s).hq.msixOut } ∧
    (s.canRequest = true → (flushMsix s).hq.msixOut = []) := by
  unfold flushMsix
  dsimp only
  split
  · split
    · exact ⟨rfl, rfl, fun _ => rfl⟩
    · rw [writeBack_frame]
      exact ⟨rfl, rfl, fun _ => rfl⟩
  · rename_i hno
    exact ⟨rfl, rfl, fun h => absurd h hno⟩

theorem pcieLinkUp_up {s : State} (h : s.hq.linkUp = false) : (pcieLinkUp s).hq.linkUp = true ∧
    1 ≤ (pcieLinkUp s).hq.lspeed.toNat ∧ (pcieLinkUp s).hq.lspeed.toNat ≤ 5 ∧ (pcieLinkUp s).hq.lwidth ∈ [1, 2, 4] ∧
    (pcieLinkUp s).tiles = s.tiles := by
  have heq : pcieLinkUp s = flushMsix { s.drawFree.2 with hq := { s.drawFree.2.hq with
      linkUp := true, lspeed := BitVec.ofNat 4 (1 + s.drawFree.1.toNat % 5), lwidth := BitVec.ofNat 4 (2 ^ (s.drawFree.1.toNat / 5 % 3)) } } := by
    rw [pcieLinkUp, h]
    rfl
  obtain ⟨hframe, hhq, -⟩ := flushMsix_issues { s.drawFree.2 with hq := { s.drawFree.2.hq with
      linkUp := true, lspeed := BitVec.ofNat 4 (1 + s.drawFree.1.toNat % 5), lwidth := BitVec.ofNat 4 (2 ^ (s.drawFree.1.toNat / 5 % 3)) } }
  have hspeed : ∀ n : Nat, 1 ≤ (BitVec.ofNat 4 (1 + n % 5)).toNat ∧ (BitVec.ofNat 4 (1 + n % 5)).toNat ≤ 5 := by
    intro n
    rw [BitVec.toNat_ofNat, Nat.mod_eq_of_lt (by omega)]
    omega
  have hwidth : ∀ n < 3, BitVec.ofNat 4 (2 ^ n) ∈ ([1, 2, 4] : List (BitVec 4)) := by decide
  rw [heq]
  refine ⟨?_, ?_, ?_, ?_, ?_⟩
  · rw [hhq]
  · rw [hhq]
    exact (hspeed s.drawFree.1.toNat).1
  · rw [hhq]
    exact (hspeed s.drawFree.1.toNat).2
  · rw [hhq]
    exact hwidth _ (Nat.mod_lt _ (by decide))
  · rw [hframe]
    rfl

theorem bmeSet_sets (s : State) : (bmeSet s).hq.bme = true ∧ (s.hq.linkUp = true → (bmeSet s).hq.msixOut = []) ∧
    bmeSet s = { s with hq := (bmeSet s).hq, hostOut := (bmeSet s).hostOut } := by
  obtain ⟨hframe, hhq, hflush⟩ := flushMsix_issues { s with hq := { s.hq with bme := true } }
  refine ⟨(congrArg Hq.bme hhq).trans rfl, fun h => hflush ?_, hframe⟩
  rw [State.canRequest, h]
  rfl

/-! ## A FUNC reset (R416, Table MAP-4) -/

theorem putSources_source (f : Source → Source) (l : List Nat) (hl : l.Nodup) (s : State) (k : Nat) :
    (l.foldl (fun s k => s.putSource k (f (s.source k))) s).source k = if k ∈ l then f (s.source k) else s.source k := by
  induction l generalizing s with
  | nil => rfl
  | cons i l ih =>
    obtain ⟨hi, hl⟩ := List.nodup_cons.mp hl
    rw [List.foldl_cons, ih hl]
    by_cases hk : k = i
    · subst hk
      rw [if_neg hi, if_pos List.mem_cons_self, State.putSource_source_self]
    · rw [State.putSource_source_other _ _ _ _ hk]
      simp [hk]

theorem setMboxes_mbox (f : Mbox → Mbox) (l : List Nat) (hl : l.Nodup) (s : State) (m : Nat) :
    (l.foldl (fun s m => s.setMbox m (f (s.mbox m))) s).mbox m = if m ∈ l then f (s.mbox m) else s.mbox m := by
  induction l generalizing s with
  | nil => rfl
  | cons i l ih =>
    obtain ⟨hi, hl⟩ := List.nodup_cons.mp hl
    rw [List.foldl_cons, ih hl]
    by_cases hm : m = i
    · subst hm
      rw [if_neg hi, if_pos List.mem_cons_self, State.setMbox_mbox_self]
    · rw [State.setMbox_mbox_other _ _ _ _ hm]
      simp [hm]

theorem putSources_frame (f : Source → Source) (l : List Nat) (s : State) :
    l.foldl (fun s k => s.putSource k (f (s.source k))) s =
      { s with ic := (l.foldl (fun s k => s.putSource k (f (s.source k))) s).ic } := by
  induction l generalizing s with
  | nil => rfl
  | cons i l ih =>
    rw [List.foldl_cons, ih]
    rfl

theorem setMboxes_frame (f : Mbox → Mbox) (l : List Nat) (s : State) :
    l.foldl (fun s m => s.setMbox m (f (s.mbox m))) s = { s with mbx := (l.foldl (fun s m => s.setMbox m (f (s.mbox m))) s).mbx } := by
  induction l generalizing s with
  | nil => rfl
  | cons i l ih =>
    rw [List.foldl_cons, ih]
    rfl

theorem funcIc_outside (s : State) : funcIc s = { s with ic := (funcIc s).ic } := by
  rw [funcIc_frame, putSources_frame]

theorem source_of_src {s t : State} (h : t.ic.src = s.ic.src) (k : Nat) : t.source k = s.source k := by
  unfold State.source
  rw [h]

theorem funcIc_src (s : State) :
    (funcIc s).ic.src = ((List.range 128).foldl (fun s k => s.putSource k (funcSource (s.source k))) s).ic.src := by
  unfold funcIc
  generalize (List.range 128).foldl (fun s k => s.putSource k (funcSource (s.source k))) s = u
  rfl

theorem funcIc_source (s : State) {k : Nat} (hk : k < 128) : (funcIc s).source k = funcSource (s.source k) := by
  have hin : k ∈ List.range 128 := List.mem_range.mpr hk
  have hsrc := source_of_src (funcIc_src s) k
  have hnodup : (List.range 128).Nodup := List.nodup_range
  generalize List.range 128 = l at hin hsrc hnodup
  rw [hsrc, putSources_source funcSource l hnodup, if_pos hin]

/-- The mailboxes after a FUNC reset of a state whose IC is already reset. -/
def funcBoxes (s : State) : State := (List.range 8).foldl (fun s m => s.setMbox m (funcMbox (s.mbox m))) (funcIc s)

theorem funcBoxes_outside (s : State) : funcBoxes s = { s with ic := (funcIc s).ic, mbx := (funcBoxes s).mbx } := by
  have hboxes : funcBoxes s = { funcIc s with mbx := (funcBoxes s).mbx } := setMboxes_frame funcMbox (List.range 8) (funcIc s)
  have hic := funcIc_outside s
  generalize funcIc s = u at hboxes hic ⊢
  generalize funcBoxes s = b at hboxes ⊢
  rw [hboxes, hic]

theorem funcBoxes_mbox (s : State) {m : Nat} (hm : m < 8) : (funcBoxes s).mbox m = funcMbox (s.mbox m) := by
  refine (setMboxes_mbox funcMbox (List.range 8) List.nodup_range (funcIc s) m).trans ((if_pos (List.mem_range.mpr hm)).trans ?_)
  rw [mbox_of_mbx (s := s) (by rw [funcIc_outside])]

/-- What a FUNC reset makes of the state once a running task is aborted. -/
def funcDone (s : State) (c : FuncCause) : State :=
  { funcBoxes s with
    hq := funcHq (funcBoxes s).hq (funcKeepsLink c)
    lk := { (funcBoxes s).lk with follow := none }
    tw := { (funcBoxes s).tw with pair := {} }
    sec := { (funcBoxes s).sec with nonce := none, chal := none, chalParts := [], chalNext := 0 }
    sels := (funcBoxes s).sels.filter fun p => 256 ≤ p.1 }

theorem funcReset_idle {s : State} (h : s.idle = true) (c : FuncCause) : funcReset s c = funcDone s c := by
  simp only [funcReset, funcDone, funcBoxes, h, if_true]

theorem funcReset_runs {s : State} (h : s.idle = false) (c : FuncCause) : funcReset s c = funcDone (event s 0x0208) c := by
  simp only [funcReset, funcDone, funcBoxes, h, Bool.false_eq_true, if_false]

theorem funcDone_leaves (s : State) (c : FuncCause) : (funcDone s c).pace = s.pace ∧ (funcDone s c).tiles = s.tiles ∧
    (funcDone s c).cfg = s.cfg ∧ (funcDone s c).hq = funcHq s.hq (funcKeepsLink c) ∧ (funcDone s c).ic = (funcIc s).ic ∧
    (funcDone s c).mbx = (funcBoxes s).mbx := by
  have hboxes := funcBoxes_outside s
  unfold funcDone
  generalize funcBoxes s = b at hboxes ⊢
  generalize (funcIc s).ic = ic at hboxes ⊢
  rw [hboxes]
  exact ⟨rfl, rfl, rfl, rfl, rfl, rfl⟩

/-! ## SYS and POR resets (R417, R418) -/

theorem event_needPor {c : Nat} (h : c ≠ 0x0C09) (s : State) (a : EvArgs) : (event s c a).pace.needPor = s.pace.needPor := by
  have hrec := recordEvent_pace s c a
  unfold event
  dsimp only
  split
  · rw [hrec]
  · unfold abortWith
    have hno : (c == 0x0C09) = false := beq_false_of_ne h
    dsimp only
    rw [hno, Bool.or_false]
    split
    · rw [← hrec]
      rfl
    · rw [← hrec]
      rfl

/-- What the notices before a SYS reset leave. -/
structure NoticeKeeps (s u : State) : Prop where
  mem : u.mc.mem = s.mc.mem
  fuses : u.sec.fuses = s.sec.fuses
  devTime : u.devTime = s.devTime
  needPor : u.pace.needPor = s.pace.needPor
  pwr : u.pwr = s.pwr

theorem noticeKeeps_event {c : Nat} (h : c ≠ 0x0C09) (s : State) (a : EvArgs) : NoticeKeeps s (event s c a) := by
  refine ⟨?_, ?_, event_devTime s c a, event_needPor h s a, event_pwr s c a⟩
  · rw [event_mc]
  · rw [event_sec]

theorem NoticeKeeps.trans {s u v : State} (h : NoticeKeeps s u) (h' : NoticeKeeps u v) : NoticeKeeps s v :=
  ⟨h'.mem.trans h.mem, h'.fuses.trans h.fuses, h'.devTime.trans h.devTime, h'.needPor.trans h.needPor, h'.pwr.trans h.pwr⟩

theorem noticeKeeps_debugClose (s : State) : NoticeKeeps s (debugClose s) := by
  unfold debugClose
  split
  · have hhold : NoticeKeeps s (withdrawHold { s with sec := { s.sec with open_ := false } } 5) := ⟨rfl, rfl, rfl, rfl, rfl⟩
    exact hhold.trans (noticeKeeps_event (by decide) _ _)
  · exact ⟨rfl, rfl, rfl, rfl, rfl⟩

theorem sysDone_sysState {s u : State} (h : NoticeKeeps s u) (c : SysCause) : sysDone s (sysState u c) c := by
  have hpace : s.pace.needPor = false → (sysState u c).pace = { snap := (sysState u c).pace.snap } := by
    intro hpor
    have hsys : sysPace u.pace = { snap := u.pace.snap } := if_neg (by rw [h.needPor, hpor]; exact Bool.false_ne_true)
    show sysPace u.pace = { snap := (sysPace u.pace).snap }
    rw [hsys]
  have hosc : (sysState u c).pwr.intOsc = s.pwr.clkLost := congrArg Pwr.clkLost h.pwr
  cases c
  case pin => exact ⟨rfl, rfl, rfl, rfl, rfl, rfl, h.mem, rfl, h.fuses, rfl, rfl, h.devTime, hpace, rfl, hosc, rfl⟩
  case soft => exact ⟨rfl, rfl, rfl, rfl, rfl, rfl, h.mem, rfl, h.fuses, rfl, rfl, h.devTime, hpace, rfl, hosc, rfl⟩
  case watchdog => exact ⟨rfl, rfl, rfl, rfl, rfl, rfl, h.mem, rfl, h.fuses, rfl, rfl, h.devTime, hpace, rfl, hosc, rfl⟩
  case dbg => exact ⟨rfl, rfl, rfl, rfl, rfl, rfl, h.mem, rfl, h.fuses, rfl, rfl, h.devTime, hpace, rfl, hosc, rfl⟩

theorem sysNow_done (s : State) (c : SysCause) : sysDone s (sysNow s c) c := by
  refine sysDone_sysState ?_ c
  have hclose := noticeKeeps_debugClose s
  split
  · exact hclose
  · exact hclose.trans (noticeKeeps_event (by decide) _ _)

section
variable {s : State}

theorem sysReset_now (h : s.sec.burn = none) (c : SysCause) : sysReset s c = sysNow s c := by
  rw [sysReset, h]
  rfl

theorem sysReset_waits (h : s.sec.burn ≠ none) (c : SysCause) : sysReset s c = { s with sec := { s.sec with sysWaits := some c } } :=
  if_pos (Option.isSome_iff_ne_none.mpr h)

end

/-! ## Boot (R419 to R422) -/

theorem numAt_take (b : List Byte) {n off len : Nat} (h : off + len ≤ n) : numAt (b.take n) off len = numAt b off len := by
  unfold numAt slice
  rw [List.drop_take, List.take_take, Nat.min_eq_left (by omega)]

/-- A copy that the ROM starts runs on the four cores (R419). -/
theorem startCopy_started (s : State) (copy1 : Bool) (flash : List Byte) (rej : Nat) :
    started (startCopy s copy1 flash (BitVec.ofNat 2 rej)) copy1 (copyOf flash copy1) rej := by
  have hver : 8 + 4 ≤ 128 + fwLen (copyOf flash copy1) + 256 := by omega
  have hsvn : 12 + 8 ≤ 128 + fwLen (copyOf flash copy1) + 256 := by omega
  unfold startCopy
  generalize copyOf flash copy1 = all at hver hsvn ⊢
  refine ⟨rfl, rfl, rfl, rfl, rfl, rfl, ?_, ?_⟩
  · exact congrArg (BitVec.ofNat 32) (numAt_take all hver)
  · exact congrArg (BitVec.ofNat 64) (numAt_take all hsvn)

theorem bootFails_failed (s : State) (cause : Nat) (rej : BitVec 2) : bootFailed s (bootFails s cause rej) cause := ⟨rfl, rfl, rfl, rfl⟩

section
variable {s : State} (hrom : s.sec.romRunning = true) (hstate : s.sec.bootState = 0)
include hrom hstate

theorem firmwareVerify_verifies (f : FlashView) : firmwareVerify s f = if !f.answering then bootFails s 3 0
    else f.sfdp.elim (bootFails s 4 0) fun p =>
      if !f.dirOk then bootFails { s with sec := { s.sec with flashRead := p } } 1 0
      else chooseCopy { s with sec := { s.sec with flashRead := p } } f.bytes := by
  rw [firmwareVerify, hrom, hstate, if_neg (by decide)]
  cases f.answering
  · rfl
  · cases f.sfdp <;> rfl

end

/-- The ROM's choice among the copies: the valid one of the greater FWSVN, copy 0 when equal (R421). -/
theorem chooseCopy_chooses (s : State) (flash : List Byte) {v0 v1 : Bool} (h0 : fwValid s (copyOf flash false) = v0)
    (h1 : fwValid s (copyOf flash true) = v1) :
    (chooseCopy s flash).sec.flashRead = s.sec.flashRead ∧
    (v0 = false → v1 = false → chooseCopy s flash = bootFails s 2 3) ∧
    (v0 = true → v1 = false ∨ numAt (copyOf flash true) 12 8 ≤ numAt (copyOf flash false) 12 8 →
      started (chooseCopy s flash) false (copyOf flash false) (b2n (!v0) + 2 * b2n (!v1))) ∧
    (v1 = true → v0 = false ∨ numAt (copyOf flash false) 12 8 < numAt (copyOf flash true) 12 8 →
      started (chooseCopy s flash) true (copyOf flash true) (b2n (!v0) + 2 * b2n (!v1))) := by
  have heq : chooseCopy s flash = if !v0 && !v1 then bootFails s 2 (BitVec.ofNat 2 (b2n (!v0) + 2 * b2n (!v1)))
      else startCopy s (v1 && (!v0 || decide (numAt (copyOf flash false) 12 8 < numAt (copyOf flash true) 12 8))) flash
        (BitVec.ofNat 2 (b2n (!v0) + 2 * b2n (!v1))) := by
    simp only [chooseCopy, h0, h1]
  rw [heq]
  refine ⟨?_, ?_, ?_, ?_⟩
  · split <;> rfl
  · rintro rfl rfl
    rfl
  · rintro rfl hle
    have hfirst : (v1 && (!true || decide (numAt (copyOf flash false) 12 8 < numAt (copyOf flash true) 12 8))) = false := by
      rcases hle with rfl | hle
      · rfl
      · rw [decide_eq_false (Nat.not_lt.mpr hle), Bool.not_true, Bool.or_false, Bool.and_false]
    rw [hfirst, if_neg (by simp)]
    exact startCopy_started s false flash _
  · rintro rfl hlt
    have hsecond : (true && (!v0 || decide (numAt (copyOf flash false) 12 8 < numAt (copyOf flash true) 12 8))) = true := by
      rcases hlt with rfl | hlt
      · rfl
      · rw [decide_eq_true hlt, Bool.or_true, Bool.and_true]
    rw [hsecond, if_neg (by simp)]
    exact startCopy_started s true flash _

/-! ## Training and lost channels (R294) -/

theorem memoryFails_stops (s : State) (chok : BitVec 8) : (memoryFails s chok).pace.state = .aborted ∧
    (memoryFails s chok).pace.fatal = true ∧ (memoryFails s chok).mc.chok = chok ∧ (memoryFails s chok).mc.quiesced = true ∧
    (memoryFails s chok).sec = s.sec := by
  obtain ⟨hstate, hfatal, -⟩ := event_stops { s with mc := { s.mc with chok := chok, quiesced := true } } (c := 0x0706) (by decide)
    { srcid := lostChannel chok }
  unfold memoryFails
  refine ⟨hstate, hfatal, ?_, ?_, ?_⟩
  · rw [event_mc]
  · rw [event_mc]
  · rw [event_sec]

/-- The state of a device whose training has ended well (R294, R419). -/
def trainedState (s : State) (t : Training) : State :=
  { s with
    mc := { s.mc with pkgsz := t.pkgsz, ranks := t.ranks, chok := t.chok, rate := s.pwr.mem, trained := true
                      ready := bits s.pwr.domOn.toNat 3 3 == 7 }
    pwr := { s.pwr with selfRefresh := false, memHeld := false }
    sec := { s.sec with bootState := 3 } }

theorem firmwareReady_trains {s : State} {t : Training} (hboot : s.sec.bootState = 1) (ht : trainingOk t = true) :
    (firmwareReady s (some t)).sec.bootState = 3 ∧ (firmwareReady s (some t)).mc = (trainedState s t).mc ∧
    (firmwareReady s (some t)).pace = s.pace := by
  have heq : firmwareReady s (some t) = if (event (trainedState s t) 0x0C01).sec.bootRej = 0 then event (trainedState s t) 0x0C01
      else event (event (trainedState s t) 0x0C01) 0x0C02 := by
    rw [firmwareReady, if_neg (by rw [hboot]; decide)]
    exact if_neg (by rw [ht]; decide)
  rw [heq]
  split
  · rw [event_low _ 0x0C01 _ (by decide)]
    exact ⟨rfl, rfl, rfl⟩
  · rw [event_low _ 0x0C02 _ (by decide), event_low _ 0x0C01 _ (by decide)]
    exact ⟨rfl, rfl, rfl⟩

theorem copyOf_eq (flash : List Byte) (copy1 : Bool) : copyOf flash copy1 = slice flash
    (if numAt flash 0 4 = 0x31425654 then numAt flash (if copy1 then 8 else 4) 4 else if copy1 then 0x220000 else 0x10000)
    (128 + 2 ^ 21 + 256) := by
  have hlen : (128 + 2097152 + 256 : Nat) = 128 + 2 ^ 21 + 256 := by norm_num
  simp only [copyOf, copyOffset, dirGood, beq_iff_eq, hlen]

/-- The ROM reads the flash and verifies both copies (R419 to R422). -/
theorem firmwareVerify_boots {s : State} (hrom : s.sec.romRunning = true) (hstate : s.sec.bootState = 0) (f : FlashView) :
    (f.answering = false → bootFailed s (firmwareVerify s f) 3) ∧
    (f.answering = true → f.sfdp = none → bootFailed s (firmwareVerify s f) 4) ∧
    (f.answering = true → f.sfdp ≠ none → f.dirOk = false → bootFailed s (firmwareVerify s f) 1) ∧
    (f.answering = true → f.sfdp ≠ none → f.dirOk = true → ∀ c0 c1, copyOf f.bytes false = c0 → copyOf f.bytes true = c1 →
      (∀ x, f.sfdp = some x → (firmwareVerify s f).sec.flashRead = x) ∧
      (fwValid s c0 = false → fwValid s c1 = false → bootFailed s (firmwareVerify s f) 2 ∧ (firmwareVerify s f).sec.bootRej = 3) ∧
      (fwValid s c0 = true → fwValid s c1 = false ∨ numAt c1 12 8 ≤ numAt c0 12 8 →
        started (firmwareVerify s f) false c0 (b2n (!fwValid s c0) + 2 * b2n (!fwValid s c1))) ∧
      (fwValid s c1 = true → fwValid s c0 = false ∨ numAt c0 12 8 < numAt c1 12 8 →
        started (firmwareVerify s f) true c1 (b2n (!fwValid s c0) + 2 * b2n (!fwValid s c1)))) := by
  have heq := firmwareVerify_verifies hrom hstate f
  refine ⟨fun hf => ?_, fun ha hs => ?_, fun ha hs hd => ?_, fun ha hs hd c0 c1 hc0 hc1 => ?_⟩
  · rw [heq, hf]
    exact bootFails_failed s 3 0
  · rw [heq, ha, hs]
    exact bootFails_failed s 4 0
  · obtain ⟨x, hx⟩ := Option.ne_none_iff_exists'.mp hs
    rw [heq, ha, hx, hd]
    exact bootFails_failed { s with sec := { s.sec with flashRead := x } } 1 0
  · obtain ⟨x, hx⟩ := Option.ne_none_iff_exists'.mp hs
    have hchoose : firmwareVerify s f = chooseCopy { s with sec := { s.sec with flashRead := x } } f.bytes := by
      rw [heq, ha, hx, hd]
      rfl
    have hvalid : ∀ b, fwValid { s with sec := { s.sec with flashRead := x } } b = fwValid s b := fun _ => rfl
    obtain ⟨hread, hnone, hfirst, hsecond⟩ := chooseCopy_chooses { s with sec := { s.sec with flashRead := x } } f.bytes
      ((hvalid _).trans (congrArg (fwValid s) hc0)) ((hvalid _).trans (congrArg (fwValid s) hc1))
    rw [hc0, hc1] at hfirst hsecond
    rw [hchoose]
    refine ⟨fun y hy => ?_, fun h0 h1 => ?_, hfirst, hsecond⟩
    · obtain rfl : x = y := Option.some.inj (hx.symm.trans hy)
      exact hread
    · rw [hnone h0 h1]
      exact ⟨bootFails_failed { s with sec := { s.sec with flashRead := x } } 2 3, rfl⟩

/-- Settles O53: the resets, the ROM's boot, training and the PCIe link, each by what its row leaves. -/
theorem resets : Obligations.Resets := by
  unfold Obligations.Resets
  intro s fc sc pc f tr chok
  refine ⟨?_, ?_, ?_, ?_, ?_, ?_, ?_, ?_, ?_, ?_, ?_, ?_, ?_, ?_, ?_⟩
  · intro hidle
    obtain ⟨hpace, htiles, hcfg, hhq, hic, hmbx⟩ := funcDone_leaves s fc
    have hmsix : (funcIc s).ic.msixEn = false := rfl
    refine ⟨funcDone s fc, congrArg Host.Outcome.next (funcReset_idle hidle fc), ?_, ?_, ?_, ?_, ?_, ?_, ?_, rfl, htiles, hcfg, hpace, ?_, ?_, ?_⟩
    · rw [hhq]; rfl
    · rw [hhq]; rfl
    · rw [hhq]; rfl
    · rw [hhq]; rfl
    · rw [hhq]; rfl
    · rw [hhq]; rfl
    · rw [hic]; exact hmsix
    · intro k hk
      rw [source_of_src (congrArg Ic.src hic), funcIc_source s hk]
      exact ⟨rfl, rfl, rfl⟩
    · intro m hm hpeer
      have hbox : (funcDone s fc).mbox m = funcMbox (s.mbox m) := (mbox_of_mbx hmbx m).trans (funcBoxes_mbox s hm)
      rw [hbox, funcMbox, if_pos hpeer]
      exact ⟨rfl, rfl⟩
    · rw [hhq]
      rintro (rfl | rfl)
      · exact Bool.and_false _
      · exact Bool.and_false _
  · intro hidle
    obtain ⟨hpace, htiles, -⟩ := funcDone_leaves (event s 0x0208) fc
    refine ⟨funcDone (event s 0x0208) fc, congrArg Host.Outcome.next (funcReset_runs hidle fc), ?_, ?_⟩
    · rw [hpace]
      exact event_aborts s 0x0208 _ (by decide)
    · rw [htiles, event_tiles]
  · intro hburn
    refine ⟨fun hopen => ?_, fun ho => ?_, ?_⟩
    · have hcmd : sysCommand s sc = sysNow s sc := (if_neg fun h => hopen.elim (fun hne => hne h.1)
        fun hop => absurd (hop.symm.trans h.2) Bool.noConfusion).trans (sysReset_now hburn sc)
      exact ⟨_, congrArg Host.Outcome.next hcmd, sysNow_done s sc⟩
    · have hrow : secRst s 0x5359 1 = sysNow s .soft := (if_pos ⟨rfl, rfl⟩).trans (sysReset_now hburn .soft)
      exact ⟨_, congrArg Host.Outcome.next ((rowWrite_open s 0xC001C _ ho).trans hrow), sysNow_done s .soft⟩
    · exact ⟨_, congrArg Host.Outcome.next (sysReset_now hburn .watchdog), sysNow_done s .watchdog⟩
  · intro hburn ho
    exact congrArg Host.Outcome.next ((rowWrite_open s 0xC001C _ ho).trans ((if_pos ⟨rfl, rfl⟩).trans (sysReset_waits hburn .soft)))
  · intro key level ho hkey
    refine congrArg Host.Outcome.next ((rowWrite_open s 0xC001C _ ho).trans (if_neg fun h => ?_))
    exact hkey.elim (fun hk => hk h.1) fun hl => hl h.2
  · refine ⟨porState s pc, rfl, rfl, rfl, rfl, rfl, rfl, rfl, rfl, rfl, rfl, ?_, fun hburn => ?_⟩
    · show (porFuses s).shadow = (porFuses s).bank0 ||| (porFuses s).bank1
      unfold porFuses
      split <;> rfl
    · have hfuses : porFuses s = resense s.sec.fuses := by rw [porFuses, hburn]
      show (porFuses s).bank0 = s.sec.fuses.bank0 ∧ (porFuses s).bank1 = s.sec.fuses.bank1
      rw [hfuses]
      exact ⟨rfl, rfl⟩
  · intro hboot
    refine ⟨fun hrails hosc => ?_, fun hno => ?_⟩
    · have hrom : bootRom s = { s with sec := { s.sec with romRunning := true, cores := 1 }
                                       pwr := { s.pwr with domOn := putBit s.pwr.domOn 2 true } } := if_pos ⟨hboot, hrails, hosc⟩
      refine ⟨_, congrArg Host.Outcome.next hrom, rfl, rfl, ?_, rfl⟩
      exact (bitAt_putBit s.pwr.domOn (by decide) true 2).trans (if_pos rfl)
    · refine congrArg Host.Outcome.next (if_neg fun h => ?_)
      obtain ⟨-, hrails, hosc⟩ := h
      exact hno.elim (fun hr => Bool.noConfusion (hr.symm.trans hrails)) fun ho => Bool.noConfusion (ho.symm.trans hosc)
  · intro hrom hboot hwf
    obtain ⟨hsilent, hsfdp, hdir, hcopies⟩ := firmwareVerify_boots hrom hboot f
    refine ⟨firmwareVerify s f, if_pos hwf, hsilent, hsfdp, hdir, fun ha hs hd => ?_⟩
    exact hcopies ha hs hd _ _ (copyOf_eq f.bytes false) (copyOf_eq f.bytes true)
  · intro hboot ht
    obtain ⟨hstate, hmc, hpace⟩ := firmwareReady_trains hboot ht
    refine ⟨_, rfl, hstate, ?_, ?_, ?_, ?_, hpace⟩
    · rw [hmc]; rfl
    · rw [hmc]; rfl
    · rw [hmc]; rfl
    · rw [hmc]; rfl
  · intro hboot
    obtain ⟨hstate, hfatal, -, -, hsec⟩ := memoryFails_stops s 0
    have hfails : firmwareReady s none = memoryFails s 0 := if_neg (by rw [hboot]; decide)
    exact ⟨_, congrArg Host.Outcome.next hfails, hstate, hfatal, by rw [hsec, hboot]⟩
  · intro htrained hchok
    obtain ⟨hstate, hfatal, hlost, hquiet, -⟩ := memoryFails_stops s chok
    have hloss : channelLoss s chok = memoryFails s chok := if_pos (by rw [htrained, bne_iff_ne.mpr hchok]; rfl)
    exact ⟨_, congrArg Host.Outcome.next hloss, hstate, hfatal, hlost, hquiet⟩
  · exact ⟨_, rfl, rfl, rfl, rfl⟩
  · intro hlink
    exact ⟨_, rfl, pcieLinkUp_up hlink⟩
  · rfl
  · exact ⟨_, rfl, bmeSet_sets s⟩

end Sys2Proof.Claims
end

section
/-! SUPPORT. The fuses: what blowing value bits does to the shadow, its parity, the banks and the counters (R425, R427). -/

namespace Sys2Proof.Claims

open Sys2Proof Sys2Proof.Machine

/-! ## The parity of the shadow (R425) -/

theorem toggleAt_getElem? (l : List Bool) (n k : Nat) : (toggleAt l n)[k]? = if k = n then l[k]?.map (fun b => !b) else l[k]? := by
  induction l generalizing n k with
  | nil => simp [toggleAt]
  | cons b r ih =>
    cases n with
    | zero => cases k <;> simp [toggleAt]
    | succ n =>
      cases k with
      | zero => simp [toggleAt]
      | succ k => simp [toggleAt, ih]

theorem toggleAt_ne {l : List Bool} {n : Nat} (h : n < l.length) : toggleAt l n ≠ l := by
  intro heq
  have hget := toggleAt_getElem? l n n
  rw [heq, if_pos rfl, List.getElem?_eq_getElem h] at hget
  simp at hget

/-- The parity of bits b over a list of places. -/
def parityOver (b : Nat → Bool) (l : List Nat) (p : Bool) : Bool := l.foldl (fun p j => p ^^ b j) p

theorem parityOver_xor (b : Nat → Bool) (l : List Nat) (p c : Bool) : parityOver b l (p ^^ c) = (parityOver b l p ^^ c) := by
  induction l generalizing p with
  | nil => rfl
  | cons j l ih =>
    have hswap : (p ^^ c ^^ b j) = (p ^^ b j ^^ c) := by rw [Bool.xor_assoc, Bool.xor_comm c, ← Bool.xor_assoc]
    show parityOver b l (p ^^ c ^^ b j) = (parityOver b l (p ^^ b j) ^^ c)
    rw [hswap, ih]

theorem parityOver_flip {b b' : Nat → Bool} {i : Nat} (h : ∀ j, b' j = (b j ^^ decide (j = i))) {l : List Nat} (hl : l.Nodup) (p : Bool) :
    parityOver b' l p = (parityOver b l p ^^ decide (i ∈ l)) := by
  induction l generalizing p with
  | nil => simp [parityOver]
  | cons j l ih =>
    obtain ⟨hj, hl⟩ := List.nodup_cons.mp hl
    show parityOver b' l (p ^^ b' j) = (parityOver b l (p ^^ b j) ^^ decide (i ∈ j :: l))
    rw [ih hl, h, ← Bool.xor_assoc, parityOver_xor, Bool.xor_assoc]
    by_cases hij : i = j
    · subst hij
      simp [hj]
    · simp [hij, Ne.symm hij]

theorem shadowParity_getElem? (v : BitVec 1672) (k : Nat) : (shadowParity v)[k]? =
    if k < 209 then some (parityOver (fun j => v.getLsbD (8 * k + j)) (List.range 8) false) else none := by
  unfold shadowParity
  rw [List.getElem?_map]
  by_cases hk : k < 209
  · rw [List.getElem?_range hk, if_pos hk]
    rfl
  · rw [List.getElem?_eq_none (by simpa using hk), if_neg hk]
    rfl

/-- One bit that differs toggles the parity of its byte, and of no other. -/
theorem shadowParity_flip {v v' : BitVec 1672} {i : Nat} (h : ∀ j, v'.getLsbD j = (v.getLsbD j ^^ decide (j = i))) :
    shadowParity v' = toggleAt (shadowParity v) (i / 8) := by
  refine List.ext_getElem? fun k => ?_
  rw [toggleAt_getElem?, shadowParity_getElem?, shadowParity_getElem?]
  by_cases hk : k < 209
  · rw [if_pos hk, if_pos hk]
    have hflip : ∀ j, v'.getLsbD (8 * k + j) = (v.getLsbD (8 * k + j) ^^ decide (8 * k + j = i)) := fun j => h _
    by_cases hbyte : k = i / 8
    · have hplace : ∀ j, decide (8 * k + j = i) = decide (j = i % 8) := fun j => decide_eq_decide.mpr (by omega)
      have hin : i % 8 ∈ List.range 8 := List.mem_range.mpr (Nat.mod_lt _ (by decide))
      rw [if_pos hbyte, parityOver_flip (fun j => (hflip j).trans (by rw [hplace])) List.nodup_range, decide_eq_true hin, Bool.xor_true]
      rfl
    · have hsame : ∀ j ∈ List.range 8, v'.getLsbD (8 * k + j) = v.getLsbD (8 * k + j) := by
        intro j hj
        have := List.mem_range.mp hj
        rw [hflip, decide_eq_false (by omega), Bool.xor_false]
      rw [if_neg hbyte]
      refine congrArg some (List.foldl_ext _ _ _ fun p j hj => ?_)
      exact congrArg (p ^^ ·) (hsame j hj)
  · rw [if_neg hk, if_neg hk]
    simp

/-! ## Bits blown (R427) -/

theorem blow_shadow (f : Fuses) {i : Nat} (hi : i < 1672) (j : Nat) :
    (blow f i).shadow.getLsbD j = (f.shadow.getLsbD j || decide (j = i)) ∧
    (blow f i).bank0.getLsbD j = (f.bank0.getLsbD j || decide (j = i)) ∧
    (blow f i).bank1.getLsbD j = (f.bank1.getLsbD j || decide (j = i)) := by
  have hone : (BitVec.ofNat 1672 (2 ^ i)).getLsbD j = decide (j = i) := by
    rw [getLsbD_oneHot]
    by_cases h : j = i
    · simp [h, hi]
    · simp [h, Ne.symm h]
  refine ⟨?_, ?_, ?_⟩
  · exact (BitVec.getLsbD_or ..).trans (congrArg _ hone)
  · exact (BitVec.getLsbD_or ..).trans (congrArg _ hone)
  · exact (BitVec.getLsbD_or ..).trans (congrArg _ hone)

theorem blow_parity {f : Fuses} {i : Nat} (hi : i < 1672) (h : shadowParity f.shadow = f.par) :
    shadowParity (blow f i).shadow = (blow f i).par := by
  by_cases hbit : f.shadow.getLsbD i = true
  · have hsame : (blow f i).shadow = f.shadow := by
      refine BitVec.eq_of_getLsbD_eq fun j _ => ?_
      rw [(blow_shadow f hi j).1]
      by_cases hj : j = i
      · rw [hj, hbit, Bool.true_or]
      · rw [decide_eq_false hj, Bool.or_false]
    have hpar : (blow f i).par = f.par := if_pos hbit
    rw [hsame, hpar, h]
  · have hpar : (blow f i).par = toggleAt f.par (i / 8) := if_neg hbit
    rw [hpar, ← h]
    refine shadowParity_flip fun j => ?_
    rw [(blow_shadow f hi j).1]
    by_cases hj : j = i
    · rw [hj, Bool.eq_false_iff.mpr hbit, decide_eq_true rfl]
      rfl
    · rw [decide_eq_false hj, Bool.or_false, Bool.xor_false]

theorem blows_bits (f : Fuses) (is : List Nat) (his : ∀ i ∈ is, i < 1672) (j : Nat) :
    (is.foldl blow f).shadow.getLsbD j = (f.shadow.getLsbD j || decide (j ∈ is)) ∧
    (is.foldl blow f).bank0.getLsbD j = (f.bank0.getLsbD j || decide (j ∈ is)) ∧
    (is.foldl blow f).bank1.getLsbD j = (f.bank1.getLsbD j || decide (j ∈ is)) := by
  induction is generalizing f with
  | nil => simp
  | cons i is ih =>
    obtain ⟨hs, h0, h1⟩ := ih (blow f i) fun k hk => his k (List.mem_cons_of_mem _ hk)
    obtain ⟨hs', h0', h1'⟩ := blow_shadow f (his i List.mem_cons_self) j
    have hmem : decide (j ∈ i :: is) = (decide (j = i) || decide (j ∈ is)) := by simp
    rw [List.foldl_cons, hs, h0, h1, hs', h0', h1', hmem, Bool.or_assoc, Bool.or_assoc, Bool.or_assoc]
    exact ⟨rfl, rfl, rfl⟩

theorem blows_parity {f : Fuses} (is : List Nat) (his : ∀ i ∈ is, i < 1672) (h : shadowParity f.shadow = f.par) :
    shadowParity (is.foldl blow f).shadow = (is.foldl blow f).par := by
  induction is generalizing f with
  | nil => exact h
  | cons i is ih => exact ih (fun k hk => his k (List.mem_cons_of_mem _ hk)) (blow_parity (his i List.mem_cons_self) h)

/-- From f to g: bits blown, none unblown, each one asked for, in both fuses of it; the parity stays right. -/
structure FusesGrow (f g : Fuses) (asked : Nat → Prop) : Prop where
  keeps : ∀ i < 1672, f.shadow.getLsbD i = true → g.shadow.getLsbD i = true
  asks : ∀ i < 1672, g.shadow.getLsbD i = true → f.shadow.getLsbD i = true ∨ asked i
  both : ∀ i < 1672, g.shadow.getLsbD i = true → f.shadow.getLsbD i = false → g.bank0.getLsbD i = true ∧ g.bank1.getLsbD i = true
  parity : shadowParity f.shadow = f.par → shadowParity g.shadow = g.par

theorem blows_grow (f : Fuses) {is : List Nat} {asked : Nat → Prop} (his : ∀ i ∈ is, i < 1672) (hasked : ∀ i ∈ is, asked i) :
    FusesGrow f (is.foldl blow f) asked := by
  constructor
  case keeps =>
    intro i _ hi
    rw [(blows_bits f is his i).1, hi, Bool.true_or]
  case asks =>
    intro i _ hi
    rw [(blows_bits f is his i).1, Bool.or_eq_true_iff, decide_eq_true_iff] at hi
    exact hi.imp id (hasked i)
  case both =>
    intro i _ hi hold
    obtain ⟨hs, h0, h1⟩ := blows_bits f is his i
    rw [hs, hold, Bool.false_or] at hi
    rw [h0, h1, hi, Bool.or_true, Bool.or_true]
    exact ⟨rfl, rfl⟩
  case parity => exact blows_parity is his

/-! ## Counters -/

theorem unblown_nodup (f : Fuses) (b : Nat) : (unblown f b).Nodup :=
  List.Nodup.filter _ (List.Nodup.map (fun _ _ h => Nat.add_left_cancel h) List.nodup_range)

theorem mem_unblown {f : Fuses} {b i : Nat} (h : i ∈ unblown f b) : b ≤ i ∧ i < b + 64 := by
  obtain ⟨hi, -⟩ := List.mem_filter.mp h
  obtain ⟨k, hk, rfl⟩ := List.mem_map.mp hi
  have := List.mem_range.mp hk
  omega

theorem unblown_length (f : Fuses) (b : Nat) : (unblown f b).length ≤ 64 := by
  refine (List.length_filter_le _ _).trans ?_
  simp

theorem filter_notMem_left {l r : List Nat} (h : (l ++ r).Nodup) : (l ++ r).filter (fun i => !decide (i ∈ l)) = r := by
  have hdisj := List.disjoint_of_nodup_append h
  rw [List.filter_append, List.filter_eq_nil_iff.mpr fun i hi => by simp [hi], List.nil_append]
  exact List.filter_eq_self.mpr fun i hi => by simpa using fun hl => hdisj hl hi

theorem filter_notMem_take {l : List Nat} (hl : l.Nodup) (n : Nat) : l.filter (fun i => !decide (i ∈ l.take n)) = l.drop n := by
  have h := filter_notMem_left (l := l.take n) (r := l.drop n) (by rwa [List.take_append_drop])
  rwa [List.take_append_drop] at h

/-- A counter whose next n bits are blown stands n higher. -/
theorem counterOf_blows (f : Fuses) (b : Nat) (hb : b + 64 ≤ 1672) {n : Nat} (hn : n ≤ (unblown f b).length) :
    counterOf (((unblown f b).take n).foldl blow f) b = counterOf f b + n := by
  have his : ∀ i ∈ (unblown f b).take n, i < 1672 := fun i hi => by
    have := mem_unblown (List.mem_of_mem_take hi)
    omega
  have hleft : unblown (((unblown f b).take n).foldl blow f) b = (unblown f b).drop n := by
    rw [← filter_notMem_take (unblown_nodup f b) n]
    generalize (unblown f b).take n = is at his ⊢
    rw [unblown, unblown, List.filter_filter]
    refine List.filter_congr fun i _ => ?_
    rw [(blows_bits f is his i).1, Bool.not_or, Bool.and_comm]
  have hlen := unblown_length f b
  unfold counterOf
  rw [hleft, List.length_drop]
  omega

end Sys2Proof.Claims
end

section
/-! SUPPORT. O54: nonces, signed requests, burns, the self-check and the debug port (R425 to R430). -/

namespace Sys2Proof.Claims

open Sys2Proof Sys2Proof.Machine

/-! ## Signed requests (R426) -/

theorem endRequest_ends (s : State) {result : Nat} : requestEnds s (endRequest s result) result ∧
    (endRequest s result).sec.nonce = s.sec.nonce ∧ (endRequest s result).sec.fuses = s.sec.fuses := by
  have hsev : evSev (if result = 0 then 0x0C04 else 0x0C03) < 2 := by split <;> decide
  have hcode : BitVec.ofNat 16 (if result = 0 then 0x0C04 else 0x0C03) = if result = 0 then 0x0C04 else 0x0C03 := by split <;> rfl
  unfold endRequest
  rw [event_low _ _ _ hsev]
  exact ⟨⟨rfl, hcode, rfl, rfl, rfl, rfl⟩, rfl, rfl⟩

/-- SEC_REQCTL.GO's request as it ends or begins its burn (R426). -/
theorem runRequest_runs (s : State) : (runRequest s).sec.nonce = none ∧ (runRequest s).sec.fuses = s.sec.fuses ∧
    (reqFormed (reqBytes s) = false → requestEnds s (runRequest s) 4) ∧
    (reqFormed (reqBytes s) = true → s.sec.nonce ≠ some (reqNonce (reqBytes s)) → requestEnds s (runRequest s) 1) ∧
    (reqFormed (reqBytes s) = true → s.sec.nonce = some (reqNonce (reqBytes s)) → reqSigned s.sec.fuses (reqBytes s) = false →
      requestEnds s (runRequest s) 2) ∧
    (reqFormed (reqBytes s) = true → s.sec.nonce = some (reqNonce (reqBytes s)) → reqSigned s.sec.fuses (reqBytes s) = true →
      reqAuthorised s (reqBytes s) = false → requestEnds s (runRequest s) 3) ∧
    (reqFormed (reqBytes s) = true → s.sec.nonce = some (reqNonce (reqBytes s)) → reqSigned s.sec.fuses (reqBytes s) = true →
      reqAuthorised s (reqBytes s) = true → (runRequest s).sec.busy = true ∧ (runRequest s).sec.burn = some (reqBurn (reqBytes s))) := by
  have hends : ∀ r, requestEnds s (endRequest { s with sec := { s.sec with nonce := none } } r) r ∧
      (endRequest { s with sec := { s.sec with nonce := none } } r).sec.nonce = none ∧
      (endRequest { s with sec := { s.sec with nonce := none } } r).sec.fuses = s.sec.fuses := fun _ => endRequest_ends _
  have heq : runRequest s = if !reqFormed (reqBytes s) then endRequest { s with sec := { s.sec with nonce := none } } 4
      else if s.sec.nonce ≠ some (reqNonce (reqBytes s)) then endRequest { s with sec := { s.sec with nonce := none } } 1
      else if !reqSigned s.sec.fuses (reqBytes s) then endRequest { s with sec := { s.sec with nonce := none } } 2
      else if !reqAuthorised s (reqBytes s) then endRequest { s with sec := { s.sec with nonce := none } } 3
      else { s with sec := { s.sec with nonce := none, busy := true, burn := some (reqBurn (reqBytes s)) } } := rfl
  generalize reqBytes s = b at heq ⊢
  rw [heq]
  by_cases hformed : reqFormed b = true
  case neg =>
    obtain ⟨hend, hnonce, hfuses⟩ := hends 4
    have hno := Bool.eq_false_iff.mpr hformed
    rw [hno, if_pos (by rfl)]
    exact ⟨hnonce, hfuses, fun _ => hend, nofun, nofun, nofun, nofun⟩
  rw [hformed, if_neg (by decide)]
  by_cases hnonce : s.sec.nonce = some (reqNonce b)
  case neg =>
    obtain ⟨hend, htaken, hfuses⟩ := hends 1
    rw [if_pos hnonce]
    exact ⟨htaken, hfuses, nofun, fun _ _ => hend, fun _ h => absurd h hnonce, fun _ h => absurd h hnonce, fun _ h => absurd h hnonce⟩
  rw [if_neg (not_not.mpr hnonce)]
  by_cases hsigned : reqSigned s.sec.fuses b = true
  case neg =>
    obtain ⟨hend, htaken, hfuses⟩ := hends 2
    have hno := Bool.eq_false_iff.mpr hsigned
    rw [hno, if_pos (by rfl)]
    exact ⟨htaken, hfuses, nofun, fun _ h => absurd hnonce h, fun _ _ _ => hend, nofun, nofun⟩
  rw [hsigned, if_neg (by decide)]
  by_cases hauth : reqAuthorised s b = true
  · rw [hauth, if_neg (by decide)]
    exact ⟨rfl, rfl, nofun, fun _ h => absurd hnonce h, nofun, nofun, fun _ _ _ _ => ⟨rfl, rfl⟩⟩
  · obtain ⟨hend, htaken, hfuses⟩ := hends 3
    have hno := Bool.eq_false_iff.mpr hauth
    rw [hno, if_pos (by rfl)]
    exact ⟨htaken, hfuses, nofun, fun _ h => absurd hnonce h, nofun, fun _ _ _ _ => hend, nofun⟩

section
variable {b : List Byte}

theorem reqBurn_prog (h : reqRop b = 1) : reqBurn b = .prog (numAt b 3 1) (BitVec.ofNat 384 (numAt b 4 48)) := by
  rw [reqBurn, h]
  rfl

theorem reqBurn_revoke (h : reqRop b = 2) : reqBurn b = .revoke (numAt b 3 1) := by
  rw [reqBurn, h]
  rfl

theorem reqBurn_img (h : reqRop b = 3) : reqBurn b = .img (numAt b 4 8) := by
  rw [reqBurn, h]
  rfl

theorem reqBurn_fw (h : reqRop b = 4) : reqBurn b = .fw (numAt b 4 8) := by
  rw [reqBurn, h]
  rfl

end

theorem goWith_runs {s : State} {rop : Nat} (hbusy : s.sec.busy = false) (hrop : reqRop (reqBytes s) = rop) : goWith s rop = runRequest s :=
  if_pos (by rw [hbusy, hrop, beq_self_eq_true]; rfl)

/-- A command that starts a request of its ROP runs it (Table SEC-4). -/
theorem request_runs {s : State} {c : Instr} {rop : Nat} {burn : Burn} (ho : opens s 0xC0060)
    (hreq : requestOf (reqBytes s) c = some (rop, burn)) (hbusy : s.sec.busy = false) (hrop : reqRop (reqBytes s) = rop) :
    exec c s = .next (runRequest s) ∧ burn = reqBurn (reqBytes s) := by
  have hrow : ∀ n, reqRop (reqBytes s) = n → Host.Outcome.next (rowWrite s 0xC0060 fun s => goWith s n) =
      (.next (runRequest s) : Host.Outcome State Fault Refusal) := fun n hn =>
    congrArg Host.Outcome.next ((rowWrite_open s 0xC0060 _ ho).trans (goWith_runs hbusy hn))
  unfold requestOf at hreq
  split at hreq
  case h_1 =>
    obtain ⟨rfl, rfl⟩ := Prod.mk.inj (Option.some.inj hreq)
    exact ⟨hrow 1 hrop, (reqBurn_prog hrop).symm⟩
  case h_2 =>
    obtain ⟨rfl, rfl⟩ := Prod.mk.inj (Option.some.inj hreq)
    exact ⟨hrow 2 hrop, (reqBurn_revoke hrop).symm⟩
  case h_3 =>
    obtain ⟨rfl, rfl⟩ := Prod.mk.inj (Option.some.inj hreq)
    exact ⟨hrow 3 hrop, (reqBurn_img hrop).symm⟩
  case h_4 =>
    obtain ⟨rfl, rfl⟩ := Prod.mk.inj (Option.some.inj hreq)
    exact ⟨hrow 4 hrop, (reqBurn_fw hrop).symm⟩
  case h_5 => cases hreq

/-! ## Burns (R427) -/

/-- The value bits that a burn asks for. -/
def AskedOf : Burn → Nat → Prop
  | .prog k h, i => (384 * k ≤ i ∧ i < 384 * k + 384 ∧ h.getLsbD (i - 384 * k) = true) ∨ i = 1536 + k
  | .revoke k, i => i = 1540 + k
  | .img _, i => 1608 ≤ i ∧ i < 1672
  | .fw _, i => 1544 ≤ i ∧ i < 1608

theorem mem_burnBits_prog {f : Fuses} {k i : Nat} {h : BitVec 384} : i ∈ burnBits f (.prog k h) ↔ AskedOf (.prog k h) i := by
  have hbits : burnBits f (.prog k h) = (((List.range 384).filter fun j => h.getLsbD j).map (384 * k + ·)) ++ [1536 + k] := rfl
  have hasked : AskedOf (.prog k h) i = ((384 * k ≤ i ∧ i < 384 * k + 384 ∧ h.getLsbD (i - 384 * k) = true) ∨ i = 1536 + k) := rfl
  rw [hbits, hasked, List.mem_append, List.mem_singleton, List.mem_map]
  refine or_congr_left ⟨?_, fun ⟨hlow, hhigh, hbit⟩ => ⟨i - 384 * k, ?_, by omega⟩⟩
  · rintro ⟨j, hj, rfl⟩
    obtain ⟨hlt, hbit⟩ := List.mem_filter.mp hj
    have hlt := List.mem_range.mp hlt
    exact ⟨by omega, by omega, by rwa [Nat.add_sub_cancel_left]⟩
  · exact List.mem_filter.mpr ⟨List.mem_range.mpr (by omega), hbit⟩

/-- What a burn may ask for: a slot, or a counter's higher value (Table SEC-5). -/
def Burnable (f : Fuses) : Burn → Prop
  | .prog k _ => k < 4
  | .revoke k => k < 4
  | .img v => f.arbImg < v ∧ v ≤ 64
  | .fw v => f.arbFw < v ∧ v ≤ 64

theorem burnBits_asked {f : Fuses} {x : Burn} (h : Burnable f x) {i : Nat} (hi : i ∈ burnBits f x) : i < 1672 ∧ AskedOf x i := by
  cases x with
  | prog k hash =>
    have hk : k < 4 := h
    have hasked := mem_burnBits_prog.mp hi
    refine ⟨?_, hasked⟩
    rcases hasked with ⟨-, hlt, -⟩ | heq
    · omega
    · omega
  | revoke k =>
    have hk : k < 4 := h
    obtain rfl : i = 1540 + k := List.mem_singleton.mp hi
    exact ⟨by omega, rfl⟩
  | img v =>
    have hin : 1608 ≤ i ∧ i < 1608 + 64 := mem_unblown (List.mem_of_mem_take hi)
    exact ⟨hin.2, hin⟩
  | fw v =>
    have hin : 1544 ≤ i ∧ i < 1544 + 64 := mem_unblown (List.mem_of_mem_take hi)
    exact ⟨by omega, hin⟩

theorem burnt_grows {f : Fuses} {x : Burn} (h : Burnable f x) (ok : Bool) (n : Nat) : FusesGrow f (burnt f x ok n) (AskedOf x) := by
  unfold burnt
  dsimp only
  refine blows_grow f (fun i hi => (burnBits_asked h ?_).1) fun i hi => (burnBits_asked h ?_).2
  all_goals
    split at hi
    · exact hi
    · exact List.mem_of_mem_take hi

/-- A counter's burn that ends after n of its bits has raised it by n. -/
theorem counterOf_burnt (f : Fuses) (b : Nat) (hb : b + 64 ≤ 1672) {v : Nat} (hlow : counterOf f b < v) (hhigh : v ≤ 64) (n : Nat) :
    counterOf (((unblown f b).take (v - counterOf f b)).foldl blow f) b = v ∧
    counterOf f b ≤ counterOf ((((unblown f b).take (v - counterOf f b)).take
      (min n (((unblown f b).take (v - counterOf f b)).length - 1))).foldl blow f) b ∧
    counterOf ((((unblown f b).take (v - counterOf f b)).take
      (min n (((unblown f b).take (v - counterOf f b)).length - 1))).foldl blow f) b < v := by
  have hlen := unblown_length f b
  have hcount : counterOf f b = 64 - (unblown f b).length := rfl
  have htake : ((unblown f b).take (v - counterOf f b)).length = v - counterOf f b := by
    rw [List.length_take]
    omega
  rw [htake, List.take_take, counterOf_blows f b hb (by omega), counterOf_blows f b hb (by omega)]
  omega

/-- What a burn that succeeds has done (R427). -/
def BurnDone (g : Fuses) : Burn → Prop
  | .img v => g.arbImg = v
  | .fw v => g.arbFw = v
  | .prog k h => ∀ i < 1672, AskedOf (.prog k h) i → g.shadow.getLsbD i = true
  | .revoke k => ∀ i < 1672, AskedOf (.revoke k) i → g.shadow.getLsbD i = true

/-- What a burn that fails leaves (R427). -/
def BurnBroken (f g : Fuses) : Burn → Prop
  | .img v => f.arbImg ≤ g.arbImg ∧ g.arbImg < v
  | .fw v => f.arbFw ≤ g.arbFw ∧ g.arbFw < v
  | .revoke _ => g = f
  | .prog k _ => g.shadow.getLsbD (1536 + k) = f.shadow.getLsbD (1536 + k) ∧
      (f.shadow.getLsbD (1536 + k) = false → (∃ i, 384 * k ≤ i ∧ i < 384 * k + 384 ∧ g.shadow.getLsbD i = true) →
        slotDamaged g k = true ∧ slotGood g k = false)

theorem burnt_done {f : Fuses} {x : Burn} (h : Burnable f x) (n : Nat) : BurnDone (burnt f x true n) x := by
  have hall : burnt f x true n = (burnBits f x).foldl blow f := rfl
  have hbits : ∀ i, i ∈ burnBits f x → (burnt f x true n).shadow.getLsbD i = true := by
    intro i hi
    rw [hall, (blows_bits f _ (fun j hj => (burnBits_asked h hj).1) i).1, decide_eq_true hi, Bool.or_true]
  cases x with
  | prog k hash => exact fun i _ hi => hbits i (mem_burnBits_prog.mpr hi)
  | revoke k => exact fun i _ hi => hbits i (List.mem_singleton.mpr hi)
  | img v => exact (counterOf_burnt f imgBit (by decide) h.1 h.2 n).1
  | fw v => exact (counterOf_burnt f fwBit (by decide) h.1 h.2 n).1

/-- A slot with a blown hash bit and PROG unblown is damaged (R427). -/
theorem slot_damaged {g : Fuses} {k : Nat} (hprog : g.shadow.getLsbD (1536 + k) = false)
    (hbit : ∃ i, 384 * k ≤ i ∧ i < 384 * k + 384 ∧ g.shadow.getLsbD i = true) : slotDamaged g k = true ∧ slotGood g k = false := by
  have hdamaged : slotDamaged g k = true := by
    obtain ⟨i, hlow, hhigh, hset⟩ := hbit
    have hhash : slotHash g k ≠ 0 := by
      intro hzero
      have hread := congrArg (fun v : BitVec 384 => v.getLsbD (i - 384 * k)) hzero
      have hin : (slotHash g k).getLsbD (i - 384 * k) = true := by
        rw [slotHash, BitVec.getLsbD_extractLsb', hashBit, show 384 * k + (i - 384 * k) = i by omega, hset]
        exact (Bool.and_true _).trans (decide_eq_true (by omega))
      exact absurd (hin.symm.trans hread) (by simp)
    rw [slotDamaged, progBit, hprog, bne_iff_ne.mpr hhash]
    rfl
  refine ⟨hdamaged, ?_⟩
  rw [slotGood, slotRev, hdamaged, Bool.or_true, Bool.not_true, Bool.and_false]

theorem burnt_broken {f : Fuses} {x : Burn} (h : Burnable f x) (n : Nat) : BurnBroken f (burnt f x false n) x := by
  have hpart : burnt f x false n = ((burnBits f x).take (min n ((burnBits f x).length - 1))).foldl blow f := rfl
  cases x with
  | prog k hash =>
    have hk : k < 4 := h
    have hsame : (burnt f (.prog k hash) false n).shadow.getLsbD (1536 + k) = f.shadow.getLsbD (1536 + k) := by
      have hnot : 1536 + k ∉ (burnBits f (.prog k hash)).take (min n ((burnBits f (.prog k hash)).length - 1)) := by
        intro hin
        have hbits : burnBits f (.prog k hash) = (((List.range 384).filter fun j => hash.getLsbD j).map (384 * k + ·)) ++ [1536 + k] := rfl
        rw [hbits, List.length_append, List.length_singleton, Nat.add_sub_cancel, List.take_append_of_le_length (Nat.min_le_right _ _)] at hin
        obtain ⟨j, hj, heq⟩ := List.mem_map.mp (List.mem_of_mem_take hin)
        have := List.mem_range.mp (List.mem_filter.mp hj).1
        omega
      rw [hpart, (blows_bits f _ (fun j hj => (burnBits_asked h (List.mem_of_mem_take hj)).1) _).1, decide_eq_false hnot, Bool.or_false]
    exact ⟨hsame, fun hclear hbit => slot_damaged (hsame.trans hclear) hbit⟩
  | revoke k =>
    have hnone : min n ((burnBits f (.revoke k)).length - 1) = 0 := Nat.min_eq_right (Nat.zero_le n)
    show burnt f (.revoke k) false n = f
    rw [hpart, hnone]
    rfl
  | img v => exact (counterOf_burnt f imgBit (by decide) h.1 h.2 n).2
  | fw v => exact (counterOf_burnt f fwBit (by decide) h.1 h.2 n).2

theorem burnComplete_ends {s : State} {x : Burn} (hburn : s.sec.burn = some x) (hwait : s.sec.sysWaits = none) (ok : Bool) (n : Nat) :
    requestEnds s (burnComplete s ok n) (if ok then 0 else 5) ∧ (burnComplete s ok n).sec.fuses = burnt s.sec.fuses x ok n := by
  have heq : burnComplete s ok n = burnEnds s x ok n := by rw [burnComplete, hburn, hwait]
  obtain ⟨hends, -, hfuses⟩ := endRequest_ends { s with sec := { s.sec with fuses := burnt s.sec.fuses x ok n } }
    (result := if ok then 0 else 5)
  rw [heq]
  exact ⟨hends, hfuses⟩

/-! ## The self-check (R425) and the debug port (R429, R430) -/

theorem debugClose_closes {s : State} (h : s.sec.open_ = true) : (debugClose s).sec.open_ = false ∧
    bitAt (debugClose s).pace.req.toNat 5 = false ∧ (debugClose s).tiles = s.tiles := by
  have heq : debugClose s = event (withdrawHold { s with sec := { s.sec with open_ := false } } 5) 0x0C07 := if_pos h
  rw [heq, event_low _ 0x0C07 _ (by decide)]
  exact ⟨rfl, (bitAt_putBit s.pace.req (by decide) false 5).trans (if_pos rfl), rfl⟩

theorem debugClose_shut (s : State) : (debugClose s).sec.open_ = false := by
  by_cases h : s.sec.open_ = true
  · exact (debugClose_closes h).1
  · rw [debugClose, if_neg h]
    exact Bool.eq_false_iff.mpr h

theorem event_needsPor (s : State) (a : EvArgs) : (event s 0x0C09 a).pace.needPor = true := by
  unfold event
  rw [if_neg (by decide)]
  unfold abortWith
  dsimp only
  split
  · exact Bool.or_true _
  · exact Bool.or_true _

/-- One bit upset makes the parity of its byte wrong (R425). -/
theorem shadowParity_upset (v : BitVec 1672) {i : Nat} (hi : i < 1672) : shadowParity (upset v [i]) ≠ shadowParity v := by
  have hflip : ∀ j, (upset v [i]).getLsbD j = (v.getLsbD j ^^ decide (j = i)) := by
    intro j
    show (v ^^^ BitVec.ofNat 1672 (2 ^ i)).getLsbD j = _
    rw [BitVec.getLsbD_xor, getLsbD_oneHot]
    by_cases h : j = i
    · simp [h, hi]
    · simp [h, Ne.symm h]
  rw [shadowParity_flip hflip]
  refine toggleAt_ne ?_
  rw [shadowParity, List.length_map, List.length_range]
  omega

theorem fuseCheck_right {s : State} {flips : List Nat} (h : shadowParity (upset s.sec.fuses.shadow flips) = s.sec.fuses.par) :
    fuseCheck s flips = { s with sec := { s.sec with fuses := { s.sec.fuses with shadow := upset s.sec.fuses.shadow flips } } } :=
  if_pos (beq_iff_eq.mpr h)

theorem fuseCheck_wrong {s : State} {flips : List Nat} (h : shadowParity (upset s.sec.fuses.shadow flips) ≠ s.sec.fuses.par) :
    (fuseCheck s flips).pace.state = .aborted ∧ (fuseCheck s flips).pace.fatal = true ∧ (fuseCheck s flips).pace.needPor = true ∧
    (fuseCheck s flips).sec.open_ = false := by
  have heq : fuseCheck s flips = event (debugClose { s with sec := { s.sec with
      fuses := { s.sec.fuses with shadow := upset s.sec.fuses.shadow flips } } }) 0x0C09 := if_neg fun hc => h (beq_iff_eq.mp hc)
  obtain ⟨hstate, hfatal, -⟩ := event_stops (debugClose { s with sec := { s.sec with
      fuses := { s.sec.fuses with shadow := upset s.sec.fuses.shadow flips } } }) (c := 0x0C09) (by decide) {}
  rw [heq]
  refine ⟨hstate, hfatal, event_needsPor _ _, ?_⟩
  rw [event_sec]
  exact debugClose_shut _

theorem requestHold_paces (s : State) (k : Nat) : requestHold s k = { s with pace := (requestHold s k).pace } ∧
    (requestHold s k).pace.req = putBit s.pace.req k true := by
  unfold requestHold
  dsimp only
  split
  · rename_i hsame
    exact ⟨rfl, hsame.symm⟩
  · split
    · exact ⟨rfl, rfl⟩
    · exact ⟨rfl, rfl⟩

theorem debugHalt_halts {s : State} (h : s.sec.open_ = true) (halt : Bool) : debugHalt s halt = { s with pace := (debugHalt s halt).pace } ∧
    (debugHalt s halt).pace.req = putBit s.pace.req 5 halt := by
  cases halt
  · have heq : debugHalt s false = withdrawHold s 5 := by
      rw [debugHalt, h]
      rfl
    rw [heq]
    exact ⟨rfl, rfl⟩
  · have heq : debugHalt s true = requestHold s 5 := by
      rw [debugHalt, h]
      rfl
    rw [heq]
    exact requestHold_paces s 5

/-- Settles O54: nonces, requests, burns, the self-check and the debug port, each by what its row changes. -/
theorem security : Obligations.Security := by
  unfold Obligations.Security
  intro s a c n b f
  refine ⟨?_, ?_, ?_, ?_, ?_, ?_⟩
  · intro hreach
    refine ⟨nonceDraw s a, congrArg Host.Outcome.next (rowAccess_reaches hreach _), rfl, mget_mset_self _ _ _ _, rfl, fun k hk => ?_⟩
    exact mget_mset_other _ _ _ _ _ _ hk
  · intro rop burn ho hreq hbusy hrop
    obtain ⟨hexec, rfl⟩ := request_runs ho hreq hbusy hrop
    exact ⟨_, hexec, runRequest_runs s⟩
  · intro x hburn hwait bit asked grows hable
    have hok : Burnable f x := by cases x <;> exact hable
    have hgrows : ∀ g, FusesGrow f g (AskedOf x) → grows g := by
      intro g hg
      cases x <;> exact ⟨hg.keeps, hg.asks, hg.both, hg.parity⟩
    refine ⟨?_, ?_⟩
    · obtain ⟨hends, hfuses⟩ := burnComplete_ends hburn hwait true n
      refine ⟨_, rfl, hends, ?_⟩
      rw [hfuses]
      refine ⟨hgrows _ (burnt_grows hok true n), ?_⟩
      have hdone := burnt_done hok n
      cases x <;> exact hdone
    · obtain ⟨hends, hfuses⟩ := burnComplete_ends hburn hwait false n
      refine ⟨_, rfl, hends, ?_⟩
      rw [hfuses]
      refine ⟨hgrows _ (burnt_grows hok false n), ?_⟩
      have hbroken := burnt_broken hok n
      cases x <;> exact hbroken
  · intro flips
    refine ⟨fun h => congrArg Host.Outcome.next (fuseCheck_right h), fun h => ⟨_, rfl, fuseCheck_wrong ?_⟩⟩
    rcases h with h | ⟨hpar, i, hi, rfl⟩
    · exact h
    · exact fun heq => shadowParity_upset f.shadow hi (heq.trans hpar.symm)
  · intro hopen
    refine ⟨⟨_, rfl, debugClose_closes hopen⟩, fun halt => ?_⟩
    obtain ⟨hframe, hreq⟩ := debugHalt_halts hopen halt
    refine ⟨_, rfl, ?_, hframe, fun i _ hi => ?_⟩
    · rw [hreq]
      exact (bitAt_putBit s.pace.req (by decide) halt 5).trans (if_pos rfl)
    · rw [hreq]
      exact (bitAt_putBit s.pace.req (by decide) halt i).trans (if_neg hi)
  · intro hopen
    refine ⟨congrArg Host.Outcome.next (if_neg (by rw [hopen]; decide)), fun halt => congrArg Host.Outcome.next (if_pos ?_)⟩
    rw [hopen]
    rfl

end Sys2Proof.Claims
end

section
/-! SUPPORT. O55: register accesses, violations, latched reads and clears (R432 to R443). -/

namespace Sys2Proof.Claims

open Sys2Proof Sys2Proof.Machine

/-! ## Violations (R435) -/

theorem accessViolates_violated (s : State) (x : RegAccess) {code : Nat} (h : evSev code < 2) (w : Bool) :
    violated s (accessViolates s x code w) x code ∧ (accessViolates s x code w).answer = s.answer := by
  unfold accessViolates
  rw [violate_frame s _ h]
  exact ⟨⟨rfl, rfl, rfl, rfl⟩, rfl⟩

/-- A violating read, with the answer that its agent's port gives it. -/
theorem accessViolates_answered (s : State) (x : RegAccess) {code : Nat} (h : evSev code < 2) (w : Bool) :
    violated s { accessViolates s x code w with answer := refusedRead x.agent } x code := by
  unfold accessViolates
  rw [violate_frame s _ h]
  exact ⟨rfl, rfl, rfl, rfl⟩

theorem abortAnswer_eq (a : Agent) : abortAnswer a = refusedRead a := by
  cases a <;> rfl

theorem locked_violated {s : State} {x : RegAccess} {off : Nat} (h : x.offset = off) :
    violated s (locked s x.agent off) x 0x0103 ∧ (locked s x.agent off).answer = s.answer := by
  unfold locked
  rw [violateReg_frame s x.agent 0x0103 off true (by decide), ← h]
  exact ⟨⟨rfl, rfl, rfl, rfl⟩, rfl⟩

/-- A register write to a block that does not answer is recorded (R433). -/
theorem rowWrite_violates {s : State} {off : Nat} (h : rowOpen s off true = false) (f : State → State) :
    (rowWrite s off f).glb.violCode = 0x0102 ∧ (rowWrite s off f).glb.violAddr = BitVec.ofNat 36 off ∧
    rowWrite s off f = { s with glb := (rowWrite s off f).glb, hq := (rowWrite s off f).hq, ic := (rowWrite s off f).ic
                                flt := (rowWrite s off f).flt, free := (rowWrite s off f).free } := by
  rw [rowWrite_shut s off f h, violateReg_frame _ _ 0x0102 off true (by decide)]
  exact ⟨rfl, rfl, rfl⟩

/-- A command that is a write of the register at an offset. -/
def IsRow (s : State) (c : Instr × Nat) : Prop := ∃ f, exec c.1 s = .next (rowWrite s c.2 f)

theorem plainRows_rows (s : State) (n : Fin 26) (k : Fin 8) (p : Fin 4) (v : Word) (b : Bool) : ∀ c ∈ plainRows n k p v b, IsRow s c := by
  unfold plainRows
  simp only [List.forall_mem_cons]
  refine ⟨⟨_, rfl⟩, ⟨_, rfl⟩, ⟨_, rfl⟩, ⟨_, rfl⟩, ⟨_, rfl⟩, ⟨_, rfl⟩, ⟨fun s => maskWrite s false 0 v, rfl⟩, ⟨_, rfl⟩, ⟨_, rfl⟩, ⟨_, rfl⟩,
    ⟨_, rfl⟩, ⟨_, rfl⟩, ⟨_, rfl⟩, ⟨_, rfl⟩, ⟨_, rfl⟩, ⟨_, rfl⟩, ⟨_, rfl⟩, ⟨_, rfl⟩, ⟨_, rfl⟩, ⟨_, rfl⟩, ⟨_, rfl⟩, ⟨_, rfl⟩, ⟨_, rfl⟩,
    ⟨_, rfl⟩, ⟨_, rfl⟩, ⟨_, rfl⟩, ⟨_, rfl⟩, ⟨_, rfl⟩, ⟨_, rfl⟩, ⟨_, rfl⟩, ⟨_, rfl⟩, ⟨_, rfl⟩, nofun⟩

/-! ## Accesses that reach their register (R432, R434) -/

section
variable {s : State} {x : RegAccess} (h : Reaches s x)
include h

theorem Reaches.whole : x.ndw = 1 ∧ x.be = 15 := by
  have hvalid := h.valid
  rw [accessValid, Bool.and_eq_true, Bool.and_eq_true] at hvalid
  exact ⟨beq_iff_eq.mp hvalid.1.2, beq_iff_eq.mp hvalid.2⟩

theorem Reaches.writes : exec (.registerWrite x) s = .next ((writeReg s x.agent x.offset x.data).elim (accessViolates s x 0x0102 true) id) := by
  have hspace : (x.space != .bar0) = false := by rw [h.space]; rfl
  refine (if_pos h.wf).trans (congrArg Host.Outcome.next ?_)
  rw [registerWrite, hspace, h.sound, h.agent, not_accessEmpty_of_accessValid h.valid, h.valid, h.rowOpen true]
  cases writeReg s x.agent x.offset x.data <;> rfl

theorem Reaches.writesBlock {off : Nat} (hoff : x.offset = off) (hlow : off < 0x100000) (hreg : (regValue s x.agent off).isNone = false) :
    exec (.registerWrite x) s = .next (blockWrite s x.agent off x.data) := by
  rw [h.writes, hoff, writeReg, if_neg (Nat.not_le.mpr hlow), hreg]
  rfl

theorem Reaches.violates {off : Nat} (hoff : x.offset = off) (hlow : off < 0x100000) (hreg : (regValue s x.agent off).isNone = true) :
    exec (.registerWrite x) s = .next (violateReg s x.agent 0x0102 off true) := by
  obtain ⟨hndw, hbe⟩ := h.whole
  rw [h.writes, hoff, writeReg, if_neg (Nat.not_le.mpr hlow), hreg]
  refine congrArg Host.Outcome.next ?_
  show accessViolates s x 0x0102 true = _
  rw [accessViolates, hndw, hbe, hoff]
  rfl

end

theorem modeWrite_locked {s : State} (a : Agent) {v : Word} (hidle : s.idle = false) (hmode : BitVec.ofNat 2 (v.toNat % 4) ≠ s.pace.mode) :
    blockWrite s a 0x10000 v = locked s a 0x10000 := by
  have hfield : fieldOf 2 v 0 = BitVec.ofNat 2 (v.toNat % 4) := by rw [fieldOf, bits, pow_zero, Nat.div_one]; rfl
  refine if_pos ?_
  rw [hidle, hfield, bne_iff_ne.mpr hmode]
  rfl

theorem latch_latched (s : State) (a : Agent) (off : Nat) (w : Word) : (s.latch a off w).latched a off = w := mget_mset_self _ _ _ _

/-! ## Accesses that violate or are poisoned (R434, R435) -/

section
variable {s : State} {x : RegAccess} (hwf : x.wf = true) (hspace : x.space = .bar0)
include hwf hspace

theorem registerWrite_faults (hreach : agentReaches s x.agent x.offset = true) (hfull : accessEmpty x = false) (hsound : x.poisoned = false) :
    (accessValid x = false → exec (.registerWrite x) s = .next (accessViolates s x 0x0101 true)) ∧
    (accessValid x = true → rowOpen s x.offset true = false → exec (.registerWrite x) s = .next (accessViolates s x 0x0102 true)) := by
  have hbar : (x.space != .bar0) = false := by rw [hspace]; rfl
  refine ⟨fun hinvalid => (if_pos hwf).trans (congrArg Host.Outcome.next ?_), fun hvalid hshut => (if_pos hwf).trans (congrArg Host.Outcome.next ?_)⟩
  · rw [registerWrite, hbar, hsound, hreach, hfull, hinvalid]
    rfl
  · rw [registerWrite, hbar, hsound, hreach, hfull, hvalid, hshut]
    rfl

theorem loRead_faults (hreach : agentReaches s x.agent x.offset = true) (hfull : accessEmpty x = false) :
    (accessValid x = false → exec (.loReadLatch x) s = .next { accessViolates s x 0x0101 false with answer := refusedRead x.agent }) ∧
    (accessValid x = true → rowOpen s x.offset false = false →
      exec (.loReadLatch x) s = .next { accessViolates s x 0x0102 false with answer := refusedRead x.agent }) := by
  have hbar : (x.space != .bar0) = false := by rw [hspace]; rfl
  refine ⟨fun hinvalid => (if_pos hwf).trans (congrArg Host.Outcome.next ?_), fun hvalid hshut => (if_pos hwf).trans (congrArg Host.Outcome.next ?_)⟩
  · rw [loRead, hbar, hreach, hfull, hinvalid, abortAnswer_eq]
    rfl
  · rw [loRead, hbar, hreach, hfull, hvalid, hshut, abortAnswer_eq]
    rfl

theorem poisonedWrite_drops {rid : BitVec 16} (hagent : x.agent = .host rid) (hpoisoned : x.poisoned = true) :
    ∃ s', exec (.registerWrite x) s = .next s' ∧ s' = { s with hq := s'.hq, ic := s'.ic, flt := s'.flt } ∧
      (s.hq.evq.length < 256 → ∃ e, s'.hq.evq = s.hq.evq ++ [e] ∧ e.code = 0x0207 ∧ e.addr = BitVec.ofNat 64 x.offset) := by
  have hbar : (x.space != .bar0) = false := by rw [hspace]; rfl
  refine ⟨poisonedWrite s x.offset, (if_pos hwf).trans (congrArg Host.Outcome.next ?_), event_low s 0x0207 _ (by decide), fun hroom => ?_⟩
  · rw [registerWrite, hbar, hpoisoned, hagent]
    rfl
  · rw [poisonedWrite, event_evq (by decide) (by decide), if_pos hroom]
    exact ⟨_, rfl, rfl, rfl⟩

end

/-! ## BAR4 (R318, R321) -/

theorem mergeBytes_all (old new : Word) : mergeBytes old new 15 = new := by
  have hlt := new.isLt
  refine BitVec.eq_of_toNat_eq ?_
  have hpack : mergeBytes old new 15 = BitVec.ofNat 32 (new.toNat / 2 ^ 0 % 2 ^ 8 * 2 ^ 0 + (new.toNat / 2 ^ 8 % 2 ^ 8 * 2 ^ 8 +
      (new.toNat / 2 ^ 16 % 2 ^ 8 * 2 ^ 16 + (new.toNat / 2 ^ 24 % 2 ^ 8 * 2 ^ 24 + 0)))) := rfl
  rw [hpack, BitVec.toNat_ofNat]
  omega

section
variable {s : State} {x : RegAccess} {rid : BitVec 16} (hwf : x.wf = true) (hagent : x.agent = .host rid) (hspace : x.space = .bar4)
  (hpower : s.powered 2 = true)
include hwf hagent hspace hpower

theorem bar4_writes (hbe : x.be = 15) {o : Nat} (ho : x.offset = o) (halign : o % 4 = 0) :
    exec (.registerWrite x) s = .next (bar4Write s o x.data) := by
  have hbar : (x.space != .bar0) = true := by rw [hspace]; rfl
  have hword : x.offset / 4 * 4 = o := by omega
  refine (if_pos hwf).trans (congrArg Host.Outcome.next ?_)
  rw [registerWrite, hbar, if_pos rfl, pciWrite, hword, hbe, mergeBytes_all, pciReaches, hagent, hpower, hspace]
  rfl

theorem bar4_reads {o : Nat} (ho : x.offset = o) (halign : o % 4 = 0) :
    exec (.loReadLatch x) s = .next { s with answer := .word (bar4Read s o) } := by
  have hbar : (x.space != .bar0) = true := by rw [hspace]; rfl
  have hword : x.offset / 4 * 4 = o := by omega
  refine (if_pos hwf).trans (congrArg Host.Outcome.next ?_)
  rw [loRead, hbar, if_pos rfl, pciRead, hword, pciReaches, hagent, hpower, hspace]
  rfl

end

theorem bar4Write_entry (s : State) (j : Fin 64) (v : Word) :
    bar4Write s (16 * j) v = s.setTarget j { s.target j with
      msgAddr := BitVec.ofNat 64 ((s.target j).msgAddr.toNat / 2 ^ 32 * 2 ^ 32 + v.toNat / 4 * 4) } ∧
    bar4Write s (16 * j + 8) v = s.setTarget j { s.target j with msgData := v } ∧
    bar4Write s (16 * j + 12) v = vectorMask s j (bitAt v.toNat 0) := by
  have hj := j.isLt
  have hplace : ∀ r < 16, (16 * j.val + r) / 16 = j ∧ (16 * j.val + r) % 16 = r ∧ 16 * j.val + r < 0x400 := fun r hr => by omega
  refine ⟨?_, ?_, ?_⟩
  · obtain ⟨hdiv, hmod, hlt⟩ := hplace 0 (by decide)
    rw [Nat.add_zero] at hdiv hmod hlt
    rw [bar4Write, if_pos hlt, hdiv, hmod]
    rfl
  · obtain ⟨hdiv, hmod, hlt⟩ := hplace 8 (by decide)
    rw [bar4Write, if_pos hlt, hdiv, hmod]
    rfl
  · obtain ⟨hdiv, hmod, hlt⟩ := hplace 12 (by decide)
    rw [bar4Write, if_pos hlt, hdiv, hmod]
    rfl

theorem vectorMask_masks (s : State) (k : Nat) (m : Bool) : ((vectorMask s k m).target k).vmask = m := by
  have hset : ((s.setTarget k { s.target k with vmask := m }).target k).vmask = m := by rw [State.setTarget_target_self]
  rw [vectorMask, releasePba_target]
  split <;> exact hset

/-! ## Clears and samples (R442, R443) -/

theorem glbClrviol_latched (s : State) (e : Agent) {o : Nat} (ho : o < 2 ^ 26) :
    (glbClrviol s).latched e o = if o = 0x14 then 0 else s.latched e o := by
  have hkey : (agentNo e * 2 ^ 26 + o) % 2 ^ 26 = o := by omega
  show mget 0 (s.latches.filter fun p => p.1 % 2 ^ 26 != 0x14) (agentNo e * 2 ^ 26 + o) = _
  by_cases h : o = 0x14
  · rw [if_pos h]
    exact mget_filter_none fun _ => by rw [hkey, h]; rfl
  · rw [if_neg h]
    exact mget_filter_kept fun _ => by rw [hkey]; exact bne_iff_ne.mpr h

theorem qrecRead_samples {s : State} {a : Agent} {b t q : Nat} (hdef : bedDefined s b = true) (hsel : selQueue s a b = some (t, q)) :
    qrecRead s a b = { s.setSel a b { s.sel a b with sample := queueWords (s.tile t) q } with
      answer := .word ((queueWords (s.tile t) q).headD 0) } := by
  rw [qrecRead, if_pos hdef, qrecSample, hsel]

theorem setSel_sel_self (s : State) (a : Agent) (b : Nat) (x : BedSel) : (s.setSel a b x).sel a b = x := mget_mset_self _ _ _ _

theorem setSel_sel_other (s : State) {a e : Agent} {b c : Nat} (x : BedSel) (h : agentNo e ≠ agentNo a) (hb : b < 256) (hc : c < 256) :
    (s.setSel a b x).sel e c = s.sel e c :=
  mget_mset_other _ _ _ _ _ _ (by unfold selKey; omega)

theorem bedSatclr_clears {s : State} {a : Agent} {b t : Nat} (hdef : bedDefined s b = true) (hsel : selQ s a b = some t) :
    bedSatclr s a b = s.setTile t { s.tile t with
      q := { (s.tile t).q with satc := [], fired := [] }, badParity := (s.tile t).badParity.filter fun p => p.1 != .qcnt } := by
  rw [bedSatclr, hdef, hsel]

theorem spClrstat_clears (s : State) (i : Nat) : ((spClrstat s).sport i).good = 0 ∧ ((spClrstat s).sport i).short = 0 ∧
    ((spClrstat s).sport i).crc = 0 ∧ ((spClrstat s).sport i).hdr = 0 ∧ ((spClrstat s).sport i).xoffcnt = 0 ∧
    ((spClrstat s).sport i).v0 = (s.sport i).v0 := by
  have hport : (spClrstat s).sport i = { s.sport i with good := 0, short := 0, crc := 0, hdr := 0, late := 0, subs := 0, ovf := 0, xoffcnt := 0 } :=
    mget_mapAll _ _ _ _ rfl
  rw [hport]
  exact ⟨rfl, rfl, rfl, rfl, rfl, rfl⟩

theorem ffdataAccess_write (s : State) (v : Word) :
    let key := ffKey (b2n (!bitAt s.nce.ffbank.toNat s.nce.ffView.toNat)) s.nce.ffView.toNat s.nce.ffCol.toNat
    (ffdataAccess s (some v)).nce.ffCol = s.nce.ffCol + 1 ∧
    mget 0 (ffdataAccess s (some v)).nce.ff key =
      packW [(16, FloatFmt.fp16.finite (bits v.toNat 16 16)), (0, FloatFmt.fp16.finite (bits v.toNat 0 16))] ∧
    ∀ i, i ≠ key → mget 0 (ffdataAccess s (some v)).nce.ff i = mget 0 s.nce.ff i :=
  ⟨rfl, mget_mset_self _ _ _ _, fun _ hi => mget_mset_other _ _ _ _ _ _ hi⟩

/-! ## RRP (R297) -/

theorem rrpWrite_takes {s : State} {a : Agent} {k : Nat} {v : Word} (h : rrpOk (s.engine k) v = true) :
    rrpWrite s a k v = s.setEngine k { s.engine k with rrp := v } := if_pos h

theorem rrpWrite_refuses {s : State} {a : Agent} {k : Nat} {v : Word} (h : ¬ rrpOk (s.engine k) v = true) :
    (rrpWrite s a k v).se = s.se ∧ (rrpWrite s a k v).glb.violCode = 0x0103 := by
  have heq : rrpWrite s a k v = locked s a (rrpOff k) := if_neg h
  rw [heq, locked, violateReg_frame _ _ 0x0103 _ _ (by decide)]
  exact ⟨rfl, rfl⟩

/-- Settles O55: register accesses, violations, latched reads and clears, each by what it reaches and what it leaves. -/
theorem registers : Obligations.Registers := by
  unfold Obligations.Registers
  intro s x a b k v m
  refine ⟨?_, ?_, ?_, ?_, ?_, ?_, ?_, ?_, ?_, ?_, ?_, ?_, ?_, ?_, ?_, ?_, ?_⟩
  · intro h
    refine ⟨fun hoff => ?_, fun hoff => ?_, fun hoff => ?_, fun hoff hidle hmode => ?_, fun hoff => ?_, fun hoff => ?_⟩
    · exact h.writesBlock hoff (by decide) rfl
    · have hopen : rowOpen s 0x1004C true = true := hoff ▸ h.rowOpen true
      exact (h.writesBlock hoff (by decide) rfl).trans (congrArg Host.Outcome.next
        (rowWrite_open s 0x1004C (fun s => swholdWrite s (bitAt x.data.toNat 0)) hopen).symm)
    · exact h.violates hoff (by decide) rfl
    · have hexec := (h.writesBlock hoff (by decide) rfl).trans (congrArg Host.Outcome.next (modeWrite_locked x.agent hidle hmode))
      exact ⟨_, hexec, locked_violated hoff⟩
    · have hread : readReg s x.agent x.offset = some { s.latch x.agent 0x1000C (hiHalf s.pace.step.toNat) with
          answer := .word (loHalf s.pace.step.toNat) } := by
        rw [hoff]
        rfl
      exact ⟨_, exec_loReadLatch_of_readReg h hread, rfl, latch_latched s x.agent 0x1000C _, rfl⟩
    · exact exec_loReadLatch_of_readReg h (by rw [hoff]; rfl)
  · intro hwf hspace hreach hfull
    obtain ⟨hreadValid, hreadOpen⟩ := loRead_faults hwf hspace hreach hfull
    refine ⟨fun hinvalid => ⟨fun hsound => ?_, ?_⟩, fun hvalid => ⟨fun hsound hshut => ?_, fun hshut => ?_⟩⟩
    · exact ⟨_, (registerWrite_faults hwf hspace hreach hfull hsound).1 hinvalid, (accessViolates_violated s x (by decide) true).1⟩
    · exact ⟨_, hreadValid hinvalid, accessViolates_answered s x (by decide) false, rfl⟩
    · exact ⟨_, (registerWrite_faults hwf hspace hreach hfull hsound).2 hvalid hshut, (accessViolates_violated s x (by decide) true).1⟩
    · exact ⟨_, hreadOpen hvalid hshut, accessViolates_answered s x (by decide) false, rfl⟩
  · intro rid hwf hspace hagent hpoisoned
    exact poisonedWrite_drops hwf hspace hagent hpoisoned
  · intro n p j w bb c hc hshut
    obtain ⟨f, hf⟩ := plainRows_rows s n p j w bb c hc
    exact ⟨_, hf, rowWrite_violates hshut f⟩
  · intro rid j hwf hagent hspace hbe hpower
    obtain ⟨haddr, hdata, hmask⟩ := bar4Write_entry s j x.data
    refine ⟨fun ho => ?_, fun ho => ?_, fun ho => ?_, fun ho => ?_⟩
    · refine ⟨_, (bar4_writes hwf hagent hspace hpower hbe ho (by omega)).trans (congrArg Host.Outcome.next haddr), ?_, rfl⟩
      rw [State.setTarget_target_self]
    · refine ⟨_, (bar4_writes hwf hagent hspace hpower hbe ho (by omega)).trans (congrArg Host.Outcome.next hdata), ?_, rfl⟩
      rw [State.setTarget_target_self]
    · exact ⟨_, (bar4_writes hwf hagent hspace hpower hbe ho (by omega)).trans (congrArg Host.Outcome.next hmask), vectorMask_masks s j _⟩
    · refine (bar4_reads hwf hagent hspace hpower ho rfl).trans (congrArg Host.Outcome.next ?_)
      have hpba : bar4Read s 0x1000 = packW ((List.range 32).map fun i => (i, b2n (decide (0 < (s.target i).pba)))) := by
        have hplace : ∀ i, (0x1000 - 0x1000) * 8 + i = i := fun i => by omega
        rw [bar4Read, if_neg (by decide), if_pos (.inl rfl)]
        simp only [hplace]
      rw [hpba]
  · intro ho
    exact ⟨glbClrviol s, congrArg Host.Outcome.next (rowWrite_open s 0xC _ ho), fun e o ho => glbClrviol_latched s e ho, rfl⟩
  · intro hreach hdef t q hsel
    have hrow := (rowAccess_reaches hreach fun s => qrecRead s a b).trans (qrecRead_samples hdef hsel)
    refine ⟨_, congrArg Host.Outcome.next hrow, ?_, rfl, ?_, fun e c hc => ?_, rfl⟩
    · exact congrArg BedSel.sample (setSel_sel_self s a b _)
    · show ((s.setSel a b { s.sel a b with sample := queueWords (s.tile t) q }).sel a b).qsel = (s.sel a b).qsel
      rw [setSel_sel_self]
    · exact setSel_sel_other s _ hc.1 b.isLt hc.2
  · intro hreach hdef
    exact congrArg Host.Outcome.next ((rowAccess_reaches hreach _).trans (if_neg (by rw [hdef]; exact Bool.false_ne_true)))
  · intro ho hdef
    have hexec : rowWrite s (0x100024 + 0x1000 * b) (fun s => bedClr s b m) = s.setBed b (clearBed (s.bed b) m) :=
      (rowWrite_open s _ _ ho).trans (if_pos hdef)
    exact ⟨_, congrArg Host.Outcome.next hexec, rfl, fun c hc => mget_mset_other _ _ _ _ _ _ hc, mget_mset_self _ _ _ _⟩
  · intro hreach hdef t hsel
    have hrow := (rowAccess_reaches hreach fun s => bedSatclr s a b).trans (bedSatclr_clears hdef hsel)
    refine ⟨_, congrArg Host.Outcome.next hrow, rfl, fun i => ?_, ?_, ?_, fun u hu => mget_mset_other _ _ _ _ _ _ hu⟩
    · rw [State.setTile_tile_self]
      rfl
    · rw [State.setTile_tile_self]
    · rw [State.setTile_tile_self]
  · refine ⟨fun hreach => congrArg Host.Outcome.next (rowAccess_reaches hreach _), fun hreach => ?_⟩
    exact ⟨_, congrArg Host.Outcome.next (rowAccess_reaches hreach _), ffdataAccess_write s v⟩
  · intro ho
    exact congrArg Host.Outcome.next (rowWrite_open s 0xD0000 _ ho)
  · intro ho
    exact congrArg Host.Outcome.next (rowWrite_open s 0xE0000 _ ho)
  · intro ho
    exact ⟨spClrstat s, congrArg Host.Outcome.next (rowWrite_open s 0x80000 _ ho), rfl, spClrstat_clears s⟩
  · intro ho
    exact ⟨seClrstat s, congrArg Host.Outcome.next (rowWrite_open s 0x60000 _ ho), rfl, fun i => mget_mapAll _ _ _ _ rfl⟩
  · intro ho
    exact congrArg Host.Outcome.next (rowWrite_open s 0x7000C _ ho)
  · intro hreach e size
    have hexec : exec (.rrpWrite k v a) s = .next (rrpWrite s a k v) := congrArg Host.Outcome.next (rowAccess_reaches hreach _)
    refine ⟨fun hle => hexec.trans (congrArg Host.Outcome.next (rrpWrite_takes (decide_eq_true hle))), fun hlt => ⟨_, hexec, rrpWrite_refuses ?_⟩⟩
    exact fun hok => absurd (of_decide_eq_true hok) (Nat.not_le.mpr hlt)

end Sys2Proof.Claims
end

section
/-! SUPPORT. O56: the lines of a sensor port, from the lanes to its views' queues, its clock and its enable (R301 to R316). -/

namespace Sys2Proof.Claims

open Sys2Proof Sys2Proof.Machine

/-! ## The lanes (R302) -/

theorem le_ceil_mul {n nl : Nat} (h : 0 < nl) : n ≤ (n + nl - 1) / nl * nl := by
  have hsplit := Nat.div_add_mod (n + nl - 1) nl
  have hlt := Nat.mod_lt (n + nl - 1) h
  rw [Nat.mul_comm] at hsplit
  omega

theorem laneBytes_succ (nl : Nat) (ls : List (List Byte)) (c : Nat) :
    laneBytes nl ls (c + 1) = laneBytes nl ls c ++ (List.range nl).map fun l => (ls.getD l []).getD c 0 := by
  rw [laneBytes, List.range_succ, List.flatMap_append, List.flatMap_singleton, laneBytes]

theorem laneBytes_length (nl : Nat) (ls : List (List Byte)) (c : Nat) : (laneBytes nl ls c).length = c * nl := by
  induction c with
  | zero => simp [laneBytes]
  | succ c ih => rw [laneBytes_succ, List.length_append, ih, List.length_map, List.length_range, Nat.succ_mul]

theorem laneBytes_getElem? {nl : Nat} (hnl : 0 < nl) (ls : List (List Byte)) {c i : Nat} (hi : i < c * nl) :
    (laneBytes nl ls c)[i]? = some ((ls.getD (i % nl) []).getD (i / nl) 0) := by
  induction c with
  | zero => omega
  | succ c ih =>
    rw [laneBytes_succ, List.getElem?_append, laneBytes_length]
    by_cases hlow : i < c * nl
    · rw [if_pos hlow, ih hlow]
    · have hsub : i - c * nl < nl := by rw [Nat.succ_mul] at hi; omega
      have hsplit : i = (i - c * nl) + nl * c := by rw [Nat.mul_comm nl c]; omega
      have hmod : i % nl = i - c * nl := by
        conv_lhs => rw [hsplit]
        rw [Nat.add_mul_mod_self_left, Nat.mod_eq_of_lt hsub]
      have hdiv : i / nl = c := by
        conv_lhs => rw [hsplit]
        rw [Nat.add_mul_div_left _ _ hnl, Nat.div_eq_of_lt hsub, Nat.zero_add]
      rw [if_neg hlow, List.getElem?_map, List.getElem?_range hsub, hmod, hdiv]
      rfl

theorem foldl_min_same {f : Nat → Nat} {c : Nat} {is : List Nat} (hf : ∀ i ∈ is, f i = c) : is.foldl (fun n i => min n (f i)) c = c := by
  induction is with
  | nil => rfl
  | cons i is ih =>
    rw [List.foldl_cons, hf i List.mem_cons_self, Nat.min_self]
    exact ih fun j hj => hf j (List.mem_cons_of_mem _ hj)

section
variable {nl : Nat} {ls : List (List Byte)} {b : List Byte} (h : OnLanes nl ls b) (hnl : 0 < nl)
include h

theorem lane_length {l : Nat} (hl : l < nl) : (ls.getD l []).length = (b.length + nl - 1) / nl := by
  have hlt : l < ls.length := by rw [h.lanes]; exact hl
  rw [List.getD_eq_getElem _ _ hlt]
  exact h.cycles _ (List.getElem_mem hlt)

theorem syncAt_none (j : Nat) : syncAt nl ls j = false := by
  obtain ⟨l, hl, hne⟩ := h.noSync j
  rw [syncAt, List.all_eq_false]
  exact ⟨l, List.mem_range.mpr hl, by simpa using hne⟩

include hnl

theorem laneBytes_take {c n : Nat} (hn : n ≤ b.length) (hc : n ≤ c * nl) : (laneBytes nl ls c).take n = b.take n := by
  refine List.ext_getElem? fun i => ?_
  by_cases hi : i < n
  · rw [List.getElem?_take_of_lt hi, List.getElem?_take_of_lt hi, laneBytes_getElem? hnl ls (by omega), h.bytes i (by omega),
      List.getElem?_eq_getElem (by omega), List.getD_eq_getElem _ _ (by omega)]
  · rw [List.getElem?_take_eq_none (Nat.not_lt.mp hi), List.getElem?_take_eq_none (Nat.not_lt.mp hi)]

theorem laneBytes_header {c : Nat} (hb : 16 ≤ b.length) (hc : 16 ≤ c * nl) : lnLength (laneBytes nl ls c) = lnLength b := by
  have hnum : ∀ off len, off + len ≤ 16 → numAt (laneBytes nl ls c) off len = numAt b off len := by
    intro off len hoff
    rw [← numAt_take (laneBytes nl ls c) hoff, laneBytes_take h hnl hb hc, numAt_take b hoff]
  rw [lnLength, lnLength, lnWidth, lnWidth, lnFmt, lnFmt, hnum 8 2 (by decide), hnum 2 1 (by decide)]

theorem laneCycles_lanes : laneCycles nl ls = (b.length + nl - 1) / nl := by
  rw [laneCycles, lane_length h hnl]
  exact foldl_min_same fun l hl => lane_length h (List.mem_range.mp hl)

theorem bodyCycles_lanes (hlen : b.length = lnLength b) : bodyCycles nl ls = some ((b.length + nl - 1) / nl) := by
  have hb : 16 ≤ b.length := by rw [hlen, lnLength]; omega
  have hhead : ¬ (b.length + nl - 1) / nl < (16 + nl - 1) / nl := Nat.not_lt.mpr (Nat.div_le_div_right (by omega))
  rw [bodyCycles, laneCycles_lanes h hnl]
  refine (if_neg hhead).trans ?_
  rw [laneBytes_header h hnl hb (le_ceil_mul hnl), ← hlen]

/-- The lanes of a body without the sync word give its bytes (R302). -/
theorem readLanes_body (hlen : b.length = lnLength b) (n : Nat) : readLanes nl (n + 1) ls = (0, some b) := by
  have hb : 16 ≤ b.length := by rw [hlen, lnLength]; omega
  have hnone : ∀ (q : Nat → Bool) (is : List Nat), is.find? (fun j => syncAt nl ls j && q j) = none := by
    intro q is
    rw [List.find?_eq_none]
    intro j _ hj
    rw [syncAt_none h, Bool.false_and] at hj
    exact Bool.false_ne_true hj
  have hbytes : (laneBytes nl ls ((b.length + nl - 1) / nl)).take (lnLength (laneBytes nl ls ((b.length + nl - 1) / nl))) = b := by
    have hmul := le_ceil_mul (n := b.length) hnl
    rw [laneBytes_header h hnl hb (by omega), ← hlen, laneBytes_take h hnl le_rfl hmul, List.take_length]
  rw [readLanes]
  dsimp only
  rw [hnone, bodyCycles_lanes h hnl hlen, laneCycles_lanes h hnl]
  dsimp only
  rw [if_pos le_rfl, hbytes]

end

/-- The sync word on all lanes ends the line in progress short, and no body follows (R305). -/
theorem readLanes_sync : ∀ w : BitVec 2, readLanes (2 ^ w.toNat)
    (laneCycles (2 ^ w.toNat) (List.replicate (2 ^ w.toNat) [0x0F, 0xE2, 0x47, 0xB9]) + 1)
    (List.replicate (2 ^ w.toNat) [0x0F, 0xE2, 0x47, 0xB9]) = (1, none) := by decide +kernel

/-! ## Lines (R305 to R310) -/

theorem sport_of_sp {s t : State} (h : t.sp = s.sp) (k : Nat) : t.sport k = s.sport k := by
  unfold State.sport
  rw [h]

theorem badLine_sport (s : State) (k : Nat) (p : SensorPort) (view row : Nat) : (badLine s k p view row).sport k = { p with badStep := true } := by
  unfold badLine
  dsimp only
  split
  · exact State.setSport_sport_self s k _
  · rw [sport_of_sp (event_sp _ _ _)]
    exact State.setSport_sport_self s k _

theorem compareFirst_sp (s : State) (key : Nat) : (compareFirst s key).sp = s.sp := by
  unfold compareFirst
  split
  · split
    · rfl
    · exact event_sp _ _ _
  · rfl

theorem twinSend_sp (s : State) (sub w1 : Nat) (rest : List Nat) : (twinSend s sub w1 rest).sp = s.sp := by
  unfold twinSend
  dsimp only
  split <;> rfl

theorem ownFirst_sp (s : State) (key : Nat) (row : Word) : (ownFirst s key row).sp = s.sp := by
  unfold ownFirst
  dsimp only
  split
  · rw [compareFirst_sp, twinSend_sp]
  · rfl

theorem ownFirstIf_sport (c : Prop) [Decidable c] (s : State) (key k : Nat) (row : Word) :
    (if c then ownFirst s key row else s).sport k = s.sport k := by
  split
  · exact sport_of_sp (ownFirst_sp s key row) k
  · rfl

theorem lineSync_body {s : State} {k : Nat} (hstate : (s.sport k).state = .body) (hclk : (s.sport k).clklost = false)
    (hline : (s.sport k).discard = false) : lineSync s k = badLine s k { s.sport k with short := satInc (s.sport k).short } 0 0 := by
  unfold lineSync
  dsimp only
  rw [hstate, hclk, hline]
  rfl

theorem lineSync_hunt {s : State} {k : Nat} (hstate : (s.sport k).state = .hunt) (hclk : (s.sport k).clklost = false) :
    lineSync s k = s.setSport k { s.sport k with state := .body, discard := false } := by
  unfold lineSync
  dsimp only
  rw [hstate, hclk]
  rfl

section
variable {s : State} {k : Nat} {b : List Byte} (hstate : (s.sport k).state = .body) (hclk : (s.sport k).clklost = false)
include hstate hclk

theorem lineComplete_sync :
    lineComplete s k (List.replicate (2 ^ (s.sport k).nl.toNat) [0x0F, 0xE2, 0x47, 0xB9]) = lineSync s k := by
  unfold lineComplete SensorPort.lanes
  dsimp only
  rw [readLanes_sync, hstate, hclk]
  rfl

theorem lineComplete_body {ls : List (List Byte)} (hlen : b.length = lnLength b) (hlanes : OnLanes (2 ^ (s.sport k).nl.toNat) ls b) :
    lineComplete s k ls = lineBody s k b := by
  unfold lineComplete SensorPort.lanes
  dsimp only
  rw [readLanes_body hlanes (Nat.two_pow_pos _) hlen, hstate, hclk]
  rfl

variable (hline : (s.sport k).discard = false) (hlen : b.length = lnLength b)
include hline hlen

/-- A body that the port takes: its checks in the order CRC, HDR, then its row (R306). -/
theorem lineBody_checks : lineBody s k b =
    if !lnCrcOk b then badLine s k { s.sport k with state := .hunt, discard := false, crc := satInc (s.sport k).crc } (lnView b % 2) (lnRow b).toNat
    else if !lnHdrOk s k b then
      badLine s k { s.sport k with state := .hunt, discard := false, hdr := satInc (s.sport k).hdr } (lnView b % 2) (lnRow b).toNat
    else if s.portsLive then orderLine (s.setSport k { s.sport k with state := .hunt, discard := false }) k (lnView b) b
    else s.setSport k { s.sport k with state := .hunt, discard := false, good := satInc (s.sport k).good } := by
  have hlength : (b.length != lnLength b) = false := by rw [← hlen, bne_self_eq_false]
  have hbody : ((s.sport k).state != .body) = false := by rw [hstate]; rfl
  unfold lineBody
  dsimp only
  rw [hlength, hbody, hclk, if_neg (by decide), hline]
  rfl

end

/-! ## A good line in its view's queue (R307 to R309) -/

/-- The entries that the statement names for a line. -/
def lineOf (b : List Byte) : List SpEntry := (List.range (lnWidth b / 8)).map fun j =>
  let w := mkPayload 16 ((List.range 8).map fun l => ((lnPixels b).getD (8 * j + l) 0).toNat)
  { payload := w, par := parityOf w, vb := 0xFFFF, sol := j == 0 }

theorem lnPixels_length (b : List Byte) : (lnPixels b).length = lnWidth b := by
  rw [lnPixels, List.length_map, List.length_range]

theorem eight_of (px : List (BitVec 16)) {j : Nat} (h : 8 * j + 8 ≤ px.length) :
    ((px.drop (8 * j)).take 8).map (·.toNat) = (List.range 8).map fun l => (px.getD (8 * j + l) 0).toNat := by
  refine List.ext_getElem? fun i => ?_
  rw [List.getElem?_map, List.getElem?_map]
  by_cases hi : i < 8
  · rw [List.getElem?_take_of_lt hi, List.getElem?_drop, List.getElem?_range hi, List.getElem?_eq_getElem (by omega)]
    rw [Option.map_some, Option.map_some, List.getD_eq_getElem _ _ (by omega)]
  · rw [List.getElem?_take_eq_none (Nat.not_lt.mp hi), List.getElem?_eq_none (by simpa using hi)]
    rfl

theorem lineEntries_eq (b : List Byte) : lineEntries (lnPixels b) 0xFFFF = lineOf b := by
  unfold lineEntries lineOf
  rw [lnPixels_length]
  refine List.map_congr_left fun j hj => ?_
  have hj := List.mem_range.mp hj
  dsimp only
  rw [eight_of (lnPixels b) (by rw [lnPixels_length]; omega)]

/-- What a port holds after it has taken the line b of view v without a substitute row. -/
def portTakes (p : SensorPort) (v : Nat) (b : List Byte) (live : Bool) : SensorPort :=
  ({ p with good := satInc p.good, subs := satAdd p.subs 0 }.setView v { p.view v with
    queue := (p.view v).queue ++ lineOf b, expect := some (lnRow b + 1), lastRow := lnRow b, lastLine := lnPixels b
    first := if (p.view v).expect.isNone then lnRow b else (p.view v).first }).refresh live

theorem acceptLine_takes {s : State} {k v : Nat} {b : List Byte} (hroom : ((s.sport k).view v).queue.length + lnWidth b / 8 ≤ 8192) :
    (acceptLine s k v 0 b).sport k = portTakes (s.sport k) v b s.portsLive := by
  have hadd : substEntries (s.sport k) v (lnWidth b) 0 ++ lineEntries (lnPixels b) 0xFFFF = lineOf b := by
    rw [substEntries, List.nil_append, lineEntries_eq]
  have hfits : ¬ 8192 < ((s.sport k).view v).queue.length + (lineOf b).length := by
    rw [lineOf, List.length_map, List.length_range]
    omega
  have hset : (s.setSport k (portTakes (s.sport k) v b s.portsLive)).sport k = portTakes (s.sport k) v b s.portsLive :=
    State.setSport_sport_self s k _
  unfold acceptLine
  dsimp only
  rw [hadd, if_neg hfits, if_pos rfl]
  exact (ownFirstIf_sport _ _ _ _ _).trans hset

/-- What a port holds of one view once its queues are marked anew: its full-ish state alone may differ. -/
theorem mark_fullish (x : SpView) : x.mark = { x with fullish := x.mark.fullish } := rfl

theorem view_setView_refresh (p : SensorPort) {v : Nat} (hv : v < 2) (x : SpView) (live : Bool) :
    (((p.setView v x).refresh live).view v) = x.mark ∧ (((p.setView v x).refresh live).view (1 - v)) = (p.view (1 - v)).mark ∧
    ((p.setView v x).refresh live).good = p.good ∧ ((p.setView v x).refresh live).state = p.state := by
  obtain rfl | rfl : v = 0 ∨ v = 1 := by omega
  · exact ⟨rfl, rfl, rfl, rfl⟩
  · exact ⟨rfl, rfl, rfl, rfl⟩

theorem lnView_lt {s : State} {k : Nat} {b : List Byte} (h : lnHdrOk s k b = true) : lnView b < 2 := by
  simp only [lnHdrOk, Bool.and_eq_true, decide_eq_true_eq] at h
  obtain ⟨⟨⟨⟨⟨⟨-, hview⟩, -⟩, -⟩, -⟩, -⟩, -⟩ := h
  exact hview

theorem orderLine_next {s : State} {k v : Nat} {b : List Byte} (h : ∀ e, ((s.sport k).view v).expect = some e → e = lnRow b) :
    orderLine s k v b = acceptLine s k v 0 b := by
  unfold orderLine
  dsimp only
  split
  · rfl
  · rename_i e he
    have hzero : (lnRow b - e).toNat = 0 := by rw [h e he, BitVec.sub_self]; rfl
    rw [hzero, if_pos (Nat.zero_le _)]

/-- What a port that has taken a line holds: the line's entries at the end of its view's queue, the other view as it was. -/
theorem portTakes_holds (p : SensorPort) {v : Nat} (hv : v < 2) (b : List Byte) (live : Bool) :
    (portTakes p v b live).good = satInc p.good ∧ (portTakes p v b live).state = p.state ∧
    ((portTakes p v b live).view v).queue = (p.view v).queue ++ lineOf b ∧ ((portTakes p v b live).view v).expect = some (lnRow b + 1) ∧
    ((p.view v).expect = none → ((portTakes p v b live).view v).first = lnRow b) ∧
    (portTakes p v b live).view (1 - v) = { p.view (1 - v) with fullish := ((portTakes p v b live).view (1 - v)).fullish } := by
  obtain ⟨hview, hother, hgood, hstate⟩ := view_setView_refresh { p with good := satInc p.good, subs := satAdd p.subs 0 } hv
    { p.view v with queue := (p.view v).queue ++ lineOf b, expect := some (lnRow b + 1), lastRow := lnRow b, lastLine := lnPixels b
                    first := if (p.view v).expect.isNone then lnRow b else (p.view v).first } live
  unfold portTakes
  rw [hview, hother]
  refine ⟨hgood, hstate, rfl, rfl, fun hnone => ?_, ?_⟩
  · rw [hnone]
    rfl
  · obtain rfl | rfl : v = 0 ∨ v = 1 := by omega
    · rfl
    · rfl

theorem orderLine_takes {s : State} {k : Nat} {b : List Byte}
    (hnext : ∀ e, ((s.sport k).view (lnView b)).expect = some e → e = lnRow b)
    (hroom : ((s.sport k).view (lnView b)).queue.length + lnWidth b / 8 ≤ 8192) :
    ((orderLine (s.setSport k { s.sport k with state := .hunt, discard := false }) k (lnView b) b).sport k) =
      portTakes { s.sport k with state := .hunt, discard := false } (lnView b) b s.portsLive := by
  have hport : (s.setSport k { s.sport k with state := .hunt, discard := false }).sport k =
      { s.sport k with state := .hunt, discard := false } := State.setSport_sport_self s k _
  have hview : ({ s.sport k with state := .hunt, discard := false } : SensorPort).view (lnView b) = (s.sport k).view (lnView b) := rfl
  have hlive : (s.setSport k { s.sport k with state := .hunt, discard := false }).portsLive = s.portsLive := rfl
  rw [orderLine_next (by rw [hport, hview]; exact hnext), acceptLine_takes (by rw [hport, hview]; exact hroom), hport, hlive]

/-! ## The clock and the enable (R301, R316) -/

theorem clockLost_lost {s : State} {k : Nat} (hen : (s.sport k).en = true) (hstate : (s.sport k).state ≠ .off)
    (hclk : (s.sport k).clklost = false) : (clockLost s k).sport k = { s.sport k with clklost := true, state := .hunt, discard := false } ∧
    (clockLost s k).pace = s.pace := by
  have heq : clockLost s k = event (s.setSport k { s.sport k with clklost := true, state := .hunt, discard := false }) 0x0805 { srcid := k } := by
    refine if_pos ?_
    rw [hen, hclk, bne_iff_ne.mpr hstate]
    rfl
  rw [heq, event_low _ 0x0805 _ (by decide)]
  exact ⟨State.setSport_sport_self s k _, rfl⟩

section
variable {s : State} {k : Nat} {cfg : Word} {ok : Bool}

/-- The port's fields as a write of SP_k_CFG sets them. -/
def spFields (p : SensorPort) (v : Nat) (ok : Bool) : SensorPort :=
  { p with rate := BitVec.ofNat 16 (bits v 16 16), ctlv := BitVec.ofNat 4 (bits v 8 4), xod := bitAt v 6, term := bitAt v 5
           nl := BitVec.ofNat 2 (bits v 3 2), std := BitVec.ofNat 2 (bits v 1 2), supOk := ok }

theorem spEnable_idle (hidle : s.idle = true) : spEnable s k cfg ok =
    if !bitAt cfg.toNat 0 then s.setSport k (spFields (s.sport k) cfg.toNat ok).off
    else if spCfgOk cfg.toNat && ok then s.setSport k { spFields (s.sport k) cfg.toNat ok with
      en := true, cfgerr := false, state := if (s.sport k).state = .off && s.domain 10 then .hunt else (s.sport k).state }
    else event (s.setSport k { (spFields (s.sport k) cfg.toNat ok).off with cfgerr := true }) 0x0808 { srcid := k } :=
  if_pos hidle

theorem spEnable_on (hidle : s.idle = true) (hen : bitAt cfg.toNat 0 = true) (hok : spCfgOk cfg.toNat = true) :
    (spEnable s k cfg true).sport k = { spFields (s.sport k) cfg.toNat true with
      en := true, cfgerr := false, state := if (s.sport k).state = .off && s.domain 10 then .hunt else (s.sport k).state } := by
  rw [spEnable_idle hidle, hen, hok, if_neg (by decide), if_pos (by rfl)]
  exact State.setSport_sport_self s k _

theorem spEnable_refused (hidle : s.idle = true) (hen : bitAt cfg.toNat 0 = true) (hbad : spCfgOk cfg.toNat = false ∨ ok = false) :
    (spEnable s k cfg ok).sport k = { (spFields (s.sport k) cfg.toNat ok).off with cfgerr := true } := by
  have hno : (spCfgOk cfg.toNat && ok) = false := by
    rcases hbad with h | h
    · rw [h, Bool.false_and]
    · rw [h, Bool.and_false]
  rw [spEnable_idle hidle, hen, hno, if_neg (by decide), if_neg (by decide), sport_of_sp (event_sp _ _ _)]
  exact State.setSport_sport_self s k _

theorem spEnable_off (hidle : s.idle = true) (hen : bitAt cfg.toNat 0 = false) :
    (spEnable s k cfg ok).sport k = (spFields (s.sport k) cfg.toNat ok).off := by
  rw [spEnable_idle hidle, hen, if_pos (by rfl)]
  exact State.setSport_sport_self s k _

end

/-- Settles O56: the sensor ports' rows, each by what it makes of its port. -/
theorem sensorPorts : Obligations.SensorPorts := by
  unfold Obligations.SensorPorts
  intro s k b ls cfg ok p
  refine ⟨?_, ?_, ?_, ?_, ?_, ?_, ?_, ?_, ?_⟩
  · intro hstate hclk
    exact ⟨_, congrArg Host.Outcome.next (lineSync_hunt hstate hclk), rfl, State.setSport_sport_self s k _,
      fun i hi => mget_mset_other _ _ _ _ _ _ hi⟩
  · intro hstate hclk hline
    refine ⟨_, congrArg Host.Outcome.next (lineSync_body hstate hclk hline), ?_, ?_, ?_⟩
    · rw [badLine_sport]
    · rw [badLine_sport]
    · rw [badLine_sport]
  · intro hstate
    exact congrArg Host.Outcome.next (if_pos (by rw [show (s.sport k).state = .off from hstate]; rfl))
  · intro hstate hclk hline
    have hexec := (lineComplete_sync hstate hclk).trans (lineSync_body hstate hclk hline)
    refine ⟨_, congrArg Host.Outcome.next hexec, ?_, ?_, ?_, ?_⟩
    · rw [badLine_sport]
    · rw [badLine_sport]
      exact hstate
    · rw [badLine_sport]
    · rw [badLine_sport]
  · intro hstate hclk hline hlen hlanes
    have hexec : exec (.lineComplete k ls) s = .next _ :=
      congrArg Host.Outcome.next ((lineComplete_body hstate hclk hlen hlanes).trans (lineBody_checks hstate hclk hline hlen))
    refine ⟨fun hcrc => ⟨_, hexec, ?_⟩, fun hcrc hhdr => ⟨_, hexec, ?_⟩, fun hcrc hhdr hidle => ⟨_, hexec, ?_⟩,
      fun hcrc hhdr hidle hlive => fun hnext hroom => ⟨_, hexec, ?_⟩⟩
    · rw [hcrc, if_pos (by rfl), badLine_sport]
      exact ⟨rfl, rfl, rfl, rfl, rfl⟩
    · rw [hcrc, hhdr, if_neg (by decide), if_pos (by rfl), badLine_sport]
      exact ⟨rfl, rfl, rfl, rfl⟩
    · have hquiet : s.portsLive = false := by rw [State.portsLive, hidle]; rfl
      rw [hcrc, hhdr, if_neg (by decide), if_neg (by decide), hquiet, if_neg (by decide), State.setSport_sport_self]
      show { s.sport k with state := .hunt, discard := false, good := satInc (s.sport k).good } =
        { s.sport k with state := .hunt, good := satInc (s.sport k).good }
      rw [← show (s.sport k).discard = false from hline]
    · have hqueue : s.portsLive = true := by rw [State.portsLive, hidle, bne_iff_ne.mpr hlive]; rfl
      obtain ⟨hgood, hhunt, hentries, hexpect, hfirst, hother⟩ :=
        portTakes_holds { s.sport k with state := .hunt, discard := false } (lnView_lt hhdr) b s.portsLive
      rw [hcrc, hhdr, if_neg (by decide), if_neg (by decide), if_pos hqueue, orderLine_takes hnext hroom]
      exact ⟨hgood, hhunt, hentries, hexpect, hfirst, hother⟩
  · intro hstate
    refine congrArg Host.Outcome.next (if_neg ?_)
    rw [show (s.sport k).state = .off from hstate]
    simp
  · intro hen hstate hclk
    exact ⟨_, rfl, clockLost_lost hen hstate hclk⟩
  · exact ⟨_, rfl, State.setSport_sport_self s k _, rfl⟩
  · intro ho
    have hexec : ∀ c o, exec (.spEnable k c o) s = .next (spEnable s k c o) := fun c o =>
      congrArg Host.Outcome.next (rowWrite_open s (0x80100 + 0x80 * k) _ ho)
    refine ⟨fun hidle hen hok => ⟨_, hexec cfg true, ?_⟩, fun hidle hen hbad => ⟨_, hexec cfg ok, ?_⟩, fun hidle hen => ⟨_, hexec cfg ok, ?_⟩⟩
    · rw [spEnable_on hidle hen hok]
      refine ⟨rfl, rfl, rfl, fun hoff => ?_⟩
      have hport : (s.sport k).state = .off := hoff
      show (if ((s.sport k).state = .off && s.domain 10) = true then _ else (s.sport k).state) = _
      rw [hport]
      cases s.domain 10 <;> rfl
    · rw [spEnable_refused hidle hen hbad]
      exact ⟨rfl, rfl, rfl⟩
    · rw [spEnable_off hidle hen]
      exact ⟨rfl, rfl, rfl, rfl⟩

end Sys2Proof.Claims
end

section
/-! SUPPORT. O57: the lines that the NCE takes, its crop requests and its crops (R207 to R218). -/

namespace Sys2Proof.Claims

open Sys2Proof Sys2Proof.Machine

/-! ## A line on its way (R207 to R213) -/

/-- Tokens leave for the channels and rows for the trickle buffers; the line's own bookkeeping stands. -/
structure FeedKeeps (s s' : State) : Prop where
  sp : s'.sp = s.sp
  tiles : s'.tiles = s.tiles
  pace : s'.pace = s.pace
  mc : s'.mc = s.mc
  done : s'.nce.intakeDone = s.nce.intakeDone
  sched : s'.nce.sched = s.nce.sched
  rows : ∀ u, (mget {} s'.nce.views u).rows = (mget {} s.nce.views u).rows
  rowsIn : ∀ u, (mget {} s'.nce.views u).rowsIn = (mget {} s.nce.views u).rowsIn

theorem FeedKeeps.refl (s : State) : FeedKeeps s s := ⟨rfl, rfl, rfl, rfl, rfl, rfl, fun _ => rfl, fun _ => rfl⟩

theorem FeedKeeps.trans {s t u : State} (h : FeedKeeps s t) (h' : FeedKeeps t u) : FeedKeeps s u :=
  ⟨h'.sp.trans h.sp, h'.tiles.trans h.tiles, h'.pace.trans h.pace, h'.mc.trans h.mc, h'.done.trans h.done, h'.sched.trans h.sched,
    fun v => (h'.rows v).trans (h.rows v), fun v => (h'.rowsIn v).trans (h.rowsIn v)⟩

theorem feedKeeps_foldl {α : Type} {f : State → α → State} (hf : ∀ s x, FeedKeeps s (f s x)) (xs : List α) (s : State) :
    FeedKeeps s (xs.foldl f s) := by
  induction xs generalizing s with
  | nil => exact .refl s
  | cons x xs ih => exact (hf s x).trans (ih (f s x))

theorem feedKeeps_pushChan (s : State) (c : Nat) (ts : List Token) : FeedKeeps s (pushChan s c ts) :=
  ⟨rfl, rfl, rfl, rfl, rfl, rfl, fun _ => rfl, fun _ => rfl⟩

theorem feedKeeps_firstLayer (s : State) (b : List Byte) (v r : Nat) : FeedKeeps s (firstLayer s b v r) := by
  unfold firstLayer
  dsimp only
  split
  · exact .refl s
  · split
    · split
      · exact .refl s
      · exact feedKeeps_foldl (fun s _ => feedKeeps_pushChan s _ _) _ s
    · exact .refl s

theorem feedKeeps_downscale (s : State) (b : List Byte) (v : Nat) (row : List Nat) : FeedKeeps s (downscale s b v row) := by
  have hviews : ∀ (ds : List (List Word)) (u : Nat),
      (mget {} (mset {} s.nce.views v { mget {} s.nce.views v with dsRows := ds }) u).rows = (mget {} s.nce.views u).rows ∧
      (mget {} (mset {} s.nce.views v { mget {} s.nce.views v with dsRows := ds }) u).rowsIn = (mget {} s.nce.views u).rowsIn := by
    intro ds u
    rw [mget_mset]
    split
    · rename_i hu
      subst hu
      exact ⟨rfl, rfl⟩
    · exact ⟨rfl, rfl⟩
  unfold downscale
  dsimp only
  split
  · exact .refl s
  · split
    · exact ⟨rfl, rfl, rfl, rfl, rfl, rfl, fun u => (hviews _ u).1, fun u => (hviews _ u).2⟩
    · exact ⟨rfl, rfl, rfl, rfl, rfl, rfl, fun u => (hviews _ u).1, fun u => (hviews _ u).2⟩

theorem feedKeeps_trickleOne (s : State) (b : List Byte) (t : Nat) : FeedKeeps s (trickleOne s b t) := by
  unfold trickleOne
  split
  · exact .refl s
  · refine FeedKeeps.trans ?_ (feedKeeps_foldl (fun s c => feedKeeps_pushChan s c _) _ _)
    exact ⟨rfl, rfl, rfl, rfl, rfl, rfl, fun _ => rfl, fun _ => rfl⟩

theorem feedKeeps_trickleAll (s : State) (b : List Byte) : FeedKeeps s (trickleAll s b) :=
  feedKeeps_foldl (fun s t => feedKeeps_trickleOne s b t) _ s

/-- What a crop window's change leaves for the line in progress. -/
theorem rollWindow_leaves (s : State) : FeedKeeps s (rollWindow s) ∧ (rollWindow s).nce.ff = s.nce.ff ∧
    (rollWindow s).nce.ffen = s.nce.ffen ∧ (rollWindow s).nce.ffbank = s.nce.ffbank ∧ (rollWindow s).nceBlock = s.nceBlock := by
  unfold rollWindow
  dsimp only
  split
  · exact ⟨.refl s, rfl, rfl, rfl, rfl⟩
  · exact ⟨⟨rfl, rfl, rfl, rfl, rfl, rfl, fun _ => rfl, fun _ => rfl⟩, rfl, rfl, rfl, rfl⟩

/-- The line that the statement names, corrected (R209). -/
def correctedLine (s : State) (b : List Byte) (v : Nat) (px : List Nat) : List Word := px.zipIdx.map fun p => BitVec.ofNat 32
  (if bitAt s.nce.ffen.toNat v then
    let g := (mget 0 s.nce.ff (ffKey (b2n (bitAt s.nce.ffbank.toNat v)) v p.2)).toNat
    (viewFmt b v).round ((FloatFmt.fp16.operand (bits g 16 16)).mul ((Frac.ofInt p.1).sub (FloatFmt.fp16.operand (bits g 0 16))))
  else (viewFmt b v).round (Frac.ofInt p.1))

theorem correctedRow_line (s : State) (v : Nat) (px : List Nat) :
    (correctedRow (rollWindow s) v px).map (BitVec.ofNat 32) = correctedLine s s.nceBlock v px := by
  obtain ⟨-, hff, hen, hbank, hblock⟩ := rollWindow_leaves s
  rw [correctedRow, List.map_map, hblock]
  refine List.map_congr_left fun p _ => ?_
  show BitVec.ofNat 32 (corrected (rollWindow s).nce (viewFmt s.nceBlock v) v p.2 p.1) = _
  unfold corrected
  rw [hff, hen, hbank]

theorem badEntry_none {es : List SpEntry} (h : ∀ e ∈ es, e.par = parityOf e.payload) : badEntry es = none := by
  unfold badEntry
  rw [List.find?_eq_none.mpr, Option.map_none]
  intro p hp
  have hmem : p.1 ∈ es := List.fst_mem_of_mem_zipIdx hp
  rw [h p.1 hmem, bne_self_eq_false]
  exact Bool.false_ne_true

theorem badEntry_some {es : List SpEntry} (h : ∃ e ∈ es, e.par ≠ parityOf e.payload) : ∃ i, badEntry es = some i := by
  obtain ⟨e, he, hne⟩ := h
  obtain ⟨i, hi, rfl⟩ := List.mem_iff_getElem.mp he
  have hmem : (es[i], i) ∈ es.zipIdx := List.mem_zipIdx_iff_getElem?.mpr (List.getElem?_eq_getElem hi)
  have hsome : (es.zipIdx.find? fun p => p.1.par != parityOf p.1.payload).isSome = true :=
    List.find?_isSome.mpr ⟨_, hmem, bne_iff_ne.mpr hne⟩
  obtain ⟨p, hp⟩ := Option.isSome_iff_exists.mp hsome
  exact ⟨p.2, by rw [badEntry, hp]; rfl⟩

/-- The state of a line taken and kept, before its tokens leave; u is the state once the crop window has changed. -/
def lineKept (u : State) (b : List Byte) (v n : Nat) (es : List SpEntry) : State :=
  let s1 := takeLine u b v n
  keepRow { s1 with nce := { s1.nce with
    intakeDone := true
    sched := (s1.nce.sched + 1) % max 1 (nceNsched b)
    subsVb := if (es.headD {}).vb = 0 && !es.isEmpty then satInc s1.nce.subsVb else s1.nce.subsVb } } v
    (correctedRow u v (entryPixels es))

theorem lineIntake_feeds {s : State} (hdue : intakeDue s = true) (hpar : s.nce.badParity = [])
    (hgood : badEntry ((s.viewQueue s.nceBlock s.nextView).take (nvWidth s.nceBlock s.nextView / 8)) = none) :
    FeedKeeps (lineKept (rollWindow s) s.nceBlock s.nextView (nvWidth s.nceBlock s.nextView / 8)
      ((s.viewQueue s.nceBlock s.nextView).take (nvWidth s.nceBlock s.nextView / 8))) (lineIntake s) := by
  unfold lineIntake
  rw [if_pos hdue]
  dsimp only
  rw [hpar, hgood]
  exact ((feedKeeps_firstLayer _ _ _ _).trans (feedKeeps_downscale _ _ _ _)).trans (feedKeeps_trickleAll _ _)

theorem takeLine_queue (s : State) (b : List Byte) (v n : Nat) : (takeLine s b v n).viewQueue b v = (s.viewQueue b v).drop n := by
  unfold takeLine State.viewQueue
  dsimp only
  rw [State.setSport_sport_self]
  by_cases hv : nvPview b v = 0
  · rw [if_pos hv, if_pos hv, SensorPort.setView, if_pos hv, SensorPort.view, if_pos hv]
    rfl
  · rw [if_neg hv, if_neg hv, SensorPort.setView, if_neg hv, SensorPort.view, if_neg hv]
    rfl

theorem viewQueue_of_sp {s t : State} (h : t.sp = s.sp) (b : List Byte) (v : Nat) : t.viewQueue b v = s.viewQueue b v := by
  unfold State.viewQueue
  rw [sport_of_sp h]

theorem getLast?_drop_append {α : Type} (l : List α) (x : α) (n : Nat) (hn : n ≤ l.length) :
    ((l ++ [x]).drop n).getLast? = some x := by
  rw [List.drop_append_of_le_length hn, List.getLast?_append]
  rfl

/-- A line taken: it has left its queue, its corrected row is the last of its view's line buffer (R207 to R209). -/
theorem lineKept_keeps (u : State) (b : List Byte) (v n : Nat) (es : List SpEntry) :
    (lineKept u b v n es).nce.intakeDone = true ∧ (lineKept u b v n es).nce.sched = (u.nce.sched + 1) % max 1 (nceNsched b) ∧
    (lineKept u b v n es).viewQueue b v = (u.viewQueue b v).drop n ∧
    (mget {} (lineKept u b v n es).nce.views v).rowsIn = (mget {} u.nce.views v).rowsIn + 1 ∧
    (mget {} (lineKept u b v n es).nce.views v).rows.getLast? = some ((correctedRow u v (entryPixels es)).map (BitVec.ofNat 32)) ∧
    (lineKept u b v n es).tiles = u.tiles ∧ (lineKept u b v n es).pace = u.pace ∧ (lineKept u b v n es).mc = u.mc := by
  have hview : ∀ (m : AMap NceView) x, mget {} (mset {} m v x) v = x := fun m x => mget_mset_self _ _ _ _
  refine ⟨rfl, rfl, takeLine_queue u b v n, ?_, ?_, rfl, rfl, rfl⟩
  · exact congrArg NceView.rowsIn (hview _ _)
  · refine (congrArg (fun w : NceView => w.rows.getLast?) (hview _ _)).trans ?_
    refine getLast?_drop_append _ _ _ ?_
    rw [List.length_append, List.length_singleton]
    omega

section
variable {s : State} (hdue : intakeDue s = true) (hpar : s.nce.badParity = [])
include hdue hpar

/-- The scheduled line is taken (R207 to R209). -/
theorem lineIntake_takes {b : List Byte} {v n : Nat} (hb : s.nceBlock = b) (hv : s.nextView = v) (hn : nvWidth b v / 8 = n)
    (hgood : ∀ e ∈ (s.viewQueue b v).take n, e.par = parityOf e.payload) :
    (lineIntake s).nce.intakeDone = true ∧ (lineIntake s).nce.sched = (s.nce.sched + 1) % max 1 (nceNsched b) ∧
    (lineIntake s).viewQueue b v = (s.viewQueue b v).drop n ∧
    (mget {} (lineIntake s).nce.views v).rowsIn = (mget {} s.nce.views v).rowsIn + 1 ∧
    (mget {} (lineIntake s).nce.views v).rows.getLast? = some (correctedLine s b v (entryPixels ((s.viewQueue b v).take n))) ∧
    (lineIntake s).tiles = s.tiles ∧ (lineIntake s).pace = s.pace ∧ (lineIntake s).mc = s.mc := by
  subst hn hv hb
  have hfeed := lineIntake_feeds hdue hpar (badEntry_none hgood)
  obtain ⟨hroll, -⟩ := rollWindow_leaves s
  obtain ⟨hdone, hsched, hqueue, hrowsIn, hrows, htiles, hpace, hmc⟩ := lineKept_keeps (rollWindow s) s.nceBlock s.nextView
    (nvWidth s.nceBlock s.nextView / 8) ((s.viewQueue s.nceBlock s.nextView).take (nvWidth s.nceBlock s.nextView / 8))
  refine ⟨hfeed.done.trans hdone, ?_, ?_, ?_, ?_, hfeed.tiles.trans (htiles.trans hroll.tiles),
    hfeed.pace.trans (hpace.trans hroll.pace), hfeed.mc.trans (hmc.trans hroll.mc)⟩
  · rw [hfeed.sched, hsched, hroll.sched]
  · rw [viewQueue_of_sp hfeed.sp, hqueue, viewQueue_of_sp hroll.sp]
  · rw [hfeed.rowsIn, hrowsIn, hroll.rowsIn]
  · rw [hfeed.rows, hrows, correctedRow_line]

theorem lineIntake_aborts {b : List Byte} {v n : Nat} (hb : s.nceBlock = b) (hv : s.nextView = v) (hn : nvWidth b v / 8 = n)
    (hbad : ∃ e ∈ (s.viewQueue b v).take n, e.par ≠ parityOf e.payload) :
    (lineIntake s).pace.state = .aborted ∧ (lineIntake s).sp = s.sp := by
  subst hn hv hb
  obtain ⟨i, hi⟩ := badEntry_some hbad
  have heq : lineIntake s = event s 0x080A { srcid := nvPort s.nceBlock s.nextView + 256 * nvPview s.nceBlock s.nextView, addr := i
                                             detail := two i 0 } := by
    unfold lineIntake
    rw [if_pos hdue]
    dsimp only
    rw [hpar, hi]
  rw [heq]
  exact ⟨event_aborts s 0x080A _ (by decide), event_sp _ _ _⟩

end

end Sys2Proof.Claims
end

section
/-! SUPPORT. O57: the requests of a crop window and the crops that leave (R215 to R218). -/

namespace Sys2Proof.Claims

open Sys2Proof Sys2Proof.Machine

/-! ## Tokens on the channels -/

theorem pushChan_chan (s : State) (c : Nat) (ts : List Token) (d : Nat) :
    mget [] (pushChan s c ts).nce.chan d = if d = c then mget [] s.nce.chan c ++ ts else mget [] s.nce.chan d := mget_mset _ _ _ _ _

/-- Only the channels of the NCE differ. -/
def OnlyChan (s s' : State) : Prop := s' = { s with nce := { s.nce with chan := s'.nce.chan } }

theorem OnlyChan.refl (s : State) : OnlyChan s s := rfl

theorem OnlyChan.trans {s t u : State} (h : OnlyChan s t) (h' : OnlyChan t u) : OnlyChan s u := by
  unfold OnlyChan at *
  rw [h] at h'
  exact h'

/-- The same tokens pushed to each channel of a list. -/
theorem pushChans_chan (cs : List Nat) (hcs : cs.Nodup) (ts : List Token) (s : State) :
    OnlyChan s (cs.foldl (fun s c => pushChan s c ts) s) ∧
    ∀ d, mget [] (cs.foldl (fun s c => pushChan s c ts) s).nce.chan d = mget [] s.nce.chan d ++ if d ∈ cs then ts else [] := by
  induction cs generalizing s with
  | nil => exact ⟨.refl s, fun d => by simp⟩
  | cons c cs ih =>
    obtain ⟨hc, hcs⟩ := List.nodup_cons.mp hcs
    obtain ⟨honly, hchan⟩ := ih hcs (pushChan s c ts)
    refine ⟨OnlyChan.trans (rfl : OnlyChan s (pushChan s c ts)) honly, fun d => ?_⟩
    rw [List.foldl_cons, hchan, pushChan_chan]
    by_cases hd : d = c
    · subst hd
      simp [hc]
    · simp [hd]

theorem mem_chansOf {b : List Byte} {role unit c : Nat} : c ∈ chansOf b role unit ↔ c < 40 ∧ chRole b c = role ∧ chUnit b c = unit := by
  simp [chansOf]

theorem chansOf_nodup (b : List Byte) (role unit : Nat) : (chansOf b role unit).Nodup := List.nodup_range.filter _

/-- Tokens pushed segment by segment: a channel takes those of its own segment. -/
theorem pushSegs_chan (b : List Byte) (f : Nat → List Token) (ks : List Nat) (hks : ks.Nodup) (s : State) :
    OnlyChan s (ks.foldl (fun s k => (chansOf b 3 k).foldl (fun s c => pushChan s c (f k)) s) s) ∧
    ∀ c < 40, chRole b c = 3 →
      mget [] (ks.foldl (fun s k => (chansOf b 3 k).foldl (fun s c => pushChan s c (f k)) s) s).nce.chan c =
        mget [] s.nce.chan c ++ if chUnit b c ∈ ks then f (chUnit b c) else [] := by
  induction ks generalizing s with
  | nil => exact ⟨.refl s, fun c _ _ => by simp⟩
  | cons k ks ih =>
    obtain ⟨hk, hks⟩ := List.nodup_cons.mp hks
    obtain ⟨hfirst, hone⟩ := pushChans_chan (chansOf b 3 k) (chansOf_nodup b 3 k) (f k) s
    obtain ⟨honly, hchan⟩ := ih hks ((chansOf b 3 k).foldl (fun s c => pushChan s c (f k)) s)
    rw [List.foldl_cons]
    refine ⟨hfirst.trans honly, fun c hc hrole => ?_⟩
    rw [hchan c hc hrole, hone]
    by_cases hunit : chUnit b c = k
    · have hin : c ∈ chansOf b 3 k := mem_chansOf.mpr ⟨hc, hrole, hunit⟩
      have hout : chUnit b c ∉ ks := by rw [hunit]; exact hk
      rw [if_pos hin, if_neg hout, if_pos (by rw [hunit]; exact List.mem_cons_self), List.append_nil, hunit]
    · have hout : c ∉ chansOf b 3 k := fun hin => hunit (mem_chansOf.mp hin).2.2
      rw [if_neg hout, List.append_nil]
      simp [hunit]

/-! ## The requests of a window (R215, R216) -/

/-- The request of slot i on segment k. -/
def slotRequest (s : State) (b : List Byte) (i k : Nat) : List Token :=
  let y := serveSlot s b (mget none s.nce.lines i)
  let on := y.line.isSome && y.seg == k
  requestTokens (cropDescriptor b k (if on then y.t0 else 0) (if on then y.r0 - mrow b s.nce.cropWin else 0))

/-- The state with these slots and channels. -/
def withSlots (s : State) (x : AMap CropSlot) (y : AMap (List Token)) : State := { s with nce := { s.nce with slots := x, chan := y } }

theorem pushChans_window (cs : List Nat) (ts : List Token) (s : State) :
    (cs.foldl (fun s c => pushChan s c ts) s).nce.cropWin = s.nce.cropWin := by
  induction cs generalizing s with
  | nil => rfl
  | cons c cs ih => exact ih (pushChan s c ts)

/-- The requests of a slot whose service is z on the segments of a list, in a window that the pushes leave. -/
theorem requestSegs_window (b : List Byte) (f : Int → Nat → List Token) (ks : List Nat) {s : State} {w : Nat} (hw : s.nce.cropWin = w) :
    ks.foldl (fun t k => (chansOf b 3 k).foldl (fun u c => pushChan u c (f (mrow b t.nce.cropWin) k)) t) s =
      ks.foldl (fun t k => (chansOf b 3 k).foldl (fun u c => pushChan u c (f (mrow b w) k)) t) s := by
  induction ks generalizing s with
  | nil => rfl
  | cons k ks ih =>
    rw [List.foldl_cons, List.foldl_cons, hw]
    exact ih ((pushChans_window _ _ _).trans hw)

theorem requestSlot_requests (s : State) (b : List Byte) (i : Nat) (x : AMap CropSlot) (y : AMap (List Token)) :
    ∃ y', requestSlot (withSlots s x y) b i = withSlots s (mset {} x i (serveSlot s b (mget none s.nce.lines i))) y' ∧
      ∀ c < 40, chRole b c = 3 → chUnit b c < crNSEG b → mget [] y' c = mget [] y c ++ slotRequest s b i (chUnit b c) := by
  obtain ⟨honly, hchan⟩ := pushSegs_chan b (slotRequest s b i) (List.range (crNSEG b)) List.nodup_range
    (withSlots s (mset {} x i (serveSlot s b (mget none s.nce.lines i))) y)
  have heq : requestSlot (withSlots s x y) b i = (List.range (crNSEG b)).foldl (fun s' k => (chansOf b 3 k).foldl
      (fun s' c => pushChan s' c (slotRequest s b i k)) s') (withSlots s (mset {} x i (serveSlot s b (mget none s.nce.lines i))) y) := by
    generalize hserve : serveSlot s b (mget none s.nce.lines i) = z
    have hslot : serveSlot (withSlots s x y) b (mget none (withSlots s x y).nce.lines i) = z := by
      rw [← hserve]
      rfl
    have hinit : { withSlots s x y with nce := { (withSlots s x y).nce with slots := mset {} (withSlots s x y).nce.slots i z } } =
        withSlots s (mset {} x i z) y := rfl
    unfold requestSlot slotRequest
    rw [hslot, hserve]
    dsimp only
    rw [hinit]
    have hwin : (withSlots s (mset {} x i z) y).nce.cropWin = s.nce.cropWin := rfl
    have hsegs := requestSegs_window b (fun r k => requestTokens (cropDescriptor b k (if (z.line.isSome && z.seg == k) = true then z.t0 else 0)
      (if (z.line.isSome && z.seg == k) = true then z.r0 - r else 0))) (List.range (crNSEG b)) hwin
    exact hsegs
  rw [heq]
  refine ⟨_, honly, fun c hc hrole hseg => ?_⟩
  rw [hchan c hc hrole, if_pos (List.mem_range.mpr hseg)]
  rfl

theorem requestSlots_request (s : State) (b : List Byte) (n : Nat) :
    ∃ x y, (List.range n).foldl (fun s i => requestSlot s b i) s = withSlots s x y ∧
      (∀ i < n, mget {} x i = serveSlot s b (mget none s.nce.lines i)) ∧
      ∀ c < 40, chRole b c = 3 → chUnit b c < crNSEG b →
        mget [] y c = mget [] s.nce.chan c ++ (List.range n).flatMap fun i => slotRequest s b i (chUnit b c) := by
  induction n with
  | zero => exact ⟨s.nce.slots, s.nce.chan, rfl, nofun, fun c _ _ _ => by simp⟩
  | succ n ih =>
    obtain ⟨x, y, hfold, hslots, hchan⟩ := ih
    obtain ⟨y', hstep, hpush⟩ := requestSlot_requests s b n x y
    refine ⟨mset {} x n (serveSlot s b (mget none s.nce.lines n)), y', ?_, fun i hi => ?_, fun c hc hrole hseg => ?_⟩
    · rw [List.range_succ, List.foldl_append, hfold]
      exact hstep
    · rw [mget_mset]
      split
      · rename_i hin
        rw [hin]
      · exact hslots i (by omega)
    · rw [hpush c hc hrole hseg, hchan c hc hrole hseg, List.range_succ, List.flatMap_append, List.flatMap_singleton, List.append_assoc]

section
variable {s : State} {b : List Byte} (hb : s.nceBlock = b) (hruns : stepRuns s = true) (hon : s.nceOn = true) (hwin : crCW b ≠ 0)
  (hrake : s.pace.rakeAct = false) (hsame : s.cropWindow = s.nce.cropWin)
include hb hruns hon hwin hrake hsame

theorem cropRequest_due : cropRequest s = if s.nce.reqDone then s
    else s.nce.badParity.head?.elim
      { (List.range (crST b)).foldl (fun s i => requestSlot s b i) s with
        nce := { ((List.range (crST b)).foldl (fun s i => requestSlot s b i) s).nce with reqDone := true } }
      (blockParity s 0) := by
  have hroll : rollWindow s = s := if_pos hsame
  have hcond : (stepRuns s && s.nceOn && crCW s.nceBlock != 0 && !s.pace.rakeAct) = true := by
    rw [hruns, hon, hrake, hb, bne_iff_ne.mpr hwin]
    rfl
  unfold cropRequest
  rw [if_pos hcond, hroll]
  dsimp only
  rw [hb]
  cases s.nce.badParity <;> rfl

theorem cropRequest_requests (hdone : s.nce.reqDone = false) (hpar : s.nce.badParity = []) :
    (cropRequest s).nce.reqDone = true ∧ cropRequest s = { s with nce := (cropRequest s).nce } ∧
    (∀ i < crST b, mget {} (cropRequest s).nce.slots i = serveSlot s b (mget none s.nce.lines i)) ∧
    ∀ c < 40, chRole b c = 3 → chUnit b c < crNSEG b →
      mget [] (cropRequest s).nce.chan c = mget [] s.nce.chan c ++ (List.range (crST b)).flatMap fun i => slotRequest s b i (chUnit b c) := by
  obtain ⟨x, y, hfold, hslots, hchan⟩ := requestSlots_request s b (crST b)
  rw [cropRequest_due hb hruns hon hwin hrake hsame, hdone, hpar, hfold]
  exact ⟨rfl, rfl, hslots, hchan⟩

end

/-! ## Crops that leave (R218) -/

/-- Crops leave for the channels; what the slots' bookkeeping does not name stands. -/
structure FlushKeeps (s s' : State) : Prop where
  frame : s' = { s with nce := { s.nce with chan := s'.nce.chan, cropNext := s'.nce.cropNext, slots := s'.nce.slots } }
  next : ∀ k, k ≠ 8 → mget 0 s'.nce.cropNext k = mget 0 s.nce.cropNext k
  chan : ∀ c, mget [] s.nce.chan c <+: mget [] s'.nce.chan c

theorem FlushKeeps.trans {s t u : State} (h : FlushKeeps s t) (h' : FlushKeeps t u) : FlushKeeps s u := by
  refine ⟨?_, fun k hk => (h'.next k hk).trans (h.next k hk), fun c => (h.chan c).trans (h'.chan c)⟩
  have hframe := h'.frame
  rw [h.frame] at hframe
  exact hframe

/-- The crop of slot i leaves on a channel. -/
def flushOne (s : State) (ch i : Nat) (c : CropSlot) : State :=
  let s1 := pushChan s ch c.tokens
  { s1 with nce := { s1.nce with cropNext := mset 0 s1.nce.cropNext 8 (i + 1), slots := mset {} s1.nce.slots i { c with tokens := [] } } }

theorem flushKeeps_flushOne (s : State) (ch i : Nat) (c : CropSlot) : FlushKeeps s (flushOne s ch i c) := by
  refine ⟨rfl, fun k hk => ?_, fun d => ?_⟩
  · exact mget_mset_other 0 0 s.nce.cropNext 8 k (i + 1) hk
  show _ <+: mget [] (pushChan s ch c.tokens).nce.chan d
  rw [pushChan_chan]
  split
  · rename_i hd
    rw [hd]
    exact List.prefix_append _ _
  · exact List.prefix_rfl

theorem flushCrops_succ (s : State) (b : List Byte) (n : Nat) : flushCrops s b (n + 1) =
    if (mget 0 s.nce.cropNext 8 < crST b && !(mget ({} : CropSlot) s.nce.slots (mget 0 s.nce.cropNext 8)).tokens.isEmpty) = true then
      flushCrops (flushOne s (32 + Config.slotChannel (mget 0 s.nce.cropNext 8) (crNSEG b) % max 1 (crNSEG b) % 8) (mget 0 s.nce.cropNext 8)
        (mget ({} : CropSlot) s.nce.slots (mget 0 s.nce.cropNext 8))) b n
    else s := rfl

theorem flushKeeps_flushCrops (s : State) (b : List Byte) (n : Nat) : FlushKeeps s (flushCrops s b n) := by
  induction n generalizing s with
  | zero => exact ⟨rfl, fun _ _ => rfl, fun _ => List.prefix_rfl⟩
  | succ n ih =>
    rw [flushCrops_succ]
    split
    · exact (flushKeeps_flushOne _ _ _ _).trans (ih _)
    · exact ⟨rfl, fun _ _ => rfl, fun _ => List.prefix_rfl⟩

/-- The next slot's crop, once its tokens are there, leaves on the slot's channel. -/
theorem flushCrops_next {s : State} {b : List Byte} {n i : Nat} (hn : n ≠ 0) (hi : mget 0 s.nce.cropNext 8 = i) (hst : i < crST b) :
    mget [] s.nce.chan (32 + Config.slotChannel i (crNSEG b) % max 1 (crNSEG b) % 8) ++ (mget ({} : CropSlot) s.nce.slots i).tokens <+:
      mget [] (flushCrops s b n).nce.chan (32 + Config.slotChannel i (crNSEG b) % max 1 (crNSEG b) % 8) := by
  obtain ⟨m, rfl⟩ := Nat.exists_eq_succ_of_ne_zero hn
  rw [flushCrops_succ, hi]
  by_cases hempty : (mget ({} : CropSlot) s.nce.slots i).tokens = []
  · rw [hempty, List.append_nil, if_neg (by simp)]
  · have hcond : (decide (i < crST b) && !(mget ({} : CropSlot) s.nce.slots i).tokens.isEmpty) = true := by
      rw [decide_eq_true hst, List.isEmpty_eq_false_iff.mpr hempty]
      rfl
    rw [if_pos hcond]
    refine List.IsPrefix.trans ?_ ((flushKeeps_flushCrops _ b m).chan _)
    show _ <+: mget [] (pushChan s _ _).nce.chan _
    rw [pushChan_chan, if_pos rfl]

/-- A crop that its window cuts is counted; the first in a step is reported (R218). -/
theorem countClip_counts (s : State) : (countClip s).nce = { s.nce with clipcnt := satInc s.nce.clipcnt, clipStep := true } ∧
    (countClip s).tiles = s.tiles ∧ (countClip s).pace = s.pace := by
  unfold countClip
  dsimp only
  split
  · exact ⟨rfl, rfl, rfl⟩
  · rw [event_low _ 0x0E01 _ (by decide)]
    exact ⟨rfl, rfl, rfl⟩

/-- The tokens of a slot that crop channel k serves, resampled and counted, or not its own (R218). -/
structure Resampled (s s' : State) (b : List Byte) (k i : Nat) (c : CropSlot) (l : CropLine) (ts : List Token) : Prop where
  rx : s'.nce.rx = s.nce.rx
  next : s'.nce.cropNext = s.nce.cropNext
  chan : s'.nce.chan = s.nce.chan
  tiles : s'.tiles = s.tiles
  pace : s'.pace = s.pace
  cropcnt : s'.nce.cropcnt = if c.seg = k then satInc s.nce.cropcnt else s.nce.cropcnt
  clipcnt : s'.nce.clipcnt = if c.seg = k ∧ c.clipped = true then satInc s.nce.clipcnt else s.nce.clipcnt
  tokens : c.seg = k → (mget {} s'.nce.slots i).tokens = cropTokens s b c l ts

theorem resampleSlot_resamples {s : State} {b : List Byte} {k i : Nat} {ts : List Token} {l : CropLine} {c : CropSlot}
    (hslot : mget {} s.nce.slots i = c) (hline : c.line = some l) : Resampled s (resampleSlot s b k i ts) b k i c l ts := by
  have heq : resampleSlot s b k i ts = if c.seg = k then
      (if c.clipped then countClip { s with nce := { s.nce with
        cropcnt := satInc s.nce.cropcnt, slots := mset {} s.nce.slots i { c with tokens := cropTokens s b c l ts } } }
      else { s with nce := { s.nce with
        cropcnt := satInc s.nce.cropcnt, slots := mset {} s.nce.slots i { c with tokens := cropTokens s b c l ts } } })
      else s := by
    unfold resampleSlot
    dsimp only
    rw [hslot, hline]
  have htokens : (mget {} (mset {} s.nce.slots i { c with tokens := cropTokens s b c l ts }) i).tokens = cropTokens s b c l ts := by
    rw [mget_mset_self]
  rw [heq]
  by_cases hseg : c.seg = k
  · rw [if_pos hseg]
    by_cases hclip : c.clipped = true
    · rw [if_pos hclip]
      obtain ⟨hnce, htiles, hpace⟩ := countClip_counts { s with nce := { s.nce with
        cropcnt := satInc s.nce.cropcnt, slots := mset {} s.nce.slots i { c with tokens := cropTokens s b c l ts } } }
      constructor
      case rx => rw [hnce]
      case next => rw [hnce]
      case chan => rw [hnce]
      case tiles => exact htiles
      case pace => exact hpace
      case cropcnt => rw [hnce, if_pos hseg]
      case clipcnt => rw [hnce, if_pos ⟨hseg, hclip⟩]
      case tokens =>
        intro _
        rw [hnce]
        exact htokens
    · rw [if_neg hclip]
      exact ⟨rfl, rfl, rfl, rfl, rfl, (if_pos hseg).symm, (if_neg fun h => hclip h.2).symm, fun _ => htokens⟩
  · rw [if_neg hseg]
    exact ⟨rfl, rfl, rfl, rfl, rfl, (if_neg hseg).symm, (if_neg fun h => hseg h.1).symm, fun h => absurd h hseg⟩

/-- The state of a slot's tokens taken from the crop channel (R218). -/
def tokensTaken (s : State) (k m : Nat) : State :=
  { s with nce := { s.nce with rx := mset [] s.nce.rx (32 + k) ((mget [] s.nce.rx (32 + k)).drop m)
                               cropNext := mset 0 s.nce.cropNext k (mget 0 s.nce.cropNext k + 1) } }

section
variable {s : State} {b : List Byte} {k m i : Nat} (hb : s.nceBlock = b) (hi : mget 0 s.nce.cropNext k = i) (hm : crRH b * crRWT b = m)
  (hon : s.nceOn = true) (hdone : s.nce.reqDone = true) (hseg : k < crNSEG b) (hslot : i < crST b) (hsome : m ≠ 0)
  (htokens : m ≤ (mget [] s.nce.rx (32 + k)).length) (hrake : s.pace.rakeAct = false) (hpar : s.nce.badParity = [])
include hb hi hm hon hdone hseg hslot hsome htokens hrake hpar

theorem cropResample_due : cropResample s k =
    flushCrops (resampleSlot (tokensTaken s k m) b k i ((mget [] s.nce.rx (32 + k)).take m)) b (crST b) := by
  have hcond : (s.nceOn && s.nce.reqDone && decide (k < crNSEG b) && decide (i < crST b) && m != 0 &&
      decide (m ≤ (mget [] s.nce.rx (32 + k)).length) && !s.pace.rakeAct) = true := by
    rw [hon, hdone, decide_eq_true hseg, decide_eq_true hslot, decide_eq_true htokens, hrake, bne_iff_ne.mpr hsome]
    rfl
  unfold cropResample tokensTaken
  dsimp only
  rw [hb, hi, hm, if_pos hcond, hpar]

/-- The tokens of a slot, taken, resampled and sent (R218). -/
theorem cropResample_crops {l : CropLine} {c : CropSlot} (hc : mget {} s.nce.slots i = c) (hl : c.line = some l) (hk : k < 8) :
    mget [] (cropResample s k).nce.rx (32 + k) = (mget [] s.nce.rx (32 + k)).drop m ∧
    mget 0 (cropResample s k).nce.cropNext k = i + 1 ∧ (cropResample s k).tiles = s.tiles ∧ (cropResample s k).pace = s.pace ∧
    (cropResample s k).nce.cropcnt = (if c.seg = k then satInc s.nce.cropcnt else s.nce.cropcnt) ∧
    (cropResample s k).nce.clipcnt = (if c.seg = k ∧ c.clipped = true then satInc s.nce.clipcnt else s.nce.clipcnt) ∧
    (c.seg = k → mget 0 s.nce.cropNext 8 = i →
      (mget [] s.nce.chan (32 + Config.slotChannel i (crNSEG b) % max 1 (crNSEG b) % 8) ++
        cropTokens s b c l ((mget [] s.nce.rx (32 + k)).take m)) <+:
        mget [] (cropResample s k).nce.chan (32 + Config.slotChannel i (crNSEG b) % max 1 (crNSEG b) % 8)) := by
  have hres : Resampled (tokensTaken s k m) _ b k i c l ((mget [] s.nce.rx (32 + k)).take m) :=
    resampleSlot_resamples (s := tokensTaken s k m) hc hl
  rw [cropResample_due hb hi hm hon hdone hseg hslot hsome htokens hrake hpar]
  generalize resampleSlot (tokensTaken s k m) b k i ((mget [] s.nce.rx (32 + k)).take m) = u at hres
  have hflush := flushKeeps_flushCrops u b (crST b)
  refine ⟨?_, ?_, ?_, ?_, ?_, ?_, fun hown hnext => ?_⟩
  · rw [hflush.frame]
    exact (congrArg (fun r => mget [] r (32 + k)) hres.rx).trans (mget_mset_self ([] : List Token) s.nce.rx (32 + k) _)
  · rw [hflush.next k (by omega), hres.next, ← hi]
    exact mget_mset_self 0 s.nce.cropNext k (mget 0 s.nce.cropNext k + 1)
  · rw [hflush.frame]
    exact hres.tiles
  · rw [hflush.frame]
    exact hres.pace
  · rw [hflush.frame]
    exact hres.cropcnt
  · rw [hflush.frame]
    exact hres.clipcnt
  · have hhead : mget 0 u.nce.cropNext 8 = i := by
      rw [hres.next]
      exact (mget_mset_other 0 0 s.nce.cropNext k 8 (mget 0 s.nce.cropNext k + 1) (by omega)).trans hnext
    have hsent := flushCrops_next (b := b) (n := crST b) (by omega) hhead hslot
    rw [hres.tokens hown, hres.chan] at hsent
    exact hsent

end

/-- Settles O57: the NCE's line, its crop requests and its crops, each by what leaves and what is kept. -/
theorem narrowChannel : Obligations.NarrowChannel := by
  unfold Obligations.NarrowChannel
  intro s k b v n es
  refine ⟨?_, ?_, ?_⟩
  · intro hdue hpar
    refine ⟨fun hgood => ?_, fun hbad => ⟨_, rfl, lineIntake_aborts hdue hpar rfl rfl rfl hbad⟩⟩
    obtain ⟨hdone, hsched, hqueue, hrowsIn, hrows, htiles, hpace, hmc⟩ := lineIntake_takes hdue hpar rfl rfl rfl hgood
    exact ⟨_, rfl, hdone, hsched, hqueue, ⟨hrowsIn, hrows⟩, htiles, hpace, hmc⟩
  · intro hruns hon hwin hrake hsame hpar
    refine ⟨fun hdone => ?_, fun hdone => ⟨_, rfl, cropRequest_requests rfl hruns hon hwin hrake hsame hdone hpar⟩⟩
    refine congrArg Host.Outcome.next ((cropRequest_due rfl hruns hon hwin hrake hsame).trans ?_)
    rw [hdone]
    rfl
  · intro i m ts c hon hdone hseg hslot hsome htokens hrake hpar l hl
    exact ⟨_, rfl, cropResample_crops rfl rfl rfl hon hdone hseg hslot hsome htokens hrake hpar rfl hl k.isLt⟩

end Sys2Proof.Claims
end

section
/-! SUPPORT. O58: what the stages of a step of the post-processor keep, and a detection that nothing overlaps (R222 to R228). -/

namespace Sys2Proof.Claims

open Sys2Proof Sys2Proof.Machine

/-! ## What every stage keeps -/

/-- A stage of a PP step: tiles, memory control and pace stand, records are appended, the lists keep their sizes and no token enters a
head's channel. -/
structure PpKeeps (b : List Byte) (s s' : State) : Prop where
  tiles : s'.tiles = s.tiles
  mc : s'.mc = s.mc
  pace : s'.pace = s.pace
  queue : s.pp.queue.length ≤ 4096 → s'.pp.queue.length ≤ 4096
  accepted : s.pp.accepted.length ≤ 1024 → s'.pp.accepted.length ≤ 1024
  records : s.pp.records <+: s'.pp.records
  rx : ∀ c, headChannel b c = true → mget [] s.pp.rx c = [] → mget [] s'.pp.rx c = []

variable {b : List Byte}

theorem PpKeeps.refl (s : State) : PpKeeps b s s := ⟨rfl, rfl, rfl, id, id, List.prefix_rfl, fun _ _ => id⟩

theorem PpKeeps.trans {s t u : State} (h : PpKeeps b s t) (h' : PpKeeps b t u) : PpKeeps b s u :=
  ⟨h'.tiles.trans h.tiles, h'.mc.trans h.mc, h'.pace.trans h.pace, h'.queue ∘ h.queue, h'.accepted ∘ h.accepted,
    h.records.trans h'.records, fun c hc => h'.rx c hc ∘ h.rx c hc⟩

theorem ppKeeps_foldl {α : Type} {f : State → α → State} (hf : ∀ s x, PpKeeps b s (f s x)) (xs : List α) (s : State) :
    PpKeeps b s (xs.foldl f s) := by
  induction xs generalizing s with
  | nil => exact .refl s
  | cons x xs ih => exact (hf s x).trans (ih _)

theorem ppKeeps_of_pp {s s' : State} (htiles : s'.tiles = s.tiles) (hmc : s'.mc = s.mc) (hpace : s'.pace = s.pace) (hpp : s'.pp = s.pp) :
    PpKeeps b s s' := by
  constructor
  case tiles => exact htiles
  case mc => exact hmc
  case pace => exact hpace
  case queue => exact hpp ▸ id
  case accepted => exact hpp ▸ id
  case records => exact hpp ▸ List.prefix_rfl
  case rx => exact fun _ _ => hpp ▸ id

theorem ppKeeps_event (s : State) (c : Nat) (a : EvArgs) (hlow : evSev c < 2) : PpKeeps b s (event s c a) := by
  rw [event_low s c a hlow]
  exact ppKeeps_of_pp rfl rfl rfl rfl

theorem ppKeeps_addRecord (s : State) (kind : Nat) (bytes : List Byte) (ord : Nat) : PpKeeps b s (addRecord s kind bytes ord) :=
  ⟨rfl, rfl, rfl, id, id, List.prefix_append _ _, fun _ _ => id⟩

theorem ppKeeps_detRecord (s : State) (x : Candidate × Word) (flags : Nat) : PpKeeps b s (detRecord s x flags) :=
  ⟨rfl, rfl, rfl, id, id, List.prefix_append _ _, fun _ _ => id⟩

/-! ## Heads -/

theorem ppKeeps_headFronts (s : State) (hn : Nat) : PpKeeps b s (headFronts s b hn) := ⟨rfl, rfl, rfl, id, id, List.prefix_rfl, fun _ _ => id⟩

/-- The tokens of channel c counted and gone. -/
def takeChannel (s : State) (c : Nat) : State :=
  { s with pp := { s.pp with chanPos := mset 0 s.pp.chanPos c (mget 0 s.pp.chanPos c + (mget [] s.pp.rx c).length)
                             rx := mset [] s.pp.rx c [] } }

theorem takeChannel_rx (s : State) (c d : Nat) : mget [] (takeChannel s c).pp.rx d = if d = c then [] else mget [] s.pp.rx d :=
  mget_mset [] s.pp.rx c d []

theorem ppKeeps_takeChannel (s : State) (c : Nat) : PpKeeps b s (takeChannel s c) := by
  refine ⟨rfl, rfl, rfl, id, id, List.prefix_rfl, fun d _ hd => ?_⟩
  rw [takeChannel_rx, hd, ite_self]

theorem takeChannels_rx (cs : List Nat) (s : State) :
    ∀ c, c ∈ cs ∨ mget [] s.pp.rx c = [] → mget [] (cs.foldl takeChannel s).pp.rx c = [] := by
  induction cs generalizing s with
  | nil => exact fun c hc => hc.resolve_left List.not_mem_nil
  | cons d cs ih =>
    refine fun c hc => ih (takeChannel s d) c ?_
    rw [takeChannel_rx]
    rcases hc with hin | hempty
    · rcases List.mem_cons.mp hin with rfl | hin
      · exact .inr (if_pos rfl)
      · exact .inl hin
    · rw [hempty, ite_self]
      exact .inr rfl

theorem ppKeeps_takeHeads (s : State) : PpKeeps b s (takeHeads s b) := ppKeeps_foldl ppKeeps_takeChannel _ s

theorem takeHeads_rx (s : State) {h c : Nat} (hh : h ∈ ppHeads b) (hc : c ∈ headChans b (ppHead b h)) :
    mget [] (takeHeads s b).pp.rx c = [] := takeChannels_rx _ s c (.inl (List.mem_flatMap.mpr ⟨h, hh, hc⟩))

theorem headChannel_of_mem {h : Head} {c : Nat} (hc : c ∈ headChans b h) : headChannel b c = true :=
  ((Bool.and_eq_true _ _).mp (List.mem_filter.mp hc).2).2

/-! ## Decisions -/

theorem lowestBox_mem {c l : Candidate} {ds : List Candidate} (hl : lowestBox c ds = some l) : l ∈ ds := by
  induction ds generalizing l with
  | nil => exact nomatch hl
  | cons d ds ih =>
    unfold lowestBox at hl
    cases hr : lowestBox c ds with
    | none =>
      rw [hr] at hl
      exact Option.some.inj hl ▸ List.mem_cons_self
    | some e =>
      rw [hr] at hl
      dsimp only at hl
      split at hl
      · exact Option.some.inj hl ▸ List.mem_cons_of_mem _ (ih hr)
      · exact Option.some.inj hl ▸ List.mem_cons_self

theorem ppKeeps_keepAccepted (s : State) (c : Candidate) : PpKeeps b s (keepAccepted s c) := by
  unfold keepAccepted
  split
  · rename_i hroom
    exact ⟨rfl, rfl, rfl, id, fun _ => by simpa using hroom, List.prefix_rfl, fun _ _ => id⟩
  · split
    · exact .refl s
    · rename_i l hl
      have hkeep : PpKeeps b s { s with pp := { s.pp with accepted := s.pp.accepted.erase l ++ [c], earlyStep := true } } := by
        refine ⟨rfl, rfl, rfl, id, fun hlen => ?_, List.prefix_rfl, fun _ _ => id⟩
        have hpos := List.length_pos_of_mem (lowestBox_mem hl)
        have herase := List.length_erase_of_mem (lowestBox_mem hl)
        show (s.pp.accepted.erase l ++ [c]).length ≤ 1024
        rw [List.length_append, herase, List.length_singleton]
        omega
      dsimp only
      split
      · exact hkeep
      · exact hkeep.trans (ppKeeps_event _ _ _ (by decide))

theorem ppKeeps_decideAll (t : Nat) (cs : List Candidate) (s : State) : PpKeeps b s (decideAll t cs s).1 := by
  induction cs generalizing s with
  | nil => exact .refl s
  | cons c cs ih =>
    have herase : (s.pp.queue.length ≤ 4096) → (s.pp.queue.erase c).length ≤ 4096 := le_trans (List.length_erase_le)
    unfold decideAll
    dsimp only
    split
    · refine PpKeeps.trans ?_ (ih _)
      exact ⟨rfl, rfl, rfl, herase, id, List.prefix_rfl, fun _ _ => id⟩
    · refine PpKeeps.trans ?_ (ih _)
      refine PpKeeps.trans ?_ (ppKeeps_keepAccepted _ c)
      exact ⟨rfl, rfl, rfl, herase, id, List.prefix_rfl, fun _ _ => id⟩

theorem ppKeeps_expireAccepted (s : State) (sw : Nat) : PpKeeps b s (expireAccepted s sw) :=
  ⟨rfl, rfl, rfl, id, le_trans (List.length_filter_le _ _), List.prefix_rfl, fun _ _ => id⟩

/-! ## Records, the window's end, decoder slots, measurements -/

theorem ppKeeps_recordBoxes (p : List Byte) (cs : List Candidate) (s : State) : PpKeeps b s (recordBoxes p cs s) := by
  induction cs generalizing s with
  | nil => exact .refl s
  | cons c cs ih =>
    unfold recordBoxes
    dsimp only
    refine PpKeeps.trans ?_ (ih _)
    split
    · exact ⟨rfl, rfl, rfl, id, id, List.prefix_rfl, fun _ _ => id⟩
    · exact ⟨rfl, rfl, rfl, id, id, List.prefix_append _ _, fun _ _ => id⟩

theorem ppKeeps_countOvf (s : State) (bed dropped items slots : Nat) : PpKeeps b s (countOvf s bed dropped items slots) := by
  unfold countOvf
  split
  · exact .refl s
  · dsimp only
    have hbed : PpKeeps b s (s.setBed bed { s.bed bed with ovf := satAdd (s.bed bed).ovf dropped, ovfWin := true }) :=
      ppKeeps_of_pp rfl rfl rfl rfl
    split
    · exact hbed
    · exact hbed.trans (ppKeeps_event _ 0x040E _ (by decide))

/-- The records of the lines that wait, those of a list flagged "not read". -/
def heldRecords (s : State) (lost : List Word) : State :=
  s.pp.held.foldl (fun s x => detRecord s x (1 + 2 * b2n (lost.contains x.2))) s

/-- The lines of the window handed to the packer. -/
def linesPacked (s : State) (lines : List (CropLine × BitVec 16)) (n : Nat) : State :=
  { s with pp := { s.pp with held := [], packed := lines, winItems := n } }

/-- The BOXIDs of the window's lines for which the packer has no slot. -/
def lostLines (s : State) : List Word := ((windowLines s.pp.held).drop (packSlots s)).map fun x => x.1.boxid

theorem closeWindow_packs (s : State) : closeWindow s =
    linesPacked (heldRecords (countOvf s (ppPacker s.ppBlock) (lostLines s).length (s.pp.winItems + s.pp.held.length) (packSlots s)) (lostLines s))
      ((windowLines s.pp.held).take (packSlots s)) (s.pp.winItems + s.pp.held.length) := by
  simp only [closeWindow, linesPacked, heldRecords, lostLines]

theorem ppKeeps_heldRecords (s : State) (lost : List Word) : PpKeeps b s (heldRecords s lost) :=
  ppKeeps_foldl (fun s x => ppKeeps_detRecord s x _) s.pp.held s

theorem ppKeeps_linesPacked (s : State) (lines : List (CropLine × BitVec 16)) (n : Nat) : PpKeeps b s (linesPacked s lines n) :=
  ⟨rfl, rfl, rfl, id, id, List.prefix_rfl, fun _ _ => id⟩

theorem ppKeeps_closeWindow (s : State) : PpKeeps b s (closeWindow s) := by
  rw [closeWindow_packs]
  exact (ppKeeps_countOvf s _ _ _ _).trans <| (ppKeeps_heldRecords _ _).trans (ppKeeps_linesPacked _ _ _)

theorem ppKeeps_indexToken (p : List Byte) (s : State) (u : Token) : PpKeeps b s (indexToken p s u) := by
  unfold indexToken
  dsimp only
  split
  · exact ⟨rfl, rfl, rfl, id, id, List.prefix_rfl, fun _ _ => id⟩
  · split
    · exact ⟨rfl, rfl, rfl, id, id, List.prefix_append _ _, fun _ _ => id⟩
    · exact ⟨rfl, rfl, rfl, id, id, List.prefix_rfl, fun _ _ => id⟩

theorem ppKeeps_decodeSlots (s : State) : PpKeeps b s (decodeSlots s b) := by
  unfold decodeSlots
  dsimp only
  split
  · exact .refl s
  · rename_i hslots
    refine PpKeeps.trans ?_ (ppKeeps_foldl (ppKeeps_indexToken b) _ _)
    refine ⟨rfl, rfl, rfl, id, id, List.prefix_rfl, fun c _ hempty => ?_⟩
    show mget [] (mset [] s.pp.rx Config.decChannel.val []) c = []
    rw [mget_mset, hempty, ite_self]

theorem ppKeeps_measRecord (s : State) (p : List Byte) (vals : List Nat) : PpKeeps b s (measRecord s p vals) :=
  ⟨rfl, rfl, rfl, id, id, List.prefix_append _ _, fun _ _ => id⟩

theorem ppKeeps_measure (s : State) : PpKeeps b s (Machine.measure s b) := by
  unfold Machine.measure
  split
  · refine ppKeeps_foldl (fun s c => ?_) _ s
    refine PpKeeps.trans ?_ (ppKeeps_foldl (fun s us => ?_) _ _)
    · exact ⟨rfl, rfl, rfl, id, id, List.prefix_rfl, fun _ _ => id⟩
    · split
      · exact .refl s
      · exact ppKeeps_measRecord s b _
  · unfold measChannel
    refine PpKeeps.trans ?_ (ppKeeps_foldl (fun s us => ?_) _ _)
    · rename_i hmeas
      refine ⟨rfl, rfl, rfl, id, id, List.prefix_rfl, fun c hc hempty => ?_⟩
      have hother : c ≠ ppMeas b - 1 := by
        have hne := ((Bool.and_eq_true _ _).mp hc).2
        have hne := bne_iff_ne.mp hne
        omega
      exact (mget_mset_other _ _ s.pp.rx _ _ _ hother).trans hempty
    · split
      · exact .refl s
      · exact ppKeeps_measRecord s b _

/-! ## Candidates that arrive -/

theorem insertCand_length (c : Candidate) (ds : List Candidate) : (insertCand c ds).length = ds.length + 1 := by
  induction ds with
  | nil => rfl
  | cons d ds ih =>
    unfold insertCand
    split
    · rfl
    · rw [List.length_cons, ih, List.length_cons]

theorem ppKeeps_countQdrop (s : State) : PpKeeps b s (countQdrop s) := by
  have hcount : PpKeeps b s { s with pp := { s.pp with qdrop := satInc s.pp.qdrop, dropStep := true } } :=
    ⟨rfl, rfl, rfl, id, id, List.prefix_rfl, fun _ _ => id⟩
  unfold countQdrop
  dsimp only
  split
  · exact hcount
  · exact hcount.trans (ppKeeps_event _ _ _ (by decide))

theorem ppKeeps_addCand (s : State) (c : Candidate) : PpKeeps b s (addCand s c) := by
  unfold addCand
  split
  · rename_i hroom
    refine ⟨rfl, rfl, rfl, fun _ => ?_, id, List.prefix_rfl, fun _ _ => id⟩
    show (insertCand c s.pp.queue).length ≤ 4096
    rw [insertCand_length]
    exact hroom
  · rename_i hfull
    split
    · exact .refl s
    · split
      · refine PpKeeps.trans ?_ (ppKeeps_countQdrop _)
        refine ⟨rfl, rfl, rfl, fun hlen => ?_, id, List.prefix_rfl, fun _ _ => id⟩
        show (insertCand c s.pp.queue.dropLast).length ≤ 4096
        rw [insertCand_length, List.length_dropLast]
        omega
      · exact ppKeeps_countQdrop s

/-! ## The step -/

/-- The step up to the decisions: fronts moved, tokens taken, accepted boxes expired. -/
def ppTaken (s : State) (b : List Byte) : State :=
  expireAccepted (takeHeads ((ppHeads b).foldl (fun s h => headFronts s b h) s) b) (ppSW b)

/-- The step's decisions. -/
def ppDecided (s : State) (b : List Byte) : State × List Candidate :=
  decideAll (ppT b) ((ppTaken s b).pp.queue.filter (isRipe (ppTaken s b) (ppSW b))) (ppTaken s b)

/-- The step up to the records of its boxes. -/
def ppRecorded (s : State) (b : List Byte) : State := recordBoxes b (ppDecided s b).2 (ppDecided s b).1

/-- The crop window's end, where the step ends it. -/
def windowClosed (s : State) : State := if windowEnds s then closeWindow s else s

/-- The step before the new candidates enter the queue. -/
def ppMeasured (s : State) (b : List Byte) : State := Machine.measure (decodeSlots (windowClosed (ppRecorded s b)) b) b

theorem ppKeeps_stepDone (s : State) : PpKeeps b s { s with pp := { s.pp with stepDone := true } } :=
  ⟨rfl, rfl, rfl, id, id, List.prefix_rfl, fun _ _ => id⟩

theorem ppStep_due {s : State} (hdue : ppDue s = true) (hpar : s.pp.badParity = []) (hsame : s.cropWindow = s.nce.cropWin) (hb : s.ppBlock = b) :
    ∃ cands : List Candidate, (ppHeads b = [] → cands = []) ∧ ppStep s =
      { cands.foldl addCand (ppMeasured s b) with pp := { (cands.foldl addCand (ppMeasured s b)).pp with stepDone := true } } := by
  have hroll : rollWindow s = s := if_pos hsame
  refine ⟨(ppHeads b).flatMap (decodeHead s b), fun hnone => by rw [hnone]; rfl, ?_⟩
  unfold ppStep
  rw [if_pos hdue, hpar, hroll]
  dsimp only
  rw [hb]
  rfl

theorem ppKeeps_windowClosed (s : State) : PpKeeps b s (windowClosed s) := by
  unfold windowClosed
  split
  · exact ppKeeps_closeWindow s
  · exact .refl s

theorem ppKeeps_afterTaken (s : State) : PpKeeps b (ppTaken s b) (ppMeasured s b) :=
  (ppKeeps_decideAll _ _ _).trans <| (ppKeeps_recordBoxes _ _ _).trans <| (ppKeeps_windowClosed _).trans <|
    (ppKeeps_decodeSlots _).trans (ppKeeps_measure _)

theorem ppKeeps_ppTaken (s : State) : PpKeeps b s (ppTaken s b) :=
  (ppKeeps_foldl ppKeeps_headFronts _ _).trans <| (ppKeeps_takeHeads _).trans (ppKeeps_expireAccepted _ _)

theorem ppTaken_rx (s : State) {h c : Nat} (hh : h ∈ ppHeads b) (hc : c ∈ headChans b (ppHead b h)) : mget [] (ppTaken s b).pp.rx c = [] :=
  takeHeads_rx _ hh hc

theorem ppStep_keepsLists {s : State} (hdue : ppDue s = true) (hpar : s.pp.badParity = []) (hsame : s.cropWindow = s.nce.cropWin)
    (hb : s.ppBlock = b) : PpKeeps b s (ppStep s) ∧ (ppStep s).pp.stepDone = true ∧
      ∀ h ∈ ppHeads b, ∀ c ∈ headChans b (ppHead b h), mget [] (ppStep s).pp.rx c = [] := by
  obtain ⟨cands, _, hstep⟩ := ppStep_due hdue hpar hsame hb
  have hafter : PpKeeps b (ppTaken s b) (ppStep s) := by
    rw [hstep]
    exact (ppKeeps_afterTaken s).trans <| (ppKeeps_foldl ppKeeps_addCand _ _).trans (ppKeeps_stepDone _)
  refine ⟨(ppKeeps_ppTaken s).trans hafter, by rw [hstep], fun h hh c hc => ?_⟩
  exact hafter.rx c (headChannel_of_mem hc) (ppTaken_rx s hh hc)

/-! ## A detection that nothing overlaps (R222, R225, R228) -/

theorem decodeSlots_empty {s : State} (hrx : s.pp.rx = []) : decodeSlots s b = s := by
  unfold decodeSlots
  dsimp only
  split
  · rfl
  · have hnone : mget [] s.pp.rx Config.decChannel.val = [] := by rw [hrx]; rfl
    have hsame : mset [] s.pp.rx Config.decChannel.val [] = s.pp.rx := by rw [hrx]; rfl
    rw [hnone, hsame]
    rfl

theorem measChannel_empty {s : State} (hrx : s.pp.rx = []) (c : Nat) : measChannel s b c = s := by
  have hnone : mget [] s.pp.rx c = [] := by rw [hrx]; rfl
  have hsame : mset [] s.pp.rx c [] = s.pp.rx := by rw [hrx]; rfl
  unfold measChannel
  rw [hnone]
  dsimp only [List.length_nil]
  rw [List.drop_nil, hsame]
  rfl

theorem measLast_empty {s : State} (hrx : s.nce.rx = []) : measLast s b = s := by
  unfold measLast
  refine List.foldl_fixed' (fun c => ?_) _
  have hnone : mget [] s.nce.rx c = [] := by rw [hrx]; rfl
  have hsame : mset [] s.nce.rx c [] = s.nce.rx := by rw [hrx]; rfl
  rw [hnone]
  dsimp only [List.length_nil]
  rw [Nat.zero_div, List.drop_nil, hsame]
  rfl

theorem measure_empty {s : State} (hpp : s.pp.rx = []) (hnce : s.nce.rx = []) : Machine.measure s b = s := by
  unfold Machine.measure
  split
  · exact measLast_empty hnce
  · exact measChannel_empty hpp _

/-- The state with candidate c accepted out of a queue that held it alone. -/
def boxAccepted (s : State) (c : Candidate) : State :=
  { s with pp := { s.pp with queue := [], accept := satInc s.pp.accept, accepted := [c], nextid := s.pp.nextid + 1 } }

/-- An accepted box of the text-line set waits for its window's end; any other box's record joins those that wait. -/
def boxRecorded (s : State) (b : List Byte) (c : Candidate) : State :=
  if ppTextClass b c.cls then
    { boxAccepted s c with pp := { (boxAccepted s c).pp with held := [(c, s.pp.nextid)] } }
  else detRecord (boxAccepted s c) (c, s.pp.nextid) 0

theorem takeHeads_headless (s : State) (hheads : ppHeads b = []) : takeHeads s b = s := by
  unfold takeHeads
  rw [hheads]
  rfl

theorem ppTaken_headless {s : State} (hheads : ppHeads b = []) (hacc : s.pp.accepted = []) : ppTaken s b = s := by
  have hfronts : (ppHeads b).foldl (fun s h => headFronts s b h) s = s := by rw [hheads]; rfl
  unfold ppTaken expireAccepted
  rw [hfronts, takeHeads_headless s hheads]
  dsimp only
  rw [hacc, List.filter_nil, ← hacc]

theorem ppRecorded_single {s : State} {c : Candidate} (hheads : ppHeads b = []) (hqueue : s.pp.queue = [c]) (hacc : s.pp.accepted = [])
    (hheld : s.pp.held = []) (hripe : isRipe s (ppSW b) c = true) : ppRecorded s b = boxRecorded s b c := by
  have hdecided : ppDecided s b =
      ({ s with pp := { s.pp with queue := [], accept := satInc s.pp.accept, accepted := [c] } }, [c]) := by
    unfold ppDecided
    rw [ppTaken_headless hheads hacc, hqueue, List.filter_cons, if_pos hripe, List.filter_nil]
    unfold decideAll suppressed keepAccepted
    simp [hqueue, hacc, decideAll]
  unfold ppRecorded
  rw [hdecided]
  unfold recordBoxes boxRecorded boxAccepted
  dsimp only
  rw [hheld]
  rfl

theorem countOvf_leaves (s : State) (bed dropped items slots : Nat) :
    (countOvf s bed dropped items slots).pp = s.pp ∧ (countOvf s bed dropped items slots).pace = s.pace ∧
    (countOvf s bed dropped items slots).nce = s.nce ∧ (countOvf s bed dropped items slots).ppBlock = s.ppBlock ∧
    (dropped ≠ 0 → s.bedIds.contains bed = true → ((countOvf s bed dropped items slots).bed bed).ovf = satAdd (s.bed bed).ovf dropped) := by
  unfold countOvf
  split
  · rename_i hnone
    refine ⟨rfl, rfl, rfl, rfl, fun hsome hin => ?_⟩
    rw [hin] at hnone
    simp [hsome] at hnone
  · have hbed : ((s.setBed bed { s.bed bed with ovf := satAdd (s.bed bed).ovf dropped, ovfWin := true }).bed bed).ovf =
        satAdd (s.bed bed).ovf dropped := by
      unfold State.bed State.setBed
      dsimp only
      rw [mget_mset_self]
    dsimp only
    split
    · exact ⟨rfl, rfl, rfl, rfl, fun _ _ => hbed⟩
    · have hframe := event_low (s.setBed bed { s.bed bed with ovf := satAdd (s.bed bed).ovf dropped, ovfWin := true }) 0x040E
        { srcid := bed, detail := two items slots } (by decide)
      rw [event_bed]
      rw [hframe]
      exact ⟨rfl, rfl, rfl, rfl, fun _ _ => hbed⟩

/-- A window without a line that waits packs none. -/
theorem closeWindow_empty {s : State} (hheld : s.pp.held = []) : closeWindow s = linesPacked s [] s.pp.winItems := by
  have hlost : lostLines s = [] := by
    unfold lostLines
    rw [hheld]
    exact congrArg _ List.drop_nil
  have hlines : windowLines s.pp.held = [] := by rw [hheld]; rfl
  have hnone : countOvf s (ppPacker s.ppBlock) ([] : List Word).length (s.pp.winItems + s.pp.held.length) (packSlots s) = s := by
    unfold countOvf
    exact if_pos rfl
  have hrecords : heldRecords s [] = s := by
    unfold heldRecords
    rw [hheld]
    rfl
  rw [closeWindow_packs, hlost, hlines, hnone, hrecords, hheld, List.take_nil]
  rfl

/-- The one line of a window, packed where the packer has a slot, else flagged "not read" and counted. -/
theorem closeWindow_single {s : State} {c : Candidate} {id : Word} (hheld : s.pp.held = [(c, id)]) :
    (packSlots s ≠ 0 → closeWindow s = linesPacked (detRecord s (c, id) 1) [(Machine.lineOf c id, c.score)] (s.pp.winItems + 1)) ∧
    (packSlots s = 0 → ∃ items, closeWindow s = linesPacked (detRecord (countOvf s (ppPacker s.ppBlock) 1 items 0) (c, id) 3) [] (s.pp.winItems + 1)) := by
  have hlines : windowLines s.pp.held = [(Machine.lineOf c id, c.score)] := by rw [hheld]; rfl
  constructor
  · intro hslots
    obtain ⟨n, hn⟩ := Nat.exists_eq_succ_of_ne_zero hslots
    have hlost : lostLines s = [] := by
      unfold lostLines
      rw [hlines, hn, Nat.succ_eq_add_one, List.drop_succ_cons, List.drop_nil]
      rfl
    have hnone : countOvf s (ppPacker s.ppBlock) ([] : List Word).length (s.pp.winItems + s.pp.held.length) (packSlots s) = s := by
      unfold countOvf
      exact if_pos rfl
    have hrecords : heldRecords s [] = detRecord s (c, id) 1 := by
      unfold heldRecords
      rw [hheld]
      rfl
    rw [closeWindow_packs, hlost, hlines, hnone, hrecords, hn, hheld, Nat.succ_eq_add_one, List.take_succ_cons, List.take_nil]
    rfl
  · intro hslots
    have hlost : lostLines s = [id] := by
      unfold lostLines
      rw [hlines, hslots]
      rfl
    refine ⟨s.pp.winItems + 1, ?_⟩
    have hrecords (u : State) (hu : u.pp = s.pp) : heldRecords u [id] = detRecord u (c, id) 3 := by
      unfold heldRecords
      rw [hu, hheld]
      simp [b2n]
    rw [closeWindow_packs, hlost, hlines, hslots, hheld, hrecords _ (countOvf_leaves _ _ _ _ _).1]
    rfl

theorem windowEnds_iff (s : State) : windowEnds s = true ↔
    crCW s.nceBlock = 0 ∨ (s.pace.step.toNat + 1) % crCW s.nceBlock = 0 ∨ s.pace.rank = .taskEnd := by
  unfold windowEnds
  simp [or_assoc]

theorem packSlots_zero (s : State) : packSlots s = 0 ↔ ¬ (crCW s.nceBlock ≠ 0 ∧ crST s.nceBlock ≠ 0) := by
  unfold packSlots
  split <;> simp_all

theorem ppMeasured_empty {s : State} (hpp : (windowClosed (ppRecorded s b)).pp.rx = []) (hnce : (windowClosed (ppRecorded s b)).nce.rx = []) :
    ppMeasured s b = windowClosed (ppRecorded s b) := by
  unfold ppMeasured
  rw [decodeSlots_empty hpp, measure_empty hpp hnce]

/-- The detection record of candidate c, the next of the PP's boxes. -/
def detOf (s : State) (b : List Byte) (c : Candidate) (flags : Nat) : ResultRec :=
  { kind := 1, ring := ppRing b 1, step := s.pace.step, bytes := detBytes c flags s.pp.nextid.toNat s.pace.step.toNat, ordinal := s.pp.ordDet }

/-- A candidate accepted out of a queue that held it alone: what its step leaves of the PP. -/
structure Detected (s s' : State) (b : List Byte) (c : Candidate) : Prop where
  queue : s'.pp.queue = []
  accept : s'.pp.accept = satInc s.pp.accept
  nextid : s'.pp.nextid = s.pp.nextid + 1
  supp : s'.pp.supp = s.pp.supp
  box : ppTextClass b c.cls = false → s'.pp.held = [] ∧ s'.pp.records = s.pp.records ++ [detOf s b c 0]
  waits : ppTextClass b c.cls = true → windowEnds s = false → s'.pp.held = [(c, s.pp.nextid)] ∧ s'.pp.records = s.pp.records
  read : ppTextClass b c.cls = true → windowEnds s = true → packSlots s ≠ 0 →
    s'.pp.held = [] ∧ s'.pp.records = s.pp.records ++ [detOf s b c 1] ∧ s'.pp.packed = [(Machine.lineOf c s.pp.nextid, c.score)]
  lost : ppTextClass b c.cls = true → windowEnds s = true → packSlots s = 0 →
    s'.pp.held = [] ∧ s'.pp.records = s.pp.records ++ [detOf s b c 3] ∧ s'.pp.packed = [] ∧
    (s.bedIds.contains (ppPacker b) = true → (s'.bed (ppPacker b)).ovf = satAdd (s.bed (ppPacker b)).ovf 1)

theorem detRecord_detOf {s v : State} (c : Candidate) (flags : Nat) (hord : v.pp.ordDet = s.pp.ordDet) (hpace : v.pace = s.pace)
    (hb : v.ppBlock = b) : (detRecord v (c, s.pp.nextid) flags).pp.records = v.pp.records ++ [detOf s b c flags] := by
  unfold detOf
  rw [← hord, ← hpace, ← hb]
  rfl

/-- The box waits for its window's end. -/
def boxHeld (s : State) (c : Candidate) : State := { boxAccepted s c with pp := { (boxAccepted s c).pp with held := [(c, s.pp.nextid)] } }

theorem boxRecorded_text {s : State} {c : Candidate} (htext : ppTextClass b c.cls = true) : boxRecorded s b c = boxHeld s c := if_pos htext

theorem boxRecorded_box {s : State} {c : Candidate} (htext : ppTextClass b c.cls = false) :
    boxRecorded s b c = detRecord (boxAccepted s c) (c, s.pp.nextid) 0 := if_neg (by rw [htext]; exact Bool.false_ne_true)

theorem windowClosed_ends {s : State} (hends : windowEnds s = true) : windowClosed s = closeWindow s := if_pos hends

theorem windowClosed_goes {s : State} (hends : windowEnds s = false) : windowClosed s = s := if_neg (by rw [hends]; exact Bool.false_ne_true)

/-- Any other box's record is written at once; its window's end adds nothing. -/
theorem windowClosed_detectsBox {s : State} {c : Candidate} (hb : s.ppBlock = b) (hheld : s.pp.held = []) (htext : ppTextClass b c.cls = false) :
    Detected s (windowClosed (boxRecorded s b c)) b c ∧ (windowClosed (boxRecorded s b c)).pp.rx = s.pp.rx ∧
    (windowClosed (boxRecorded s b c)).nce.rx = s.nce.rx := by
  have hrecords := detRecord_detOf (s := s) (v := boxAccepted s c) c 0 rfl rfl hb
  have hnot : ¬ ppTextClass b c.cls = true := by rw [htext]; exact Bool.false_ne_true
  rw [boxRecorded_box htext]
  cases hends : windowEnds (detRecord (boxAccepted s c) (c, s.pp.nextid) 0)
  case false =>
    rw [windowClosed_goes hends]
    exact ⟨⟨rfl, rfl, rfl, rfl, fun _ => ⟨hheld, hrecords⟩, fun h => absurd h hnot, fun h => absurd h hnot, fun h => absurd h hnot⟩, rfl, rfl⟩
  case true =>
    rw [windowClosed_ends hends, closeWindow_empty (s := detRecord (boxAccepted s c) (c, s.pp.nextid) 0) hheld]
    exact ⟨⟨rfl, rfl, rfl, rfl, fun _ => ⟨rfl, hrecords⟩, fun h => absurd h hnot, fun h => absurd h hnot, fun h => absurd h hnot⟩, rfl, rfl⟩

/-- A text line waits for its window's end, and is packed there or lost. -/
theorem windowClosed_detectsLine {s : State} {c : Candidate} (hb : s.ppBlock = b) (htext : ppTextClass b c.cls = true) :
    Detected s (windowClosed (boxRecorded s b c)) b c ∧ (windowClosed (boxRecorded s b c)).pp.rx = s.pp.rx ∧
    (windowClosed (boxRecorded s b c)).nce.rx = s.nce.rx := by
  have hnot : ¬ ppTextClass b c.cls = false := by rw [htext]; exact Bool.true_eq_false_eq_False
  have hsameEnds : windowEnds (boxHeld s c) = windowEnds s := rfl
  have hsameSlots : packSlots (boxHeld s c) = packSlots s := rfl
  obtain ⟨hread, hlost⟩ := closeWindow_single (s := boxHeld s c) (c := c) (id := s.pp.nextid) rfl
  rw [boxRecorded_text htext]
  cases hends : windowEnds s
  case false =>
    rw [windowClosed_goes (hsameEnds.trans hends)]
    refine ⟨⟨rfl, rfl, rfl, rfl, fun h => absurd h hnot, fun _ _ => ⟨rfl, rfl⟩, fun _ h => ?_, fun _ h => ?_⟩, rfl, rfl⟩
    · exact absurd (hends.symm.trans h) Bool.false_ne_true
    · exact absurd (hends.symm.trans h) Bool.false_ne_true
  case true =>
    have hgoes (h : windowEnds s = false) : False := Bool.false_ne_true (h.symm.trans hends)
    rw [windowClosed_ends (hsameEnds.trans hends)]
    by_cases hslots : packSlots s = 0
    · obtain ⟨items, heq⟩ := hlost (hsameSlots.trans hslots)
      obtain ⟨hpp, hpace, hnce, hblock, hovf⟩ := countOvf_leaves (boxHeld s c) (ppPacker (boxHeld s c).ppBlock) 1 items 0
      have hpacker : ppPacker (boxHeld s c).ppBlock = ppPacker b := congrArg ppPacker hb
      rw [heq]
      generalize countOvf (boxHeld s c) (ppPacker (boxHeld s c).ppBlock) 1 items 0 = v at *
      have hrecords := detRecord_detOf (s := s) (v := v) c 3 (by rw [hpp]; rfl) hpace (hblock.trans hb)
      refine ⟨⟨?_, ?_, ?_, ?_, fun h => absurd h hnot, fun _ h => (hgoes h).elim, fun _ _ h => absurd hslots h, fun _ _ _ => ⟨rfl, ?_, rfl, ?_⟩⟩, ?_, ?_⟩
      · exact congrArg Pp.queue hpp
      · exact congrArg Pp.accept hpp
      · exact congrArg Pp.nextid hpp
      · exact (congrArg Pp.supp hpp).trans rfl
      · exact hrecords.trans (by rw [hpp]; rfl)
      · rw [hpacker] at hovf
        exact hovf one_ne_zero
      · exact (congrArg Pp.rx hpp).trans rfl
      · exact congrArg Nce.rx hnce
    · rw [hread hslots]
      refine ⟨⟨rfl, rfl, rfl, rfl, fun h => absurd h hnot, fun _ h => (hgoes h).elim, fun _ _ _ => ⟨rfl, ?_, rfl⟩, fun _ _ h => absurd h hslots⟩, rfl, rfl⟩
      exact detRecord_detOf (s := s) (v := boxHeld s c) c 1 rfl rfl hb

theorem windowClosed_detects {s : State} {c : Candidate} (hb : s.ppBlock = b) (hheld : s.pp.held = []) :
    Detected s (windowClosed (boxRecorded s b c)) b c ∧ (windowClosed (boxRecorded s b c)).pp.rx = s.pp.rx ∧
    (windowClosed (boxRecorded s b c)).nce.rx = s.nce.rx := by
  cases htext : ppTextClass b c.cls
  case false => exact windowClosed_detectsBox hb hheld htext
  case true => exact windowClosed_detectsLine hb htext

theorem ppStep_detects {s : State} {c : Candidate} (hdue : ppDue s = true) (hpar : s.pp.badParity = []) (hsame : s.cropWindow = s.nce.cropWin)
    (hb : s.ppBlock = b) (hheads : ppHeads b = []) (hrx : s.pp.rx = []) (hnce : s.nce.rx = []) (hqueue : s.pp.queue = [c])
    (hacc : s.pp.accepted = []) (hheld : s.pp.held = []) (hripe : isRipe s (ppSW b) c = true) : Detected s (ppStep s) b c := by
  obtain ⟨cands, hnone, hstep⟩ := ppStep_due hdue hpar hsame hb
  obtain ⟨hdet, hpp, hrest⟩ := windowClosed_detects (c := c) hb hheld
  have hrec := ppRecorded_single hheads hqueue hacc hheld hripe
  rw [hstep, hnone hheads, List.foldl_nil, ppMeasured_empty (by rw [hrec]; exact hpp.trans hrx) (by rw [hrec]; exact hrest.trans hnce), hrec]
  exact ⟨hdet.queue, hdet.accept, hdet.nextid, hdet.supp, hdet.box, hdet.waits, hdet.read, hdet.lost⟩

theorem ppStep_blocked {s : State} {n : Nat} (hn : n ∈ namedRings s.ppBlock) (hroom : ringRoom s n = false) : ppStep s = s := by
  have hblocked : ppBlocked s = true := List.any_eq_true.mpr ⟨n, hn, by rw [hroom]; rfl⟩
  refine if_neg fun hdue => ?_
  unfold ppDue at hdue
  rw [hblocked] at hdue
  simp at hdue

/-- Settles O58: a step of the PP by its stages, and a detection accepted out of a queue that held it alone. -/
theorem postProcessor : Obligations.PostProcessor := by
  unfold Obligations.PostProcessor
  refine ⟨fun s n hn hroom => congrArg Host.Outcome.next (ppStep_blocked hn hroom), ?_⟩
  intro s hdue hpar hsame
  refine ⟨?_, ?_⟩
  · obtain ⟨hkeeps, hdone, hrx⟩ := ppStep_keepsLists hdue hpar hsame rfl
    exact ⟨_, rfl, hdone, hkeeps.tiles, hkeeps.mc, hkeeps.pace, hrx, hkeeps.queue, hkeeps.accepted, hkeeps.records⟩
  · intro c hheads hrx hnce hqueue hacc hheld hripe
    have hdet := ppStep_detects hdue hpar hsame rfl hheads hrx hnce hqueue hacc hheld hripe
    have hends := windowEnds_iff s
    have hroom := packSlots_zero s
    refine ⟨_, rfl, hdet.queue, hdet.accept, hdet.nextid, hdet.supp, hdet.box, fun htext hgoes => ?_, fun htext hend => ?_⟩
    · exact hdet.waits htext (Bool.eq_false_iff.mpr fun h => hgoes (hends.mp h))
    · by_cases hslots : packSlots s = 0
      · obtain ⟨hnone, hlost⟩ := hdet.lost htext (hends.mpr hend) hslots
        exact ⟨hnone, fun h => absurd h (hroom.mp hslots), fun _ => hlost⟩
      · obtain ⟨hnone, hread⟩ := hdet.read htext (hends.mpr hend) hslots
        exact ⟨hnone, fun _ => hread, fun h => absurd (hroom.mpr h) hslots⟩

end Sys2Proof.Claims
end

section
/-! SUPPORT. O59: burst slots, the bursts that end, and the write path of the stream engines (R276 to R291). -/

namespace Sys2Proof.Claims

open Sys2Proof Sys2Proof.Machine

/-! ## FILL tokens -/

/-- FILL leaves an engine's bursts and its write buffer. -/
theorem advanceFill_leaves (s : State) (k n : Nat) (e : Engine) :
    (advanceFill s k n e).bursts = e.bursts ∧ (advanceFill s k n e).wbuf = e.wbuf := by
  induction n generalizing e with
  | zero => exact ⟨rfl, rfl⟩
  | succ n ih =>
    unfold advanceFill
    split
    · exact ⟨rfl, rfl⟩
    · split
      · split
        · exact ih { e with nextFetch := true, fetch := {}, descFetched := 0 }
        · exact ⟨rfl, rfl⟩
      · split
        · dsimp only
          split
          · exact ⟨rfl, rfl⟩
          · rename_i d _ _ _
            exact ih { e with rbuf := _, fetch := _ }
        · exact ⟨rfl, rfl⟩

/-- The array with each entry of a list changed in turn. -/
theorem mget_foldl_mset {α : Type} [DecidableEq α] (d : α) (f : Nat → α → α) (ks : List Nat) (hks : ks.Nodup) (m : AMap α) (j : Nat) :
    mget d (ks.foldl (fun m k => mset d m k (f k (mget d m k))) m) j = if j ∈ ks then f j (mget d m j) else mget d m j := by
  induction ks generalizing m with
  | nil => simp
  | cons k ks ih =>
    obtain ⟨hk, hks⟩ := List.nodup_cons.mp hks
    rw [List.foldl_cons, ih hks, mget_mset]
    by_cases hj : j = k
    · subst hj
      simp [hk]
    · simp [hj]

theorem fillEngines_frame (s : State) : fillEngines s = { s with se := (fillEngines s).se } := rfl

theorem fillEngines_leaves (s : State) (k : Nat) :
    ((fillEngines s).engine k).bursts = (s.engine k).bursts ∧ ((fillEngines s).engine k).wbuf = (s.engine k).wbuf := by
  have hget : (fillEngines s).engine k = if k ∈ List.range 16 then advanceFill s k 16 (s.engine k) else s.engine k := by
    have hnodup : (List.range 16).Nodup := List.nodup_range
    unfold State.engine fillEngines
    generalize List.range 16 = ks at *
    exact mget_foldl_mset ({} : Engine) (fun k e => advanceFill s k 16 e) ks hnodup s.se.eng k
  rw [hget]
  split
  · exact advanceFill_leaves s k 16 _
  · exact ⟨rfl, rfl⟩

/-! ## Who wins a slot (R285, R286) -/

theorem firstDry_mem {s : State} {r : Requester} {l : List Requester} (hr : firstDry s l = some r) : r ∈ l := by
  induction l generalizing r with
  | nil => exact nomatch hr
  | cons x l ih =>
    unfold firstDry at hr
    split at hr
    · exact List.mem_cons_of_mem _ (ih hr)
    · split at hr
      · exact Option.some.inj hr ▸ List.mem_cons_self
      · rename_i hrest
        split at hr
        · exact Option.some.inj hr ▸ List.mem_cons_self
        · split at hr
          · exact Option.some.inj hr ▸ List.mem_cons_of_mem _ (ih hrest)
          · exact Option.some.inj hr ▸ List.mem_cons_self

theorem roundRobin_mem {last k : Nat} {ks : List Nat} (hk : roundRobin last ks = some k) : k ∈ ks :=
  List.contains_iff_mem.mp (List.find?_some hk)

/-- A requester that the arbiter may grant: an engine that wants, or the remote side. -/
def Wants (s : State) (r : Requester) : Prop := (r.1 = 1 ∧ wantsRead s r.2 = true) ∨ (r.1 = 2 ∧ wantsWrite s r.2 = true) ∨ r.1 = 3

theorem wants_of_reader {s : State} {k : Nat} (hk : k ∈ readers s) : Wants s (1, k) := .inl ⟨rfl, (List.mem_filter.mp hk).2⟩

theorem wants_of_writer {s : State} {k : Nat} (hk : k ∈ writers s) : Wants s (2, k) := .inr (.inl ⟨rfl, (List.mem_filter.mp hk).2⟩)

theorem deadlineWinner_wants {s : State} {remote : Bool} {r : Requester} (hr : deadlineWinner s remote = some r) : Wants s r := by
  have hrem : ∀ x ∈ (if remote then [(3, 0)] else [] : List Requester), Wants s x := by
    intro x hx
    split at hx
    · exact List.mem_singleton.mp hx ▸ .inr (.inr rfl)
    · exact absurd hx List.not_mem_nil
  unfold deadlineWinner at hr
  dsimp only at hr
  split at hr
  · exact hrem r (List.mem_of_mem_head? hr)
  · rcases List.mem_append.mp (firstDry_mem hr) with hown | hother
    · rcases List.mem_append.mp hown with hread | hwrite
      · obtain ⟨k, hk, rfl⟩ := List.mem_map.mp hread
        exact wants_of_reader hk
      · obtain ⟨k, hk, rfl⟩ := List.mem_map.mp hwrite
        exact wants_of_writer hk
    · exact hrem r hother

theorem ofClass_wants {s : State} {remote : Bool} {c : Nat} {r : Requester} (hr : ofClass s remote c = some r) : Wants s r := by
  unfold ofClass at hr
  split at hr
  · obtain ⟨k, hk, rfl⟩ := Option.map_eq_some_iff.mp hr
    exact wants_of_reader (roundRobin_mem hk)
  · split at hr
    · obtain ⟨k, hk, rfl⟩ := Option.map_eq_some_iff.mp hr
      exact wants_of_writer (roundRobin_mem hk)
    · split at hr
      · exact Option.some.inj hr ▸ .inr (.inr rfl)
      · exact nomatch hr

theorem winner_wants {s : State} {remote : Bool} {r : Requester} (hr : winner s remote = some r) : Wants s r := by
  unfold winner at hr
  split at hr
  · exact deadlineWinner_wants hr
  · obtain ⟨c, _, hc⟩ := List.exists_of_findSome?_eq_some hr
    exact ofClass_wants hc

/-! ## Issue (R282) -/

/-- A burst more at most on engine k, where it has room; every other engine stands. -/
structure Issued (s s' : State) (k : Nat) : Prop where
  frame : s' = { s with se := s'.se }
  granted : s'.se.granted = s.se.granted
  others : ∀ j, j ≠ k → s'.engine j = s.engine j
  bursts : (s'.engine k).bursts.length ≤ (s.engine k).bursts.length + 1

theorem issued_refl (s : State) (k : Nat) : Issued s s k := ⟨rfl, rfl, fun _ _ => rfl, Nat.le_succ _⟩

theorem issued_setEngine {s : State} {k : Nat} {e : Engine} (hlen : e.bursts.length ≤ (s.engine k).bursts.length + 1) :
    Issued s (s.setEngine k e) k := by
  refine ⟨rfl, rfl, fun j hj => ?_, ?_⟩
  · rw [State.setEngine_engine, if_neg hj]
  · rw [State.setEngine_engine_self]
    exact hlen

theorem issueRead_issues (s : State) (k : Nat) : Issued s (issueRead s k) k := by
  unfold issueRead
  dsimp only
  split
  · exact issued_setEngine (by simp)
  · split
    · exact issued_setEngine (by simp)
    · split
      · exact issued_refl s k
      · exact issued_setEngine (by simp)

theorem issueWrite_issues (s : State) (k : Nat) : Issued s (issueWrite s k) k := by
  unfold issueWrite
  dsimp only
  split
  · exact issued_refl s k
  · exact issued_setEngine (by simp)

/-- The arbiter's own registers after a grant. -/
def slotTaken (s : State) (r : Requester) : State :=
  { s with se := { s.se with
    granted := r
    frameSlot := if byDeadline s then s.se.frameSlot else (s.se.frameSlot + 1) % 64
    rrRd := if r.1 = 1 then r.2 else s.se.rrRd
    rrWr := if r.1 = 2 then r.2 else s.se.rrWr } }

theorem grant_issues (s : State) (r : Requester) : Issued (slotTaken s r) (grant s r) r.2 := by
  have heq : grant s r = if r.1 = 1 then issueRead (slotTaken s r) r.2 else if r.1 = 2 then issueWrite (slotTaken s r) r.2 else slotTaken s r := rfl
  rw [heq]
  split
  · exact issueRead_issues _ _
  · split
    · exact issueWrite_issues _ _
    · exact issued_refl _ _

/-- The winner is granted; every other engine stands. -/
theorem grant_grants (s : State) (r : Requester) : (grant s r).se.granted = r ∧ ∀ j, j ≠ r.2 → (grant s r).engine j = s.engine j :=
  ⟨(grant_issues s r).granted, (grant_issues s r).others⟩

theorem grant_write (s : State) (k : Nat) {us : List WUnit} (hus : nextWrite s (s.engine k) = some us) :
    ((grant s (2, k)).engine k).bursts = (s.engine k).bursts ++ [{ kind := .write us, addr := (us.headD {}).addr }] ∧
    ((grant s (2, k)).engine k).wbuf = (s.engine k).wbuf.drop us.length := by
  have hnext : nextWrite (slotTaken s (2, k)) (s.engine k) = some us := hus
  have heq : grant s (2, k) = issueWrite (slotTaken s (2, k)) k := rfl
  rw [heq]
  unfold issueWrite
  have hengine : (slotTaken s (2, k)).engine k = s.engine k := rfl
  dsimp only
  rw [hengine, hnext]
  dsimp only
  rw [State.setEngine_engine_self]
  exact ⟨rfl, rfl⟩

/-- No engine has more than six bursts outstanding (R282). -/
theorem grant_bursts {s : State} {remote : Bool} {r : Requester} (hr : winner s remote = some r) (k : Nat)
    (hlen : (s.engine k).bursts.length ≤ 6) : ((grant s r).engine k).bursts.length ≤ 6 := by
  have hissue := grant_issues s r
  by_cases hk : k = r.2
  · subst hk
    have hroom (hmay : mayBurst (s.engine r.2) = true) : ((grant s r).engine r.2).bursts.length ≤ 6 :=
      hissue.bursts.trans (of_decide_eq_true hmay)
    rcases winner_wants hr with ⟨_, hread⟩ | ⟨_, hwrite⟩ | hremote
    · exact hroom ((Bool.and_eq_true _ _).mp hread).1
    · exact hroom ((Bool.and_eq_true _ _).mp hwrite).1
    · have hnone : grant s r = slotTaken s r := by
        unfold grant slotTaken
        simp [hremote]
      rw [hnone]
      exact hlen
  · rw [hissue.others k hk]
    exact hlen

theorem burstIssue_shut {s : State} (remote : Bool) (hshut : s.mc.ready = false ∨ s.mc.quiesced = true) : burstIssue s remote = s := by
  refine if_neg fun h => ?_
  rcases hshut with hready | hquiet
  · rw [hready] at h
    exact Bool.false_ne_true h
  · rw [hquiet, Bool.not_true, Bool.and_false] at h
    exact Bool.false_ne_true h

theorem burstIssue_open {s : State} (remote : Bool) (hready : s.mc.ready = true) (hquiet : s.mc.quiesced = false) :
    burstIssue s remote = (winner (fillEngines s) remote).elim (fillEngines s) (grant (fillEngines s)) := by
  unfold burstIssue
  rw [hready, hquiet]
  rw [if_pos (by rfl)]
  generalize fillEngines s = t
  dsimp only
  cases winner t remote <;> rfl

/-- A slot: the stream engines alone change, and none of them beyond its six bursts. -/
theorem burstIssue_bounds (s : State) (remote : Bool) (k : Nat) :
    burstIssue s remote = { s with se := (burstIssue s remote).se } ∧
    ((s.engine k).bursts.length ≤ 6 → ((burstIssue s remote).engine k).bursts.length ≤ 6) := by
  by_cases hshut : s.mc.ready = false ∨ s.mc.quiesced = true
  · rw [burstIssue_shut remote hshut]
    exact ⟨rfl, id⟩
  · obtain ⟨hready, hquiet⟩ := not_or.mp hshut
    rw [burstIssue_open remote (Bool.not_eq_false _ ▸ hready) (Bool.eq_false_iff.mpr hquiet)]
    have hfill := fillEngines_frame s
    have hbursts := (fillEngines_leaves s k).1
    generalize fillEngines s = t at *
    cases hwin : winner t remote with
    | none => exact ⟨hfill, fun hlen => by rw [Option.elim_none, hbursts]; exact hlen⟩
    | some r =>
      refine ⟨?_, fun hlen => grant_bursts hwin k (by rw [hbursts]; exact hlen)⟩
      have hframe := (grant_issues t r).frame
      rw [Option.elim_some, hframe]
      unfold slotTaken
      rw [hfill]

theorem burstIssue_wins {s : State} {remote : Bool} (hready : s.mc.ready = true) (hquiet : s.mc.quiesced = false) {w : Requester}
    (hwin : winner (fillEngines s) remote = some w) : burstIssue s remote = grant (fillEngines s) w := by
  rw [burstIssue_open remote hready hquiet, hwin, Option.elim_some]

theorem burstIssue_none {s : State} {remote : Bool} (hready : s.mc.ready = true) (hquiet : s.mc.quiesced = false)
    (hwin : winner (fillEngines s) remote = none) : burstIssue s remote = fillEngines s := by
  rw [burstIssue_open remote hready hquiet, hwin, Option.elim_none]

/-- An engine that wins the slot for a write issues its units (R276, R282). -/
theorem burstIssue_writes {s : State} {remote : Bool} {k : Nat} {us : List WUnit} (hready : s.mc.ready = true) (hquiet : s.mc.quiesced = false)
    (hwin : winner (fillEngines s) remote = some (2, k)) (hus : nextWrite (fillEngines s) ((fillEngines s).engine k) = some us) :
    ((burstIssue s remote).engine k).bursts = (s.engine k).bursts ++ [{ kind := .write us, addr := (us.headD {}).addr }] ∧
    ((burstIssue s remote).engine k).wbuf = (s.engine k).wbuf.drop us.length := by
  obtain ⟨hfill, hbuf⟩ := fillEngines_leaves s k
  rw [burstIssue_wins hready hquiet hwin, ← hfill, ← hbuf]
  exact grant_write (fillEngines s) k hus

/-! ## Bursts that end (R282, R291) -/

/-- The state once the oldest burst of engine k has left its list. -/
def burstTaken (s : State) (k : Nat) (r : List Burst) : State := s.setEngine k { s.engine k with bursts := r }

theorem burstTaken_engine (s : State) (k : Nat) (r : List Burst) : (burstTaken s k r).engine k = { s.engine k with bursts := r } :=
  State.setEngine_engine_self _ _ _

theorem burstTaken_others (s : State) {k j : Nat} (r : List Burst) (hj : j ≠ k) : (burstTaken s k r).engine j = s.engine j := by
  unfold burstTaken
  rw [State.setEngine_engine, if_neg hj]

theorem burstComplete_good {s : State} {k : Nat} {b : Burst} {r : List Burst} (hb : (s.engine k).bursts = b :: r) (a : Nat) :
    burstComplete s k .good a = finishBurst (burstTaken s k r) k b := by
  unfold burstComplete
  dsimp only
  rw [hb]
  obtain ⟨kind, addr⟩ := b
  cases kind <;> rfl

theorem burstComplete_write {s : State} {k : Nat} {us : List WUnit} {a0 : Nat} {r : List Burst}
    (hb : (s.engine k).bursts = { kind := .write us, addr := a0 } :: r) (h : UnitHealth) (a : Nat) :
    burstComplete s k h a = finishBurst (burstTaken s k r) k { kind := .write us, addr := a0 } := by
  unfold burstComplete
  dsimp only
  rw [hb]
  cases h <;> rfl

/-- The units of a write burst stored in order. -/
def unitsStored (s : State) (us : List WUnit) : State := us.foldl (fun s u => putUnit s u.addr u.pay u.side) s

theorem payBytes_length (p : BitVec 128) : (payBytes p).length = 16 := rfl

theorem unitsStored_stores (us : List WUnit) (s : State) : unitsStored s us = { s with mc := (unitsStored s us).mc } ∧
    ∀ x, (∀ u ∈ us, x < u.addr ∨ u.addr + 16 ≤ x) → memGet (unitsStored s us).mc.mem x = memGet s.mc.mem x := by
  induction us generalizing s with
  | nil => exact ⟨rfl, fun _ _ => rfl⟩
  | cons u us ih =>
    obtain ⟨hframe, hmem⟩ := ih (putUnit s u.addr u.pay u.side)
    refine ⟨hframe, fun x hx => (hmem x fun v hv => hx v (List.mem_cons_of_mem _ hv)).trans ?_⟩
    exact memGet_memWrite_outside (payBytes u.pay) s.mc.mem u.addr x (hx u List.mem_cons_self)

theorem memRead_getElem (m : List Host.Cell) (a n i : Nat) (hi : i < (memRead m a n).length) : (memRead m a n)[i] = memGet m (a + i) := by
  induction n generalizing a i with
  | zero => exact absurd hi (Nat.not_lt_zero i)
  | succ n ih =>
    cases i with
    | zero => rfl
    | succ i => exact (ih (a + 1) i (Nat.lt_of_succ_lt_succ hi)).trans (congrArg (memGet m) (by omega))

theorem memRead_length (m : List Host.Cell) (a n : Nat) : (memRead m a n).length = n := by
  induction n generalizing a with
  | zero => rfl
  | succ n ih => exact congrArg Nat.succ (ih (a + 1))

theorem memRead_memWrite_same (m : List Host.Cell) (a : Nat) (bs : List Byte) : memRead (memWrite m a bs) a bs.length = bs := by
  refine List.ext_getElem (memRead_length _ _ _) fun i _ hi => ?_
  rw [memRead_getElem]
  exact memGet_memWrite_inside bs m a i hi

theorem putUnit_stores (s : State) (a : Nat) (pay : BitVec 128) (side : BitVec 5) :
    memRead (putUnit s a pay side).mc.mem a 16 = payBytes pay ∧ mget 0 (putUnit s a pay side).mc.side (a / 16) = side :=
  ⟨memRead_memWrite_same s.mc.mem a (payBytes pay), mget_mset_self 0 s.mc.side (a / 16) side⟩

theorem acceptUnits_open {s : State} {us : List WUnit} (hus : ∀ u ∈ us, memKept s u.addr 16 = false) : acceptUnits s us = unitsStored s us := by
  have hkept : us.filter (fun u => memKept s u.addr 16) = [] := List.filter_eq_nil_iff.mpr fun u hu => by rw [hus u hu]; exact Bool.false_ne_true
  have hall : us.filter (fun u => !memKept s u.addr 16) = us := List.filter_eq_self.mpr fun u hu => by rw [hus u hu]; rfl
  unfold acceptUnits
  dsimp only
  rw [hkept, hall]
  rfl

/-- What a write burst of engine k leaves of it: the capture ring's pointers move by its rows. -/
def ringMoved (e : Engine) (us : List WUnit) : Engine :=
  let adv := (us.map fun u => u.adv).sum
  { e with rwp := e.rwp + BitVec.ofNat 32 adv, capQueued := e.capQueued - adv }

theorem finishBurst_write (s : State) (k a0 : Nat) (us : List WUnit) :
    finishBurst s k { kind := .write us, addr := a0 } = (acceptUnits s us).setEngine k (ringMoved (s.engine k) us) := rfl

/-- A write burst of units that nothing keeps from the engines: stored, and nothing else (R237, R276). -/
theorem writeBurst_stores {s : State} {k : Nat} {us : List WUnit} {a0 : Nat} {r : List Burst}
    (hb : (s.engine k).bursts = { kind := .write us, addr := a0 } :: r) (hopen : ∀ u ∈ us, memKept s u.addr 16 = false) (h : UnitHealth) (a : Nat) :
    let s' := burstComplete s k h a
    (s'.engine k).bursts = r ∧ (∀ j, j ≠ k → s'.engine j = s.engine j) ∧ s' = { s with se := s'.se, mc := s'.mc } ∧
      (∀ x, (∀ u ∈ us, x < u.addr ∨ u.addr + 16 ≤ x) → memGet s'.mc.mem x = memGet s.mc.mem x) ∧
      ∀ u, us = [u] → memRead s'.mc.mem u.addr 16 = payBytes u.pay ∧ mget 0 s'.mc.side (u.addr / 16) = u.side := by
  have haccept : acceptUnits (burstTaken s k r) us = unitsStored (burstTaken s k r) us := acceptUnits_open hopen
  have heq : burstComplete s k h a = (unitsStored (burstTaken s k r) us).setEngine k (ringMoved ((burstTaken s k r).engine k) us) := by
    rw [burstComplete_write hb, finishBurst_write, haccept]
  obtain ⟨hframe, hmem⟩ := unitsStored_stores us (burstTaken s k r)
  have hengines (j : Nat) : (unitsStored (burstTaken s k r) us).engine j = (burstTaken s k r).engine j := by rw [hframe]; rfl
  dsimp only
  rw [heq]
  refine ⟨?_, fun j hj => ?_, ?_, hmem, fun u hu => ?_⟩
  · rw [State.setEngine_engine_self, burstTaken_engine]
    rfl
  · rw [State.setEngine_engine, if_neg hj, hengines, burstTaken_others s r hj]
  · rw [hframe]
    rfl
  · subst hu
    exact putUnit_stores (burstTaken s k r) u.addr u.pay u.side

theorem violate_records (s : State) (v : Violation) :
    (violate s v).glb.violCode = BitVec.ofNat 16 v.code ∧ (violate s v).glb.violAddr = BitVec.ofNat 36 v.addr := by
  unfold violate
  dsimp only
  rw [event_glb]
  exact ⟨rfl, rfl⟩

/-- A unit in memory that R237 keeps from the engines is dropped and logged. -/
theorem writeBurst_kept {s : State} {k : Nat} {u : WUnit} {a0 : Nat} {r : List Burst}
    (hb : (s.engine k).bursts = { kind := .write [u], addr := a0 } :: r) (hkept : memKept s u.addr 16 = true) (h : UnitHealth) (a : Nat) :
    let s' := burstComplete s k h a
    (s'.engine k).bursts = r ∧ s'.mc = s.mc ∧ s'.glb.violCode = 0x0104 ∧ s'.glb.violAddr = BitVec.ofNat 36 u.addr := by
  have hfilter : [u].filter (fun u => memKept (burstTaken s k r) u.addr 16) = [u] := by
    rw [List.filter_cons]
    exact if_pos hkept
  have hnone : [u].filter (fun u => !memKept (burstTaken s k r) u.addr 16) = [] := by
    rw [List.filter_cons]
    exact if_neg (by rw [show memKept (burstTaken s k r) u.addr 16 = true from hkept]; exact Bool.false_ne_true)
  have haccept : acceptUnits (burstTaken s k r) [u] =
      violate (burstTaken s k r) { code := 0x0104, addr := u.addr, req := 0, space := 2, write := true, ndw := 4 } := by
    unfold acceptUnits
    rw [hfilter, hnone]
    rfl
  have heq := (burstComplete_write hb h a).trans (finishBurst_write (burstTaken s k r) k a0 [u])
  rw [haccept] at heq
  have hmc := violate_mc (burstTaken s k r) { code := 0x0104, addr := u.addr, req := 0, space := 2, write := true, ndw := 4 }
  have hglb := violate_records (burstTaken s k r) { code := 0x0104, addr := u.addr, req := 0, space := 2, write := true, ndw := 4 }
  dsimp only
  rw [heq, State.setEngine_engine_self, burstTaken_engine]
  exact ⟨rfl, hmc, hglb⟩

/-- A read burst fills its engine's buffer (R276). -/
theorem readBurst_fills {s : State} {k n a0 : Nat} {f : Bool} {r : List Burst}
    (hb : (s.engine k).bursts = { kind := .read n 0 f, addr := a0 } :: r) (a : Nat) :
    let s' := burstComplete s k .good a
    (s'.engine k).bursts = r ∧ s' = { s with se := s'.se } ∧
      (s'.engine k).rbuf = (s.engine k).rbuf ++ (List.range n).map fun i => unitToken s (a0 + 16 * i) := by
  have heq : burstComplete s k .good a = (burstTaken s k r).setEngine k { (burstTaken s k r).engine k with
      rbuf := ((burstTaken s k r).engine k).rbuf ++ (List.range n).map fun i => unitToken s (a0 + 16 * i) } :=
    (burstComplete_good hb a).trans rfl
  dsimp only
  rw [heq, State.setEngine_engine_self, burstTaken_engine]
  exact ⟨rfl, rfl, rfl⟩

/-- An uncorrectable unit aborts the task; its burst brings nothing (R291). -/
theorem readBurst_aborts {s : State} {k n a0 : Nat} {f : Bool} {r : List Burst}
    (hb : (s.engine k).bursts = { kind := .read n 0 f, addr := a0 } :: r) (a : Nat) :
    let s' := burstComplete s k .uncorrectable a
    s'.pace.state = .aborted ∧ s'.mc.uecnt = satInc s.mc.uecnt ∧ s'.mc.mem = s.mc.mem ∧ (s'.engine k).rbuf = (s.engine k).rbuf := by
  have heq : ∃ u v, burstComplete s k .uncorrectable a = event (uncorrectable1 (burstTaken s k r) u) 0x0701 v := by
    unfold burstComplete
    dsimp only
    rw [hb]
    exact ⟨_, _, rfl⟩
  obtain ⟨u, v, heq⟩ := heq
  have hse : (event (uncorrectable1 (burstTaken s k r) u) 0x0701 v).se = (burstTaken s k r).se := event_se _ _ _
  have hengine : (event (uncorrectable1 (burstTaken s k r) u) 0x0701 v).engine k = (burstTaken s k r).engine k :=
    congrArg (fun x : Se => mget ({} : Engine) x.eng k) hse
  dsimp only
  rw [heq, hengine, burstTaken_engine, event_mc]
  exact ⟨event_aborts _ _ _ (by decide), rfl, rfl, rfl⟩

/-- Descriptors of the list that they belong to (R276). -/
theorem descBurst_counts {s : State} {k a0 : Nat} {w : Bool} {r : List Burst}
    (hb : (s.engine k).bursts = { kind := .desc w, addr := a0 } :: r) (a : Nat) :
    let s' := burstComplete s k .good a
    (s'.engine k).descFetched = (if w then (s.engine k).descFetched else (s.engine k).descFetched + 8) ∧
      (s'.engine k).wdescFetched = (if w then (s.engine k).wdescFetched + 8 else (s.engine k).wdescFetched) := by
  have heq : burstComplete s k .good a = (burstTaken s k r).setEngine k (if w then
      { (burstTaken s k r).engine k with wdescFetched := ((burstTaken s k r).engine k).wdescFetched + 8 }
      else { (burstTaken s k r).engine k with descFetched := ((burstTaken s k r).engine k).descFetched + 8 }) :=
    (burstComplete_good hb a).trans rfl
  dsimp only
  rw [heq, State.setEngine_engine_self, burstTaken_engine]
  cases w <;> exact ⟨rfl, rfl⟩

/-! ## Tokens for the write path (R277, R278) -/

theorem sideOf_toNat (u : Token) : (sideOf u).toNat = u.bseq.toNat + 16 * b2n u.bub := by
  have hseq := u.bseq.isLt
  have hbub : b2n u.bub ≤ 1 := by cases u.bub <;> decide
  unfold sideOf
  rw [BitVec.toNat_ofNat]
  omega

theorem engineReceive_live {s : State} {k : Nat} {u : Token} {r : List Token} (hhead : (s.edge (65 + 2 * k)).outSlots = u :: r)
    (hlive : edgeLive s (65 + 2 * k) = true) (hquota : (s.edge (65 + 2 * k)).outCnt < (s.edge (65 + 2 * k)).ctxCfg.quota 4) :
    (tokParOk u = false → engineReceive s k = outwardParity s (65 + 2 * k) u) ∧
    ∀ d, tokParOk u = true → writeDesc (s.engine k) = some d → writeRoom (s.engine k) = true → (s.engine k).wwalk.d < (s.engine k).wdescFetched →
      (s.engine k).wlist.cmp = 0 → (s.engine k).discardRow = false → rowNoFit (s.engine k) = false →
      engineReceive s k = popOutward (s.setEngine k (writeToken (s.engine k) d u)) (65 + 2 * k) u := by
  have hcond : (edgeLive s (65 + 2 * k) && decide ((s.edge (65 + 2 * k)).outCnt < (s.edge (65 + 2 * k)).ctxCfg.quota 4)) = true := by
    rw [hlive, decide_eq_true hquota]
    rfl
  unfold engineReceive
  dsimp only
  rw [hhead, List.head?_cons]
  dsimp only
  rw [if_pos hcond]
  refine ⟨fun hbad => by rw [hbad]; rfl, fun d hgood hdesc hroom hfetched hcmp hdiscard hfit => ?_⟩
  have htag : tagFault (s.engine k) u = none := by
    unfold tagFault
    rw [hcmp]
    rfl
  have hopen : ¬ (!writeRoom (s.engine k) || decide ((s.engine k).wdescFetched ≤ (s.engine k).wwalk.d)) = true := by
    rw [hroom, decide_eq_false (by omega)]
    exact Bool.false_ne_true
  have hstore : storeToken s k u = s.setEngine k (writeToken (s.engine k) d u) := by
    unfold storeToken
    dsimp only
    rw [hdesc]
    dsimp only
    rw [hdiscard, hfit]
    rfl
  rw [hgood, hdesc]
  dsimp only
  rw [if_neg (by exact Bool.false_ne_true), if_neg hopen, htag, hstore]

theorem edgeLive_running {s : State} {x : Nat} (hlive : edgeLive s x = true) : (s.edge x).parked = false := by
  unfold edgeLive at hlive
  simp only [Bool.and_eq_true, Bool.not_eq_true'] at hlive
  exact hlive.1.2

/-- A token with no compression and no capture ring is one unit at its row's address (R277). -/
theorem writeToken_plain {e : Engine} {d : StreamDesc} (u : Token) (hcmp : e.wlist.cmp = 0) :
    ∃ w, (writeToken e d u).wbuf = e.wbuf ++ [w] ∧ w.pay = u.payload ∧ w.side.toNat = u.bseq.toNat + 16 * b2n u.bub ∧
      (d.cap = false → w.addr = ((d.addr : Int) + e.wwalk.row * d.pitch + (16 * e.wwalk.u : Nat)).toNat) := by
  unfold writeToken
  dsimp only
  rw [if_pos hcmp]
  refine ⟨_, rfl, rfl, sideOf_toNat u, fun hcap => ?_⟩
  unfold writeAddr
  rw [hcap]
  rfl

theorem engineReceive_writes {s : State} (k : Fin 16) {u : Token} {r : List Token} {d : StreamDesc}
    (hhead : (s.edge (65 + 2 * k)).outSlots = u :: r) (hlive : edgeLive s (65 + 2 * k) = true)
    (hquota : (s.edge (65 + 2 * k)).outCnt < (s.edge (65 + 2 * k)).ctxCfg.quota 4) (hcmp : (s.engine k).wlist.cmp = 0) :
    let s' := popOutward (s.setEngine k (writeToken (s.engine k) d u)) (65 + 2 * k) u
    (s'.edge (65 + 2 * k)).outSlots = r ∧ (s'.edge (65 + 2 * k)).outCnt = (s.edge (65 + 2 * k)).outCnt + 1 ∧
      s' = { s with se := s'.se, edges := s'.edges } ∧
      ∃ w, (s'.engine k).wbuf = (s.engine k).wbuf ++ [w] ∧ w.pay = u.payload ∧ w.side.toNat = u.bseq.toNat + 16 * b2n u.bub ∧
        (d.cap = false → w.addr = ((d.addr : Int) + (s.engine k).wwalk.row * d.pitch + (16 * (s.engine k).wwalk.u : Nat)).toNat) := by
  have hk := k.isLt
  obtain ⟨houts, hcnt, _, _⟩ := popOutward_edge (s := s.setEngine k (writeToken (s.engine k) d u)) (e := ⟨65 + 2 * k, by omega⟩) u
    (edgeLive_running hlive) hquota hhead
  have hengine : (popOutward (s.setEngine k (writeToken (s.engine k) d u)) (65 + 2 * k) u).engine k = writeToken (s.engine k) d u :=
    State.setEngine_engine_self s k _
  refine ⟨houts, hcnt, rfl, ?_⟩
  rw [hengine]
  exact writeToken_plain u hcmp

/-- Settles O59: a burst slot by its winner, a burst's end by its kind, and a token that the write path takes. -/
theorem streamEngines : Obligations.StreamEngines := by
  unfold Obligations.StreamEngines
  intro s remote k h a e
  refine ⟨?_, ?_, ?_, ?_, ?_, ?_⟩
  · obtain ⟨hframe, hbursts⟩ := burstIssue_bounds s remote k
    refine ⟨_, rfl, hframe, hbursts, burstIssue_shut remote, fun hready hquiet => ⟨burstIssue_none hready hquiet, fun w hwin => ?_, fun us hwin hus => ?_⟩⟩
    · rw [burstIssue_wins hready hquiet hwin]
      exact grant_grants (fillEngines s) w
    · exact burstIssue_writes hready hquiet hwin hus
  · exact fun u a0 r hb hkept => ⟨_, rfl, writeBurst_kept hb hkept h a⟩
  · exact fun us a0 r hb hopen => ⟨_, rfl, writeBurst_stores hb hopen h a⟩
  · exact fun n f a0 r hb => ⟨⟨_, rfl, readBurst_fills hb a⟩, ⟨_, rfl, readBurst_aborts hb a⟩⟩
  · exact fun w a0 r hb => ⟨_, rfl, descBurst_counts hb a⟩
  · intro x g u r hhead hlive hquota
    obtain ⟨hbad, hgood⟩ := engineReceive_live hhead hlive hquota
    refine ⟨fun hpar => ⟨_, rfl, ?_, ?_⟩, fun hpar d hdesc hroom hfetched hcmp hdiscard hfit => ⟨_, rfl, ?_⟩⟩
    · rw [hbad hpar]
      exact event_aborts _ 0x0401 _ (by decide)
    · rw [hbad hpar]
      exact event_se _ _ _
    · rw [hgood d hpar hdesc hroom hfetched hcmp hdiscard hfit]
      exact engineReceive_writes k hhead hlive hquota hcmp

end Sys2Proof.Claims
end

section
/-! SUPPORT. O35: sparse arrays built from lists, and what the loader's arrays read. -/

namespace Sys2Proof.Claims

open Sys2Proof Sys2Proof.Machine

/-! ## Sparse arrays -/

section
variable {α : Type} {d : α}

/-- A list of entries gives key k the value v: no entry gives it another, and one gives it where v is not the default. -/
def Gives (d : α) (m : AMap α) (k : Nat) (v : α) : Prop := (∀ w, (k, w) ∈ m → w = v) ∧ (v ≠ d → (k, v) ∈ m)

theorem mget_of_gives {m : AMap α} {k : Nat} {v : α} (h : Gives d m k v) : mget d m k = v := by
  induction m with
  | nil =>
    by_contra hne
    exact absurd (h.2 fun heq => hne heq.symm) List.not_mem_nil
  | cons x m ih =>
    obtain ⟨i, w⟩ := x
    unfold mget
    split
    · rename_i hi
      exact h.1 w (by rw [hi]; exact List.mem_cons_self)
    · rename_i hi
      refine ih ⟨fun u hu => h.1 u (List.mem_cons_of_mem _ hu), fun hv => ?_⟩
      rcases List.mem_cons.mp (h.2 hv) with heq | hin
      · exact absurd (congrArg Prod.fst heq).symm hi
      · exact hin

theorem gives_sparse [DecidableEq α] {m : AMap α} {k : Nat} {v : α} (h : Gives d m k v) : Gives d (sparse d m) k v :=
  ⟨fun w hw => h.1 w (List.mem_filter.mp hw).1, fun hv => List.mem_filter.mpr ⟨h.2 hv, decide_eq_true hv⟩⟩

/-- The entries of a range, one for each key. -/
theorem gives_range (n : Nat) (f : Nat → α) {k : Nat} (hk : k < n) : Gives d ((List.range n).map fun i => (i, f i)) k (f k) := by
  refine ⟨fun w hw => ?_, fun _ => List.mem_map.mpr ⟨k, List.mem_range.mpr hk, rfl⟩⟩
  obtain ⟨i, _, heq⟩ := List.mem_map.mp hw
  obtain ⟨rfl, rfl⟩ := Prod.mk.inj heq
  rfl

theorem mget_sparse_range [DecidableEq α] (n : Nat) (f : Nat → α) {k : Nat} (hk : k < n) :
    mget d (sparse d ((List.range n).map fun i => (i, f i))) k = f k := mget_of_gives (gives_sparse (gives_range n f hk))

theorem mget_append_of_mem {m q : AMap α} {k : Nat} (hk : ∃ v, (k, v) ∈ m) : mget d (m ++ q) k = mget d m k := by
  induction m with
  | nil => exact absurd hk.choose_spec List.not_mem_nil
  | cons x m ih =>
    obtain ⟨i, w⟩ := x
    rw [List.cons_append]
    unfold mget
    split
    · rfl
    · rename_i hi
      obtain ⟨v, hv⟩ := hk
      rcases List.mem_cons.mp hv with heq | hin
      · exact absurd (congrArg Prod.fst heq).symm hi
      · exact ih ⟨v, hin⟩

theorem mget_append_of_not_mem {m q : AMap α} {k : Nat} (hk : ∀ v, (k, v) ∉ m) : mget d (m ++ q) k = mget d q k := by
  induction m with
  | nil => rfl
  | cons x m ih =>
    obtain ⟨i, w⟩ := x
    rw [List.cons_append]
    have hcons : mget d ((i, w) :: (m ++ q)) k = if i = k then w else mget d (m ++ q) k := rfl
    rw [hcons]
    split
    · rename_i hi
      exact absurd (by rw [hi]; exact List.mem_cons_self) (hk w)
    · exact ih fun v hv => hk v (List.mem_cons_of_mem _ hv)

theorem mget_not_mem {m : AMap α} {k : Nat} (hk : ∀ v, (k, v) ∉ m) : mget d m k = d :=
  mget_of_gives ⟨fun w hw => absurd hw (hk w), fun h => absurd rfl h⟩

/-- A key that one part alone of a list of parts can hold reads as in that part. -/
theorem mget_flatMap {β : Type} (f : β → AMap α) (l : List β) {x : β} {k : Nat} (hx : x ∈ l) (hothers : ∀ y ∈ l, y ≠ x → ∀ v, (k, v) ∉ f y) :
    mget d (l.flatMap f) k = mget d (f x) k := by
  induction l with
  | nil => exact absurd hx List.not_mem_nil
  | cons y l ih =>
    rw [List.flatMap_cons]
    by_cases hin : ∃ v, (k, v) ∈ f y
    · have hy : y = x := by
        by_contra hne
        exact hothers y List.mem_cons_self hne hin.choose hin.choose_spec
      rw [mget_append_of_mem hin, hy]
    · have hnone : ∀ v, (k, v) ∉ f y := not_exists.mp hin
      rw [mget_append_of_not_mem hnone]
      by_cases hmem : x ∈ l
      · exact ih hmem fun z hz => hothers z (List.mem_cons_of_mem _ hz)
      · have hy : x = y := (List.mem_cons.mp hx).resolve_right hmem
        have hrest : ∀ v, (k, v) ∉ l.flatMap f := by
          intro v hv
          obtain ⟨z, hz, hzv⟩ := List.mem_flatMap.mp hv
          refine hothers z (List.mem_cons_of_mem _ hz) ?_ v hzv
          rintro rfl
          exact hmem hz
        rw [mget_not_mem hrest, hy, mget_not_mem hnone]

/-- Values changed entry by entry. -/
theorem mget_map {β : Type} {e : β} (f : α → β) (hf : f d = e) (m : AMap α) (k : Nat) :
    mget e (m.map fun x => (x.1, f x.2)) k = f (mget d m k) := by
  induction m with
  | nil => exact hf.symm
  | cons x m ih =>
    obtain ⟨i, w⟩ := x
    rw [List.map_cons]
    unfold mget
    split
    · rfl
    · exact ih

end

/-! ## The bytes of a store's records (R244) -/

/-- The entries that one record writes. -/
def recEntries (r : MemRec) : AMap Byte := r.bytes.zipIdx.map fun b => (r.off + b.2, b.1)

theorem mem_recEntries {r : MemRec} {a : Nat} {v : Byte} :
    (a, v) ∈ recEntries r ↔ r.off ≤ a ∧ r.bytes[a - r.off]? = some v := by
  unfold recEntries
  rw [List.mem_map]
  constructor
  · rintro ⟨⟨w, i⟩, hin, heq⟩
    obtain ⟨rfl, rfl⟩ := Prod.mk.inj heq
    refine ⟨Nat.le_add_right _ _, ?_⟩
    rw [Nat.add_sub_cancel_left]
    exact List.mem_zipIdx_iff_getElem?.mp hin
  · rintro ⟨hle, hget⟩
    exact ⟨(v, a - r.off), List.mem_zipIdx_iff_getElem?.mpr hget, Prod.ext (Nat.add_sub_cancel' hle) rfl⟩

theorem recEntries_bounds {r : MemRec} {a : Nat} {v : Byte} (h : (a, v) ∈ recEntries r) : r.off ≤ a ∧ a < r.off + r.bytes.length := by
  obtain ⟨hle, hget⟩ := mem_recEntries.mp h
  obtain ⟨hlt, _⟩ := List.getElem?_eq_some_iff.mp hget
  exact ⟨hle, by omega⟩

/-- Two records of a store whose records are apart that both hold an address are one. -/
theorem eq_of_apart {rs : List MemRec} (hrs : apart rs) {r q : MemRec} (hr : r ∈ rs) (hq : q ∈ rs) {a : Nat}
    (har : r.off ≤ a ∧ a < r.off + r.bytes.length) (haq : q.off ≤ a ∧ a < q.off + q.bytes.length) : r = q := by
  by_contra hne
  have hsymm : Std.Symm fun r q : MemRec => r.off + r.bytes.length ≤ q.off ∨ q.off + q.bytes.length ≤ r.off := ⟨fun _ _ h => h.symm⟩
  have h := List.Pairwise.forall hrs hr hq hne
  omega

/-- The bytes of a store whose records are apart, address by address. -/
theorem gives_records {rs : List MemRec} (hrs : apart rs) (a : Nat) :
    Gives 0 ((sortBy (fun r => r.off) rs).flatMap recEntries) a (byteIn rs a) := by
  have hmem (v : Byte) : (a, v) ∈ (sortBy (fun r => r.off) rs).flatMap recEntries ↔ ∃ r ∈ rs, (a, v) ∈ recEntries r := by
    rw [List.mem_flatMap]
    exact exists_congr fun r => and_congr_left' (mem_sortBy _ _ _)
  unfold byteIn
  cases hfind : rs.find? fun r => decide (r.off ≤ a) && decide (a < r.off + r.bytes.length) with
  | none =>
    refine ⟨fun w hw => ?_, fun h => absurd rfl h⟩
    obtain ⟨r, hr, hw⟩ := (hmem w).mp hw
    obtain ⟨hle, hlt⟩ := recEntries_bounds hw
    have hnot := List.find?_eq_none.mp hfind r hr
    rw [decide_eq_true hle, decide_eq_true hlt] at hnot
    exact absurd rfl hnot
  | some q =>
    have hq := List.mem_of_find?_eq_some hfind
    have hholds := List.find?_some hfind
    simp only [Bool.and_eq_true, decide_eq_true_eq] at hholds
    have hlt : a - q.off < q.bytes.length := by omega
    have hget : q.bytes[a - q.off]? = some (q.bytes.getD (a - q.off) 0) := by
      rw [List.getElem?_eq_getElem hlt, List.getD_eq_getElem _ _ hlt]
    refine ⟨fun w hw => ?_, fun _ => (hmem _).mpr ⟨q, hq, mem_recEntries.mpr ⟨hholds.1, hget⟩⟩⟩
    obtain ⟨r, hr, hw⟩ := (hmem w).mp hw
    have hrq := eq_of_apart hrs hr hq (recEntries_bounds hw) hholds
    subst hrq
    exact Option.some.inj ((mem_recEntries.mp hw).2.symm.trans hget)

theorem mget_storeBytes {rs : List MemRec} (hrs : apart rs) (a : Nat) : mget 0 (storeBytes rs) a = byteIn rs a :=
  mget_of_gives (gives_sparse (gives_records hrs a))

/-! ## Bytes gathered to units -/

/-- Keys that ascend strictly. -/
def Ascending {α : Type} (m : AMap α) : Prop := m.Pairwise fun x y => x.1 < y.1

theorem pairwise_insertBy {α : Type} (key : α → Nat) (x : α) {l : List α} (hl : l.Pairwise fun a b => key a ≤ key b) :
    (insertBy key x l).Pairwise fun a b => key a ≤ key b := by
  induction l with
  | nil => exact List.pairwise_singleton _ _
  | cons y l ih =>
    obtain ⟨hy, hrest⟩ := List.pairwise_cons.mp hl
    unfold insertBy
    split
    · rename_i hxy
      exact List.pairwise_cons.mpr ⟨fun z hz => (List.mem_cons.mp hz).elim (fun h => h ▸ hxy) fun h => hxy.trans (hy z h), hl⟩
    · rename_i hxy
      refine List.pairwise_cons.mpr ⟨fun z hz => ?_, ih hrest⟩
      rcases (mem_insertBy _ _ _ _).mp hz with rfl | hin
      · exact Nat.le_of_not_le hxy
      · exact hy z hin

theorem pairwise_sortBy {α : Type} (key : α → Nat) (l : List α) : (sortBy key l).Pairwise fun a b => key a ≤ key b := by
  induction l with
  | nil => exact List.Pairwise.nil
  | cons x l ih => exact pairwise_insertBy key x ih

theorem perm_insertBy {α : Type} (key : α → Nat) (x : α) (l : List α) : (insertBy key x l).Perm (x :: l) := by
  induction l with
  | nil => exact List.Perm.refl _
  | cons y l ih =>
    unfold insertBy
    split
    · exact List.Perm.refl _
    · exact (ih.cons y).trans (List.Perm.swap x y l)

theorem perm_sortBy {α : Type} (key : α → Nat) (l : List α) : (sortBy key l).Perm l := by
  induction l with
  | nil => exact List.Perm.refl _
  | cons x l ih => exact (perm_insertBy key x _).trans (ih.cons x)

theorem ascending_recEntries (r : MemRec) : Ascending (recEntries r) := by
  unfold Ascending recEntries
  rw [List.pairwise_map, List.pairwise_iff_getElem]
  intro i j hi hj hij
  simp only [List.getElem_zipIdx]
  omega

theorem ascending_storeBytes {rs : List MemRec} (hrs : apart rs) : Ascending (storeBytes rs) := by
  have hsymm : Std.Symm fun r q : MemRec => r.off + r.bytes.length ≤ q.off ∨ q.off + q.bytes.length ≤ r.off := ⟨fun _ _ h => h.symm⟩
  have hapart : apart (sortBy (fun r => r.off) rs) := (List.Perm.pairwise_iff (fun {_ _} h => h.symm) (perm_sortBy _ _)).mpr hrs
  refine List.Pairwise.filter _ (List.pairwise_flatMap.mpr ⟨fun r _ => ascending_recEntries r, ?_⟩)
  refine ((pairwise_sortBy _ _).and hapart).imp fun {r q} h x hx y hy => ?_
  have hxr := recEntries_bounds (a := x.1) (v := x.2) hx
  have hyq := recEntries_bounds (a := y.1) (v := y.2) hy
  omega

/-- The little-endian number of the bytes of unit i. -/
def unitNum (k : Nat) (m : AMap Byte) (i : Nat) : Nat := leNat ((List.range k).map fun j => mget 0 m (k * i + j))

theorem leNat_append (l : List Byte) (b : Byte) : leNat (l ++ [b]) = leNat l + b.toNat * 256 ^ l.length := by
  induction l with
  | nil => simp [leNat]
  | cons c l ih =>
    rw [List.cons_append, leNat, leNat, ih, List.length_cons]
    ring

theorem leNat_range (k : Nat) (f : Nat → Byte) : leNat ((List.range k).map f) = ∑ j ∈ Finset.range k, (f j).toNat * 256 ^ j := by
  induction k with
  | zero => rfl
  | succ k ih =>
    rw [List.range_succ, List.map_append, List.map_singleton, leNat_append, ih, Finset.sum_range_succ, List.length_map, List.length_range]

/-- One byte more, where none stood, counts in its unit alone. -/
theorem unitNum_cons {k : Nat} (hk : 0 < k) {m : AMap Byte} {a : Nat} (hfree : mget 0 m a = 0) (b : Byte) (i : Nat) :
    unitNum k ((a, b) :: m) i = unitNum k m i + if i = a / k then b.toNat * 256 ^ (a % k) else 0 := by
  have hsplit : ∀ j ∈ Finset.range k, (mget 0 ((a, b) :: m) (k * i + j)).toNat * 256 ^ j =
      (mget 0 m (k * i + j)).toNat * 256 ^ j + if j = a % k then (if i = a / k then b.toNat * 256 ^ (a % k) else 0) else 0 := by
    intro j hj
    have hlt := Finset.mem_range.mp hj
    have hcons : mget 0 ((a, b) :: m) (k * i + j) = if a = k * i + j then b else mget 0 m (k * i + j) := rfl
    rw [hcons]
    by_cases heq : a = k * i + j
    · have hmod : a % k = j := by rw [heq, Nat.mul_add_mod, Nat.mod_eq_of_lt hlt]
      have hdiv : a / k = i := by rw [heq, Nat.mul_add_div hk, Nat.div_eq_of_lt hlt, Nat.add_zero]
      rw [if_pos heq, hmod, hdiv, if_pos rfl, if_pos rfl, ← heq, hfree]
      simp
    · rw [if_neg heq]
      by_cases hj : j = a % k
      · have hi : i ≠ a / k := by
          rintro rfl
          exact heq (by rw [hj, Nat.div_add_mod])
        rw [if_pos hj, if_neg hi, Nat.add_zero]
      · rw [if_neg hj, Nat.add_zero]
  unfold unitNum
  rw [leNat_range, leNat_range, Finset.sum_congr rfl hsplit, Finset.sum_add_distrib, Finset.sum_ite_eq' (Finset.range k) (a % k),
    if_pos (Finset.mem_range.mpr (Nat.mod_lt a hk))]

/-- The units that a list of bytes makes after its first: the byte joins the first unit where it is the same. -/
theorem gather_cons (k a : Nat) (b : Byte) (r : AMap Byte) : gather k ((a, b) :: r) =
    (match gather k r with
     | (i, w) :: q => if i = a / k then (i, w + b.toNat * 256 ^ (a % k)) :: q else (a / k, b.toNat * 256 ^ (a % k)) :: (i, w) :: q
     | [] => [(a / k, b.toNat * 256 ^ (a % k))]) := rfl

/-- Bytes in ascending order, gathered: the units ascend, none below the first byte's, each the number of its bytes. -/
theorem gather_gathers {k : Nat} (hk : 0 < k) {m : AMap Byte} (hm : Ascending m) :
    Ascending (gather k m) ∧ (∀ x ∈ gather k m, ∃ y ∈ m, x.1 = y.1 / k) ∧ ∀ i, mget 0 (gather k m) i = unitNum k m i := by
  induction m with
  | nil =>
    refine ⟨List.Pairwise.nil, nofun, fun i => ?_⟩
    unfold unitNum
    rw [leNat_range]
    exact (Finset.sum_eq_zero fun j _ => Nat.zero_mul _).symm
  | cons x r ih =>
    obtain ⟨a, b⟩ := x
    obtain ⟨ha, hr⟩ := List.pairwise_cons.mp hm
    obtain ⟨hasc, hkeys, hget⟩ := ih hr
    have hfree : mget 0 r a = 0 := mget_not_mem fun v hv => absurd (ha _ hv) (Nat.lt_irrefl a)
    have hlow : ∀ x ∈ gather k r, a / k ≤ x.1 := by
      intro x hx
      obtain ⟨y, hy, hxy⟩ := hkeys x hx
      rw [hxy]
      exact Nat.div_le_div_right (ha y hy).le
    rw [gather_cons]
    generalize hg : gather k r = g at *
    cases g with
    | nil =>
      refine ⟨List.pairwise_singleton _ _, fun x hx => ⟨(a, b), List.mem_cons_self, by rw [List.mem_singleton.mp hx]⟩, fun i => ?_⟩
      rw [unitNum_cons hk hfree, ← hget i]
      have hcons (w : Nat) : mget 0 [(a / k, w)] i = if a / k = i then w else 0 := rfl
      show mget 0 [(a / k, b.toNat * 256 ^ (a % k))] i = 0 + _
      rw [hcons, Nat.zero_add]
      exact if_congr eq_comm rfl rfl
    | cons z q =>
      obtain ⟨n, w⟩ := z
      have hcons (p : AMap Nat) (u v i : Nat) : mget 0 ((u, v) :: p) i = if u = i then v else mget 0 p i := rfl
      obtain ⟨hn, hq⟩ := List.pairwise_cons.mp hasc
      dsimp only
      by_cases hna : n = a / k
      · rw [if_pos hna]
        refine ⟨List.pairwise_cons.mpr ⟨hn, hq⟩, fun x hx => ?_, fun i => ?_⟩
        · rcases List.mem_cons.mp hx with rfl | hin
          · exact ⟨(a, b), List.mem_cons_self, hna⟩
          · obtain ⟨y, hy, hxy⟩ := hkeys x (List.mem_cons_of_mem _ hin)
            exact ⟨y, List.mem_cons_of_mem _ hy, hxy⟩
        · rw [unitNum_cons hk hfree, ← hget i, hcons, hcons, hna]
          by_cases hi : a / k = i
          · rw [if_pos hi, if_pos hi, if_pos hi.symm]
          · rw [if_neg hi, if_neg hi, if_neg (Ne.symm hi), Nat.add_zero]
      · have hlt : a / k < n := lt_of_le_of_ne (hlow (n, w) List.mem_cons_self) (Ne.symm hna)
        rw [if_neg hna]
        refine ⟨List.pairwise_cons.mpr ⟨fun x hx => ?_, hasc⟩, fun x hx => ?_, fun i => ?_⟩
        · rcases List.mem_cons.mp hx with rfl | hin
          · exact hlt
          · exact hlt.trans (hn x hin)
        · rcases List.mem_cons.mp hx with rfl | hin
          · exact ⟨(a, b), List.mem_cons_self, rfl⟩
          · obtain ⟨y, hy, hxy⟩ := hkeys x hin
            exact ⟨y, List.mem_cons_of_mem _ hy, hxy⟩
        · rw [unitNum_cons hk hfree, ← hget i, hcons]
          by_cases hi : a / k = i
          · have hnone : mget 0 ((n, w) :: q) i = 0 := by
              refine mget_not_mem fun v hv => ?_
              rcases List.mem_cons.mp hv with heq | hin
              · have := congrArg Prod.fst heq
                dsimp only at this
                omega
              · have := hn _ hin
                dsimp only at this
                omega
            rw [if_pos hi, if_pos hi.symm, hnone, Nat.zero_add]
          · rw [if_neg hi, if_neg (Ne.symm hi), Nat.add_zero]

theorem numAt_all (bs : List Byte) (n : Nat) (hn : bs.length = n) : numAt bs 0 n = leNat bs := by
  unfold numAt slice
  rw [List.drop_zero, List.take_of_length_le hn.le]

/-- The entries of n bits that the records of a store make. -/
theorem mget_entries {rs : List MemRec} (hrs : apart rs) {n : Nat} (hn : 0 < n / 8) (i : Nat) :
    mget 0 (entries n (storeBytes rs)) i = BitVec.ofNat n (numIn rs (n / 8 * i) (n / 8)) := by
  obtain ⟨_, _, hget⟩ := gather_gathers hn (ascending_storeBytes hrs)
  have hnum : numIn rs (n / 8 * i) (n / 8) = unitNum (n / 8) (storeBytes rs) i := by
    unfold numIn unitNum
    rw [numAt_all _ _ (by rw [List.length_map, List.length_range])]
    exact congrArg leNat (List.map_congr_left fun j _ => (mget_storeBytes hrs _).symm)
  unfold entries
  exact (mget_map (d := 0) (e := 0) (BitVec.ofNat n) rfl _ i).trans (congrArg (BitVec.ofNat n) ((hget i).trans hnum.symm))

/-- The units of a store whose records end by a bound lie below it. -/
theorem entries_below {rs : List MemRec} (hrs : apart rs) {n top : Nat} (hn : 0 < n / 8)
    (hend : ∀ r ∈ rs, r.off + r.bytes.length ≤ n / 8 * top) {x : Nat × BitVec n} (hx : x ∈ entries n (storeBytes rs)) : x.1 < top := by
  obtain ⟨_, hkeys, _⟩ := gather_gathers hn (ascending_storeBytes hrs)
  obtain ⟨y, hy, rfl⟩ := List.mem_map.mp hx
  obtain ⟨z, hz, hyz⟩ := hkeys y hy
  obtain ⟨r, hr, hin⟩ := List.mem_flatMap.mp (List.mem_filter.mp hz).1
  have hbound := (recEntries_bounds (a := z.1) (v := z.2) hin).2
  have hlt := hbound.trans_le (hend r ((mem_sortBy _ _ _).mp hr))
  show y.1 < top
  rw [hyz]
  exact Nat.div_lt_of_lt_mul hlt

end Sys2Proof.Claims
end

section
/-! SUPPORT. O35: the blocks of an image keep to their context's room, and a placement as CFG writes it (R238, R242, R255). -/

namespace Sys2Proof.Claims

open Sys2Proof Sys2Proof.Machine

/-! ## Blocks that keep to their room (R242) -/

/-- A block of no more instructions and constants than a context has room for. -/
def Fits (x : TileBlock) : Prop := x.instrs.length ≤ 256 ∧ x.consts.length ≤ 127

theorem leWords_length (k n : Nat) (bs : List Byte) : (leWords k n bs).length = n := by
  induction n generalizing bs with
  | zero => rfl
  | succ n ih => exact congrArg Nat.succ (ih _)

theorem wordsAt_length (b : List Byte) (o n : Nat) : (wordsAt b o n).length = n := by
  unfold wordsAt
  rw [List.length_map, leWords_length]

theorem blockAt_lengths (b : List Byte) (o : Nat) :
    (blockAt b o).instrs.length = (blockAt b o).ninstr ∧ (blockAt b o).consts.length = (blockAt b o).nconst :=
  ⟨wordsAt_length b _ _, wordsAt_length b _ _⟩

theorem parseBlocks_fits (b : List Byte) (fuel o n : Nat) : ∀ x ∈ (parseBlocks b fuel o n).1, Fits x := by
  induction fuel generalizing o n with
  | zero => exact nofun
  | succ fuel ih =>
    unfold parseBlocks
    split
    · exact nofun
    · dsimp only
      split
      · exact nofun
      · rename_i hbounds
        obtain ⟨hinstrs, hrest⟩ := not_or.mp hbounds
        obtain ⟨hconsts, _⟩ := not_or.mp hrest
        obtain ⟨hi, hc⟩ := blockAt_lengths b o
        intro x hx
        rcases List.mem_cons.mp hx with rfl | hin
        · exact ⟨hi.trans_le (Nat.le_of_not_lt hinstrs), hc.trans_le (Nat.le_of_not_lt hconsts)⟩
        · exact ih _ _ x hin

theorem ctxBlocks_fits (b : List Byte) (es : List DirEntry) (plc pos ctx : Nat) : ∀ x ∈ (ctxBlocks b es plc pos ctx).1, Fits x := by
  unfold ctxBlocks
  refine List.foldlRecOn (motive := fun acc : List TileBlock × Option Nat => ∀ x ∈ acc.1, Fits x) _ _ nofun fun acc hacc e _ => ?_
  split
  · exact hacc
  · dsimp only
    intro x hx
    exact (List.mem_append.mp hx).elim (hacc x) (parseBlocks_fits b _ _ _ x)

theorem blocksIn_fits (b : List Byte) (plc pos ctx : Nat) : ∀ x ∈ blocksIn b plc pos ctx, Fits x :=
  fun x hx => ctxBlocks_fits b _ plc pos ctx x ((mem_sortBy _ _ _).mp hx)

theorem plcImageOf_fits (b : List Byte) (pos p x id : Nat) {c : TileBlock} (hc : (plcImageOf b pos p).block x id = some c) : Fits c := by
  have hin := List.mem_of_find?_eq_some hc
  unfold PlcImage.ctx at hin
  cases hfind : (plcImageOf b pos p).ctxs.find? fun c => c.ctx.toNat == x with
  | none =>
    rw [hfind] at hin
    exact absurd hin List.not_mem_nil
  | some y =>
    rw [hfind] at hin
    have hy := List.mem_of_find?_eq_some hfind
    unfold plcImageOf at hy
    dsimp only at hy
    split at hy
    · exact absurd hy List.not_mem_nil
    · obtain ⟨ctx, _, rfl⟩ := List.mem_map.mp hy
      exact blocksIn_fits b p pos ctx c hin

/-- Every block of a placement of an image keeps to its room. -/
theorem imageOf_fits (b : List Byte) (pos : Nat) (half : Bool) (n x id : Nat) {c : TileBlock}
    (hc : ((imageOf b pos half).plcs.getD n emptyPlc).block x id = some c) : Fits c := by
  have hplc : (imageOf b pos half).plcs.getD n emptyPlc = emptyPlc ∨ ∃ p, (imageOf b pos half).plcs.getD n emptyPlc = plcImageOf b pos p := by
    rw [List.getD_eq_getElem?_getD]
    cases hget : (imageOf b pos half).plcs[n]? with
    | none => exact .inl rfl
    | some q =>
      obtain ⟨p, _, hp⟩ := List.mem_map.mp (List.mem_of_getElem? hget)
      exact .inr ⟨p, hp.symm⟩
  rcases hplc with hempty | ⟨p, hp⟩
  · rw [hempty] at hc
    exact nomatch hc
  · rw [hp] at hc
    exact plcImageOf_fits b pos p x id hc

/-! ## A tile's words (R33, R242) -/

theorem gives_flatMap {α β : Type} {d : α} {f : β → AMap α} {l : List β} {x : β} {k : Nat} {v : α} (hx : x ∈ l)
    (hothers : ∀ y ∈ l, y ≠ x → ∀ v, (k, v) ∉ f y) (hg : Gives d (f x) k v) : Gives d (l.flatMap f) k v := by
  refine ⟨fun w hw => ?_, fun hv => List.mem_flatMap.mpr ⟨x, hx, hg.2 hv⟩⟩
  obtain ⟨y, hy, hin⟩ := List.mem_flatMap.mp hw
  by_cases hyx : y = x
  · exact hg.1 w (hyx ▸ hin)
  · exact absurd hin (hothers y hy hyx w)

theorem mem_zipIdx_map {α : Type} {l : List α} {o k : Nat} {w : α} :
    (k, w) ∈ (l.zipIdx.map fun z => (o + z.2, z.1)) ↔ ∃ i, l[i]? = some w ∧ k = o + i := by
  rw [List.mem_map]
  constructor
  · rintro ⟨⟨u, i⟩, hin, heq⟩
    obtain ⟨rfl, rfl⟩ := Prod.mk.inj heq
    exact ⟨i, List.mem_zipIdx_iff_getElem?.mp hin, rfl⟩
  · rintro ⟨i, hget, rfl⟩
    exact ⟨(w, i), List.mem_zipIdx_iff_getElem?.mpr hget, rfl⟩

/-- The words of a context, one by one. -/
theorem mem_contextWords {p : PlcImage} {id x k : Nat} {w : BitVec 64} {c : TileBlock} (hc : p.block x id = some c) :
    (k, w) ∈ contextWords p id x ↔
      (∃ i, c.instrs[i]? = some w ∧ k = x * 384 + i) ∨ (k = x * 384 + 256 ∧ w = c.route) ∨
      ∃ i, c.consts[i]? = some w ∧ k = x * 384 + 257 + i := by
  unfold contextWords
  rw [hc]
  dsimp only
  rw [List.mem_append, List.mem_append, mem_zipIdx_map, mem_zipIdx_map, List.mem_singleton, Prod.mk.injEq, or_assoc]

theorem mem_contextWords_bare {p : PlcImage} {id x k : Nat} {w : BitVec 64} (hc : p.block x id = none) :
    (k, w) ∈ contextWords p id x ↔ k = x * 384 + 256 ∧ w = bareRoute := by
  unfold contextWords
  rw [hc]
  dsimp only
  rw [List.mem_singleton, Prod.mk.injEq]

theorem getElem?_lt {α : Type} {l : List α} {i : Nat} {w : α} (h : l[i]? = some w) : i < l.length := (List.getElem?_eq_some_iff.mp h).1

/-- Blocks that keep to their room write the words of their own context alone. -/
theorem contextWords_bounds {p : PlcImage} {id x k : Nat} {w : BitVec 64} (hfits : ∀ c, p.block x id = some c → Fits c)
    (h : (k, w) ∈ contextWords p id x) : x * 384 ≤ k ∧ k < x * 384 + 384 := by
  cases hc : p.block x id with
  | none =>
    obtain ⟨rfl, _⟩ := (mem_contextWords_bare hc).mp h
    omega
  | some c =>
    obtain ⟨hinstrs, hconsts⟩ := hfits c hc
    rcases (mem_contextWords hc).mp h with ⟨i, hi, rfl⟩ | ⟨rfl, _⟩ | ⟨i, hi, rfl⟩
    · have := getElem?_lt hi
      omega
    · omega
    · have := getElem?_lt hi
      omega

theorem contextWords_others {p : PlcImage} {id x j : Nat} (hfits : ∀ y c, p.block y id = some c → Fits c) (hj : j < 384) :
    ∀ y ∈ List.range 4, y ≠ x → ∀ v, (x * 384 + j, v) ∉ contextWords p id y := by
  intro y _ hy v hv
  have := contextWords_bounds (hfits y) hv
  omega

/-- Word j of context x, as the context's own words give it. -/
theorem mget_words {p : PlcImage} {id x j : Nat} {v : BitVec 64} (hfits : ∀ y c, p.block y id = some c → Fits c) (hx : x < 4) (hj : j < 384)
    (hg : Gives 0 (contextWords p id x) (x * 384 + j) v) :
    mget 0 (sparse 0 ((List.range 4).flatMap (contextWords p id))) (x * 384 + j) = v :=
  mget_of_gives (gives_sparse (gives_flatMap (List.mem_range.mpr hx) (contextWords_others hfits hj) hg))

theorem getElem?_of_ne_zero {l : List (BitVec 64)} {i : Nat} (h : l.getD i 0 ≠ 0) : l[i]? = some (l.getD i 0) := by
  rw [List.getD_eq_getElem?_getD] at h ⊢
  cases hget : l[i]? with
  | none =>
    rw [hget] at h
    exact absurd rfl h
  | some w => rfl

theorem getD_of_getElem? {l : List (BitVec 64)} {i : Nat} {w : BitVec 64} (h : l[i]? = some w) : w = l.getD i 0 := by
  rw [List.getD_eq_getElem?_getD, h]
  rfl

theorem gives_instr {p : PlcImage} {id x i : Nat} (hfits : ∀ y c, p.block y id = some c → Fits c) (hi : i < 256) :
    Gives 0 (contextWords p id x) (x * 384 + i) ((((p.block x id).map fun c => c.instrs).getD []).getD i 0) := by
  cases hc : p.block x id with
  | none =>
    refine ⟨fun w hw => ?_, fun h => absurd rfl h⟩
    obtain ⟨hk, _⟩ := (mem_contextWords_bare hc).mp hw
    omega
  | some c =>
    obtain ⟨hinstrs, _⟩ := hfits x c hc
    refine ⟨fun w hw => ?_, fun h => (mem_contextWords hc).mpr (.inl ⟨i, getElem?_of_ne_zero h, rfl⟩)⟩
    rcases (mem_contextWords hc).mp hw with ⟨n, hn, hk⟩ | ⟨hk, _⟩ | ⟨n, _, hk⟩
    · have hin : n = i := by omega
      subst hin
      exact getD_of_getElem? hn
    · omega
    · omega

theorem gives_route {p : PlcImage} {id x : Nat} (hfits : ∀ y c, p.block y id = some c → Fits c) :
    Gives 0 (contextWords p id x) (x * 384 + 256) (((p.block x id).map fun c => c.route).getD bareRoute) := by
  cases hc : p.block x id with
  | none => exact ⟨fun w hw => ((mem_contextWords_bare hc).mp hw).2, fun _ => (mem_contextWords_bare hc).mpr ⟨rfl, rfl⟩⟩
  | some c =>
    obtain ⟨hinstrs, _⟩ := hfits x c hc
    refine ⟨fun w hw => ?_, fun _ => (mem_contextWords hc).mpr (.inr (.inl ⟨rfl, rfl⟩))⟩
    rcases (mem_contextWords hc).mp hw with ⟨n, hn, hk⟩ | ⟨_, hw⟩ | ⟨n, _, hk⟩
    · have := getElem?_lt hn
      omega
    · exact hw
    · omega

theorem gives_const {p : PlcImage} {id x i : Nat} (hfits : ∀ y c, p.block y id = some c → Fits c) :
    Gives 0 (contextWords p id x) (x * 384 + (257 + i)) ((((p.block x id).map fun c => c.consts).getD []).getD i 0) := by
  cases hc : p.block x id with
  | none =>
    refine ⟨fun w hw => ?_, fun h => absurd rfl h⟩
    obtain ⟨hk, _⟩ := (mem_contextWords_bare hc).mp hw
    omega
  | some c =>
    obtain ⟨hinstrs, _⟩ := hfits x c hc
    refine ⟨fun w hw => ?_, fun h => (mem_contextWords hc).mpr (.inr (.inr ⟨i, getElem?_of_ne_zero h, by omega⟩))⟩
    rcases (mem_contextWords hc).mp hw with ⟨n, hn, hk⟩ | ⟨hk, _⟩ | ⟨n, hn, hk⟩
    · have := getElem?_lt hn
      omega
    · omega
    · have hin : n = i := by omega
      subst hin
      exact getD_of_getElem? hn

/-! ## A tile as CFG writes it (R33, R163, R244, R255) -/

theorem mget_ctxEntries (p : PlcImage) (id : Nat) {x : Nat} (hx : x < 4) : mget {} (ctxEntries p id) x =
    ((p.block x id).map fun c => { claimed := c.claimed, bed := c.bed, qcore := c.qcore, qport := c.qport : TileCtx }).getD {} := by
  refine (mget_sparse_range 4 (fun x => blockCfg (p.block x id)) hx).trans ?_
  cases p.block x id <;> rfl

theorem mget_tileRecords {p : PlcImage} {id x : Nat} (hkind : tileKind id = .f) (hx : x < 4) {c : TileBlock} {d : BedDef}
    (hc : p.block x id = some c) (hclaimed : c.claimed = true) (hbeds : (p.ctx x).beds = [d]) (hbed : d.bed = c.bed) (hrec : d.hasRecord = true) :
    mget [] (tileRecords p id) x = d.wrec := by
  unfold tileRecords
  rw [if_pos hkind]
  refine (mget_sparse_range 4 (fun x => tileRecord p id x) hx).trans ?_
  unfold tileRecord
  rw [hc]
  dsimp only
  rw [if_pos hclaimed, hbeds, List.find?_cons_of_pos (by simp [hbed, hrec])]
  rfl

theorem loadedTile_written (p : PlcImage) (hfits : ∀ x id c, p.block x id = some c → Fits c) (t : Fin 1024) (old : GridTile) :
    tileWritten p t old (loadedTile p old t) := by
  have hf : ∀ y c, p.block y t.val = some c → Fits c := fun y c => hfits y t.val c
  refine ⟨fun x hx _ => ⟨fun i hi => ?_, ?_, fun i hi => ?_, ?_, fun hkind c d hc hclaimed hbeds hbed hrec => ?_⟩,
    fun hrs a => ?_, fun hrs a => ?_, fun hrs i => ?_, rfl⟩
  · exact mget_words hf hx (by omega) (gives_instr hf hi)
  · exact mget_words hf hx (by omega) (gives_route hf)
  · rw [Nat.add_assoc]
    exact mget_words hf hx (by omega) (gives_const hf)
  · exact mget_ctxEntries p t hx
  · exact mget_tileRecords hkind hx hc hclaimed hbeds hbed hrec
  · exact mget_storeBytes hrs a
  · exact mget_entries hrs (by decide) a
  · exact (mget_map loadedSlot rfl _ i).trans (congrArg loadedSlot (mget_entries hrs (by decide) i))

end Sys2Proof.Claims
end

section
/-! SUPPORT. O35: a placement as CFG writes it into a closed fabric (R209, R238, R255, R269, R398). -/

namespace Sys2Proof.Claims

open Sys2Proof Sys2Proof.Machine

/-- A fabric block switched on: the power registers alone. -/
theorem setDomain_fab (s : State) {b : Nat} : setDomain s (14 + b) true = { s with pwr := (setDomain s (14 + b) true).pwr } := by
  have hport : ¬ 14 + b = 10 := by omega
  have hmem : ¬ (3 ≤ 14 + b ∧ 14 + b ≤ 5) := by omega
  unfold setDomain
  dsimp only
  rw [if_pos rfl, if_neg hport, if_neg hmem]

/-- One fabric block switched on, where it is not and is not to be. -/
def fabOn (s : State) (b : Nat) : State := if domTarget s (14 + b) && s.domain (14 + b) then s else setDomain s (14 + b) true

theorem fabOn_pwr (s : State) (b : Nat) : fabOn s b = { s with pwr := (fabOn s b).pwr } := by
  unfold fabOn
  split
  · rfl
  · exact setDomain_fab s

theorem foldl_fabOn_pwr (bs : List Nat) (s : State) : bs.foldl fabOn s = { s with pwr := (bs.foldl fabOn s).pwr } := by
  induction bs generalizing s with
  | nil => rfl
  | cons b bs ih =>
    rw [List.foldl_cons, ih (fabOn s b), fabOn_pwr s b]

theorem allFabsOn_pwr (s : State) : allFabsOn s = { s with pwr := (allFabsOn s).pwr } := by
  have heq : allFabsOn s = if s.pwr.autofab then (List.range 16).foldl fabOn s else s := rfl
  rw [heq]
  split
  · exact foldl_fabOn_pwr _ s
  · rfl

/-! ## The fabric and the NCE's stores -/

theorem loadFabric_tile (s : State) (p : PlcImage) {t : Nat} (ht : t < 1024) : (loadFabric s p).tile t =
    if s.domain (14 + gridFab t) then loadedTile p (s.tile t) t else {} := by
  have hget := mget_sparse_range (d := ({} : GridTile)) 1024 (fun t => if s.domain (14 + gridFab t) then loadedTile p (s.tile t) t else {}) ht
  simp only [loadFabric, State.tile] at hget ⊢
  exact hget

theorem loadFabric_edge (s : State) (p : PlcImage) {e : Nat} (he : e < 128) : (loadFabric s p).edge e =
    if s.domain (14 + edgeFab e) then loadedEdge p e else {} := by
  have hget := mget_sparse_range (d := ({} : EdgeTile)) 128 (fun e => if s.domain (14 + edgeFab e) then loadedEdge p e else {}) he
  simp only [loadFabric, State.edge] at hget ⊢
  exact hget

/-- A key moved by a base reads as before. -/
theorem mget_shift {α : Type} {d : α} (base : Nat) (m : AMap α) (i : Nat) : mget d (m.map fun x => (base + x.1, x.2)) (base + i) = mget d m i := by
  induction m with
  | nil => rfl
  | cons x m ih =>
    obtain ⟨j, w⟩ := x
    have hcons (q : AMap α) (u k : Nat) : mget d ((u, w) :: q) k = if u = k then w else mget d q k := rfl
    rw [List.map_cons, hcons, hcons, ih]
    exact if_congr Nat.add_left_cancel_iff rfl rfl

theorem mget_loadedFf {p : PlcImage} (hrs : ∀ id < 32, apart (recsFor p 4 id) ∧ ∀ r ∈ recsFor p 4 id, r.off + r.bytes.length ≤ 65536)
    {bank v i : Nat} (hbank : bank < 2) (hv : v < 16) (hi : i < 16384) :
    mget 0 (loadedFf p) (ffKey bank v i) = BitVec.ofNat 32 (numIn (recsFor p 4 (16 * bank + v)) (4 * i) 4) := by
  have hdiv : (16 * bank + v) / 16 = bank := by omega
  have hmod : (16 * bank + v) % 16 = v := by omega
  have hothers : ∀ id ∈ List.range 32, id ≠ 16 * bank + v → ∀ w, (ffKey bank v i, w) ∉
      (entries 32 (storeBytes (recsFor p 4 id))).map fun x => (ffKey (id / 16) (id % 16) x.1, x.2) := by
    intro id hid hne w hw
    obtain ⟨hapart, hend⟩ := hrs id (List.mem_range.mp hid)
    obtain ⟨x, hx, heq⟩ := List.mem_map.mp hw
    have hlow := entries_below hapart (n := 32) (top := 16384) (by decide) hend hx
    have hkey := congrArg Prod.fst heq
    simp only [ffKey] at hkey
    omega
  obtain ⟨hapart, _⟩ := hrs (16 * bank + v) (by omega)
  have hflat := mget_flatMap (d := (0 : Word)) (fun id => (entries 32 (storeBytes (recsFor p 4 id))).map fun x => (ffKey (id / 16) (id % 16) x.1, x.2))
    (List.range 32) (List.mem_range.mpr (by omega : 16 * bank + v < 32)) hothers
  rw [hdiv, hmod] at hflat
  exact hflat.trans ((mget_shift _ _ i).trans (mget_entries hapart (by decide) i))

/-- An edge tile as CFG writes it. -/
theorem loadedEdge_words (p : PlcImage) (e : Nat) {x : Nat} (hx : x < 4) :
    mget 0 (loadedEdge p e).route x = ((p.block x (edgeId e)).map fun c => c.route).getD 0 ∧
    mget 0 (loadedEdge p e).edesc x = ((p.block x (edgeId e)).map fun c => c.edesc).getD 0 ∧
    mget {} (loadedEdge p e).cfg x = ((p.block x (edgeId e)).map fun c =>
      { claimed := c.claimed, bed := c.bed, qcore := c.qcore, qport := c.qport : TileCtx }).getD {} :=
  ⟨mget_sparse_range 4 (fun x => ((p.block x (edgeId e)).map fun b => b.route).getD 0) hx,
    mget_sparse_range 4 (fun x => ((p.block x (edgeId e)).map fun b => b.edesc).getD 0) hx, mget_ctxEntries p (edgeId e) hx⟩

theorem loadFabric_domain (s : State) (p : PlcImage) (d : Nat) : (loadFabric s p).domain d = s.domain d := by
  simp only [loadFabric, State.domain]

/-- The tiles of a placement written, and the power registers. -/
theorem writePlacement_fabric (s : State) (im : LoadedImage) (pos n : Nat) (cmd : Bool) :
    (writePlacement s im pos n cmd).tiles = (loadFabric (allFabsOn s) (im.plcs.getD n emptyPlc)).tiles ∧
    (writePlacement s im pos n cmd).edges = (loadFabric (allFabsOn s) (im.plcs.getD n emptyPlc)).edges ∧
    (writePlacement s im pos n cmd).pwr = (loadFabric (allFabsOn s) (im.plcs.getD n emptyPlc)).pwr := by
  simp only [writePlacement, loadUnits, and_self]

theorem writePlacement_tile (s : State) (im : LoadedImage) (pos n : Nat) (cmd : Bool) {t : Nat} (ht : t < 1024) :
    (writePlacement s im pos n cmd).tile t = if (writePlacement s im pos n cmd).domain (14 + gridFab t) then
      loadedTile (im.plcs.getD n emptyPlc) (s.tile t) t else {} := by
  obtain ⟨htiles, _, hpwr⟩ := writePlacement_fabric s im pos n cmd
  have hdomain : (writePlacement s im pos n cmd).domain (14 + gridFab t) = (allFabsOn s).domain (14 + gridFab t) :=
    (congrArg (fun w : Pwr => bitAt w.domOn.toNat (14 + gridFab t)) hpwr).trans (loadFabric_domain _ _ _)
  have hold : (allFabsOn s).tile t = s.tile t := by
    rw [allFabsOn_pwr s]
    rfl
  have htile : (writePlacement s im pos n cmd).tile t = (loadFabric (allFabsOn s) (im.plcs.getD n emptyPlc)).tile t := by
    unfold State.tile
    rw [htiles]
  rw [htile, hdomain, ← hold, loadFabric_tile _ _ ht]

theorem writePlacement_edge (s : State) (im : LoadedImage) (pos n : Nat) (cmd : Bool) {e : Nat} (he : e < 128) :
    (writePlacement s im pos n cmd).edge e = if (writePlacement s im pos n cmd).domain (14 + edgeFab e) then
      loadedEdge (im.plcs.getD n emptyPlc) e else {} := by
  obtain ⟨_, hedges, hpwr⟩ := writePlacement_fabric s im pos n cmd
  have hdomain : (writePlacement s im pos n cmd).domain (14 + edgeFab e) = (allFabsOn s).domain (14 + edgeFab e) :=
    (congrArg (fun w : Pwr => bitAt w.domOn.toNat (14 + edgeFab e)) hpwr).trans (loadFabric_domain _ _ _)
  have hedge : (writePlacement s im pos n cmd).edge e = (loadFabric (allFabsOn s) (im.plcs.getD n emptyPlc)).edge e := by
    unfold State.edge
    rw [hedges]
  rw [hedge, hdomain, loadFabric_edge _ _ he]

/-- The NCE's stores of a placement written. -/
theorem writePlacement_nce (s : State) (im : LoadedImage) (pos n : Nat) (cmd : Bool) :
    (writePlacement s im pos n cmd).nce.weights = storeBytes (recsFor (im.plcs.getD n emptyPlc) 5 0) ∧
    (writePlacement s im pos n cmd).nce.ff = loadedFf (im.plcs.getD n emptyPlc) ∧ (writePlacement s im pos n cmd).nce.ffbank = 0 := by
  simp only [writePlacement, loadUnits, and_self]

/-- The loader's registers after a placement is written. -/
theorem writePlacement_cfg (s : State) (im : LoadedImage) (pos n : Nat) (cmd : Bool) :
    ∃ c : Cfg, (writePlacement s im pos n cmd).cfg = { c with
      image := some im, state := 2, plc := BitVec.ofNat 8 n, adr := im.adr, pos := BitVec.ofNat 16 pos, half := im.half
      stage := 0, errStage := 0, stageT := s.devTime, goal := .load, loadCmd := cmd, sec := 0, nextSec := 0, front := .none
      nceSwitched := true, ppSwitched := true, pend := none } := by
  simp only [writePlacement]
  exact ⟨_, rfl⟩

/-- A placement whose blocks keep to their room, written into a closed fabric. -/
theorem writePlacement_written {s s0 : State} {im : LoadedImage} {n : Nat} (htiles : s.tiles = s0.tiles)
    (hfits : ∀ x id c, (im.plcs.getD n emptyPlc).block x id = some c → Fits c) (pos : Nat) (cmd : Bool) :
    written s0 (writePlacement s im pos n cmd) im pos n := by
  have hold : ∀ t, s.tile t = s0.tile t := fun t => by
    unfold State.tile
    rw [htiles]
  have htile {t : Nat} (ht : t < 1024) := writePlacement_tile s im pos n cmd ht
  have hedge {e : Nat} (he : e < 128) := writePlacement_edge s im pos n cmd he
  obtain ⟨hweights, hff, hbank⟩ := writePlacement_nce s im pos n cmd
  obtain ⟨c, hcfg⟩ := writePlacement_cfg s im pos n cmd
  generalize writePlacement s im pos n cmd = u at *
  generalize hp : im.plcs.getD n emptyPlc = p at *
  unfold written
  rw [hp, hcfg, hweights, hff]
  refine ⟨rfl, rfl, rfl, rfl, rfl, rfl, rfl, rfl, rfl, rfl, rfl, fun t hon => ?_, fun t hoff => ?_, fun e hon => ?_,
    fun hrs a => mget_storeBytes hrs a, fun hrs bank hbank v hv i hi => mget_loadedFf hrs hbank hv hi, hbank⟩
  · rw [htile t.isLt, if_pos hon, hold]
    exact loadedTile_written p hfits t (s0.tile t)
  · exact (htile t.isLt).trans (if_neg (by rw [hoff]; exact Bool.false_ne_true))
  · rw [(hedge e.isLt).trans (if_pos hon)]
    exact ⟨fun x hx => loadedEdge_words p e hx, rfl⟩

end Sys2Proof.Claims
end

section
/-! SUPPORT. O35: IMG_LOAD, its refusals, and the image that is loaded (R236 to R238, R250, R291, R320). -/

namespace Sys2Proof.Claims

open Sys2Proof Sys2Proof.Machine

/-! ## What the controller notes of the loader's read (R291) -/

/-- The state with the loader's error registers cleared. -/
def loadCleared (s : State) : State := { s with cfg := { s.cfg with errCode := 0, errRow := 0, loc := 0 } }

/-- The state in which the image has been read. -/
def imageRead (s : State) (r : ImageRead) : State := noteLoaderRead (loadCleared s) r.health r.addr

/-- What the loader's read leaves as it was. -/
structure ImageNoted (s s0 : State) : Prop where
  cur : s0.hq.cur = s.hq.cur
  mem : s0.mc.mem = s.mc.mem
  tiles : s0.tiles = s.tiles
  edges : s0.edges = s.edges
  cfg : s0.cfg = (loadCleared s).cfg

theorem corrected1_notes (s : State) (a : Nat) : ImageNoted s (corrected1 (loadCleared s) a) := by
  unfold corrected1
  dsimp only
  split
  · exact ⟨rfl, rfl, rfl, rfl, rfl⟩
  · rw [event_low _ 0x0705 _ (by decide)]
    exact ⟨event_cur _ _ _, rfl, rfl, rfl, rfl⟩

theorem badRead_notes (s : State) (a req : Nat) : ImageNoted s (badRead (loadCleared s) a req) ∧
    (badRead (loadCleared s) a req).mc = { s.mc with uecnt := satInc s.mc.uecnt, errAddr := BitVec.ofNat 36 a, errUe := true } := by
  unfold badRead
  rw [event_low _ 0x0704 _ (by decide)]
  exact ⟨⟨event_cur _ _ _, rfl, rfl, rfl, rfl⟩, rfl⟩

theorem imageRead_notes (s : State) (r : ImageRead) : ImageNoted s (imageRead s r) := by
  unfold imageRead noteLoaderRead
  split
  · exact ⟨rfl, rfl, rfl, rfl, rfl⟩
  · cases r.health
    case good => exact ⟨rfl, rfl, rfl, rfl, rfl⟩
    case corrected => exact corrected1_notes s _
    case uncorrectable => exact (badRead_notes s _ _).1

section
variable {s s0 : State} (h : ImageNoted s s0)
include h

theorem ImageNoted.curBytes : curBytes s0 = curBytes s := by
  unfold Machine.curBytes
  rw [h.cur]

theorem ImageNoted.imageBytes (r : HostRead) (u : UnitHealth) : imageBytes s0 r u = imageBytes s r u := by
  unfold Machine.imageBytes loadFromHost readLen loadLen loadAddr
  rw [h.curBytes, h.mem]

theorem ImageNoted.loadFromHost : loadFromHost s0 = loadFromHost s := by
  unfold Machine.loadFromHost
  rw [h.curBytes]

end

/-! ## Refusals (R250, R331) -/

theorem refuseCmd_mc {s : State} {c : Command} (hcur : s.hq.cur = some c) (code : Nat) (a : EvArgs) : (refuseCmd s code a).mc = s.mc := by
  unfold refuseCmd
  rw [finishCmd_onlyHost ((event_cur _ _ _).trans hcur)]
  exact event_mc _ _ _

/-- A command refused with an event that aborts nothing: it ends, and the host interface alone changes. -/
theorem refuseCmd_refuses {s s0 : State} {c : Command} (hcur : s.hq.cur = some c) (hsame : s0.hq.cur = s.hq.cur) {code : Nat}
    (hlow : evSev code < 2) (a : EvArgs) :
    finished s0 (refuseCmd s code a) 1 code ∧ (refuseCmd s code a).tiles = s.tiles ∧ (refuseCmd s code a).edges = s.edges ∧
      (refuseCmd s code a).cfg = s.cfg := by
  have hevent : (event s code a).hq.cur = some c := (event_cur _ _ _).trans hcur
  refine ⟨finished_finishCmd hevent (hsame.trans (event_cur _ _ _).symm) 1 code, ?_⟩
  unfold refuseCmd
  rw [finishCmd_onlyHost hevent, event_low s code a hlow]
  exact ⟨rfl, rfl, rfl⟩

/-- The state with the loader's error registers set. -/
def loadFailed (s : State) (f : LoadFail) : State :=
  { s with cfg := { s.cfg with errCode := BitVec.ofNat 16 f.code, errRow := BitVec.ofNat 8 f.row, loc := BitVec.ofNat 32 f.loc } }

theorem refuseImage_eq (s : State) (f : LoadFail) :
    refuseImage s f = refuseCmd (loadFailed s f) f.code { addr := f.loc, detail := f.row, more := f.more } := rfl

/-! ## The image copied (R237) -/

theorem copyImage_copies (s : State) (b : List Byte) : copyImage s b = { s with mc := (copyImage s b).mc } ∧
    (copyImage s b).mc.mem = if inPlace s then s.mc.mem else memWrite s.mc.mem (halfBase s (freeHalf s)) b := by
  unfold copyImage
  split <;> exact ⟨rfl, rfl⟩

theorem writePlacement_mc (s : State) (im : LoadedImage) (pos n : Nat) (cmd : Bool) : (writePlacement s im pos n cmd).mc = s.mc := by
  have hmc : (writePlacement s im pos n cmd).mc = (allFabsOn s).mc := by simp only [writePlacement, loadUnits, loadFabric]
  rw [hmc, allFabsOn_pwr]

theorem beginWrite_mc (s : State) (im : LoadedImage) (pos n : Nat) (cmd : Bool) : (beginWrite s im pos n cmd).mc = s.mc := by
  unfold beginWrite
  split
  · rfl
  · exact writePlacement_mc _ _ _ _ _

theorem fabricOpen_iff (s : State) : fabricOpen s = true ↔ s.cfg.stage ≠ 0 ∧ s.cfg.stage ≠ 15 := by
  unfold fabricOpen
  rw [Bool.and_eq_true, bne_iff_ne, bne_iff_ne]

/-! ## IMG_LOAD -/

theorem imgLoad_due {s : State} (hcur : curIs s 0x0010 = true) (hgoal : s.cfg.goal = .none) (hready : s.mc.ready = true)
    (haddr : loadAddrOk s = true) (hidle : s.pace.state = .idle) (r : ImageRead) : imgLoad s r =
      if (loadFromHost s && !s.canRequest) = true then s
      else (imageBytes s r.data r.health).elim (refuseImage (imageRead s r) { code := 0x0301, row := 2, loc := 0 }) (loadBytes (imageRead s r)) := by
  have hidle' : s.idle = true := by
    unfold State.idle
    rw [hidle]
    rfl
  unfold imgLoad
  rw [hcur, hgoal, hready, haddr, hidle']
  unfold imageRead loadCleared
  rw [if_neg (by exact Bool.false_ne_true), if_neg (by exact Bool.false_ne_true), if_neg (by exact Bool.false_ne_true),
    if_neg (by exact Bool.false_ne_true)]
  dsimp only
  cases imageBytes s r.data r.health <;> rfl

theorem loadBytes_loads (s : State) (b : List Byte) : loadBytes s b =
    (loadChecks s b (loadLen s) (loadPlc s) (loadPos s)).elim
      ((domainOff s ((imageOf b (loadPos s) (freeHalf s)).plcs.getD (loadPlc s) emptyPlc)).elim
        (beginWrite (copyImage s b) (imageOf b (loadPos s) (freeHalf s)) (loadPos s) (loadPlc s) true)
        fun d => refuseCmd (copyImage s b) 0x0B0E { srcid := d })
      (refuseImage (copyImage s b)) := by
  unfold loadBytes
  dsimp only
  generalize loadChecks s b (loadLen s) (loadPlc s) (loadPos s) = bad
  cases bad with
  | some f => rfl
  | none =>
    dsimp only
    generalize domainOff s ((imageOf b (loadPos s) (freeHalf s)).plcs.getD (loadPlc s) emptyPlc) = off
    cases off <;> rfl

/-! ## What each outcome leaves -/

theorem refuseImage_mc {s : State} {c : Command} (hcur : s.hq.cur = some c) (f : LoadFail) : (refuseImage s f).mc = s.mc :=
  refuseCmd_mc (s := loadFailed s f) hcur _ _

/-- A refused image: its event, row and location, and no tile written (R250). -/
theorem refuseImage_refuses {s s0 : State} {c : Command} (hcur : s.hq.cur = some c) (hsame : s0.hq.cur = s.hq.cur) {f : LoadFail}
    (hlow : evSev f.code < 2) :
    finished s0 (refuseImage s f) 1 f.code ∧ (refuseImage s f).tiles = s.tiles ∧ (refuseImage s f).edges = s.edges ∧
      (refuseImage s f).cfg = { s.cfg with errCode := BitVec.ofNat 16 f.code, errRow := BitVec.ofNat 8 f.row, loc := BitVec.ofNat 32 f.loc } :=
  refuseCmd_refuses (s := loadFailed s f) hcur hsame hlow _

/-- The loader's image copied out of the state in which it was read: the memory alone changes. -/
theorem copied_notes {s s0 : State} (h : ImageNoted s s0) (b : List Byte) :
    (copyImage s0 b).hq.cur = s.hq.cur ∧ (copyImage s0 b).tiles = s.tiles ∧ (copyImage s0 b).edges = s.edges ∧
      (copyImage s0 b).cfg = (loadCleared s).cfg ∧
      (copyImage s0 b).mc.mem = if inPlace s0 then s.mc.mem else memWrite s.mc.mem (halfBase s0 (freeHalf s0)) b := by
  obtain ⟨hframe, hmem⟩ := copyImage_copies s0 b
  rw [h.mem] at hmem
  rw [hframe]
  exact ⟨h.cur, h.tiles, h.edges, h.cfg, hmem⟩

section
variable {s s0 : State} {c : Command} (h : ImageNoted s s0) (hcur : s.hq.cur = some c) (b : List Byte)
include h hcur

theorem loadBytes_mem : (loadBytes s0 b).mc.mem = if inPlace s0 then s.mc.mem else memWrite s.mc.mem (halfBase s0 (freeHalf s0)) b := by
  obtain ⟨hsame, _, _, _, hmem⟩ := copied_notes h b
  have hcopied := hsame.trans hcur
  rw [← hmem, loadBytes_loads]
  generalize copyImage s0 b = v at *
  cases loadChecks s0 b (loadLen s0) (loadPlc s0) (loadPos s0) with
  | some f => exact congrArg Mc.mem (refuseImage_mc hcopied f)
  | none =>
    cases domainOff s0 ((imageOf b (loadPos s0) (freeHalf s0)).plcs.getD (loadPlc s0) emptyPlc) with
    | some d => exact congrArg Mc.mem (refuseCmd_mc hcopied _ _)
    | none => exact congrArg Mc.mem (beginWrite_mc _ _ _ _ _)

theorem loadBytes_refuses {f : LoadFail} (hbad : loadChecks s0 b (loadLen s0) (loadPlc s0) (loadPos s0) = some f) (hlow : evSev f.code < 2) :
    finished s (loadBytes s0 b) 1 f.code ∧ (loadBytes s0 b).tiles = s.tiles ∧ (loadBytes s0 b).edges = s.edges ∧
      (loadBytes s0 b).cfg.errCode = BitVec.ofNat 16 f.code ∧ (loadBytes s0 b).cfg.errRow = BitVec.ofNat 8 f.row ∧
      (loadBytes s0 b).cfg.loc = BitVec.ofNat 32 f.loc ∧ (loadBytes s0 b).cfg.state = s.cfg.state := by
  obtain ⟨hsame, htiles, hedges, hcfg, _⟩ := copied_notes h b
  have heq : loadBytes s0 b = refuseImage (copyImage s0 b) f := by
    rw [loadBytes_loads, hbad]
    rfl
  obtain ⟨hfinished, htiles', hedges', hcfg'⟩ := refuseImage_refuses (hsame.trans hcur) hsame.symm hlow
  rw [heq, hcfg']
  exact ⟨hfinished, htiles'.trans htiles, hedges'.trans hedges, rfl, rfl, rfl, (congrArg Cfg.state hcfg).trans rfl⟩

variable (hgood : loadChecks s0 b (loadLen s0) (loadPlc s0) (loadPos s0) = none)
include hgood

theorem loadBytes_domainOff {d : Nat} (hoff : domainOff s0 ((imageOf b (loadPos s0) (freeHalf s0)).plcs.getD (loadPlc s0) emptyPlc) = some d) :
    finished s (loadBytes s0 b) 1 0x0B0E ∧ (loadBytes s0 b).tiles = s.tiles := by
  obtain ⟨hsame, htiles, _, _, _⟩ := copied_notes h b
  have heq : loadBytes s0 b = refuseCmd (copyImage s0 b) 0x0B0E { srcid := d } := by
    rw [loadBytes_loads, hgood, Option.elim_none, hoff]
    rfl
  obtain ⟨hfinished, htiles', _⟩ := refuseCmd_refuses (hsame.trans hcur) hsame.symm (code := 0x0B0E) (by decide) { srcid := d }
  rw [heq]
  exact ⟨hfinished, htiles'.trans htiles⟩

variable (hon : domainOff s0 ((imageOf b (loadPos s0) (freeHalf s0)).plcs.getD (loadPlc s0) emptyPlc) = none)
include hon

omit h hcur in
theorem loadBytes_begins : loadBytes s0 b =
    beginWrite (copyImage s0 b) (imageOf b (loadPos s0) (freeHalf s0)) (loadPos s0) (loadPlc s0) true := by
  rw [loadBytes_loads, hgood, Option.elim_none, hon, Option.elim_none]

omit hcur in
theorem loadBytes_writes (hshut : s.cfg.stage = 0 ∨ s.cfg.stage = 15) :
    written s (loadBytes s0 b) (imageOf b (loadPos s0) (freeHalf s0)) (loadPos s0) (loadPlc s0) := by
  obtain ⟨_, htiles, _, hcfg, _⟩ := copied_notes h b
  have hclosed : ¬ fabricOpen (copyImage s0 b) = true := by
    rw [fabricOpen_iff, hcfg]
    rintro ⟨hzero, hfatal⟩
    exact hshut.elim hzero hfatal
  rw [loadBytes_begins b hgood hon, beginWrite, if_neg hclosed]
  exact writePlacement_written htiles (fun x id c hc => imageOf_fits b _ _ _ x id hc) _ _

omit hcur in
theorem loadBytes_closes (hzero : s.cfg.stage ≠ 0) (hfatal : s.cfg.stage ≠ 15) :
    (loadBytes s0 b).cfg.pend = some { im := imageOf b (loadPos s0) (freeHalf s0), pos := loadPos s0, plc := loadPlc s0 } ∧
      (loadBytes s0 b).cfg.state = 2 ∧ (loadBytes s0 b).cfg.stage = s.cfg.stage ∧ (loadBytes s0 b).cfg.goal = .load ∧
      (loadBytes s0 b).tiles = s.tiles ∧ (loadBytes s0 b).edges = s.edges := by
  obtain ⟨_, htiles, hedges, hcfg, _⟩ := copied_notes h b
  have hopen : fabricOpen (copyImage s0 b) = true := by
    rw [fabricOpen_iff, hcfg]
    exact ⟨hzero, hfatal⟩
  rw [loadBytes_begins b hgood hon, beginWrite, if_pos hopen]
  exact ⟨rfl, rfl, (congrArg Cfg.stage hcfg).trans rfl, rfl, htiles, hedges⟩

end

/-- An image that cannot be read whole (R291). -/
theorem unread_refuses {s : State} {c : Command} (hcur : s.hq.cur = some c) (r : ImageRead) :
    let s' := refuseImage (imageRead s r) { code := 0x0301, row := 2, loc := 0 }
    finished s s' 1 0x0301 ∧ s'.tiles = s.tiles ∧ s'.mc.mem = s.mc.mem ∧ s'.cfg.errCode = 0x0301 ∧ s'.cfg.errRow = 2 := by
  have h := imageRead_notes s r
  have hread := h.cur.trans hcur
  obtain ⟨hfinished, htiles, _, hcfg⟩ := refuseImage_refuses (f := { code := 0x0301, row := 2, loc := 0 }) hread h.cur.symm (by decide)
  dsimp only
  rw [hcfg, refuseImage_mc hread]
  exact ⟨hfinished, htiles.trans h.tiles, h.mem, rfl, rfl⟩

/-- An uncorrectable unit of LPDDR6 is counted, and its address kept (R291). -/
theorem unread_counts {s : State} {c : Command} (hcur : s.hq.cur = some c) {r : ImageRead} (hlocal : loadFromHost s = false)
    (hnone : imageBytes s r.data r.health = none) :
    let s' := refuseImage (imageRead s r) { code := 0x0301, row := 2, loc := 0 }
    s'.mc.uecnt = satInc s.mc.uecnt ∧ s'.mc.errUe = true ∧ s'.mc.errAddr = BitVec.ofNat 36 (badUnit s r.addr) := by
  have hbad : r.health = .uncorrectable := by
    unfold imageBytes at hnone
    rw [hlocal, if_neg Bool.false_ne_true] at hnone
    by_contra hother
    rw [if_neg hother] at hnone
    exact nomatch hnone
  have hread : imageRead s r = badRead (loadCleared s) (badUnit s r.addr) 0 := by
    have hlocal' : loadFromHost (loadCleared s) = false := hlocal
    unfold imageRead noteLoaderRead
    rw [hlocal', if_neg Bool.false_ne_true, hbad]
    rfl
  dsimp only
  rw [refuseImage_mc ((imageRead_notes s r).cur.trans hcur), hread, (badRead_notes s _ 0).2]
  exact ⟨rfl, rfl, rfl⟩

/-- Settles O35: IMG_LOAD by how its image is read, checked and written. -/
theorem imageLoads : Obligations.ImageLoads := by
  unfold Obligations.ImageLoads
  intro s r hcmd hgoal hready haddr hidle s0
  obtain ⟨c, hcur⟩ : ∃ c, s.hq.cur = some c := by
    cases hq : s.hq.cur with
    | none =>
      unfold curIs at hcmd
      rw [hq] at hcmd
      exact nomatch hcmd
    | some c => exact ⟨c, rfl⟩
  have hdue := imgLoad_due hcmd hgoal hready haddr hidle r
  have h : ImageNoted s s0 := imageRead_notes s r
  refine ⟨fun hhost hshut => ?_, fun hopen => ?_⟩
  · rw [hhost, hshut] at hdue
    exact congrArg Host.Outcome.next (hdue.trans (if_pos rfl))
  have hgo : ¬ (loadFromHost s && !s.canRequest) = true := by
    rcases hopen with hlocal | hroom
    · rw [hlocal]
      exact Bool.false_ne_true
    · rw [hroom, Bool.not_true, Bool.and_false]
      exact Bool.false_ne_true
  rw [if_neg hgo] at hdue
  refine ⟨fun hnone => ?_, fun b hbytes => ?_⟩
  · rw [h.imageBytes] at hnone
    rw [hnone] at hdue
    obtain ⟨hfinished, htiles, hmem, hcode, hrow⟩ := unread_refuses hcur r
    exact ⟨_, congrArg Host.Outcome.next hdue, hfinished, htiles, hmem, hcode, hrow, fun hlocal => unread_counts hcur hlocal hnone⟩
  · rw [h.imageBytes] at hbytes
    rw [hbytes] at hdue
    exact ⟨_, congrArg Host.Outcome.next hdue, loadBytes_mem h hcur b, fun f hbad hlow => loadBytes_refuses h hcur b hbad hlow,
      fun d hgood hoff => loadBytes_domainOff h hcur b hgood hoff,
      fun hgood hon => ⟨loadBytes_writes h b hgood hon, loadBytes_closes h b hgood hon⟩⟩

end Sys2Proof.Claims
end
